-- ==== Sys2Proof/Word.lean ====
section
/-! DEFINITION. The word types of the S960 and the numbering of its units.
Plain types only; every operation on them that a rule gives stands in Sys2Proof/Machine. -/

namespace Sys2Proof

/-- A scalar register, an instruction word, a 64-bit register (R46, R154). -/
abbrev Word := BitVec 64
/-- One byte (R3). -/
abbrev Byte := BitVec 8
/-- A logical core number 32·y + x (R7, chapter "Scope and conventions"). -/
abbrev CoreId := Fin 768
/-- An on-die partition P0-P15 (R36). -/
abbrev PartId := Fin 16
/-- A host function, one per PCIe link (R332). -/
abbrev FnId := Fin 4
/-- A board link or Ethernet port: 0-6 are BL0-BL6, 7-8 are EP0 and EP1.
Its unit code of Table 02-2 is the number plus 4. -/
abbrev PortId := Fin 9
/-- A clock region G0-G51 (R20). -/
abbrev RegionId := Fin 52
/-- A physical position 32·py + px (R14). -/
abbrev Pos := Fin 832
/-- A lottery arbiter of Table 19-1: 0 HOST, 1 CAVE, 2 MGMT, 3 SPI. -/
abbrev ArbId := Fin 4
/-- A deadline monitor of a partition (R231). -/
abbrev MonId := Fin 64
/-- A sparse table: keys strictly rising; a key that is not listed holds the table's default. -/
abbrev SMap (α : Type) := List (Nat × α)

/-- The two sequencers of a core: access and execute (R41). -/
inductive SeqId where
  | A
  | E
  deriving DecidableEq, Repr

end Sys2Proof
end

