-- ==== Sys2Proof/Machine/CoreTypes.lean ====
section
/-! DEFINITION. Types of the state of one compute core (chapters "The compute core and its two streams",
"Matrix unit", "Vector engine", "Local store and memory slices", "Tensor descriptors and layouts"). -/

namespace Sys2Proof.Machine

/-- The states of a sequencer, in the order of their codes 0 to 9 (Table 03-4). -/
inductive SeqState where
  | idle
  | run
  | stallOperand
  | stallEq
  | stallDqEmpty
  | stallDqFull
  | stallSyn
  | inRoutine
  | stepWait
  | halted
  deriving DecidableEq, Repr

/-- Why a sequencer is HALTED (R60): by CORE_CTRL.HALT, which RESUME ends, or by an error, which RESUME does not end. -/
inductive HaltBy where
  | nothing
  | ctrl
  | error
  deriving DecidableEq, Repr

/-- One counted-loop level (R50): first word of the body, end word, iterations that remain (the running one included). -/
structure LoopLv where
  first : Nat
  last : Nat
  left : Nat
  deriving DecidableEq, Repr

/-- The resident routine a sequencer runs (R52, R53): where it returns to, its published CYCLES, the routine
counter, the loop depth of the caller, whether RET has been reached and waits for the counter, and whether the
counter has already reached CYCLES. -/
structure Routine where
  ret : BitVec 13
  cycles : Nat
  count : Nat
  depth : Nat
  done : Bool
  expired : Bool
  deriving DecidableEq, Repr

/-- One sequencer of a core (R46 to R53, R59, R60). `regs` holds s1 to s31; s0 has no storage. `ended` says that it has been in
STEP_WAIT since the last boundary, which is the event STREAM_END (R231). -/
structure Seq where
  regs : SMap Word
  pc : BitVec 13
  st : SeqState
  haltBy : HaltBy
  saved : SeqState
  loops : List LoopLv
  rtn : Option Routine
  ended : Bool
  stallRun : Nat
  disp : BitVec 64
  stalls : BitVec 64
  deriving DecidableEq, Repr

/-- The IM2COL extension of a descriptor (Table 05-4). -/
structure ImExt where
  kh : Nat
  kw : Nat
  sh : Nat
  sw : Nat
  dh : Nat
  dw : Nat
  pt : Nat
  pl : Nat
  oh : Nat
  ow : Nat
  pad : Nat
  deriving DecidableEq, Repr

/-- The fields of a validated descriptor (Table 05-1, Table 05-6). `compat` marks a forerunner descriptor (R105). -/
structure DescF where
  base : Nat
  fmt : Nat
  xform : Nat
  r : Bool
  w : Bool
  ndim : Nat
  size : List Nat
  stride : List Int
  ext : ImExt
  compat : Bool
  deriving DecidableEq, Repr

/-- One entry of the descriptor table (R87). `img` is the device-window address of the image it was created from, at
which a read-back shows GEN (R94). -/
structure DescEntry where
  valid : Bool
  gen : BitVec 8
  f : DescF
  img : Option Nat
  deriving DecidableEq, Repr

/-- A handle as an instruction captured it at dispatch (R90). -/
structure Cap where
  h : Nat
  valid : Bool
  gen : BitVec 8
  deriving DecidableEq, Repr

/-- An engine-queue entry: the word, the handles captured under R90, the scalar values read at dispatch in the
order the instruction names them (R156, R179), VL and VTYPE (R128), and its place in the core's order of dispatch. -/
structure QEntry where
  word : Word
  num : Nat
  caps : List Cap
  vals : List Word
  vl : Nat
  vtype : BitVec 8
  deriving DecidableEq, Repr

/-- The engines of a core (R47). -/
inductive Eng where
  | tq
  | vq
  | mq
  deriving DecidableEq, Repr

/-- A tile of 16 × 16 elements of 194 bits, element [i][j] at key 16·i + j, with its tag 0 FP32, 1 INT32, 2 EXA (R111). -/
structure Tile where
  tag : Nat
  el : SMap (BitVec 194)
  deriving DecidableEq, Repr

/-- A masked byte to be written: address, mask of the bits written, value. -/
structure MByte where
  addr : Nat
  mask : Byte
  val : Byte
  deriving DecidableEq, Repr

/-- What an accepted instruction does after its reads are in (R167, R180, R196 to R203). -/
inductive JobKind where
  | vec
  | mmul
  | mstore
  | mstorePress
  | mldacc
  | mclr
  | tload
  | tloadQ
  | tstore
  | fill
  | copy
  | msend
  | fsend
  | caveq
  | hostq
  deriving DecidableEq, Repr

/-- An accepted instruction in flight: a number, its engine and kind, its entry, the descriptor copies of R90,
what it captured of vector registers and tiles at acceptance (R179), the lines its reads have returned so far (by
address of the 64 B line), how many reads and writes are still waiting, how many of those reads are the stationary feeder's,
whether its last write has been issued, whether an access of it was dropped (R38), whether the vector engine was in starter
mode at acceptance (R135), the bytes it still owes to a data queue, and the queue entries still to be popped. `elem` counts the
elements an overlapping COPY has read (R145). An MMUL is `staged` once its stationary tile is in the shadow registers and
`active` once its arrays work on it (R114); `age` counts the cycles of its schedule that have passed (R116, R119). -/
structure Job where
  id : Nat
  eng : Eng
  kind : JobKind
  ent : QEntry
  descs : List DescF
  srcs : List (BitVec 2048)
  tiles : List Tile
  got : SMap (BitVec 512)
  rdLeft : Nat
  wrLeft : Nat
  stLeft : Nat
  issued : Bool
  lost : Bool
  starter : Bool
  owed : List Byte
  popped : List (BitVec 512)
  elem : Nat
  staged : Bool
  active : Bool
  age : Nat
  deriving DecidableEq, Repr

/-- A live entry of the fill guard (R149): the job that writes and its [amin, amax]. A read in progress (R151) has
the same shape. -/
structure FgEntry where
  job : Nat
  lo : Nat
  hi : Nat
  deriving DecidableEq, Repr

/-- A create in progress (R88, R166): the handle, the device-window address and the length of its image, the number its
image read bears, whether the fill guard has let that read be asked for (R89, R150), how many requests of it wait for their
grant, and the lines that have come. -/
structure Create where
  h : Nat
  addr : Nat
  len : Nat
  id : Nat
  asked : Bool
  left : Nat
  got : SMap (BitVec 512)
  deriving DecidableEq, Repr

/-- Requesters of a local store in the priority order of Table 08-2, 1 to 9. -/
inductive LsClass where
  | sliceReturn
  | meshEject
  | matStationary
  | matStreaming
  | vecMem
  | matStore
  | tqRead
  | fillCopy
  | window
  deriving DecidableEq, Repr

/-- A request for lines of one local store (R142): its class, the job or the create it serves, the line numbers (store offset
divided by 64), and, for a write, the masked bytes. A mesh ejection and a device-window access are carried out by their own
commands; their requests take the banks and serve no job. -/
structure LsReq where
  cls : LsClass
  job : Nat
  lines : List Nat
  write : Bool
  bytes : List MByte
  deriving DecidableEq, Repr

/-- An access waiting at a slice (R34, R35): the core, the engine's job, the 128 B block address, and the bytes of a
write. `ptag` is the partition tag it carries (R38), `cls` the engine that asks (R34). -/
structure SlcAcc where
  core : Nat
  job : Nat
  cls : LsClass
  block : Nat
  write : Bool
  bytes : List MByte
  ptag : Nat
  deriving DecidableEq, Repr

/-- A checksum comparison that is due (R123): the array, the dataflow code, and the residues the checksum row and
column formed, with the residues of the partials, for the rows and columns that are compared. -/
structure CkDue where
  array : Nat
  df : Nat
  rows : List (Nat × Nat × Nat)
  cols : List (Nat × Nat × Nat)
  deriving DecidableEq, Repr

/-- The matrix unit of a core (chapter "Matrix unit"). The active and shadow stationary registers hold, for each array, the
operand values of a tile; `cellActive` and `cellShadow` are the accumulators of the cells in an OS pass (R114). -/
structure Matrix where
  acc : SMap Tile
  statActive : SMap (SMap (BitVec 64))
  statShadow : SMap (SMap (BitVec 64))
  cellActive : SMap Tile
  cellShadow : SMap Tile
  ckEn : Bool
  cgDis : Bool
  ckErr : BitVec 8
  freeze : SMap (BitVec 64)
  due : List CkDue
  deriving DecidableEq, Repr

/-- The vector engine of a core (chapter "Vector engine"). `regs` is v0 to v31, `tb` the 2,048-bit quarters of TB0 to
TB3 by the register number of R134, `mode` is VEC_STATUS.MODE, `bist` the cycles the register-file BIST still runs, `passed` that
it has passed and recovery ends at the next step boundary (R135). -/
structure Vector where
  regs : SMap (BitVec 2048)
  tb : SMap (BitVec 2048)
  vl : Nat
  vtype : BitVec 8
  starter : Bool
  mode : Nat
  parErr : Bool
  parCnt : BitVec 32
  bist : Option Nat
  passed : Bool
  deriving DecidableEq, Repr

/-- The local store's and the slice's counters in one core block (chapter "Local store and memory slices"). -/
structure MemCnt where
  lsConf : SMap (BitVec 64)
  lsPort : BitVec 64
  slcCont : BitVec 64
  fgStall : BitVec 64
  fgFull : BitVec 64
  slcCe : BitVec 16
  lsCe : BitVec 16
  deriving DecidableEq, Repr

/-- One logical core. -/
structure Core where
  a : Seq
  e : Seq
  psWdrop : Bool
  rtnOver : Bool
  wdog : Bool
  wdogExp : BitVec 5
  dqdir : BitVec 8
  syn : SMap (BitVec 32)
  dq : SMap (List (BitVec 512))
  mq : List QEntry
  vq : List QEntry
  tq : List QEntry
  desc : SMap DescEntry
  creates : List Create
  jobs : List Job
  fgw : List FgEntry
  fgr : List FgEntry
  lsq : List LsReq
  slcWant : List SlcAcc
  nextEnt : Nat
  numFlags : BitVec 32
  mx : Matrix
  vec : Vector
  cnt : MemCnt
  digest : BitVec 64
  deriving DecidableEq, Repr

end Sys2Proof.Machine
end

