-- ==== Sys2Proof/Machine/NetTypes.lean ====
section
/-! DEFINITION. Types of the on-die networks, the memories' errors, the partition time blocks and the error log
(chapters "Core grid, floorplan and on-die networks", "Time, deadlines and determinism", "Faults and error reporting"). -/

namespace Sys2Proof.Machine

/-- What a packet for another device carries beside the mesh header: the board address, the traffic class
(0 SCHED, 1 PRESS, 2 LOAD, 3 MGMT), the fabric partition ID and the object credited on the receiving device (R173). -/
structure FabPkt where
  addr : Nat
  cls : Nat
  fpid : Nat
  syn : Nat
  deriving DecidableEq, Repr

/-- One flit of the message mesh: the header of Table 02-3, its index in the message, its 64 B, the core that sent
it, whether its delivery credits SYN, the amount when it is a header-only packet (R168), what it carries for another device, and,
for a request record on its way to an edge unit, whether that is a host queue, the queue's number and the record's offset
(R174, R176). -/
structure Flit where
  hdr : BitVec 64
  idx : Nat
  data : BitVec 512
  src : Nat
  credit : Bool
  amount : Option Nat
  fab : Option FabPkt
  rec_ : Option (Bool × Nat × Nat) := none
  deriving DecidableEq, Repr

/-- A router tree entry (Table 02-4). -/
structure TreeEntry where
  tree : Nat
  press : Bool
  exa : Bool
  inMask : BitVec 6
  outMask : BitVec 6
  ptag : Nat
  pos : Nat
  deriving DecidableEq, Repr

/-- A press node working on one tree at one router (R31, R33): the flits each input has brought and that are not yet
added (input, flit), oldest first, and the flits of an abandoned round still to be dropped for each input. -/
structure PressNode where
  pos : Nat
  tree : Nat
  waiting : List (Nat × Flit)
  next : Nat
  skip : SMap Nat
  deriving DecidableEq, Repr

/-- A declared port route of the Mould (R37). -/
structure Route where
  part : Nat
  unit : Nat
  attach : Nat
  deriving DecidableEq, Repr

/-- Who made an access of the device window that waits: a function (BAR2), a hart, another member (its index, FPID, SEQ), or nobody
who waits for an answer. -/
inductive WinWho where
  | func (f : Nat)
  | hart (h : Fin 4)
  | member (dst fpid seq : Nat)
  | nobody
  deriving DecidableEq, Repr

/-- An access of the device window that waits for a slice at retention (R153). -/
structure WinAcc where
  who : WinWho
  addr : Nat
  len : Nat
  write : Bool
  data : List Byte
  deriving DecidableEq, Repr

/-- The on-die networks (R14 to R40). `bufs` is keyed by (6·position + input)·2 + VC, `rr` by 6·position + output, masks by
6·position + input; an unlisted pointer is 5, input P (R27); an unlisted slice pointer is 767 (R35); an unlisted owner is 16,
no partition (R36). `inj` holds what TQ injects at a core and `injM` what press stores inject (R201), `injP` what a unit sends
into the grid, before input L or P buffers it. `recFly` counts the records on their way to a Cave queue n (key n) or a host queue
n (key 16 + n). `winQ` holds accesses of the device window that wait for a slice at retention (R153). -/
structure Net where
  bufs : SMap (List Flit)
  rr : SMap Nat
  inj : SMap (List Flit)
  injM : SMap (List Flit)
  injP : SMap (List Flit)
  eject : SMap (List Flit)
  unitIn : SMap (List Flit)
  recFly : SMap Nat
  winQ : List WinAcc
  trees : List TreeEntry
  nodes : List PressNode
  masks : SMap (BitVec 16)
  routes : List Route
  regOwner : SMap Nat
  slcOwner : SMap Nat
  slcQ : SMap (List SlcAcc)
  slcRr : SMap Nat
  drop : SMap (BitVec 32)
  repair : SMap (BitVec 26)
  defMap : SMap (BitVec 26)
  bad : List Nat
  retired : List Nat
  routerFail : Bool
  ce : List Nat
  ue : List Nat
  deriving DecidableEq, Repr

/-- PT_STATE.STATE (0 to 3). -/
inductive PtState where
  | idle
  | running
  | held
  | stopped
  deriving DecidableEq, Repr

/-- A miss whose event has not occurred yet (R232): the monitor, the step, the tick D. -/
structure LateMon where
  mon : Nat
  step : Nat
  tick : Nat
  deriving DecidableEq, Repr

/-- The lock-step entry of a partition and the state of its comparison (R235 to R237): the partner's device index,
the port code of the link, LAG and LS_WAIT; own records by step with the tick they were sent, oldest first; partner
records that arrived before the own one; the steps whose comparison is complete. -/
structure LockStep where
  partner : Nat
  port : Nat
  lag : Nat
  wait : Nat
  own : List (Nat × Nat × List Nat)
  theirs : List (Nat × List Nat)
  compared : List Nat
  diverged : Bool
  deriving DecidableEq, Repr

/-- One partition time block (R217 to R239, registers PT_ and DL_). `next` is the index of the boundary it takes
next; `missed` lists the (monitor, step) pairs whose miss has been recorded; `credits` the amounts credited to each object
since the load, by object number, and `snaps` what `credits` held when each boundary was taken; `atBreak` that it stands
stopped at a break, `brkTick` the tick of the last write of PT_BREAK; `stepEnd` that every sequencer was in STEP_WAIT at once since
the last boundary (STEP_END); `dead` that an error stopped it; `dlHalt` the tick of a miss whose
policy is HALT_PARTITION (R233); `restartAt` the boundary and tick of a RESTART, RESUME or rewind; `earliest` the tick before which the next
boundary is not taken (R288). -/
structure PartTime where
  step : BitVec 64
  t0 : BitVec 64
  period : BitVec 32
  cycles : BitVec 32
  breakEn : Bool
  breakStep : BitVec 63
  breakHit : Bool
  lsDiv : Bool
  st : PtState
  holdTicks : BitVec 64
  load : BitVec 64
  mdig : SMap (BitVec 64)
  dlMiss : BitVec 64
  dlCfg : SMap (BitVec 64)
  dlTgt : SMap (BitVec 64)
  dlLast : SMap (BitVec 64)
  next : Nat
  missed : List (Nat × Nat)
  late : List LateMon
  credits : SMap Nat
  snaps : SMap (SMap Nat)
  lock : Option LockStep
  atBreak : Bool
  brkTick : Nat
  stepEnd : Bool
  dead : Bool
  dlHalt : Option Nat
  restartAt : Option (Nat × Nat)
  earliest : Nat
  deriving DecidableEq, Repr

/-- An error record (Table 23-2). `detail` lists the values Table 23-4 names for the code, in its order. -/
structure ErrRec where
  turn : BitVec 64
  seq : BitVec 32
  code : Nat
  cls : Nat
  source : Nat
  core : Nat
  pmask : BitVec 16
  fpid : Nat
  rep : BitVec 16
  turnEst : Bool
  escalated : Bool
  step : BitVec 64
  detail : List Nat
  deriving DecidableEq, Repr

/-- The error block (R403 to R409). `ring` holds the newest record first. `sent` lists the functions signalled in
this tick, `stepErrs` the partitions (with the step) that have a STEP-class record firmware has not handled (R401). -/
structure Errs where
  ring : List ErrRec
  next : BitVec 32
  irqVec : SMap (BitVec 6)
  irqEn : SMap (BitVec 4)
  cause : Nat
  count : BitVec 16
  lastDev : Option ErrRec
  sent : List Nat
  stepErrs : List (Nat × Nat)
  deriving DecidableEq, Repr

/-- The states of Turn synchronisation (Table 12-2). -/
inductive TurnState where
  | listen
  | locked
  | holdover
  deriving DecidableEq, Repr

/-- A port's last announcement (R222): PRIO, root serial, hops. -/
structure Announce where
  prio : Nat
  root : Nat
  hops : Nat
  deriving DecidableEq, Repr

/-- The Turn (R217 to R226). `frac` is in 1/65,536 tick; `slew` is the correction still to be slewed, in the same
unit, `part` the part of a unit of it that a tick left over, in 1/10,000; `delta` is the path delay to the parent, `begun` that a partition
has taken a boundary since reset (R224); `skipped` that the last advance passed over one tick count; `good` counts consecutive exchanges within 4 ns; `lastSync` is the tick of the last sync word sent by each port. -/
structure Turn where
  now : BitVec 64
  frac : BitVec 16
  st : TurnState
  before : TurnState
  parent : Nat
  root : Bool
  syncLost : Bool
  ptpLock : Bool
  theta : BitVec 32
  prio : BitVec 8
  epoch : BitVec 64
  ann : SMap Announce
  good : Nat
  slew : Int
  lastSync : SMap Nat
  anchored : Bool
  skipped : Bool
  delta : BitVec 32
  part : Nat
  begun : Bool
  deriving DecidableEq, Repr

end Sys2Proof.Machine
end

