-- ==== Sys2Proof/Machine/JobTypes.lean ====
section
/-! DEFINITION. Types of loaded Moulds, fabric tables, serving, weights, the Cave and the host functions
(chapters "The Mould: structure bit-stream", "Multi-device fabric", "Serving runtime", "Weights", "Host interface"). -/

namespace Sys2Proof.Machine

/-- A member device (Table 13-2, MEMBERS). -/
structure Member where
  serial : Nat
  board : Nat
  slot : Nat
  deriving DecidableEq, Repr

/-- An expected neighbour of one port (Table 13-3). -/
structure Nbr where
  mode : Nat
  group : Nat
  port : Nat
  slot : Nat
  serial : Nat
  board : Nat
  deriving DecidableEq, Repr

/-- A descriptor allocation range (Table 13-5): kind 1 LOCAL, 2 SLICE, 3 CAVE. -/
structure Range where
  part : Nat
  kind : Nat
  r : Bool
  w : Bool
  first : Nat
  last : Nat
  deriving DecidableEq, Repr

/-- A CLOCK entry (Table 13-2). -/
structure ClockEnt where
  part : Nat
  fmin : Nat
  fmax : Nat
  sleep : Nat
  wakeLead : Nat
  awake : Nat
  deriving DecidableEq, Repr

/-- A TIMING entry (Table 13-6), its defaults filled in. -/
structure Timing where
  part : Nat
  lockstep : Bool
  lag : Nat
  lsLink : Nat
  lsPartner : Nat
  cycles : Nat
  period : Nat
  lsWait : Nat
  loadTimeout : Nat
  deriving DecidableEq, Repr

/-- A SYNC entry (Table 13-4): kind 0 INIT, 1 EDGE, 2 CAVEQ, 3 HOSTQ. -/
structure SyncEnt where
  kind : Nat
  part : Nat
  obj : Nat
  queue : Nat
  count : Nat
  deriving DecidableEq, Repr

/-- A fabric table record (Table 15-3). -/
structure FabRec where
  ip : Nat
  remote0 : Nat
  remote1 : Nat
  partner : Nat
  aliasTo : Nat
  muted : Bool
  mirror : Bool
  deriving DecidableEq, Repr

/-- One version of the fabric table (Table 15-2); `valid` is false while a rewrite runs or before one is loaded (R282). -/
structure FabTab where
  ipver : Nat
  replica : Bool
  hoplim : Nat
  recs : List FabRec
  valid : Bool
  deriving DecidableEq, Repr

/-- The serving header (Table 17-1). -/
structure ServeHdr where
  rows : Nat
  genMax : Nat
  vocab : Nat
  kvBlocks : Nat
  kvBt : Nat
  vslots : Nat
  nvar : Nat
  planAddr : Nat
  outAddr : Nat
  seqAddr : Nat
  kvmapAddr : Nat
  deriving DecidableEq, Repr

/-- An entry a host placed in a context queue (R342): the 64 B entry, the request record it names and the prompt as
the device reads them (none when the host read fails). -/
structure SubEntry where
  entry : BitVec 512
  record : Option (List Byte)
  prompt : Option (List Nat)
  deriving DecidableEq, Repr

/-- An active sequence (R310, R311): its slot, the function and context it came by, the record as admitted, the
prompt, how many prompt rows have run, whether it is GENERATING, how many tokens it has generated, its limit N, its
own KV blocks, the prefix handle, the variant, the variant slot it pins (0x1FF for the base model), a cancel
sampled for it, whether COUNTS_FULL was reported, and the order of its admission. -/
structure Active where
  slot : Nat
  fn : Nat
  ctx : Nat
  tag : Nat
  record : List Byte
  prompt : List Nat
  fed : Nat
  gen : Bool
  made : Nat
  limit : Nat
  blocks : List Nat
  pfx : Option Nat
  variant : Nat
  vslot : Nat
  register : Bool
  countsFull : Bool
  order : Nat
  closing : Bool
  deriving DecidableEq, Repr

/-- A prefix handle (R316, R317): table index, registration count, whether its registration still counts, its
reference count, its blocks and length in tokens, its variant and the variant slot it was built with. -/
structure Pfx where
  idx : Nat
  count : Nat
  live : Bool
  refs : Nat
  blocks : List Nat
  len : Nat
  variant : Nat
  vslot : Nat
  deriving DecidableEq, Repr

/-- A version of a variant committed on this member (R319, Table 20-8). -/
structure VarVer where
  variant : Nat
  slot : Nat
  digest : Nat
  keydig : Nat
  deriving DecidableEq, Repr

/-- A variant slot in use (R318, R319): the slot, the variant, whether it is the variant's current version, and the
blocks and length of its learned prefix. -/
structure VSlot where
  slot : Nat
  variant : Nat
  current : Bool
  blocks : List Nat
  len : Nat
  deriving DecidableEq, Repr

/-- A command that waits for a sampling point or for a later event: the function, its CID, and what it is. -/
inductive WaitKind where
  | closeCtx (ctx : Nat)
  | cancel (ctx tag : Nat)
  | prefixRelease (handle : Nat)
  | drain (abort : Bool)
  deriving DecidableEq, Repr

structure Waiting where
  fn : Nat
  cid : Nat
  kind : WaitKind
  deriving DecidableEq, Repr

/-- An open admission log ring (R330): the function, base, entry count, the host's head, firmware's tail, the number
of entries dropped since the ring was last full. -/
structure LogRing where
  fn : Nat
  addr : Nat
  ents : Nat
  head : Nat
  tail : Nat
  dropped : Nat
  deriving DecidableEq, Repr

/-- A plan kept by member 0 (R330): the step and its rows. -/
structure PlanKept where
  step : Nat
  rows : List (BitVec 64)
  deriving DecidableEq, Repr

/-- An entry of the log that the host of a replay supplies (R239, R330): the 576 B slot, and the prompt its record names as the device
reads it. -/
structure GivenReq where
  entry : List Byte
  prompt : Option (List Nat)
  deriving DecidableEq, Repr

/-- Firmware's serving state for one Mould (chapter "Serving runtime"). `rr` is the submission queue it admitted
from last, 16·function + context; `planned` the step whose plan was built last, plus 1; `planIn` the step whose plan
is in place on this member, plus 1; `recorded` the step whose records were written last, plus 1; `given` the log that a replay's host
supplied (R239). -/
structure Serve where
  hdr : ServeHdr
  active : List Active
  prefixes : List Pfx
  vslots : List VSlot
  waiting : List Waiting
  draining : Option (Nat × Nat)
  drainSince : Bool
  log : Option LogRing
  logGap : Bool
  rr : Nat
  planned : Nat
  planIn : Nat
  recorded : Nat
  plans : List PlanKept
  admitted : Nat
  given : List GivenReq
  pfxCounts : SMap Nat
  deriving DecidableEq, Repr

/-- A hold in progress (R288): its step, whether RESUME has been taken, its change list (kind, member, argument), the
requester, and the members that reported HELD. -/
structure Hold where
  step : Nat
  changes : List (Nat × Nat × Nat)
  fn : Nat
  cid : Nat
  host : Bool
  held : List Nat
  since : Nat
  deriving DecidableEq, Repr

/-- A failover in progress (R287): the lost members, the survivors that reported READY with their PT_STEP, when it
began, the command that asked for it, and whether a rewind after a STEP-class error asked for it (R401). -/
structure Failover where
  lost : List Nat
  ready : List (Nat × Nat)
  since : Nat
  req : Option (Nat × Nat)
  rewind : Bool
  deriving DecidableEq, Repr

/-- A shard this member keeps (R296, R297): its manifest entry, whether its bytes arrived, whether it is verified,
the ladder attempt it is on (0 none, 6 exhausted) and the tick of that attempt's request. -/
structure Shard where
  id : Nat
  member : Nat
  alt : Nat
  target : Nat
  len : Nat
  cave : Bool
  source : Nat
  digest : Nat
  arrived : Bool
  ok : Bool
  attempt : Nat
  since : Nat
  deriving DecidableEq, Repr

/-- A weight load (chapter "Weights"): WT_STATUSp.STATE and STATUS, the image, its kept shards, the members that
reported WEIGHTS_OK, whether END has passed, the requester, the tick of the last byte, the shards
(member, ID) that member 0 reads from the host for others; the manifest (empty before it arrives), whether its key check waits for KEYS_LOADED (R398), and on member 0 the source: from the Cave,
function, address, length. A load in STATE 0 with a manifest waits for a variant slot (R319). -/
structure WLoad where
  state : Nat
  status : Nat
  kind : Nat
  variant : Nat
  vslot : Nat
  digest : Nat
  keydig : Nat
  shards : List Shard
  repairs : BitVec 16
  ended : Bool
  oks : List Nat
  req : Option (Nat × Nat)
  lastByte : Nat
  asked : List (Nat × Nat)
  mani : List Byte
  waits : Bool
  src : Option (Bool × Nat × Nat × Nat)
  deriving DecidableEq, Repr

/-- A SWITCH command on member 0: its step, its function and CID, the members that have switched, and whether one was late (R283). -/
structure SwitchRun where
  step : Nat
  fn : Nat
  cid : Nat
  done : List Nat
  late : Bool
  deriving DecidableEq, Repr

/-- A loaded Mould, or one that waits in phases MEMBERS to READY (chapter "The Mould"). `self` is this device's member
index, `owner` the owning function (R336), `fromNbr` that it came from a neighbour and no function owned it yet, `t0` the start tick (0 deferred), `results` the members whose acceptance
member 0 holds, `rerun` the step that a rewind reruns, `go` the steps GO has released plus 1, `done` the members whose STEPDONE(S) member 0 holds,
`switchAt` an armed epoch change, `switching` what member 0 knows of a SWITCH command, `early` READY reports that came before
this member's own failover began, `base` the committed base manifest digest, `images` the weight loads
that were committed and are still in use (R289, R302), `coming` variant versions committed since the last boundary (R298), and
`newVers` those (variant, slot) that become current at the next sampling point (R319). -/
structure Mould where
  pmask : Nat
  fpid : Nat
  compat : Bool
  weights : Bool
  devices : Nat
  rindMin : Nat
  digest : Nat
  keydig : Nat
  phase : Nat
  self : Nat
  owner : Option Nat
  fromNbr : Bool
  members : List Member
  nbrs : List Nbr
  nbrAll : List Nbr
  ranges : List Range
  clock : List ClockEnt
  timing : List Timing
  syncs : List SyncEnt
  dist : List (Nat × Nat)
  tabA : FabTab
  tabB : FabTab
  epoch : Nat
  vlast : SMap (BitVec 64)
  switchAt : Option Nat
  switching : Option SwitchRun
  early : List (Nat × Nat)
  pairLost : Bool
  failoverRan : Bool
  heldFlag : Bool
  quiet : Bool
  hold : Option Hold
  failover : Option Failover
  t0 : Nat
  replay : Bool
  results : List Nat
  lastByte : Nat
  req : Option (Nat × Nat)
  go : Nat
  stepDone : List (Nat × Nat)
  rerun : Option Nat
  serve : Option Serve
  wload : Option WLoad
  base : Nat
  baseKey : Nat
  variants : List VarVer
  coming : List VarVer
  newVers : List (Nat × Nat)
  subs : List (Nat × Nat)
  images : List WLoad
  image : List Byte
  deriving DecidableEq, Repr

/-- A Mould that is still arriving (phases RECEIVING and CHECKING): the PMASK and FPID of its header, the requested
length, the start tick, REPLAY, the port of a neighbour's offer, the requester, the offset of a Cave source, the whole image once
its last byte is there with that byte's tick, and the members whose acceptance member 0 already holds. -/
structure Load where
  pmask : Nat
  fpid : Nat
  len : Nat
  t0 : Nat
  replay : Bool
  port : Option Nat
  req : Option (Nat × Nat)
  caveOff : Option Nat
  image : Option (List Byte)
  lastByte : Nat
  results : List Nat
  deriving DecidableEq, Repr

/-- An offer this member has made to the next one in distribution order (R250, R397): the port, the member, whether it stands refused or
has been taken, the tick of the last offer and of the first, T0 and REPLAY, and the image its bytes come from. -/
structure Offer where
  pmask : Nat
  fpid : Nat
  port : Nat
  to_ : Nat
  refused : Bool
  taken : Bool
  tick : Nat
  began : Nat
  t0 : Nat
  replay : Bool
  image : List Byte
  deriving DecidableEq, Repr

/-- A key-table entry (R294): the 68 B key, its digest and PERSIST. -/
structure KeyEnt where
  key : List Byte
  digest : Nat
  persist : Bool
  deriving DecidableEq, Repr

/-- A request record of a Cave or host queue (R174, R176): the issuing core, the local-store offset of the record,
its 32 B, the partition. -/
structure ReqRec where
  core : Nat
  off : Nat
  data : List Byte
  part : Nat
  deriving DecidableEq, Repr

/-- A record an edge unit is serving: the record, the final STATUS, whether its SYN is credited. -/
structure Serving where
  rec_ : ReqRec
  status : Nat
  deriving DecidableEq, Repr

/-- An open host channel (R176): the partition, its logical number, the channel given, the function, the window. -/
structure Chan where
  part : Nat
  logical : Nat
  chan : Nat
  fn : Nat
  addr : Nat
  len : Nat
  r : Bool
  w : Bool
  down : Bool
  deriving DecidableEq, Repr

/-- A completion entry (Table 18-5) without its PHASE, which is set when it is written. -/
structure Cpl where
  cid : Nat
  sqhd : Nat
  status : Nat
  result : Nat
  deriving DecidableEq, Repr

/-- An open context of a function (R307, R342): the serving partition, vector, token ring (entries, address, host
head, firmware tail, phase), MODERATE and the tick of the oldest record not yet announced, the context queue (base,
SIZE, entries the host has placed and firmware has not taken, entries taken, doorbell tail), and the records that
wait for ring room (R325). -/
structure Ctx where
  part : Nat
  vec : Nat
  ents : Nat
  addr : Nat
  moderate : Nat
  since : Option Nat
  rHead : Nat
  rTail : Nat
  phase : Bool
  qBase : Nat
  qSize : Nat
  queue : List SubEntry
  qHead : Nat
  qTail : Nat
  backlog : List (List Byte)
  deriving DecidableEq, Repr

/-- A host function and its link (R331 to R348). `sqAt` keeps the queue head after each command that is not completed, by
CID; `left` is the tick at which it left, while its teardown waits. -/
structure Func where
  linkUp : Bool
  perst : Bool
  ready : Bool
  left : Option Nat
  wedged : Bool
  sq : BitVec 64
  cq : BitVec 64
  en : Bool
  dbErr : Bool
  sqHead : Nat
  sqTail : Nat
  cqHead : Nat
  cqTail : Nat
  phase : Bool
  held : List Cpl
  sqAt : SMap Nat
  logTail : SMap (BitVec 32)
  msix : SMap (BitVec 128)
  pba : BitVec 64
  ctxs : SMap Ctx
  deriving DecidableEq, Repr

/-- The Cave and its system area (R300 to R303), apart from its contents. `written` is all that was ever programmed, in
bytes, `sysKeys` are the persisted keys, `copies` the Mould copies
(digest, image) of R289. -/
structure Cave where
  ready : Bool
  chFail : BitVec 16
  written : Nat
  rdBytes : BitVec 64
  pgBytes : BitVec 64
  sysKeys : List KeyEnt
  copies : List (Nat × List Byte)
  deriving DecidableEq, Repr

end Sys2Proof.Machine
end

