-- ==== Sys2Proof/Machine/PortTypes.lean ====
section
/-! DEFINITION. Types of the port units, the lottery arbiters, clocks, power, the Creamery and test access
(chapters "Rind links and fabric ports", "Lottery arbiters", "Clocks, power and sleep", "Control complex, boot and
identity", "Start-up", "Electrical, mechanical and connector reference"). -/

namespace Sys2Proof.Machine

/-- A fabric packet (R259, Table 14-3): class 0 SCHED, 1 PRESS, 2 LOAD, 3 MGMT; `amount` makes it a header-only packet that
credits that count (R168). A piece of a packet that is written as it arrives (R260) has the packet's header with the board address of
its first byte, `off` that byte's place in a payload of `total` bytes; `nfl` counts the flits it frees in the receive buffer. -/
structure Packet where
  cls : Nat
  addr : Nat
  epoch : Nat
  fmt : Nat
  fpid : Nat
  syn : Nat
  src : Nat
  dst : Nat
  tree : Nat
  data : List Byte
  amount : Option Nat
  off : Nat := 0
  total : Nat := 0
  nfl : Nat := 0
  deriving DecidableEq, Repr

/-- LNK_STATUS.STATE (0 to 4). -/
inductive PortSt where
  | down
  | training
  | notAdmitted
  | admitted
  | quarantined
  deriving DecidableEq, Repr

/-- An identity block as received (Table 14-6). -/
structure Identity where
  serial : Nat
  board : Nat
  slot : Nat
  port : Nat
  revMin : Nat
  revMax : Nat
  fwVersion : Nat
  state : Nat
  parts : List (Nat × Nat)
  deriving DecidableEq, Repr

/-- A packet that arrives flit by flit (R259): what its HEAD announced, the bytes that wait to be acted on, whether the port let it
in, whether its bytes are acted on as they arrive (R260), how many have been, and the flits the bytes in `got` came in. -/
structure RxPkt where
  hdr : Packet
  bytes : Nat
  got : List Byte
  ok : Bool
  piece : Bool
  gone : Nat
  flits : Nat
  deriving DecidableEq, Repr

/-- The frame around a datagram (R267): addresses and hop limit of the fabric table, UDP ports, PCP and DSCP of the class. -/
structure Frame where
  ipver : Nat
  src : Nat
  dst : Nat
  hoplim : Nat
  sport : Nat
  dport : Nat
  pcp : Nat
  dscp : Nat
  deriving DecidableEq, Repr

/-- A flit sent in a datagram and not yet acknowledged, with its sequence and FPID. -/
structure SegFlit where
  seq : BitVec 32
  flit : BitVec 2048
  fpid : Nat
  frame : Frame
  deriving DecidableEq, Repr

/-- Segment retry with one peer device of an Ethernet port (R268), known by its IP address: the sequence expected
from it, the next sequence to send, the flits unacknowledged, oldest first, the resends in a row from one sequence and that
sequence, the packets that arrive from it by class, whether its traffic is refused until the identity exchange is repeated, and
the revision run with it. -/
structure SegPeer where
  peer : Nat
  expect : BitVec 32
  next : BitVec 32
  unacked : List SegFlit
  resends : Nat
  from_ : BitVec 32
  rx : SMap (Option RxPkt)
  refused : Option Nat
  rev : Nat
  deriving DecidableEq, Repr

/-- A peer device of an Ethernet port in steps 5 and 6 of training (R269): its identity, the revision chosen, the times of the probes
answered. -/
structure Neg where
  id : Identity
  rev : Nat
  probes : List Nat
  deriving DecidableEq, Repr

/-- One port unit (chapter "Rind links and fabric ports"). `step` is the training step of Table 14-8 it is in (0 none).
`replay` holds the flits not yet acknowledged, oldest first, with the FPID each carries (16 bits, 0xFFFF none).
`rxUsed` counts the flits (board link) or bytes (Ethernet) of each class in the receive buffer, `done` the packets that arrived
whole, or the pieces, that are not yet acted on. `before` is the peer's identity before a retraining (R264), `lost` that the port
stays DOWN after one that failed, `ids` the blocks of the peers an Ethernet port has admitted and `negs` the peers it trains with.
`sent` counts, by class, the flits already sent of the first packet that waits (R265). -/
structure Port where
  st : PortSt
  step : Nat
  prior : PortSt
  rev : Nat
  peer : Option Identity
  before : Option Identity
  ids : List Identity
  negs : List Neg
  nmism : Bool
  vmism : Bool
  rttFail : Bool
  retryExh : Bool
  xoffRx : BitVec 4
  xoffTx : BitVec 4
  fpd : BitVec 3
  disable : Bool
  rtt : BitVec 32
  probes : List Nat
  peerSerial : BitVec 64
  fecUncorr : BitVec 32
  fecCorr : BitVec 32
  crcCnt : BitVec 64
  retryCnt : BitVec 64
  xoffTicks : SMap (BitVec 64)
  dropCnt : BitVec 32
  encap : BitVec 64
  nextSeq : BitVec 12
  replay : List (BitVec 2048 × Nat)
  replayRuns : Nat
  replaySeq : BitVec 12
  retrain : Option Nat
  lost : Bool
  expect : BitVec 12
  rxRetry : Bool
  rxUsed : SMap Nat
  rx : SMap (Option RxPkt)
  done : List Packet
  sendQ : List Packet
  sent : SMap Nat
  idSent : Option Nat
  offer : Bool
  lsSent : Option Nat
  peers : List SegPeer
  pfc : BitVec 2
  deriving DecidableEq, Repr

/-- A grant an arbiter holds (R351 to R353): the requester, whether it is locked, the tick of the grant. -/
structure Grant where
  req : Nat
  locked : Bool
  tick : Nat
  deriving DecidableEq, Repr

/-- One lottery arbiter. `tkt` holds URGENT [8] and TICKETS [7:0] of the listed requesters; an unlisted key reads
the reset value 0x10. `reqs`, `locks` and `masked` have bit i for requester i. -/
structure Arb where
  tkt : SMap (BitVec 9)
  quantum : BitVec 16
  seedPt : BitVec 4
  repro : Bool
  seedk : BitVec 32
  lfsr : BitVec 32
  longLock : Bool
  holder : Option Grant
  reqs : BitVec 16
  locks : BitVec 16
  masked : BitVec 16
  preempt : BitVec 64
  deriving DecidableEq, Repr

/-- Sleep states of a region (Table 21-5); `waking` holds the state left and the tick at which the wake ends (R388). -/
inductive Sleep where
  | run
  | clockGated
  | powerGated
  | waking (power : Bool) (endTick : Nat)
  deriving DecidableEq, Repr

/-- A frequency change in progress (Table 21-2): the code, the tick of its request, whether it is forced. -/
structure FChange where
  code : Nat
  tick : Nat
  forced : Bool
  deriving DecidableEq, Repr

/-- Clocks (R375 to R383). `lag` is λ of each region in 1/128 cycle, `since` the cycles since its last stretch,
`gated` the regions a slip holds until the tick mark after `gateTick`, `lossCount` and `lossTick` the window count and the
tick of the last loss of REFCLK, `lastForce` 1 plus the tick of the last forced request, `lastAbove` the last tick at which
a limit of R383 was not kept; `wakeBegan` and `wakeStep` hold, by partition, the tick of its last wake and 1 plus its step. -/
structure Clk where
  step : Nat
  change : Option FChange
  waiting : Option FChange
  forcedNow : Bool
  refused : Bool
  xslip : Bool
  refLoss : Bool
  holdover : Bool
  req : BitVec 3
  stretch : BitVec 64
  lag : SMap Nat
  since : SMap Nat
  gated : List Nat
  gateTick : Nat
  lossCount : Nat
  lossTick : Nat
  lastForce : Nat
  lastAbove : Nat
  sleep : SMap Sleep
  wakeBegan : SMap Nat
  wakeStep : SMap Nat
  deriving DecidableEq, Repr

/-- Power states (Table 21-4). -/
inductive PwrState where
  | off
  | standby
  | run
  | stopping
  deriving DecidableEq, Repr

/-- An ATTEST that waits for the identity or for its turn to sign (R370, R373). -/
structure AttReq where
  fn : Nat
  cid : Nat
  nonce : Nat
  addr : Nat
  len : Nat
  deriving DecidableEq, Repr

/-- What waits on a non-volatile write (R300, R363). Each carries what completes when it is done. -/
inductive NvKind where
  | caveWrite (fn cid off : Nat) (data : List Byte)
  | caveShard (part id off : Nat) (data : List Byte)
  | keyInstall (fn cid : Nat) (ent : KeyEnt)
  | keyRemove (fn cid digest : Nat)
  | retire (fn cid pos : Nat)
  | leaf (r : AttReq)
  | recProgram (left : Nat) (image : List Byte)
  | mouldCopy (digest : Nat) (image : List Byte) (done : Nat)
  deriving DecidableEq, Repr

/-- The events by which a function leaves (R345); a lost PCIE_REFCLK takes each link down (R375). -/
inductive LeaveWhy where
  | perst
  | hotReset
  | linkDown
  | linkDisabled
  | d3hot
  | enablesCleared
  deriving DecidableEq, Repr

/-- A non-volatile write waiting or in flight (R391): its number, the need in µJ, whether it has started, since when it
waits. -/
structure NvReq where
  id : Nat
  need : Nat
  started : Bool
  since : Nat
  kind : NvKind
  deriving DecidableEq, Repr

/-- Power, hold-up and temperature (R384 to R392). `warned` lists the sensors at or above WARN_C;
`stopRan` that an orderly stop ended in STANDBY and no reset has followed. -/
structure Pwr where
  st : PwrState
  enable : Bool
  precharged : Bool
  switch : Bool
  inhibit : Bool
  sag : Bool
  ovp : Bool
  cap : Nat
  vbank : Nat
  energy : Nat
  measured : Bool
  vin : Nat
  iin : Nat
  pin : Nat
  pavg : Nat
  limit : BitVec 16
  tmax : Int
  sensor : Nat
  stepC : BitVec 8
  warnC : BitVec 8
  warned : List Nat
  stopRan : Bool
  nv : List NvReq
  nvNext : Nat
  deriving DecidableEq, Repr

/-- Who runs the Creamery (R365): nothing yet, the ROM, firmware, or the ROM in recovery. -/
inductive BootPhase where
  | reset
  | rom
  | firmware
  | recovery
  deriving DecidableEq, Repr

/-- The registers of one hart of the Creamery (R357: RV64GC with machine, supervisor and user level): pc, x1 to x31 in `x`, f0 to f31
in `f`, fcsr, the privilege level (3 machine, 1 supervisor, 0 user), and the machine-level registers that an access fault writes
(log entry 9). -/
structure Hart where
  pc : BitVec 64
  x : SMap (BitVec 64)
  f : SMap (BitVec 64)
  fcsr : BitVec 8
  priv : BitVec 2
  mstatus : BitVec 64
  mtvec : BitVec 64
  mepc : BitVec 64
  mcause : BitVec 64
  mtval : BitVec 64
  deriving DecidableEq, Repr

/-- The Creamery, boot, identity and recovery (R357 to R374, R393 to R399). `spiImage` is the firmware image that recovery
programmed (none: the one the flash came with), `waitCmds` the commands taken and held until the Cave or the key table is ready
(R396): function, entry, data. `harts` are the harts' registers by number, `sram` the bytes of its SRAM from hart address
0x1000_0000 on, 0 beyond the list. -/
structure Crm where
  phase : BootPhase
  hartsUp : Bool
  bistDone : Bool
  fwReady : Bool
  keysLoaded : Bool
  idReady : Bool
  idFail : Bool
  recover : Bool
  secver : BitVec 32
  fwver : BitVec 32
  fwDigest : Nat
  idPub : List Byte
  leafNext : Nat
  reservedEnd : Nat
  leafSeq : Nat
  mgmtDrop : BitVec 32
  mgmtSeq : SMap Nat
  mgmtOut : SMap Nat
  keys : SMap KeyEnt
  attests : List AttReq
  recReason : Nat
  recOwner : Nat
  recState : Nat
  recAddr : BitVec 64
  recLen : BitVec 32
  spiImage : Option (List Byte)
  waitCmds : List (Nat × BitVec 512 × Option (List Byte))
  harts : SMap Hart
  sram : List Byte
  deriving DecidableEq, Repr

/-- The instructions of the test access port the manual describes (R426). -/
inductive JtagInstr where
  | bypass
  | idcode
  | samplePreload
  | extest
  deriving DecidableEq, Repr

/-- A BAR2 access carried to another device (R337): its function, FPID·2^32 + SEQ, tick, and whether it writes. -/
structure Bar2Wait where
  fn : Nat
  key : Nat
  tick : Nat
  write : Bool
  deriving DecidableEq, Repr

/-- What a function's configuration space says of it (Table 18-2): the IDs, revision and class code, the sizes of BAR0 and BAR2 in
bytes, both 64-bit and not prefetchable, and the size of the MSI-X table. -/
structure CfgSpace where
  vendor : Nat
  device : Nat
  revision : Nat
  classCode : Nat
  subVendor : Nat
  subsystem : Nat
  bar0 : Nat
  bar2 : Nat
  vectors : Nat
  deriving DecidableEq, Repr

/-- What has left the device, newest first in the state's record. -/
inductive Out where
  | cpl (fn addr : Nat) (bytes : List Byte)
  | msix (fn vec : Nat)
  | ring (fn ctx slot : Nat) (bytes : List Byte)
  | logEntry (fn part slot : Nat) (bytes : List Byte)
  | hostWrite (fn addr : Nat) (bytes : List Byte)
  | hostRead (fn addr len : Nat)
  | rrs (fn : Nat)
  | configDone (fn : Nat) (space : CfgSpace)
  | readData (fn : Nat) (data : Nat)
  | unsupported (fn : Nat)
  | aborted (fn : Nat)
  | hartData (hart : Nat) (data : Nat)
  | hartFault (hart : Nat)
  | hartRestart (hart : Nat)
  | flit (port : Nat) (f : BitVec 2048)
  | datagram (port : Nat) (fr : Frame) (seg : BitVec 128) (flits : List (BitVec 2048))
  | pfc (port prio quanta : Nat)
  | offer (port dst fpid seq : Nat) (header : List Byte) (t0 : Nat) (replay : Bool)
  | loadByte (port : Nat) (n : Nat)
  | loadEnd (port : Nat)
  | mgmt (dst mtype : Nat) (fpid seq arg : Nat) (answer : Bool)
  | lockRecord (part port dst step : Nat) (digs : List Nat)
  | fwd (dst fpid addr len : Nat) (write : Bool) (data : List Byte)
  | fwdAnswer (dst fpid seq : Nat) (ok : Bool) (data : List Byte)
  | shard (dst fpid id : Nat) (data : List Byte)
  | copyAll (dst fpid : Nat) (cells : List Host.Cell)
  | plan (dst fpid step : Nat) (rows : List (BitVec 64))
  | changes (dst fpid tick : Nat) (l : List (Nat × Nat × Nat))
  | mgmtAnswer (status : Nat) (data : List Nat)
  | restart (arb req : Nat)
  | jtagBits (v : Nat)
  deriving DecidableEq, Repr

end Sys2Proof.Machine
end

