-- ==== Sys2Proof/Syntax.lean ====
section
/-! DEFINITION. The commands of the block: one constructor per row of spec/opcode_table.json, in its order.
A sequencer's rows name only the core (and the sequencer): the 64-bit word itself is fetched from the program store at
the program counter (R42, R154). Rows that bring something from outside the device carry it as operands. -/

namespace Sys2Proof

open Sys2Proof.Machine

/-- The header of a management message (Table 20-3) as far as it is read: FPID, sender's member index, SEQ, and
whether it is the ANSWER to a message of ours. -/
structure MHdr where
  fpid : Nat
  src : Nat
  seq : Nat
  answer : Bool
  deriving DecidableEq, Repr

/-- What the test access port is given (R426): one of its four instructions, or any other. -/
inductive JtagOp where
  | known (i : JtagInstr)
  | other
  deriving DecidableEq, Repr

/-- An OPEN_LOG entry, with what the ring it names holds in a replay, slot by slot, each with the prompt its record names (R239, R330). -/
structure OpenLogCmd where
  entry : BitVec 512
  log : List (List Byte × Option (List Nat))
  deriving DecidableEq, Repr

/-- The commands. -/
inductive Instr where
  /-- NOP (R157): Sequencer dispatches a no-operation word. -/
  | nop (k : CoreId) (q : SeqId)
  /-- LOOP (R160): Opens a counted loop over a body ending at END, with count from the immediate or a register. -/
  | loop (k : CoreId) (q : SeqId)
  /-- CALL (R161): Starts a resident routine on the calling sequencer; the sequencer enters IN_ROUTINE for the published CYCLES. -/
  | call (k : CoreId) (q : SeqId)
  /-- STEPEND (R163): Ends the stream's part of the step and puts the sequencer into STEP_WAIT, to resume at the next word or at word 0 on WRAP. -/
  | stepend (k : CoreId) (q : SeqId)
  /-- RET (R162): Returns from routine code to the word after the CALL once the routine counter allows it. -/
  | ret (k : CoreId) (q : SeqId)
  /-- RDSYS (R159): Writes a system value chosen by the selector into a scalar register. -/
  | rdsys (k : CoreId) (q : SeqId)
  /-- BEQ (R162): Routine branch taken when two registers are equal. -/
  | beq (k : CoreId) (q : SeqId)
  /-- BNE (R162): Routine branch taken when two registers differ. -/
  | bne (k : CoreId) (q : SeqId)
  /-- BLT (R162): Routine branch taken on signed less than. -/
  | blt (k : CoreId) (q : SeqId)
  /-- BGE (R162): Routine branch taken on signed greater or equal. -/
  | bge (k : CoreId) (q : SeqId)
  /-- BLTU (R162): Routine branch taken on unsigned less than. -/
  | bltu (k : CoreId) (q : SeqId)
  /-- BGEU (R162): Routine branch taken on unsigned greater or equal. -/
  | bgeu (k : CoreId) (q : SeqId)
  /-- J (R162): Unconditional branch within routine code. -/
  | j (k : CoreId) (q : SeqId)
  /-- ADD (R158): Scalar 64-bit wrapping add. -/
  | add (k : CoreId) (q : SeqId)
  /-- SUB (R158): Scalar 64-bit wrapping subtract. -/
  | sub (k : CoreId) (q : SeqId)
  /-- MUL (R158): Scalar low 64-bit product. -/
  | mul (k : CoreId) (q : SeqId)
  /-- MULHS (R158): Scalar high 64 bits of the signed product. -/
  | mulhs (k : CoreId) (q : SeqId)
  /-- MULHU (R158): Scalar high 64 bits of the unsigned product. -/
  | mulhu (k : CoreId) (q : SeqId)
  /-- AND (R158): Scalar bitwise AND. -/
  | and (k : CoreId) (q : SeqId)
  /-- OR (R158): Scalar bitwise OR. -/
  | or (k : CoreId) (q : SeqId)
  /-- XOR (R158): Scalar bitwise XOR. -/
  | xor (k : CoreId) (q : SeqId)
  /-- SHL (R158): Scalar shift left by register amount mod 64. -/
  | shl (k : CoreId) (q : SeqId)
  /-- SHR (R158): Scalar logical shift right by register amount mod 64. -/
  | shr (k : CoreId) (q : SeqId)
  /-- SRA (R158): Scalar arithmetic shift right by register amount mod 64. -/
  | sra (k : CoreId) (q : SeqId)
  /-- SLT (R158): Scalar signed set-less-than. -/
  | slt (k : CoreId) (q : SeqId)
  /-- SLTU (R158): Scalar unsigned set-less-than. -/
  | sltu (k : CoreId) (q : SeqId)
  /-- MIN (R158): Scalar signed minimum. -/
  | min (k : CoreId) (q : SeqId)
  /-- MAX (R158): Scalar signed maximum. -/
  | max (k : CoreId) (q : SeqId)
  /-- SEL (R158): Scalar select of A or B by register C. -/
  | sel (k : CoreId) (q : SeqId)
  /-- ADDI (R158): Scalar add of a signed 46-bit immediate. -/
  | addi (k : CoreId) (q : SeqId)
  /-- MULI (R158): Scalar multiply by a signed immediate. -/
  | muli (k : CoreId) (q : SeqId)
  /-- ANDI (R158): Scalar AND with a sign-extended immediate. -/
  | andi (k : CoreId) (q : SeqId)
  /-- ORI (R158): Scalar OR with a sign-extended immediate. -/
  | ori (k : CoreId) (q : SeqId)
  /-- XORI (R158): Scalar XOR with a sign-extended immediate. -/
  | xori (k : CoreId) (q : SeqId)
  /-- SHLI (R158): Scalar shift left by an immediate amount. -/
  | shli (k : CoreId) (q : SeqId)
  /-- SHRI (R158): Scalar logical shift right by an immediate amount. -/
  | shri (k : CoreId) (q : SeqId)
  /-- SRAI (R158): Scalar arithmetic shift right by an immediate amount. -/
  | srai (k : CoreId) (q : SeqId)
  /-- SLTI (R158): Scalar signed compare with an immediate. -/
  | slti (k : CoreId) (q : SeqId)
  /-- SLTIU (R158): Scalar unsigned compare with a sign-extended immediate. -/
  | sltiu (k : CoreId) (q : SeqId)
  /-- LI (R158): Loads a signed immediate into a scalar register. -/
  | li (k : CoreId) (q : SeqId)
  /-- LIH (R158): Sets the high 32 bits of a scalar register from an immediate. -/
  | lih (k : CoreId) (q : SeqId)
  /-- DQPUSH (R164): Pushes scalar registers as one 64 B entry onto a data queue. -/
  | dqpush (k : CoreId) (q : SeqId)
  /-- DQPOP (R164): Pops one data-queue entry into scalar registers. -/
  | dqpop (k : CoreId) (q : SeqId)
  /-- DQ_STALL_END (R49): A sequencer held on an empty or full data queue dispatches once an entry becomes visible or a slot frees. -/
  | dqStallEnd (k : CoreId) (q : SeqId)
  /-- SYNWAIT (R55): Waits until a synchronisation object's count reaches n, then subtracts n. -/
  | synwait (k : CoreId) (q : SeqId)
  /-- SYNWAIT_SATISFIED (R56): A waiting SYNWAIT completes in the cycle credits bring the count to its amount, and the sequencer dispatches next cycle. -/
  | synwaitSatisfied (k : CoreId) (q : SeqId)
  /-- SYNADD (R55): Adds n to an own synchronisation object. -/
  | synadd (k : CoreId) (q : SeqId)
  /-- SYNSUB (R55): Subtracts n from an own synchronisation object without waiting. -/
  | synsub (k : CoreId) (q : SeqId)
  /-- DCREATE (R166): Starts creating a descriptor on a handle: increments GEN, clears VALID and requests the image read. -/
  | dcreate (k : CoreId)
  /-- DCREATE_COMPLETE (R88): The descriptor image arrives and is validated; VALID is set only if every check passes. -/
  | dcreateComplete (k : CoreId)
  /-- DRETIRE (R166): Retires a handle by incrementing GEN and clearing VALID. -/
  | dretire (k : CoreId)
  /-- TLOAD (R169): Dispatches a transfer from slices (or local store into a data queue) into TQ. -/
  | tload (k : CoreId)
  /-- TSTORE (R169): Dispatches a transfer from own local store into slices into TQ. -/
  | tstore (k : CoreId)
  /-- FILL (R171): Dispatches a fill of every element of a writable descriptor with a register value. -/
  | fill (k : CoreId)
  /-- COPY (R171): Dispatches an element-wise raw copy between two descriptors in one memory. -/
  | copy (k : CoreId)
  /-- MSEND (R172): Dispatches a mesh message (unicast, ladle or press) from own local store. -/
  | msend (k : CoreId)
  /-- FSEND (R173): Dispatches a send of local-store bytes to a board address through a board-link or Ethernet port unit. -/
  | fsend (k : CoreId)
  /-- CAVEQ (R174): Dispatches a 32 B Cave request record to a Cave request queue. -/
  | caveq (k : CoreId)
  /-- HOSTQ (R176): Dispatches a 32 B host request record to a host request queue. -/
  | hostq (k : CoreId)
  /-- TQ_ACCEPT (R167): TQ accepts its head entry once descriptors, fill guard and occupancy allow, checking it and starting the transfer. -/
  | tqAccept (k : CoreId)
  /-- TRANSFER_COMPLETE (R167): A transfer's last byte lands, releasing its fill-guard entry and crediting its object. -/
  | transferComplete (k : CoreId) (i : Nat)
  /-- SETVL (R182): Sets VTYPE and VL in the execute sequencer and writes VL to a scalar register. -/
  | setvl (k : CoreId)
  /-- VADD (R183): Vector lane add. -/
  | vadd (k : CoreId)
  /-- VSUB (R183): Vector lane subtract. -/
  | vsub (k : CoreId)
  /-- VMUL (R183): Vector lane multiply. -/
  | vmul (k : CoreId)
  /-- VFMA (R183): Vector fused multiply-add. -/
  | vfma (k : CoreId)
  /-- VFNMA (R183): Vector fused negated multiply-add. -/
  | vfnma (k : CoreId)
  /-- VMIN (R183): Vector lane minimum. -/
  | vmin (k : CoreId)
  /-- VMAX (R183): Vector lane maximum. -/
  | vmax (k : CoreId)
  /-- VSADD (R184): Vector saturating integer add. -/
  | vsadd (k : CoreId)
  /-- VSSUB (R184): Vector saturating integer subtract. -/
  | vssub (k : CoreId)
  /-- VMULH (R184): Vector high half of integer product. -/
  | vmulh (k : CoreId)
  /-- VAND (R184): Vector bitwise AND. -/
  | vand (k : CoreId)
  /-- VOR (R184): Vector bitwise OR. -/
  | vor (k : CoreId)
  /-- VXOR (R184): Vector bitwise XOR. -/
  | vxor (k : CoreId)
  /-- VSHL (R184): Vector integer shift left. -/
  | vshl (k : CoreId)
  /-- VSHR (R184): Vector integer shift right. -/
  | vshr (k : CoreId)
  /-- VSHRR (R184): Vector rounding shift right. -/
  | vshrr (k : CoreId)
  /-- VCMP (R185): Vector compare writing all-ones or zero per lane. -/
  | vcmp (k : CoreId)
  /-- VSEL (R185): Vector per-lane select by a mask register. -/
  | vsel (k : CoreId)
  /-- VIDX (R185): Writes each lane with its index. -/
  | vidx (k : CoreId)
  /-- VCVT (R186): Converts lanes between lane types with widening or narrowing placement. -/
  | vcvt (k : CoreId)
  /-- VREDSUM (R187): Tree reduction sum into lane 0. -/
  | vredsum (k : CoreId)
  /-- VREDMAX (R187): Tree reduction maximum into lane 0. -/
  | vredmax (k : CoreId)
  /-- VREDMIN (R187): Tree reduction minimum into lane 0. -/
  | vredmin (k : CoreId)
  /-- VREDARGMAX (R188): Tree reduction of value and index pairs to the maximum and its index. -/
  | vredargmax (k : CoreId)
  /-- VPERM (R189): Permutes lanes by an index register. -/
  | vperm (k : CoreId)
  /-- VSLIDE (R189): Slides lanes by a signed amount. -/
  | vslide (k : CoreId)
  /-- VFN (R190): Applies a vector function (exp2, log2, recip, rsqrt, tanh, sigmoid, gelu) per lane. -/
  | vfn (k : CoreId)
  /-- VACC (R191): Reads accumulator tile rows into a vector register, converting by the tile's tag. -/
  | vacc (k : CoreId)
  /-- VLD (R192): Loads elements through a local-store descriptor into a vector register. -/
  | vld (k : CoreId)
  /-- VST (R192): Stores vector lanes through a local-store descriptor, optionally as a pair. -/
  | vst (k : CoreId)
  /-- VPOP (R194): Pops data-queue entries into a vector register. -/
  | vpop (k : CoreId)
  /-- VPUSH (R194): Pushes vector lanes as data-queue entries. -/
  | vpush (k : CoreId)
  /-- VQ_ACCEPT (R130): The vector engine accepts its head VQ entry when unit, operands, tile and write port allow. -/
  | vqAccept (k : CoreId) (parity : Option (Nat × Nat))
  /-- VQ_ENTRY_COMPLETE (R180): A vector entry's result becomes readable or its last byte is written, and it credits its object. -/
  | vqEntryComplete (k : CoreId) (i : Nat)
  /-- VRF_BIST_END (R136): The recovery register-file BIST ends after 65,536 cycles, returning to register mode or halting the core. -/
  | vrfBistEnd (k : CoreId) (pass : Bool)
  /-- MMUL (R196): Dispatches a matrix multiply pass on a gang of arrays into MQ. -/
  | mmul (k : CoreId)
  /-- MSTORE (R199): Dispatches a store of an accumulator tile through a writable descriptor. -/
  | mstore (k : CoreId)
  /-- MSTORE_PRESS (R200): Dispatches a send of an accumulator tile into a press tree. -/
  | mstorePress (k : CoreId)
  /-- MLDACC (R202): Dispatches a load or add of an accumulator tile from own local store. -/
  | mldacc (k : CoreId)
  /-- MCLR (R203): Dispatches a clear of the masked accumulator tiles with a tag. -/
  | mclr (k : CoreId)
  /-- MQ_ACCEPT (R112): The matrix unit accepts its head MQ entry when its arrays can take the first beat, checking it. -/
  | mqAccept (k : CoreId)
  /-- MMUL_COMPLETE (R116): A matrix operation writes its last accumulator row and credits its object. -/
  | mmulComplete (k : CoreId) (i : Nat)
  /-- CHECKSUM_COMPARE (R123): Two cycles after completion the array compares residue checksums. -/
  | checksumCompare (k : CoreId) (faults : List (Bool × Nat × Nat))
  /-- ACC_TRANSFER_COMPLETE (R204): An MSTORE, MLDACC or MCLR completes per Table 10-6 and gives its credit. -/
  | accTransferComplete (k : CoreId) (i : Nat)
  /-- ROUTINE_COUNTER_EXPIRE (R53): The routine counter reaches CYCLES; the caller may resume, or RTN_OVER is set if the routine has not returned. -/
  | routineCounterExpire (k : CoreId) (q : SeqId)
  /-- WATCHDOG (R59): A sequencer's stall count exceeds 2^WDOG_EXP, raising WATCHDOG and halting both sequencers. -/
  | watchdog (k : CoreId) (q : SeqId)
  /-- ROUTER_FLIT_FORWARD (R27): A router output forwards a competing flit that holds a credit, by VC priority and round-robin. -/
  | routerFlitForward (p : Pos) (o : Fin 6)
  /-- MESH_FLIT_DELIVER (R25): A flit is written at its destination local store and credits the message's object with 64 B. -/
  | meshFlitDeliver (p : Pos)
  /-- PRESS_NODE_REDUCE (R31): Once the same-index flit has arrived on every IN_MASK input, the node adds them in port order and sends the sum. -/
  | pressNodeReduce (p : Pos) (tree : BitVec 8)
  /-- SLICE_ACCESS_SERVE (R35): A slice serves one waiting 128 B access, round-robin by core number, after the ownership check. -/
  | sliceAccessServe (j : CoreId) (ce : List Nat) (ue : List (Nat × BitVec 64))
  /-- ECC_WRITEBACK (R147): The corrected word is written back in the next cycle the bank or slice has no granted access. -/
  | eccWriteback (w : Nat)
  /-- LOCAL_STORE_GRANT (R142): The local store grants waiting line requests in fixed priority order subject to banks and port capacity. -/
  | localStoreGrant (k : CoreId) (ce : List Nat) (ue : List (Nat × BitVec 64))
  /-- CAVE_RECORD_TAKE (R175): The edge unit takes a Cave record from its queue, checks it and starts the read. -/
  | caveRecordTake (n : Fin 16)
  /-- CAVE_RECORD_COMPLETE (R175): A Cave read finishes: STATUS is written and SYN credited with LENGTH. -/
  | caveRecordComplete (n : Fin 16) (mediaError : Bool)
  /-- HOST_RECORD_TAKE (R177): The edge unit takes a host record from its queue, checks it and starts the DMA. -/
  | hostRecordTake (n : Fin 16)
  /-- HOST_RECORD_COMPLETE (R177): A host transfer finishes: STATUS is written and SYN credited with LENGTH. -/
  | hostRecordComplete (n : Fin 16) (data : Option (List Byte))
  /-- PROGRAM_STORE_WRITE (R43): A write into a program store is taken only while both sequencers are IDLE or HALTED, else dropped with PS_WDROP. -/
  | programStoreWrite (k : CoreId) (q : SeqId) (n : BitVec 13) (v : Word)
  /-- CORE_HALT (R60): Writing CORE_CTRL.HALT halts both sequencers of the core from the next cycle. -/
  | coreHalt (who : Option FnId) (k : CoreId)
  /-- CORE_RESUME (R60): Writing CORE_CTRL.RESUME returns sequencers halted by HALT to their previous state. -/
  | coreResume (who : Option FnId) (k : CoreId)
  /-- VEC_STARTER_WRITE (R135): Writing VEC_CTRL.STARTER enters or leaves test starter mode while the core is idle or halted. -/
  | vecStarterWrite (k : CoreId) (v : Bool)
  /-- STEP_BOUNDARY (R220): A partition takes boundary S at the first tick at or after nominal with every sequencer ready, starting step S. -/
  | stepBoundary (p : PartId)
  /-- PT_BREAK_WRITE (R221): Writing PT_BREAK sets or clears a break, letting a stopped partition take its boundary. -/
  | ptBreakWrite (who : Option FnId) (p : PartId) (v : BitVec 64)
  /-- DEADLINE_MONITOR_TEST (R232): An armed monitor tests its event in the first cycle of tick D. -/
  | deadlineMonitorTest (p : PartId) (n : MonId)
  /-- DEADLINE_EVENT_LATE (R232): A missed event finally occurs and DL_LAST.LATE is written. -/
  | deadlineEventLate (p : PartId) (n : MonId)
  /-- DL_CFG_WRITE (R231): A write to DL_CFG changes only EN while armed, else rewrites the monitor. -/
  | dlCfgWrite (p : PartId) (n : MonId) (v : BitVec 64)
  /-- MSG_LOCKSTEP_RECORD (R236): A partner's lock-step record arrives and is compared with the own record for the same step. -/
  | msgLockstepRecord (p : PartId) (step : Nat) (digs : List Nat)
  /-- LS_WAIT_EXPIRE (R236): The partner's record has not arrived within LS_WAIT, recording LOCKSTEP_DIVERGE with NO_PARTNER. -/
  | lsWaitExpire (p : PartId) (step : Nat)
  /-- SYNC_EXCHANGE_SEND (R222): Every 4,096 ticks a port sends a sync word with timestamp, priority, root serial and hops. -/
  | syncExchangeSend (u : PortId)
  /-- SYNC_WORD_RECEIVE (R223): A received sync word updates the parent choice and, on the parent port, θ and the Turn correction. -/
  | syncWordReceive (u : PortId) (prio root hops : Nat) (t1 t2 t3 t4 : Nat)
  /-- PTP_MESSAGE (R226): A root anchoring to PTP takes a PTP message and slews the Turn toward PTP time. -/
  | ptpMessage (u : PortId) (ns : Nat)
  /-- DROOP_STRETCH (R377): A region's supply droops and its generator stretches the next cycle. -/
  | droopStretch (r : RegionId) (half : Bool)
  /-- XING_RESTART (R378): At the tick mark the slipped regions restart in phase and held flits pass on. -/
  | xingRestart
  /-- REF_LOSS (R379): A REFCLK edge count outside 56–69 raises REF_LOSS; the Turn enters HOLDOVER on the RC estimate. -/
  | refLoss (count : Nat)
  /-- REFCLK_RESTORED (R380): After 16 good windows the generators relock and the Turn returns to its prior state. -/
  | refclkRestored
  /-- REF_LOSS_TIMEOUT (R380): REFCLK not restored within 1 s records REF_LOSS with class DEVICE. -/
  | refLossTimeout
  /-- CLK_FSTEP_WRITE (R382): A write of CLK_FSTEP requests a frequency step, checked against every Mould's FMIN–FMAX. -/
  | clkFstepWrite (v : BitVec 32)
  /-- FREQ_SWITCH (R382): At T_S every region changes synthesiser and held partitions take their boundary at the new frequency. -/
  | freqSwitch
  /-- THERMAL_FORCE (R383): A hot sensor or excess power forces a one-code-slower step, repeated every 100 ms. -/
  | thermalForce
  /-- FREQ_RAISE (R383): After 1 s below the limits firmware raises the step code by one toward CLK_FSTEP.REQ. -/
  | freqRaise
  /-- TELEMETRY_SAMPLE (R392): Every 1 ms the device samples input power and 55 temperature sensors. -/
  | telemetrySample (vin iin pin pavg : Nat) (temps : List Int)
  /-- THERMAL_TRIP (R392): A sensor at 108 °C turns the compute rails off within 1 ms and records a DEVICE-class THERMAL_STEP. -/
  | thermalTrip (sensor : Nat) (temp : Int)
  /-- SUPPLY_INHIBIT (R384): The input falls below 33.0 V, inhibiting new non-volatile writes and recording SUPPLY_SAG. -/
  | supplyInhibit (mv : Nat)
  /-- SUPPLY_INHIBIT_RELEASE (R384): The input rises to 33.5 V and the write inhibit is released. -/
  | supplyInhibitRelease (mv : Nat)
  /-- ORDERLY_STOP (R385): The input falls below 31.0 V; the device halts, gates, takes links down and enters STANDBY. -/
  | orderlyStop (mv : Nat)
  /-- SUPPLY_RECOVER (R385): After an orderly stop the input recovers above 33.5 V and a full device reset starts. -/
  | supplyRecover (mv : Nat)
  /-- UVLO_OFF (R384): The input falls below 29.0 V and the module turns off. -/
  | uvloOff (mv : Nat)
  /-- UVLO_ON (R384): The input rises above 30.0 V and the module leaves lockout. -/
  | uvloOn (mv : Nat)
  /-- OVERVOLTAGE (R384): The input exceeds 42.0 V and the input switch opens within 1 µs. -/
  | overvoltage (mv : Nat)
  /-- OVERVOLTAGE_RECOVER (R384): The input returns below 40.0 V and the module restarts as from power-on. -/
  | overvoltageRecover (mv : Nat)
  /-- PRECHARGE_MATE (R386): Ground and pre-charge mate and the input capacitance charges at no more than 2 A. -/
  | prechargeMate
  /-- INPUT_SWITCH_CLOSE (R386): With the capacitance within 2 V and the enable mated, the main input switch closes. -/
  | inputSwitchClose (capMv inMv : Nat)
  /-- ENABLE_BREAK (R386): On removal the enable pin breaks first and an orderly stop begins. -/
  | enableBreak
  /-- HOLDUP_MEASURE (R390): At start-up and every 24 hours firmware measures the hold-up bank capacitance. -/
  | holdupMeasure (dvUv vbMv : Nat)
  /-- NV_WRITE_START (R391): A waiting non-volatile write starts once inhibit is clear and usable energy covers 1.5 times its need. -/
  | nvWriteStart (id vbMv : Nat)
  /-- HOLDUP_LOW (R300): A write whose next commit has waited 100 ms completes with HOLDUP_LOW. -/
  | holdupLow (id : Nat)
  /-- REGION_WAKE_START (R389): At T0+S·STEP_PERIOD−WAKE_LEAD a sleeping partition's regions begin waking. -/
  | regionWakeStart (p : PartId)
  /-- REGION_WAKE_END (R388): A region's wake completes and its cores may run. -/
  | regionWakeEnd (r : RegionId)
  /-- REGION_SLEEP (R389): After AWAKE ticks with every sequencer in STEP_WAIT the partition's regions sleep. -/
  | regionSleep (p : PartId)
  /-- DEVICE_RESET_END (R393): Device reset ends 10 ms after its causes clear; the Turn is 0, straps are sampled and the ROM starts. -/
  | deviceResetEnd (bifur : BitVec 2) (slot : BitVec 3)
  /-- MEMORY_BIST_END (R395): Memory BIST ends, zeroing memories; starter mode ends and the good-position list and distance table are built. -/
  | memoryBistEnd (bad : List Pos) (routerFail : Bool)
  /-- FW_READY (R348): Firmware becomes ready and functions stop answering with Request Retry Status. -/
  | fwReady
  /-- KEY_RELOAD_END (R374): Persisted keys are reloaded from the Cave and KEYS_LOADED is set, releasing deferred key checks. -/
  | keyReloadEnd
  /-- IDENTITY_READY (R371): The PUF key is checked and signing state rebuilt, setting ID_READY or ID_FAIL. -/
  | identityReady (ok : Bool)
  /-- MOD_RST_N_ASSERT (R347): The board drives MOD_RST_N low and a full device reset starts. -/
  | modRstNAssert
  /-- HIF_RESET (R347): Writing the reset key to HIF_RESET starts a full device reset. -/
  | hifReset (f : FnId) (v : BitVec 32)
  /-- REC_GO (R366): Writing REC_CTRL.GO in recovery starts a firmware download, verification and programming. -/
  | recGo (f : FnId) (image : Option (List Byte))
  /-- PERST_DEASSERT (R348): A function's PERST_Nk is released; it answers RRS until firmware is ready. -/
  | perstDeassert (f : FnId)
  /-- CONFIG_REQUEST (R348): A host configuration request is answered, with Request Retry Status while the function is not ready. -/
  | configRequest (f : FnId)
  /-- FUNCTION_LEAVE (R345): A function leaves on PERST, hot reset, link down or disable, D3hot or cleared enables. -/
  | functionLeave (f : FnId) (why : LeaveWhy)
  /-- FUNCTION_WEDGED (R346): A teardown not complete 1 s after leaving leaves the function wedged until full reset. -/
  | functionWedged (f : FnId)
  /-- BAR0_ACCESS (R334): A host access to BAR0 is served, or refused for wrong size or reserved range. -/
  | bar0Access (f : FnId) (off size : Nat) (write : Bool) (v : BitVec 64)
  /-- REGISTER_WRITE (R413): A write to a register without its own row applies to RW and W1C fields as permitted. -/
  | registerWrite (who : Option FnId) (off size : Nat) (v : BitVec 64)
  /-- BAR2_ACCESS (R337): An owner's BAR2 access is served in range or forwarded to another slot on class MGMT. -/
  | bar2Access (f : FnId) (addr len : Nat) (write : Bool) (data : List Byte)
  /-- BAR2_FORWARD_TIMEOUT (R337): A forwarded BAR2 read unanswered within 10 ms completes with Completer Abort. -/
  | bar2ForwardTimeout (f : FnId)
  /-- HART_WINDOW_ACCESS (R358): A hart accesses the device window, with an access fault on refusal or RESTART on pre-emption. -/
  | hartWindowAccess (hart : Fin 4) (addr size : Nat) (write : Bool) (v : BitVec 64) (preempted : Bool)
  /-- DB_CMD_SQ_TAIL (R343): A doorbell write sets the command queue tail. -/
  | dbCmdSqTail (f : FnId) (v : BitVec 32)
  /-- DB_CMD_CQ_HEAD (R340): A doorbell write sets the completion ring head, freeing room for held completions. -/
  | dbCmdCqHead (f : FnId) (v : BitVec 32)
  /-- DB_CTX_SQ_TAIL (R342): A doorbell write sets a context queue's tail, sampled at the next sampling point. -/
  | dbCtxSqTail (f : FnId) (c : Fin 16) (v : BitVec 32)
  /-- DB_TOKEN_RING_HEAD (R325): A doorbell write sets a context's token ring head, freeing room. -/
  | dbTokenRingHead (f : FnId) (c : Fin 16) (v : BitVec 32)
  /-- DB_LOG_RING_HEAD (R342): A doorbell write sets an admission log ring head, from the opening function only. -/
  | dbLogRingHead (f : FnId) (c : Fin 16) (v : BitVec 32)
  /-- HIF_CTRL_EN (R338): Writing HIF_CTRL.EN starts or stops fetching from the command queue pair. -/
  | hifCtrlEn (f : FnId) (v : BitVec 32)
  /-- OPEN_CTX (R307): Opens a serving context with its token ring, vector and context queue. -/
  | openCtx (f : FnId) (e : BitVec 512) (data : Option (List Byte))
  /-- CLOSE_CTX (R307): Closes a context, cancelling its active requests. -/
  | closeCtx (f : FnId) (e : BitVec 512)
  /-- CANCEL (R326): Cancels a request by TAG at its sampling point. -/
  | cancel (f : FnId) (e : BitVec 512)
  /-- PREFIX_RELEASE (R317): Removes a prefix handle's registration reference. -/
  | prefixRelease (f : FnId) (e : BitVec 512)
  /-- DRAIN (R329): Stops admission to a partition and completes when no request is active. -/
  | drain (f : FnId) (e : BitVec 512)
  /-- OPEN_LOG (R330): Opens an admission log ring for a partition. -/
  | openLog (f : FnId) (e : OpenLogCmd)
  /-- CLOSE_LOG (R330): Closes a partition's admission log ring. -/
  | closeLog (f : FnId) (e : BitVec 512)
  /-- LOAD_MOULD (R246): Requests a Mould load from host memory or the Cave with T0 and REPLAY. -/
  | loadMould (f : FnId) (e : BitVec 512) (data : Option (List Byte))
  /-- START (R251): Starts a partition waiting in READY with a deferred T0. -/
  | start (f : FnId) (e : BitVec 512)
  /-- UNLOAD (R253): Unloads partitions: halts, cancels loads, removes tables, clears memories and returns them to phase 0. -/
  | unload (f : FnId) (e : BitVec 512)
  /-- LOAD_WEIGHTS (R293): Requests a BASE or VARIANT weight image load. -/
  | loadWeights (f : FnId) (e : BitVec 512)
  /-- SWITCH (R283): Requests a live fabric epoch switch at step S. -/
  | switch (f : FnId) (e : BitVec 512)
  /-- HOLD (R288): Requests a hold at step S with a change list. -/
  | hold (f : FnId) (e : BitVec 512) (data : Option (List Byte))
  /-- SUBSTITUTE (R289): Substitutes the device serial of a member index. -/
  | substitute (f : FnId) (e : BitVec 512)
  /-- FAILOVER (R287): Host-requested failover of a lost member. -/
  | failover (f : FnId) (e : BitVec 512)
  /-- WRITE_FABRIC (R282): Rewrites the inactive version of the fabric table. -/
  | writeFabric (f : FnId) (e : BitVec 512) (data : Option (List Byte))
  /-- DUMP (R239): Dumps a tensor by descriptor image from a core to host memory. -/
  | dump (f : FnId) (e : BitVec 512) (data : Option (List Byte))
  /-- KEY_INSTALL (R294): Installs a publisher key, optionally persisted in the Cave. -/
  | keyInstall (f : FnId) (e : BitVec 512) (data : Option (List Byte))
  /-- KEY_REMOVE (R295): Removes a publisher key by digest. -/
  | keyRemove (f : FnId) (e : BitVec 512) (data : Option (List Byte))
  /-- ATTEST (R372): Builds and signs the attestation report with a nonce. -/
  | attest (f : FnId) (e : BitVec 512)
  /-- RETIRE (R19): Adds a physical position to the retired list, or refuses. -/
  | retire (f : FnId) (e : BitVec 512)
  /-- DISTANCE (R40): Returns the distance table. -/
  | distance (f : FnId) (e : BitVec 512)
  /-- CAVE_READ (R300): Reads Cave bytes into host memory. -/
  | caveRead (f : FnId) (e : BitVec 512)
  /-- CAVE_WRITE (R302): Writes host bytes into the Cave in commits. -/
  | caveWrite (f : FnId) (e : BitVec 512) (data : Option (List Byte))
  /-- TURN_PRIO (R222): Sets the device's Turn root priority. -/
  | turnPrio (f : FnId) (e : BitVec 512)
  /-- OPEN_CHAN (R176): Opens a host channel window for a partition. -/
  | openChan (f : FnId) (e : BitVec 512)
  /-- CLOSE_CHAN (R176): Closes a host channel. -/
  | closeChan (f : FnId) (e : BitVec 512)
  /-- SUBMIT (R308): Submits a request record through a context queue. -/
  | submit (f : FnId) (c : Fin 16) (e : BitVec 512) (record : Option (List Byte)) (prompt : Option (List Nat))
  /-- SUBMIT_PREFIX (R316): Submits a PREFIX_REGISTER record through a context queue. -/
  | submitPrefix (f : FnId) (c : Fin 16) (e : BitVec 512) (record : Option (List Byte)) (prompt : Option (List Nat))
  /-- SAMPLING_POINT (R312): At member 0's sampling point firmware retires, applies commands, admits and builds the step's plan. -/
  | samplingPoint (p : PartId)
  /-- MODERATE_EXPIRE (R324): After MODERATE ticks firmware raises the context's interrupt vector. -/
  | moderateExpire (f : FnId) (c : Fin 16)
  /-- MSG_PLAN (R312): A PLAN message from member 0 places PLAN(S) in a member's plan buffer. -/
  | msgPlan (h : MHdr) (step : Nat) (rows : List (BitVec 64))
  /-- MOULD_LAST_BYTE (R248): The last Mould byte arrives and firmware runs the checks and installs the partition. -/
  | mouldLastByte (p : PartId) (image : Option (List Byte))
  /-- MSG_MOULD_OFFER (R250): A neighbour's Mould offer is taken or refused with NOT_ADMITTED. -/
  | msgMouldOffer (u : PortId) (h : MHdr) (header : List Byte) (t0 : Nat) (replay : Bool)
  /-- MOULD_OFFER_RETRY (R397): A refused offer is repeated every 10 ms. -/
  | mouldOfferRetry (p : PartId)
  /-- MSG_LOAD_RESULT (R249): Member 0 collects a member's load result. -/
  | msgLoadResult (h : MHdr) (status : Nat)
  /-- MSG_COMMIT (R249): COMMIT arrives and the member leaves phase MEMBERS. -/
  | msgCommit (h : MHdr)
  /-- MSG_ABANDON (R249): ABANDON returns a member to phase 0 with MEMBER_REFUSED. -/
  | msgAbandon (h : MHdr) (member : Nat)
  /-- MSG_CANCELLED (R253): CANCELLED spreads the cancellation of a load to every member. -/
  | msgCancelled (h : MHdr)
  /-- MSG_START (R251): A start request passed on carries T0 to each member. -/
  | msgStart (h : MHdr) (t0 : Nat)
  /-- MOULD_LOAD_TIMEOUT (R249): A missing result after LOAD_TIMEOUT abandons the load with MEMBER_TIMEOUT. -/
  | mouldLoadTimeout (p : PartId)
  /-- START_LATE (R251): A load not READY by T0−64 is abandoned on every member. -/
  | startLate (p : PartId)
  /-- WEIGHT_MANIFEST_ARRIVE (R292): A weight manifest arrives and is checked. -/
  | weightManifestArrive (p : PartId) (manifest : List Byte)
  /-- SHARD_COMPLETE (R297): A kept shard's last byte passes and its digest is checked. -/
  | shardComplete (p : PartId) (id : Nat) (data : List Byte)
  /-- WEIGHT_END_MARKER (R296): The END marker passes; Cave shards are read and digested and missing shards found. -/
  | weightEndMarker (p : PartId)
  /-- WEIGHT_LOAD_TIMEOUT (R297): No image byte for LOAD_TIMEOUT raises SHARD_MISSING for pending shards. -/
  | weightLoadTimeout (p : PartId)
  /-- MSG_SHARD_REQUEST (R297): A repair-ladder shard request is served or relayed upstream. -/
  | msgShardRequest (h : MHdr) (id attempt : Nat)
  /-- MSG_WEIGHTS_OK (R298): Member 0 collects a member's WEIGHTS_OK. -/
  | msgWeightsOk (h : MHdr)
  /-- MSG_SHARD_FAILED (R298): A member reports an exhausted shard, and member 0 abandons. -/
  | msgShardFailed (h : MHdr) (id : Nat)
  /-- MSG_WEIGHT_COMMIT (R298): Weight COMMIT makes the new image used from the next boundary. -/
  | msgWeightCommit (h : MHdr)
  /-- MSG_WEIGHT_ABANDON (R298): Weight ABANDON leaves the partition in LOADING with status FAILED. -/
  | msgWeightAbandon (h : MHdr)
  /-- MSG_STEPDONE (R286): Member 0 collects STEPDONE(S). -/
  | msgStepdone (h : MHdr) (s : Nat)
  /-- MSG_GO (R286): GO(S) lets the member take boundary S+1. -/
  | msgGo (h : MHdr) (s : Nat)
  /-- MEMBER_LOST (R287): A member with a live partner is found lost, starting failover. -/
  | memberLost (p : PartId) (x : Nat)
  /-- MSG_LOST (R287): LOST(x) makes a survivor halt, discard, reset cores and alias x to its partner. -/
  | msgLost (h : MHdr) (x : Nat)
  /-- MSG_READY (R287): The coordinator collects READY with PT_STEP. -/
  | msgReady (h : MHdr) (s : Nat)
  /-- MSG_RESTART (R287): RESTART(S,T) sets PT_T0 and every member takes boundary S at T. -/
  | msgRestart (h : MHdr) (s t : Nat)
  /-- SURVIVOR_TIMEOUT (R287): A survivor not READY within LOAD_TIMEOUT is treated as lost. -/
  | survivorTimeout (p : PartId) (x : Nat)
  /-- MSG_HOLD (R288): HOLD(S) makes each member stop before boundary S. -/
  | msgHold (h : MHdr) (s : Nat)
  /-- HOLD_QUIET (R288): A held member's port units empty of the FPID's packets and it reports HELD. -/
  | holdQuiet (p : PartId)
  /-- MSG_HELD (R288): Member 0 collects HELD and applies the changes. -/
  | msgHeld (h : MHdr)
  /-- MSG_RESUME (R288): RESUME(T) makes every member take boundary S at T. -/
  | msgResume (h : MHdr) (t : Nat) (changes : List (Nat × Nat × Nat))
  /-- HOLD_TIMEOUT (R288): A member not HELD within LOAD_TIMEOUT makes member 0 abandon the hold. -/
  | holdTimeout (p : PartId)
  /-- MSG_SWITCH (R283): SWITCH is passed on and the member arms its epoch change for boundary S. -/
  | msgSwitch (h : MHdr) (s : Nat)
  /-- MSG_STATE_COPY (R289): State copy bytes from the partner are written during a hold. -/
  | msgStateCopy (h : MHdr) (addr : Nat) (data : List Byte)
  /-- MSG_BAR2_ACCESS (R337): A forwarded BAR2 access is range-checked and answered. -/
  | msgBar2Access (h : MHdr) (addr len : Nat) (write : Bool) (data : List Byte)
  /-- PORT_UNIT_TAKE (R278): A port unit takes an outgoing packet, resolves DST and stamps the epoch. -/
  | portUnitTake (u : PortId)
  /-- FABRIC_PACKET_ARRIVE (R277): An arriving packet is checked and written, entered into a press tree, or relayed. -/
  | fabricPacketArrive (u : PortId) (pk : Packet)
  /-- FLIT_RECEIVE (R262): A board link receives a HEAD or CONT flit and delivers or discards it per sequence and CRC. -/
  | flitReceive (u : PortId) (flit : BitVec 2048)
  /-- NAK_RECEIVE (R262): A sender receiving NAK resends from the named sequence. -/
  | nakReceive (u : PortId) (seq : BitVec 12)
  /-- REPLAY_TIMEOUT (R262): REPLAY_TIMEOUT expires and the sender resends or the receiver renews its NAK. -/
  | replayTimeout (u : PortId)
  /-- RETRAIN_WINDOW_EXPIRE (R264): A retrained port not restored within 1 ms discards its replay buffer and stays DOWN. -/
  | retrainWindowExpire (u : PortId)
  /-- DATAGRAM_RECEIVE (R267): An Ethernet port receives a UDP datagram with segment header and flits. -/
  | datagramReceive (u : PortId) (peer : Nat) (sumOk : Bool) (seg : BitVec 128) (flits : List (BitVec 2048))
  /-- SEGMENT_TIMEOUT (R268): A 20 µs segment timeout resends from the oldest unacknowledged flit. -/
  | segmentTimeout (u : PortId) (peer : Nat)
  /-- PFC_FRAME_RECEIVE (R266): A received PFC frame pauses or resumes a lossless priority. -/
  | pfcFrameReceive (u : PortId) (prio quanta : Nat)
  /-- PFC_REPEAT (R266): Every 20 µs while a buffer stays low the PFC frame is repeated. -/
  | pfcRepeat (u : PortId) (cls : Fin 2)
  /-- LINK_TRAIN_RETRY (R269): Every 100 ms a DOWN port retries electrical training. -/
  | linkTrainRetry (u : PortId)
  /-- LINK_LOSS (R269): A port loses lock and restarts training from step 1. -/
  | linkLoss (u : PortId)
  /-- LNK_RETRAIN (R269): Writing LNK_CTRL.RETRAIN restarts training at step 1. -/
  | lnkRetrain (u : PortId)
  /-- LNK_DISABLE (R269): Writing LNK_CTRL.DISABLE holds the port down or releases it. -/
  | lnkDisable (u : PortId) (v : Bool)
  /-- IDENTITY_RECEIVE (R272): An identity block arrives, is acknowledged and drives revision negotiation and admission. -/
  | identityReceive (u : PortId) (b : Identity)
  /-- IDENTITY_RESEND (R261): IDENTITY unacknowledged after 1 ms is sent again. -/
  | identityResend (u : PortId)
  /-- RTT_PROBE_RECEIVE (R269): An RTT probe is answered with an RTT reply. -/
  | rttProbeReceive (u : PortId) (stamp : Nat)
  /-- RTT_REPLY_RECEIVE (R269): RTT replies set LNK_RTT after eight probes. -/
  | rttReplyReceive (u : PortId) (rtt : Nat)
  /-- REFUSE_RECEIVE (R260): A REFUSE control flit reports a packet refused by the peer. -/
  | refuseReceive (u : PortId) (seq reason : Nat)
  /-- ARB_REQUEST (R351): A requester contends and the arbiter draws a winner by tickets. -/
  | arbRequest (a : ArbId) (reqs locks : BitVec 16)
  /-- QUANTUM_EXPIRE (R353): An unlocked grant held for QUANTUM ticks with a waiter is taken back. -/
  | quantumExpire (a : ArbId)
  /-- ARB_LOCK_DROP (R352): The holder drops LOCK, ending its locked sequence. -/
  | arbLockDrop (a : ArbId)
  /-- ARB_MASK (R355): A requester enters reset or loses power and its grant is abandoned. -/
  | arbMask (a : ArbId) (i : Fin 16)
  /-- MGMT_READ (R424): The management target answers a READ of shadow registers. -/
  | mgmtRead (off count : Nat)
  /-- MGMT_WRITE_BOARD (R424): WRITE_BOARD sets ID_BOARD, causing ports to resend IDENTITY. -/
  | mgmtWriteBoard (v : BitVec 64)
  /-- SHADOW_REFRESH (R425): Every 1 ms firmware refreshes the management target's register shadows. -/
  | shadowRefresh
  /-- JTAG_INSTRUCTION (R426): A boundary-scan instruction is loaded and acted on, as BYPASS when not allowed. -/
  | jtagInstruction (i : JtagOp)
  /-- NV_WRITE_COMPLETE (R391): A started Cave commit or SPI erase or program finishes, releasing its hold-up need and letting the operation waiting on it go on. -/
  | nvWriteComplete (id : Nat)
  /-- PCS_ALIGNMENT_FEC_LOCK (R269): A training port achieves electrical training, PCS alignment and FEC lock and goes on to the IDLE exchange and IDENTITY. -/
  | pcsAlignmentFecLock (u : PortId)
  /-- ROM_JUMP_TO_FIRMWARE (R365): The boot ROM finishes reading and verifying the firmware image, releases harts 1-3 and jumps to firmware, or enters recovery. -/
  | romJumpToFirmware (sfdp : Bool) (header body : List Byte)
  /-- CAVE_READY (R396): The Cave finishes its start-up, sets CAVE_STATUS.READY, and ARB_CAVE begins granting held requests. -/
  | caveReady (chFail : BitVec 16)
  /-- LONG_LOCK (R353): A locked grant outlasts 16 quanta and ARB_STATUS.LONG_LOCK is set, while the lock is kept. -/
  | longLock (a : ArbId)
  /-- SHARD_ATTEMPT_TIMEOUT (R297): A repair-ladder attempt brings no last byte within LOAD_TIMEOUT, raising SHARD_MISSING again and moving to the next attempt or to SHARD_FAILED. -/
  | shardAttemptTimeout (p : PartId) (id : Nat)
  deriving DecidableEq, Repr

end Sys2Proof
end

