-- ==== Sys2Proof/Decode.lean ====
section
/-! DEFINITION. What a table word spells: the table gives no row any bits, so no word spells a command. -/

namespace Sys2Proof

/-- The command that a word of `nbits` bits spells by spec/opcode_table.json: every row's `fields` is empty, so none. -/
def decodeTableWord (_nbits _w : Nat) : Option Instr := none

end Sys2Proof
end

