-- ==== Sys2Proof/Config.lean ====
section
/-! DEFINITION. What one device fixes and the manual leaves open: constants without a body, of which no proof can see a
value. -/

namespace Sys2Proof.Config

/-- Free values: the n-th open value the machine meets (log entry 4). -/
opaque freeValue : Nat → BitVec 64

/-- The root key hash in the boot ROM (R365, Table 20-1). -/
opaque rootKeyHash : Nat

/-- The identity signature over a digest with a leaf (R369, R372): 5,605 bytes (log entry 12). -/
opaque idSign : Nat → Nat → List Byte

/-- The device serial in the identity public data of the SPI flash (ID_SERIAL). -/
opaque idSerial : BitVec 64

/-- The XMSS^MT public key in the identity public data (R372). -/
opaque idPublic : List Byte

/-- The sign of gelu's zero where its interpolation is exactly 0 is not given (log entry 13). -/
opaque geluZeroSign : Nat → Bool

end Sys2Proof.Config
end

