-- ==== Sys2Proof/Machine/Maps.lean ====
section
/-! DEFINITION. Sparse tables and the byte memory: the operations every other file uses to read and write them. -/

namespace Sys2Proof.Machine

/-- Read a sparse table; `d` is what an unlisted key holds. -/
def lk {α : Type} (d : α) : SMap α → Nat → α
  | [], _ => d
  | (k, v) :: r, n => if n = k then v else lk d r n

/-- Write a sparse table, keeping its keys rising. -/
def up {α : Type} : SMap α → Nat → α → SMap α
  | [], n, v => [(n, v)]
  | (k, w) :: r, n, v =>
    if n = k then (n, v) :: r
    else if n < k then (n, v) :: (k, w) :: r
    else (k, w) :: up r n v

/-- Remove a key of a sparse table. -/
def del {α : Type} (m : SMap α) (n : Nat) : SMap α := m.filter (fun e => decide (e.1 ≠ n))

/-- A byte memory: (address, byte) pairs, addresses strictly rising, no byte 0. An unlisted byte reads 0 (R148, R395). -/
abbrev Memory := List Host.Cell

/-- Read one byte. -/
def Memory.rd : Memory → Nat → Byte
  | [], _ => 0
  | (k, v) :: r, a => if a = k then v else Memory.rd r a

/-- Write one byte, keeping the canonical form: a byte 0 is not listed. -/
def Memory.wr : Memory → Nat → Byte → Memory
  | [], a, b => if b = 0 then [] else [(a, b)]
  | (k, w) :: r, a, b =>
    if a < k then (if b = 0 then (k, w) :: r else (a, b) :: (k, w) :: r)
    else if a = k then (if b = 0 then r else (a, b) :: r)
    else (k, w) :: Memory.wr r a b

/-- Set every byte of [lo, hi] to 0. -/
def Memory.clr (m : Memory) (lo hi : Nat) : Memory := m.filter (fun c => decide (c.1 < lo ∨ hi < c.1))

/-- The canonical form: addresses strictly rising and no byte 0. -/
abbrev Memory.wf (m : Memory) : Prop :=
  m.Pairwise (fun a b => a.1 < b.1) ∧ ∀ c ∈ m, c.2 ≠ 0

/-- The n bytes at address a, lowest address first. -/
def Memory.bytes (m : Memory) (a : Nat) : Nat → List Byte
  | 0 => []
  | n + 1 => m.rd a :: Memory.bytes m (a + 1) n

/-- Bytes as a number, little-endian (R3). -/
def leNat : List Byte → Nat
  | [] => 0
  | b :: r => b.toNat + 256 * leNat r

/-- The n low bytes of a number, little-endian (R3). -/
def natLe (v : Nat) : Nat → List Byte
  | 0 => []
  | n + 1 => BitVec.ofNat 8 v :: natLe (v / 256) n

/-- The n-byte little-endian number at address a. -/
def Memory.num (m : Memory) (a n : Nat) : Nat := leNat (m.bytes a n)

/-- Where an address goes when ranges (first, last, new first) move. -/
def movedTo (l : List (Nat × Nat × Nat)) (a : Nat) : Nat :=
  match l.find? (fun r => decide (r.1 ≤ a ∧ a ≤ r.2.1)) with
  | some r => r.2.2 + (a - r.1)
  | none => a

/-- Move ranges of addresses, all at once. -/
def Memory.move (m : Memory) (l : List (Nat × Nat × Nat)) : Memory := m.foldl (fun a c => a.wr (movedTo l c.1) c.2) []

/-- One change of a memory: a byte of the device's SRAM, a cleared range of it, ranges of it that take other addresses, a byte of the
Cave's flash. -/
inductive MemOp where
  | wr (a : Nat) (b : Byte)
  | clr (lo hi : Nat)
  | move (l : List (Nat × Nat × Nat))
  | cave (a : Nat) (b : Byte)
  deriving DecidableEq, Repr

/-- The effect of one change on the SRAM. -/
def MemOp.onMem (m : Memory) : MemOp → Memory
  | .wr a b => m.wr a b
  | .clr lo hi => m.clr lo hi
  | .move l => m.move l
  | .cave _ _ => m

/-- The effect of one change on the Cave's flash. -/
def MemOp.onCave (m : Memory) : MemOp → Memory
  | .cave a b => m.wr a b
  | _ => m

/-- Write the bytes `bs` from address a on. -/
def wrBytes (a : Nat) : List Byte → List MemOp
  | [] => []
  | b :: r => .wr a b :: wrBytes (a + 1) r

/-- Write the bytes `bs` from Cave address a on. -/
def caveBytes (a : Nat) : List Byte → List MemOp
  | [] => []
  | b :: r => .cave a b :: caveBytes (a + 1) r

/-- A masked byte write: the bits of `mask` take the new value, the others keep the old one (R141). -/
def maskByte (old mask val : Byte) : Byte := (old &&& ~~~mask) ||| (val &&& mask)

/-- Bits [hi:lo] of a number. -/
def bits (v hi lo : Nat) : Nat := (v / 2 ^ lo) % 2 ^ (hi + 1 - lo)

/-- Bit n of a number. -/
def bit (v n : Nat) : Bool := (v / 2 ^ n) % 2 == 1

/-- The n low bits of v as a signed number. -/
def sext (v n : Nat) : Int := if bit v (n - 1) then (v % 2 ^ n : Nat) - 2 ^ n else (v % 2 ^ n : Nat)

/-- ⌈a/b⌉. -/
def cdiv (a b : Nat) : Nat := (a + b - 1) / b

/-- A Bool as a number. -/
def b2n (b : Bool) : Nat := if b then 1 else 0

/-- A counter that saturates at its largest value. -/
def satAdd {w : Nat} (c : BitVec w) (n : Nat) : BitVec w :=
  if c.toNat + n ≥ 2 ^ w then BitVec.allOnes w else c + BitVec.ofNat w n

end Sys2Proof.Machine
end

