-- ==== Sys2Proof/Machine/DevTypes.lean ====
section
/-! DEFINITION. The whole of the device's state but the bytes of its memories and the queue of waiting commands. -/

namespace Sys2Proof.Machine

/-- Everything the device holds beside the bytes of SRAM and Cave: see INVENTORY.md, State, for each item's rule and
reset value. `cyc` is the arithmetic cycle within the tick, `free` the model's counter for free values, `out` the
model's record of what left the device (newest first), `rst` whether device reset is asserted. Keys: `cores` by core
number, `edge` by object number, `parts` by partition, `ports` by PortId, `arbs` by instance, `funcs` by function,
the queues by queue number. `wtLast` is what WT_STATUSp reads on once the Mould it told of is gone,
`joinAs` the member index that a substitution gave this device before it holds the Mould (R289). -/
structure Dev where
  cyc : Nat
  rst : Bool
  cores : SMap Core
  net : Net
  edge : SMap (BitVec 32)
  parts : SMap PartTime
  turn : Turn
  errs : Errs
  moulds : List Mould
  loads : List Load
  offers : List Offer
  clk : Clk
  pwr : Pwr
  crm : Crm
  flash : Cave
  caveQ : SMap (List ReqRec)
  hostQ : SMap (List ReqRec)
  caveSrv : SMap (Option Serving)
  hostSrv : SMap (Option Serving)
  chans : List Chan
  funcs : SMap Func
  ports : SMap Port
  arbs : SMap Arb
  fabDrop : SMap (BitVec 32)
  bar2 : List Bar2Wait
  wtLast : SMap (BitVec 64)
  joinAs : Option Nat
  serial : BitVec 64
  board : BitVec 64
  bifur : BitVec 2
  slot : BitVec 3
  shadows : SMap (BitVec 64)
  jtag : JtagInstr
  free : Nat
  out : List Out
  deriving DecidableEq, Repr

end Sys2Proof.Machine
end

