-- ==== Sys2Proof/Machine/Reset.lean ====
section
/-! DEFINITION. What every part of the device holds at reset (R148, R217, R393, R395, R409, R414 and the reset column of
every register map). Where the manual gives no value the one taken here is the assumption log's entry 2 (zero, empty),
6, 7, 8, 10 or 11: DESIGN CHOICE or PRESUMED, as that entry says. -/

namespace Sys2Proof.Machine

/-- A sequencer: IDLE at word 0, loop levels empty, s1 to s31 zero (R58, log entry 2). -/
def Seq.reset : Seq :=
  { regs := [], pc := 0, st := .idle, haltBy := .nothing, saved := .idle, loops := [], rtn := none, ended := false,
    stallRun := 0,
    disp := 0, stalls := 0 }

/-- Descriptor fields at 0 (R87). -/
def DescF.zero : DescF :=
  { base := 0, fmt := 0, xform := 0, r := false, w := false, ndim := 0, size := [], stride := [],
    ext := ⟨0, 0, 0, 0, 0, 0, 0, 0, 0, 0, 0⟩, compat := false }

/-- A table entry that is not valid, GEN 0 (R87). -/
def DescEntry.reset : DescEntry := ⟨false, 0, DescF.zero, none⟩

/-- An accumulator tile at 0 with tag FP32 (R125, MX_ACCTAG). -/
def Tile.reset : Tile := ⟨0, []⟩

/-- The matrix unit: MX_CFG 0x0000_0001, MX_STATUS 0 (chapter "Matrix unit", R125). -/
def Matrix.reset : Matrix :=
  { acc := [], statActive := [], statShadow := [], cellActive := [], cellShadow := [], ckEn := true,
    cgDis := false, ckErr := 0, freeze := [], due := [] }

/-- The vector engine: VEC_STATUS 0x0000_0001, starter mode for start-up (R135). -/
def Vector.reset : Vector :=
  { regs := [], tb := [], vl := 0, vtype := 0, starter := false, mode := 1, parErr := false, parCnt := 0, bist := none,
    passed := false }

/-- The memory counters of a core block. -/
def MemCnt.reset : MemCnt :=
  { lsConf := [], lsPort := 0, slcCont := 0, fgStall := 0, fgFull := 0, slcCe := 0, lsCe := 0 }

/-- One core: CORE_CFG 0x0000_1400, everything else 0 or empty. -/
def Core.reset : Core :=
  { a := Seq.reset, e := Seq.reset, psWdrop := false, rtnOver := false, wdog := false, wdogExp := 0x14, dqdir := 0,
    syn := [], dq := [], mq := [], vq := [], tq := [], desc := [], creates := [], jobs := [], fgw := [], fgr := [],
    lsq := [], slcWant := [], nextEnt := 0, numFlags := 0, mx := Matrix.reset, vec := Vector.reset, cnt := MemCnt.reset, digest := 0 }

/-- The networks: pointers at input P and core 767 (the tables' defaults), nothing else; the default repair map of a
device whose 832 positions are all good (log entry 6). -/
def Net.reset : Net :=
  { bufs := [], rr := [], inj := [], injM := [], injP := [], eject := [], unitIn := [], recFly := [], winQ := [], trees := [], nodes := [], masks := [],
    routes := [], regOwner := [], slcOwner := [], slcQ := [], slcRr := [], drop := [], repair := [], defMap := [],
    bad := [], retired := [], routerFail := false, ce := [], ue := [] }

/-- A partition time block: PT_LOAD 0xFFFF_FF00_0000_0000, the rest 0. -/
def PartTime.reset : PartTime :=
  { step := 0, t0 := 0, period := 0, cycles := 0, breakEn := false, breakStep := 0, breakHit := false, lsDiv := false,
    st := .idle, holdTicks := 0, load := 0xFFFFFF0000000000, mdig := [], dlMiss := 0, dlCfg := [], dlTgt := [],
    dlLast := [], next := 0, missed := [], late := [], credits := [], snaps := [], lock := none, atBreak := false, brkTick := 0, stepEnd := false,
    dead := false, dlHalt := none, restartAt := none, earliest := 0 }

/-- The Turn: 0 in LISTEN, TURN_PRIO 0x80 (R217, R222, Table 12-2). -/
def Turn.reset : Turn :=
  { now := 0, frac := 0, st := .listen, before := .listen, parent := 0, root := false, syncLost := false,
    ptpLock := false, theta := 0, prio := 0x80, epoch := 0, ann := [], good := 0, slew := 0, lastSync := [],
    anchored := false, skipped := false, delta := 0, part := 0, begun := false }

/-- The error block at power-on: CAUSE 1, COUNT 0, ERR_LASTDEV zeros. -/
def Errs.reset : Errs :=
  { ring := [], next := 0, irqVec := [], irqEn := [], cause := 1, count := 0, lastDev := none, sent := [],
    stepErrs := [] }

/-- Clocks: step code 0 in every region (R393). -/
def Clk.reset : Clk :=
  { step := 0, change := none, waiting := none, forcedNow := false, refused := false, xslip := false, refLoss := false,
    holdover := false, req := 0, stretch := 0, lag := [], since := [], gated := [], gateTick := 0, lossCount := 0, lossTick := 0,
    lastForce := 0, lastAbove := 0, sleep := [], wakeBegan := [], wakeStep := [] }

/-- Power: in STANDBY with the enable mated and the input switch closed (log entry 10), PWR_STATUS 0; PWR_LIMIT 0x2AF8, THERM_CFG 0x645F. -/
def Pwr.reset : Pwr :=
  { st := .standby, enable := true, precharged := true, switch := true, inhibit := false, sag := false, ovp := false,
    cap := 0, vbank := 0, energy := 0, measured := false, vin := 0, iin := 0, pin := 0, pavg := 0, limit := 0x2AF8,
    tmax := 0, sensor := 0, stepC := 100, warnC := 95, warned := [], stopRan := false, nv := [], nvNext := 0 }

/-- A hart: at machine level at the first word of the boot ROM, every other register 0 (R357, log entry 9). -/
def Hart.reset : Hart :=
  { pc := 0, x := [], f := [], fcsr := 0, priv := 3, mstatus := 0, mtvec := 0, mepc := 0, mcause := 0, mtval := 0 }

/-- The Creamery: nothing runs before the end of device reset (R393). -/
def Crm.reset : Crm :=
  { phase := .reset, hartsUp := false, bistDone := false, fwReady := false, keysLoaded := false, idReady := false,
    idFail := false, recover := false, secver := 0, fwver := 0, fwDigest := 0, idPub := [], leafNext := 0,
    reservedEnd := 0, leafSeq := 0, mgmtDrop := 0, mgmtSeq := [], mgmtOut := [], keys := [], attests := [], recReason := 0,
    recOwner := 0, recState := 0, recAddr := 0, recLen := 0, spiImage := none, waitCmds := [], harts := [], sram := [] }

/-- The Cave: not ready; its system area holds nothing (log entry 7). -/
def Cave.reset : Cave :=
  { ready := false, chFail := 0, written := 0, rdBytes := 0, pgBytes := 0, sysKeys := [], copies := [] }

/-- A function: registers 0, not ready, its PERST_Nk asserted (log entry 2). -/
def Func.reset : Func :=
  { linkUp := false, perst := true, ready := false, left := none, wedged := false, sq := 0, cq := 0, en := false,
    dbErr := false, sqHead := 0, sqTail := 0, cqHead := 0, cqTail := 0, phase := true, held := [], sqAt := [], logTail := [],
    msix := [], pba := 0, ctxs := [] }

/-- A port: DOWN, LNK_CTRL 0x70, LNK_ENCAP 0xEE20_0000_0000_0C63 (read on Ethernet ports only); sequence numbers 0 and
buffers empty (log entry 8). -/
def Port.reset : Port :=
  { st := .down, step := 0, prior := .down, rev := 0, peer := none, before := none, ids := [], negs := [], nmism := false, vmism := false, rttFail := false,
    retryExh := false, xoffRx := 0, xoffTx := 0, fpd := 7, disable := false, rtt := 0, probes := [], peerSerial := 0,
    fecUncorr := 0, fecCorr := 0, crcCnt := 0, retryCnt := 0, xoffTicks := [], dropCnt := 0,
    encap := 0xEE20000000000C63, nextSeq := 0, replay := [], replayRuns := 0, replaySeq := 0, retrain := none, lost := false,
    expect := 0, rxRetry := false, rxUsed := [], rx := [], done := [], sendQ := [], sent := [], idSent := none, offer := false, lsSent := none,
    peers := [], pfc := 0 }

/-- An arbiter: tickets 0x10, QUANTUM 0x0400, LFSR 1, nothing held. -/
def Arb.reset : Arb :=
  { tkt := [], quantum := 0x0400, seedPt := 0, repro := false, seedk := 0, lfsr := 1, longLock := false, holder := none,
    reqs := 0, locks := 0, masked := 0, preempt := 0 }

/-- ARB_MGMT and ARB_SPI while harts 1 to 3 are in reset (R365, R394): their requesters are masked; register access
of a function is masked while its PERST_Nk is asserted (R396). -/
def arbsReset : SMap Arb :=
  [(2, { Arb.reset with masked := 0x00FE }), (3, { Arb.reset with masked := 0x001E })]

/-- The device at power-on, device reset asserted. -/
def Dev.reset : Dev :=
  { cyc := 0, rst := true, cores := [], net := Net.reset, edge := [], parts := [], turn := Turn.reset,
    errs := Errs.reset, moulds := [], loads := [], offers := [], clk := Clk.reset, pwr := Pwr.reset, crm := Crm.reset,
    flash := Cave.reset, caveQ := [], hostQ := [], caveSrv := [], hostSrv := [], chans := [], funcs := [], ports := [],
    arbs := arbsReset, fabDrop := [], bar2 := [], wtLast := [], joinAs := none, serial := 0, board := 0, bifur := 0, slot := 0, shadows := [],
    jtag := .idcode, free := 0, out := [] }

end Sys2Proof.Machine
end

