-- ==== Sys2Proof/Machine/State.lean ====
section
/-! DEFINITION. The state of the block, its stops, and its state at reset. -/

namespace Sys2Proof.Machine

/-- The whole state: the device, the bytes of its SRAM by device-window address, the bytes of the Cave by byte offset,
and the commands that wait, first in, first out. -/
structure State where
  dev : Dev
  mem : Memory
  cave : Memory
  pending : List Instr
  deriving DecidableEq, Repr

/-- Faults of the model. -/
inductive Fault where
  /-- Raised by DATAGRAM_RECEIVE alone, for a segment of more than 8 flits or of another number of flits than its NFLITS
  field says, which no port sends and of which the manual says nothing (R267). Safe: the model stops. -/
  | illFormed
  deriving DecidableEq, Repr

/-- Refusals of the model. -/
inductive Refusal where
  /-- A command without a meaning yet. Safe. -/
  | notModelled (mnemonic : String)
  /-- Raised by a sequencer's row when the word at the program counter is an undefined encoding (R155) or when a loop
  level, a routine or a RET is used as R45 forbids: the loader refuses such programs and the manual gives such a word
  no effect. Safe: the model stops. -/
  | undefinedWord (op : Nat)
  /-- Raised by JTAG_INSTRUCTION on an instruction that R426 keeps for Feylrad and does not describe. Safe. -/
  | reservedTest
  deriving DecidableEq, Repr

/-- The machine right after reset: every register at the value its map gives, memories with nothing listed (every byte
reads 0), no command waiting. -/
def State.reset : State := { dev := Dev.reset, mem := [], cave := [], pending := [] }

end Sys2Proof.Machine
end

