-- ==== Sys2Proof/Machine/Ops.lean ====
section
/-! DEFINITION. The named operations over the device that the meanings share: lifting a meaning to the state, cores and
sequencers, positions and partitions, messages to a host, error records with their containment, resets, credits. -/

namespace Sys2Proof.Machine

/-- What a meaning answers: the device with the memory changes, in order, or a stop. -/
inductive Res where
  | ok (d : Dev) (w : List MemOp)
  | refuse (r : Refusal)
  | fault (f : Fault)

/-- All changes of the SRAM, in order. -/
def memAll (m : Memory) (w : List MemOp) : Memory := w.foldl (fun m o => o.onMem m) m
/-- All changes of the Cave's flash, in order. -/
def caveAll (m : Memory) (w : List MemOp) : Memory := w.foldl (fun m o => o.onCave m) m

/-- A meaning that changes the device only. -/
def lift (f : Dev → Dev) (s : State) : Host.Outcome State Fault Refusal := .next { s with dev := f s.dev }

/-- A meaning that reads the memories and changes the device only. -/
def liftR (f : Memory → Memory → Dev → Dev) (s : State) : Host.Outcome State Fault Refusal :=
  .next { s with dev := f s.mem s.cave s.dev }

/-- A meaning that reads and changes the memories. -/
def liftW (f : Memory → Memory → Dev → Dev × List MemOp) (s : State) : Host.Outcome State Fault Refusal :=
  let (d, w) := f s.mem s.cave s.dev
  .next { s with dev := d, mem := memAll s.mem w, cave := caveAll s.cave w }

/-- A meaning that may stop. -/
def liftO (f : Memory → Memory → Dev → Res) (s : State) : Host.Outcome State Fault Refusal :=
  match f s.mem s.cave s.dev with
  | .ok d w => .next { s with dev := d, mem := memAll s.mem w, cave := caveAll s.cave w }
  | .refuse r => .refused r
  | .fault r => .fault r

/-! ### Free choices (log entry 4) -/

/-- One entry of a list, which one is the c-th free value. -/
def pickOne (c : Nat) (l : List Nat) : Option Nat := l[(Config.freeValue c).toNat % l.length]?

/-- n different entries of a list, which ones and in which order are the free values from the c-th on. -/
def pickMany : Nat → Nat → List Nat → List Nat
  | _, 0, _ => []
  | c, n + 1, l =>
    match pickOne c l with
    | none => []
    | some x => x :: pickMany (c + 1) n (l.erase x)

/-! ### Cores and sequencers -/

/-- Core k. -/
def Dev.core (d : Dev) (k : Nat) : Core := lk Core.reset d.cores k
def Dev.setCore (d : Dev) (k : Nat) (c : Core) : Dev := { d with cores := up d.cores k c }
def Dev.updCore (d : Dev) (k : Nat) (f : Core → Core) : Dev := d.setCore k (f (d.core k))

/-- Sequencer q of a core. -/
def Core.seq (c : Core) : SeqId → Seq
  | .A => c.a
  | .E => c.e
def Core.setSeq (c : Core) (q : SeqId) (x : Seq) : Core :=
  match q with
  | .A => { c with a := x }
  | .E => { c with e := x }

/-- Read a scalar register; s0 reads 0 (R46). -/
def Seq.get (x : Seq) (n : Nat) : Word := if n = 0 then 0 else lk 0 x.regs n
/-- Write a scalar register; a write to s0 is discarded (R46, R156). -/
def Seq.set (x : Seq) (n : Nat) (v : Word) : Seq := if n = 0 then x else { x with regs := up x.regs n v }

/-- The code of a state (Table 03-4). -/
def SeqState.code : SeqState → Nat
  | .idle => 0
  | .run => 1
  | .stallOperand => 2
  | .stallEq => 3
  | .stallDqEmpty => 4
  | .stallDqFull => 5
  | .stallSyn => 6
  | .inRoutine => 7
  | .stepWait => 8
  | .halted => 9

/-- States 2 to 6 of Table 03-4. -/
def SeqState.stalled (x : SeqState) : Bool := decide (2 ≤ x.code ∧ x.code ≤ 6)

/-- May the sequencer dispatch its next word? Not in IDLE, STEP_WAIT or HALTED, and not while a RET waits for the
routine counter (R48, R52, R60, R163). -/
def Seq.live (x : Seq) : Bool :=
  (match x.st with
   | .idle => false
   | .stepWait => false
   | .halted => false
   | _ => true) &&
  (match x.rtn with
   | some r => !r.done
   | none => true)

/-- The state shown while it dispatches: IN_ROUTINE inside a resident routine, else RUN (Table 03-4). -/
def Seq.running (x : Seq) : SeqState := if x.rtn.isSome then .inRoutine else .run

/-- Enter a stall state (R48); the word stays to be dispatched. -/
def Seq.stall (x : Seq) (s : SeqState) : Seq := { x with st := s }

/-- Leave every stall: the consecutive-stall count restarts (R59), the dispatch is counted (CORE_DISP_CNTs). -/
def Seq.count (x : Seq) : Seq := { x with st := x.running, stallRun := 0, disp := x.disp + 1 }

/-- The word after `w`, by the loop levels whose end word it is, innermost first (R50, R51): the innermost level jumps
while iterations are left, else it exits and the next level that shares the end word decides. -/
def loopNext (w : Nat) : List LoopLv → Nat × List LoopLv
  | [] => (w + 1, [])
  | l :: r =>
    if l.last = w then
      if 1 < l.left then (l.first, { l with left := l.left - 1 } :: r) else loopNext w r
    else (w + 1, l :: r)

/-- A word has run: count the dispatch and go to the next word. -/
def Seq.advance (x : Seq) : Seq :=
  let (n, ls) := loopNext x.pc.toNat x.loops
  { x.count with pc := BitVec.ofNat 13 n, loops := ls }

/-- A branch is taken to word n (R162): it stays inside the innermost loop body that contains it (R45). -/
def Seq.jump (x : Seq) (n : Nat) : Seq := { x.count with pc := BitVec.ofNat 13 n }

/-- Halt a sequencer (R60); one already halted by an error stays so. -/
def Seq.halt (x : Seq) (by_ : HaltBy) : Seq :=
  match x.st with
  | .halted => { x with haltBy := if by_ = .error then .error else x.haltBy, stallRun := 0 }
  | _ => { x with st := .halted, haltBy := by_, saved := x.st, stallRun := 0 }

def Core.halt (c : Core) (by_ : HaltBy) : Core := { c with a := c.a.halt by_, e := c.e.halt by_ }

/-- The mode of a vector engine that is in neither start-up nor recovery starter mode (Table 07-3). -/
def Vector.settle (v : Vector) : Vector := { v with mode := if v.starter then 2 else 0 }

/-- The register-file BIST starts once both sequencers stand in STEP_WAIT in recovery starter mode (R136). -/
def Core.startBist (c : Core) : Core :=
  if c.vec.mode = 3 ∧ c.vec.bist = none ∧ !c.vec.passed ∧ c.a.st = .stepWait ∧ c.e.st = .stepWait then
    { c with vec := { c.vec with bist := some 65536 } }
  else c

/-- IDLE or HALTED (R43, R60). -/
def Seq.quiet (x : Seq) : Bool :=
  match x.st with
  | .idle => true
  | .halted => true
  | _ => false
def Core.quiet (c : Core) : Bool := c.a.quiet && c.e.quiet

/-! ### Positions, regions, partitions (R14 to R20, R36) -/

/-- The position of the y-th set bit of v, counting from bit i. -/
def nthBit (v y i : Nat) : Nat → Nat
  | 0 => i
  | n + 1 => if bit v i then (if y = 0 then i else nthBit v (y - 1) (i + 1) n) else nthBit v y (i + 1) n

/-- How many of the bits below py are set. -/
def popLow (v : Nat) : Nat → Nat
  | 0 => 0
  | n + 1 => popLow v n + b2n (bit v n)

/-- The GOOD bits of a column in the repair map in force: while no Mould gives one, firmware's default (R18). -/
def Dev.good (d : Dev) (x : Nat) : Nat :=
  ((lk (lk (BitVec.ofNat 26 0xFFFFFF) d.net.defMap x) d.net.repair x)).toNat

/-- The physical position 32·py + px of logical core k (R15). -/
def Dev.posOf (d : Dev) (k : Nat) : Nat := 32 * nthBit (d.good (k % 32)) (k / 32) 0 26 + k % 32

/-- The logical core at a physical position, if the map in force selects it (R15). -/
def Dev.coreAt (d : Dev) (pos : Nat) : Option Nat :=
  let g := d.good (pos % 32)
  if bit g (pos / 32) && decide (popLow g (pos / 32) < 24) then some (32 * popLow g (pos / 32) + pos % 32) else none

/-- The clock region of a position (R20). -/
def regionOf (pos : Nat) : Nat := 4 * (pos / 64) + (pos % 32) / 8

/-- The partition a position's region belongs to; 16 when unassigned (R36). -/
def Dev.partPos (d : Dev) (pos : Nat) : Nat := lk 16 d.net.regOwner (regionOf pos)

/-- The partition of a logical core (R36). -/
def Dev.partOf (d : Dev) (k : Nat) : Nat := d.partPos (d.posOf k)

/-- PMASK of one partition; empty for none. -/
def pmaskOf (p : Nat) : Nat := if p < 16 then 2 ^ p else 0

/-- Partition p's time block. -/
def Dev.part (d : Dev) (p : Nat) : PartTime := lk PartTime.reset d.parts p
def Dev.setPart (d : Dev) (p : Nat) (t : PartTime) : Dev := { d with parts := up d.parts p t }
def Dev.updPart (d : Dev) (p : Nat) (f : PartTime → PartTime) : Dev := d.setPart p (f (d.part p))

/-- The loaded Mould that holds partition p. -/
def Dev.mouldOf (d : Dev) (p : Nat) : Option Mould := d.moulds.find? (fun m => bit m.pmask p)
/-- The loaded Mould with a fabric partition ID. -/
def Dev.mouldFp (d : Dev) (fp : Nat) : Option Mould := d.moulds.find? (fun m => m.fpid == fp)
/-- Change the Mould with this PMASK. -/
def Dev.updMould (d : Dev) (pm : Nat) (f : Mould → Mould) : Dev :=
  { d with moulds := d.moulds.map (fun m => if m.pmask = pm then f m else m) }
/-- The lowest partition in a PMASK; 16 for none. -/
def lowPart (pm : Nat) : Nat := ((List.range 16).find? (fun p => bit pm p)).getD 16
/-- The partitions of a PMASK. -/
def partsOf (pm : Nat) : List Nat := (List.range 16).filter (fun p => bit pm p)
/-- The fabric partition ID of partition p's Mould, 0xFFFF for none (Table 23-2). -/
def Dev.fpidOf (d : Dev) (p : Nat) : Nat := (d.mouldOf p).elim 0xFFFF (fun m => m.fpid)

/-- Host function f. -/
def Dev.func (d : Dev) (f : Nat) : Func := lk Func.reset d.funcs f
def Dev.setFunc (d : Dev) (f : Nat) (x : Func) : Dev := { d with funcs := up d.funcs f x }
def Dev.updFunc (d : Dev) (f : Nat) (g : Func → Func) : Dev := d.setFunc f (g (d.func f))
/-- Port u (0 to 8). -/
def Dev.port (d : Dev) (u : Nat) : Port := lk Port.reset d.ports u
def Dev.setPort (d : Dev) (u : Nat) (x : Port) : Dev := { d with ports := up d.ports u x }
def Dev.updPort (d : Dev) (u : Nat) (g : Port → Port) : Dev := d.setPort u (g (d.port u))
/-- Arbiter a. -/
def Dev.arb (d : Dev) (a : Nat) : Arb := lk Arb.reset d.arbs a
def Dev.setArb (d : Dev) (a : Nat) (x : Arb) : Dev := { d with arbs := up d.arbs a x }

/-- Put a message into the record of what left the device. -/
def Dev.emit (d : Dev) (o : Out) : Dev := { d with out := o :: d.out }

/-! ### Messages to a host (R324, R333, R344) -/

/-- Signal an MSI-X vector of a function; a masked vector only sets its pending bit. -/
def Dev.msix (d : Dev) (f vec : Nat) : Dev :=
  if bit (lk (0 : BitVec 128) (d.func f).msix vec).toNat 96 then
    d.updFunc f (fun x => { x with pba := x.pba ||| BitVec.ofNat 64 (2 ^ vec) })
  else d.emit (.msix f vec)

/-- Free entries of a context's ring: it holds at most its entry count minus 1 (R343). -/
def Ctx.room (c : Ctx) : Nat := c.ents - 1 - (c.rTail + c.ents - c.rHead) % c.ents

/-- Set the PHASE bit of a token-ring record (Table 17-7). -/
def withPhase (bs : List Byte) (ph : Bool) : List Byte :=
  bs.zipIdx.map (fun (b, i) => if i = 0x1A then (if ph then b ||| 4 else b) else b)

/-- Write the records of a context that wait, as far as its ring has room (R324, R325). -/
def flushRing (f c : Nat) : Nat → Ctx → List Out → Ctx × List Out
  | 0, x, o => (x, o)
  | n + 1, x, o =>
    match x.backlog with
    | [] => (x, o)
    | b :: r =>
      if x.room = 0 then (x, o)
      else
        let t := (x.rTail + 1) % x.ents
        flushRing f c n { x with backlog := r, rTail := t, phase := if t = 0 then !x.phase else x.phase }
          (.ring f c x.rTail (withPhase b x.phase) :: o)

/-- A context of a function, if it is open. -/
def Dev.ctx (d : Dev) (f c : Nat) : Option Ctx :=
  ((d.func f).ctxs.find? (fun e => e.1 == c)).map (fun e => e.2)
def Dev.setCtx (d : Dev) (f c : Nat) (x : Ctx) : Dev := d.updFunc f (fun g => { g with ctxs := up g.ctxs c x })

/-- Hand records to a context's token ring: what has no room waits (R325). With MODERATE 0 the vector follows at once,
else the tick of the first record not yet announced is kept (R324). -/
def Dev.ring (d : Dev) (f c : Nat) (recs : List (List Byte)) : Dev :=
  match d.ctx f c with
  | none => d
  | some x =>
    if recs.isEmpty && x.backlog.isEmpty then d
    else
      let (y, o) := flushRing f c (x.backlog.length + recs.length) { x with backlog := x.backlog ++ recs } []
      let d := { d with out := o ++ d.out }
      if o.isEmpty then d.setCtx f c y
      else if x.moderate = 0 then (d.setCtx f c y).msix f x.vec
      else d.setCtx f c { y with since := some (y.since.getD d.turn.now.toNat) }

/-- A token-ring record (Table 17-7) without its PHASE. -/
def ringRec (tag token index step kind status flags reason total : Nat) : List Byte :=
  natLe tag 8 ++ natLe token 4 ++ natLe index 4 ++ natLe step 8 ++ natLe kind 1 ++ natLe status 1 ++ natLe flags 1 ++
    natLe reason 1 ++ natLe total 4

/-- An END record. -/
def endRec (tag step status reason total : Nat) : List Byte :=
  ringRec tag 0xFFFFFFFF 0 step 2 status 0 reason total

/-- The TAG of a request record. -/
def recTag (r : List Byte) : Nat := leNat (r.take 8)

/-! ### Completions (R338, R340, R344) -/

/-- Entries of a ring of SIZE s (HIF_CMD_SQ, HIF_CMD_CQ). -/
def ringEntries (s : Nat) : Nat := 2 ^ (s + 4)
def Func.sqEntries (x : Func) : Nat := ringEntries (bits x.sq.toNat 3 0)
def Func.cqEntries (x : Func) : Nat := ringEntries (bits x.cq.toNat 3 0)
def Func.cqVec (x : Func) : Nat := bits x.cq.toNat 9 4
/-- Free entries of the completion ring: it holds at most its entry count minus 1 (R343). -/
def Func.cqRoom (x : Func) : Nat := x.cqEntries - 1 - (x.cqTail + x.cqEntries - x.cqHead) % x.cqEntries

/-- The 16 B completion entry (Table 18-5). -/
def Cpl.bytes (c : Cpl) (phase : Bool) : List Byte :=
  natLe c.result 8 ++ natLe c.cid 2 ++ natLe c.sqhd 2 ++ natLe c.status 2 ++ natLe (b2n phase) 1 ++ natLe 0 1
/-- The host address of slot `i` of the completion ring, and of the command ring (HIF_CMD_CQ, HIF_CMD_SQ: BASE). -/
def Func.cqSlot (x : Func) (i : Nat) : Nat := x.cq.toNat / 4096 * 4096 + 16 * i
def Func.sqSlot (x : Func) (i : Nat) : Nat := x.sq.toNat / 4096 * 4096 + 64 * i

/-- Write held completions while the ring has room; PHASE flips at each wrap (R338, R340). -/
def flushCpl (f : Nat) : Nat → Func → List Out → Func × List Out
  | 0, x, o => (x, o)
  | n + 1, x, o =>
    match x.held with
    | [] => (x, o)
    | c :: r =>
      if x.cqRoom = 0 then (x, o)
      else
        let t := (x.cqTail + 1) % x.cqEntries
        flushCpl f n { x with held := r, cqTail := t, phase := if t = 0 then !x.phase else x.phase }
          (.cpl f (x.cqSlot x.cqTail) (c.bytes x.phase) :: o)

/-- Write what can be written, then the vector of the ring (R344). -/
def Dev.flushHeld (d : Dev) (f : Nat) : Dev :=
  let x := d.func f
  let (y, o) := flushCpl f x.held.length x []
  let d := { d.setFunc f y with out := o ++ d.out }
  if o.isEmpty then d else d.msix f x.cqVec

/-- Complete command `cid` of function f (R338, R340); nothing is written for a function that has left
or is not ready (R345, R347). -/
def Dev.complete (d : Dev) (f cid status result : Nat) : Dev :=
  let x := d.func f
  if x.left.isSome || !x.ready then d
  else
    (d.setFunc f { x with held := x.held ++ [⟨cid, lk 0 x.sqAt cid, status, result⟩], sqAt := del x.sqAt cid }).flushHeld f

/-- Complete a request that a command may have made. -/
def Dev.completeOpt (d : Dev) (r : Option (Nat × Nat)) (status result : Nat) : Dev :=
  match r with
  | some (f, cid) => d.complete f cid status result
  | none => d

/-! ### Requests end when a partition stops (R328) -/

/-- A command that waits for a sampling point that will not come: a close and a drain are done, a cancel and a release find nothing. -/
def Dev.noSample (d : Dev) (w : Waiting) : Dev :=
  match w.kind with
  | .closeCtx c => (d.updFunc w.fn (fun x => { x with ctxs := del x.ctxs c })).complete w.fn w.cid 0 0
  | .cancel _ _ => d.complete w.fn w.cid 2 0
  | .prefixRelease _ => d.complete w.fn w.cid 2 0
  | .drain _ => d.complete w.fn w.cid 0 0

/-- Insert by a key. -/
def sortIn (key : Active → Nat) (a : Active) : List Active → List Active
  | [] => [a]
  | x :: r => if key a < key x then a :: x :: r else x :: sortIn key a r
def sortBy (key : Active → Nat) (l : List Active) : List Active := l.foldl (fun r a => sortIn key a r) []

/-- The records of one context when its partition stops at step st: its active requests in slot order, then what is queued. -/
def endsOf (sv : Serve) (f c st : Nat) (x : Ctx) : List (List Byte) :=
  (sortBy (fun a => a.slot) (sv.active.filter (fun a => a.fn == f && a.ctx == c))).map (fun a =>
      ringRec a.tag 0xFFFFFFFF 0 st 2 4 (2 * b2n a.countsFull) 10 a.made) ++
    x.queue.map (fun q => endRec (recTag (q.record.getD [])) st 4 10 0)

/-- Complete every active request of a stopped serving Mould, then every queued one, with END, FAILED, reason 10; then the commands that
wait for its sampling point. -/
def Dev.failRequests (d : Dev) (p : Nat) : Dev :=
  match d.mouldOf p with
  | none => d
  | some m =>
    match m.serve with
    | none => d
    | some sv =>
      let st := (d.part (lowPart m.pmask)).step.toNat
      let d := (List.range 4).foldl (fun d f =>
        (d.func f).ctxs.foldl (fun d e =>
          if e.2.part = lowPart m.pmask then
            (d.updFunc f (fun g => { g with ctxs := up g.ctxs e.1 { e.2 with queue := [], qHead := e.2.qTail } })).ring f e.1
              (endsOf sv f e.1 st e.2)
          else d) d) d
      let d := d.updMould m.pmask (fun m => { m with serve := m.serve.map (fun s =>
        { s with active := [], waiting := [], draining := none }) })
      (sv.waiting.foldl (fun d w => d.noSample w) d).completeOpt sv.draining 0 0

/-! ### Containment (R400), error records (R403 to R409) -/

/-- Halt every sequencer of partition p. The cores of a loaded partition are listed since its installation (R248). -/
def Dev.haltPart (d : Dev) (p : Nat) : Dev :=
  { d with cores := d.cores.map (fun e => (e.1, if d.partOf e.1 = p then e.2.halt .error else e.2)) }

/-- Stop a partition: its sequencers HALTED, PT_STATE STOPPED, its requests ended (R400, R328). -/
def Dev.stopPart (d : Dev) (p : Nat) : Dev :=
  ((d.haltPart p).updPart p (fun t => { t with st := .stopped, dead := true })).failRequests p

/-- A non-volatile write nobody waits for any more: its function number is none of the four. -/
def NvKind.orphan : NvKind → NvKind
  | .caveWrite _ cid off data => .caveWrite 4 cid off data
  | .keyInstall _ cid ent => .keyInstall 4 cid ent
  | .keyRemove _ cid g => .keyRemove 4 cid g
  | .retire _ cid pos => .retire 4 cid pos
  | .leaf r => .leaf { r with fn := 4 }
  | k => k

/-- The writes that have started, which the hold-up bank finishes (R391). -/
def startedNv (l : List NvReq) : List NvReq :=
  (l.filter (fun x => x.started)).map (fun x => { x with kind := x.kind.orphan })

/-- A full device reset (R347, R393, R414): everything at its reset value, but what lies in the always-on domain and in
non-volatile memory, what stands outside the device's logic (supply, pins), and the model's own record. -/
def Dev.fullReset (d : Dev) (cause : Nat) : Dev :=
  { Dev.reset with
    board := d.board
    errs := { Errs.reset with cause := cause, count := satAdd d.errs.count 1, lastDev := d.errs.lastDev }
    crm := { Crm.reset with recover := d.crm.recover, reservedEnd := d.crm.reservedEnd, leafSeq := d.crm.leafSeq,
                            spiImage := d.crm.spiImage }
    pwr := { Pwr.reset with st := d.pwr.st, enable := d.pwr.enable, precharged := d.pwr.precharged,
                            switch := d.pwr.switch, ovp := d.pwr.ovp, sag := d.pwr.sag,
                            nv := startedNv d.pwr.nv, nvNext := d.pwr.nvNext }
    flash := { Cave.reset with sysKeys := d.flash.sysKeys, copies := d.flash.copies,
                               written := d.flash.written }
    net := { Net.reset with retired := d.net.retired }
    funcs := d.funcs.map (fun e => (e.1, { Func.reset with perst := e.2.perst }))
    shadows := d.shadows
    jtag := d.jtag
    free := d.free
    out := d.out }

/-- What a unit reports of an error (Table 23-2, Table 23-4). -/
structure Err where
  code : Nat
  cls : Nat
  source : Nat
  core : Nat
  pmask : Nat
  fpid : Nat
  detail : List Nat
  escalated : Bool := false
  deriving DecidableEq, Repr

/-- Is function f signalled for a record of this class and PMASK (R406)? -/
def Dev.irqWanted (d : Dev) (f cls pm : Nat) : Bool :=
  bit (lk (0 : BitVec 4) d.errs.irqEn f).toNat cls && !d.errs.sent.contains f &&
  (pm == 0 ||
   d.moulds.any (fun m => (partsOf m.pmask).any (fun p => bit pm p) && m.owner == some f) ||
   (d.func f).ctxs.any (fun e => (d.mouldOf e.2.part).any (fun m => (partsOf m.pmask).any (fun p => bit pm p))))

/-- Signal every function that wants the record, at most once per tick (R406). -/
def Dev.irqs (d : Dev) (cls pm : Nat) : Dev :=
  (List.range 4).foldl (fun d f =>
    if d.irqWanted f cls pm then
      ({ d with errs := { d.errs with sent := f :: d.errs.sent } }).msix f (lk (0 : BitVec 6) d.errs.irqVec f).toNat
    else d) d

/-- The record of an error as it stands at this tick. -/
def Dev.mkRec (d : Dev) (e : Err) : ErrRec :=
  { turn := d.turn.now, seq := d.errs.next, code := e.code, cls := e.cls, source := e.source, core := e.core,
    pmask := BitVec.ofNat 16 e.pmask, fpid := e.fpid, rep := 0,
    turnEst := e.code == 0x30 && (d.turn.st == .holdover || d.turn.syncLost),
    escalated := e.escalated,
    step := if e.pmask = 0 then 0 else (d.part (lowPart e.pmask)).step, detail := e.detail }

/-- Write a record into the ring of 256, or coalesce it with the newest one (R404). -/
def Errs.put (x : Errs) (r : ErrRec) : Errs :=
  match x.ring with
  | n :: rest =>
    if n.code = r.code ∧ n.source = r.source ∧ n.core = r.core ∧ n.step = r.step ∧ n.detail = r.detail then
      { x with ring := { n with rep := satAdd n.rep 1, turn := r.turn } :: rest }
    else { x with ring := (r :: x.ring).take 256, next := x.next + 1 }
  | [] => { x with ring := [r], next := x.next + 1 }

/-- Raise an error: the record, the interrupts, and what its class stops (R400, R404, R406, R409). -/
def Dev.raise (d : Dev) (e : Err) : Dev :=
  let r := d.mkRec e
  let d := { d with errs := d.errs.put r }
  match e.cls with
  | 1 =>
    let new := (partsOf e.pmask).map (fun p => (p, (d.part p).step.toNat))
    ({ d with errs := { d.errs with stepErrs := d.errs.stepErrs ++ new } }).irqs 1 e.pmask
  | 2 => ((partsOf e.pmask).foldl (fun d p => d.stopPart p) d).irqs 2 e.pmask
  | 3 => (({ d with errs := { d.errs with lastDev := some r } }).irqs 3 e.pmask).fullReset 4
  | _ => d.irqs 0 e.pmask

/-- Raise a STEP-class error of core k with SOURCE 0. -/
def Dev.raiseStep (d : Dev) (k code : Nat) (detail : List Nat) : Dev :=
  d.raise { code := code, cls := 1, source := 0, core := k, pmask := pmaskOf (d.partOf k), fpid := d.fpidOf (d.partOf k),
            detail := detail }

/-! ### Credits (R54 to R57, R231) -/

/-- Add to the credits that CREDIT monitors count: only the credits of step 1 of R56 count (R231). -/
def Dev.countCredit (d : Dev) (obj n : Nat) : Dev :=
  { d with parts := d.parts.map (fun e => (e.1, { e.2 with credits := up e.2.credits obj (lk 0 e.2.credits obj + n) })) }

/-- Add n to a synchronisation object of a core; past 2^32 − 1 it saturates and raises SYNC_UNDERFLOW, detail OVER
(R57). `who` is the sequencer (0 access, 1 execute) or the source of a credit (log entry 149). -/
def Dev.synAdd (d : Dev) (obj n who : Nat) : Dev :=
  let k := obj / 32
  let c := (lk (0 : BitVec 32) (d.core k).syn (obj % 32)).toNat
  let d' := d.updCore k (fun x => { x with syn := up x.syn (obj % 32) (BitVec.ofNat 32 (min (c + n) (2 ^ 32 - 1))) })
  if c + n > 2 ^ 32 - 1 then d'.raiseStep k 0x14 [obj, 1, who] else d'

/-- The partition that a Mould gives an edge object, as a PMASK (Table 13-4, EDGE); 0 when none does. -/
def Dev.edgePart (d : Dev) (obj : Nat) : Nat :=
  (d.moulds.flatMap (fun m => m.syncs)).foldl (fun n (e : SyncEnt) =>
    if e.kind = 1 ∧ e.obj ≤ obj ∧ obj < e.obj + e.count then pmaskOf e.part else n) 0

/-- A credit of n to a core's object or to an edge object. `src` is its source as SYNC_UNDERFLOW records it (R57, Table 23-4; log
entry 149): 2 to 4 TQ, VQ and MQ, 0x10000 + the core that sent a mesh packet, 0x20000 + the code of the
port unit. -/
def Dev.credit (d : Dev) (obj n src : Nat) : Dev :=
  let d := d.countCredit obj n
  if obj < 24576 then d.synAdd obj n src
  else
    let c := (lk (0 : BitVec 32) d.edge obj).toNat
    let d' := { d with edge := up d.edge obj (BitVec.ofNat 32 (min (c + n) (2 ^ 32 - 1))) }
    if c + n > 2 ^ 32 - 1 then
      d'.raise { code := 0x14, cls := 1, source := 0, core := 0xFFFF, pmask := d.edgePart obj,
                 fpid := if d.edgePart obj = 0 then 0xFFFF else d.fpidOf (lowPart (d.edgePart obj)), detail := [obj, 1, src] }
    else d'

/-- Credit object `obj` when the word's CR bit asks for it. -/
def Dev.creditIf (d : Dev) (cr : Bool) (obj n src : Nat) : Dev := if cr then d.credit obj n src else d

end Sys2Proof.Machine
end

