-- ==== Sys2Proof/Machine/Words.lean ====
section
/-! DEFINITION. The 64-bit instruction word: its fields and the check that makes a word undefined
(chapters "Instruction set I" and "II", R154 to R157, R178, R181, R195). -/

namespace Sys2Proof.Machine

/-- Opcode [63:56]. -/
def wOp (w : Nat) : Nat := bits w 63 56
/-- RR and RI: D [55:51], A [50:46], B [45:41], C [40:36], IMM [45:0] (Table 09-1). -/
def wD (w : Nat) : Nat := bits w 55 51
def wA (w : Nat) : Nat := bits w 50 46
def wB (w : Nat) : Nat := bits w 45 41
def wC (w : Nat) : Nat := bits w 40 36
def wImm (w : Nat) : Nat := bits w 45 0

/-- A VTYPE encoding of Table 07-1 that is not reserved (R127). -/
def vtypeOk (v : Nat) : Bool :=
  let falt := bit v 4
  let kind := bits v 3 2
  let lw := bits v 1 0
  bits v 7 5 == 0 && decide (kind < 3) && decide (lw < 3) &&
  !(kind == 0 && lw == 2) && (!falt || (kind == 0 && lw == 1))

/-- The fields of a vector word that Table 10-2 lets an instruction use. -/
structure VUse where
  vd : Bool := false
  va : Bool := false
  vb : Bool := false
  vc : Bool := false
  sb : Bool := false
  sat : Bool := false
  sub : Nat := 0
  imm : Nat := 0
  deriving DecidableEq, Repr

/-- Table 10-2 with Table 10-3: the operands each vector opcode uses; `sub` and `imm` bound the field's value. -/
def vUse (op : Nat) : Option VUse :=
  match op with
  | 0x81 | 0x82 | 0x83 => some { vd := true, va := true, vb := true, sb := true, sat := true }
  | 0x84 | 0x85 => some { vd := true, va := true, vb := true, vc := true, sb := true, sat := true }
  | 0x86 | 0x87 | 0x88 | 0x89 | 0x8A | 0x8B | 0x8C | 0x8D | 0x8E | 0x8F | 0x90 =>
    some { vd := true, va := true, vb := true, sb := true }
  | 0x91 => some { vd := true, va := true, vb := true, sb := true, sub := 5 }
  | 0x92 => some { vd := true, va := true, vb := true, vc := true, sb := true }
  | 0x93 => some { vd := true }
  | 0x98 => some { vd := true, va := true, vb := true, sat := true, sub := 1, imm := 255 }
  | 0xA0 => some { vd := true, va := true, sat := true }
  | 0xA1 | 0xA2 | 0xA3 => some { vd := true, va := true }
  | 0xA8 => some { vd := true, va := true, vb := true }
  | 0xA9 => some { vd := true, va := true, vb := true, sb := true, imm := 16383 }
  | 0xB0 => some { vd := true, va := true, sub := 6 }
  | 0xB4 => some { vd := true, sat := true, imm := 255 }
  | 0xB8 => some { vd := true, vb := true, sb := true, sat := true, imm := 63 }
  | 0xB9 => some { va := true, vb := true, sb := true, sat := true, sub := 1, imm := 63 }
  | 0xBA => some { vd := true, imm := 7 }
  | 0xBB => some { va := true, imm := 7 }
  | _ => none

/-- Vector word fields (Table 10-1). -/
def wVC (w : Nat) : Nat := bits w 40 36
def wSB (w : Nat) : Bool := bit w 35
def wSat (w : Nat) : Bool := bit w 34
def wSub (w : Nat) : Nat := bits w 33 30
def wVSyn (w : Nat) : Nat := bits w 29 15
def wVCr (w : Nat) : Bool := bit w 14
def wVImm (w : Nat) : Nat := bits w 13 0

/-- The VV rules of R178: an unused field is 0, a fixed field holds its value, a SUB or IMM value is defined. -/
def vvOk (w : Nat) (dqdir : Nat) : Bool :=
  match vUse (wOp w) with
  | none => false
  | some u =>
    (u.vd || wD w == 0) && (u.va || wA w == 0) && (u.vb || wB w == 0) && (u.vc || wVC w == 0) &&
    (u.sb || !wSB w) && (u.sat || !wSat w) && decide (wSub w ≤ u.sub) && decide (wVImm w ≤ u.imm) &&
    (wVCr w || wVSyn w == 0) &&
    (match wOp w with
     | 0x98 => vtypeOk (wVImm w)
     | 0xA9 => if wSB w then wVImm w == 0 else wB w == 0
     | 0xB8 => wSB w
     | 0xB9 => wSB w && !(bit (wSub w) 0 && wA w == 31)
     | 0xBA => !bit dqdir (wVImm w)
     | 0xBB => bit dqdir (wVImm w)
     | _ => true)

/-- Is a word defined where it stands (R45, R154, R155, R157)? `q` is the sequencer, `pc` the word number, `dqdir`
the core's queue directions (R49). -/
def wordOk (q : SeqId) (pc dqdir w : Nat) : Bool :=
  let op := wOp w
  let rout : Bool := decide (6400 ≤ pc)
  let isA : Bool := decide (q = .A)
  match op with
  | 0x00 => bits w 55 0 == 0
  | 0x01 =>
    bits w 54 51 == 0 && !bit w 45 && (if bit w 55 then bits w 31 0 == 0 else wA w == 0) &&
    decide (pc + 1 ≤ bits w 44 32) && (rout || decide (bits w 44 32 < 6144))
  | 0x02 => bits w 47 0 == 0 && decide (pc < 6144)
  | 0x03 => bits w 54 0 == 0 && decide (pc < 6144)
  | 0x04 => bits w 55 0 == 0 && rout
  | 0x05 => wA w == 0 && decide (wImm w ≤ 6)
  | 0x08 | 0x09 | 0x0A | 0x0B | 0x0C | 0x0D => rout && wD w == 0 && bits w 40 14 == 0
  | 0x0E => rout && bits w 55 14 == 0
  | 0x10 | 0x11 | 0x12 | 0x13 | 0x14 | 0x15 | 0x16 | 0x17 | 0x18 | 0x19 | 0x1A | 0x1B | 0x1C | 0x1D | 0x1E =>
    bits w 40 0 == 0
  | 0x1F => bits w 35 0 == 0
  | 0x20 | 0x21 | 0x22 | 0x23 | 0x24 | 0x28 | 0x29 => true
  | 0x25 | 0x26 | 0x27 => bits w 45 6 == 0
  | 0x2A => wA w == 0
  | 0x2B => bits w 45 32 == 0
  | 0x30 =>
    !bit w 47 && bits w 43 0 == 0 && decide (bits w 55 51 + bits w 46 44 ≤ 31) &&
    (bit dqdir (bits w 50 48) == !isA)
  | 0x31 =>
    !bit w 47 && bits w 43 0 == 0 && decide (bits w 55 51 + bits w 46 44 ≤ 31) &&
    (bit dqdir (bits w 50 48) == isA)
  | 0x40 | 0x41 | 0x42 =>
    bits w 44 32 == 0 && (if bit w 55 then bits w 31 0 == 0 else bits w 49 45 == 0)
  | 0x50 => isA && bits w 44 0 == 0
  | 0x51 => isA && bits w 49 0 == 0
  | 0x60 =>
    isA && !bit w 0 && (bit w 18 || bits w 33 19 == 0) &&
    (!bit w 17 || (bits w 55 53 == 0 && !bit dqdir (bits w 52 50)))
  | 0x61 => isA && !bit w 0 && !bit w 17 && (bit w 18 || bits w 33 19 == 0)
  | 0x62 => isA && bits w 28 0 == 0 && (bit w 29 || bits w 44 30 == 0)
  | 0x63 => isA && bits w 27 0 == 0 && (bit w 28 || bits w 43 29 == 0)
  | 0x64 => isA && bits w 22 0 == 0 && decide (bits w 45 44 ≠ 3)
  | 0x65 => isA && bits w 32 0 == 0 && decide (bits w 40 39 ≠ 3)
  | 0x66 | 0x67 => isA && bits w 46 0 == 0
  | 0x80 =>
    !isA && !bit w 44 && bits w 35 32 == 0 && vtypeOk (bits w 43 36) &&
    (if bit w 45 then bits w 31 0 == 0 else wA w == 0)
  | 0xC0 =>
    !isA && decide (bits w 43 42 ≠ 3) && bits w 39 37 % 2 ^ bits w 41 40 == 0 && decide (bits w 34 33 ≤ 1) &&
    (decide (bits w 43 42 ≠ 1) || bits w 34 33 == 0) && (bit w 15 || bits w 14 0 == 0)
  | 0xC1 =>
    !isA && bits w 22 0 == 0 && (bit w 23 || bits w 38 24 == 0) &&
    (!bit w 40 || (bits w 51 46 == 0 && !bit w 39))
  | 0xC2 => !isA && bits w 27 0 == 0 && decide (bits w 51 50 ≠ 3) && (bit w 28 || bits w 43 29 == 0)
  | 0xC3 => !isA && bits w 37 0 == 0 && decide (bits w 39 38 ≠ 3)
  | _ => !isA && vvOk w dqdir

/-- CALL: the routine INDEX [55:48]. -/
def routineIndex (w : Nat) : Nat := bits w 55 48

end Sys2Proof.Machine
end

