-- ==== Sys2Proof/Machine/Front.lean ====
section
/-! DEFINITION. Fetching and dispatching one word of a sequencer (R42, R47, R154 to R157), and the dispatch into an engine
queue (R47, R90, R128, R156, R179). -/

namespace Sys2Proof.Machine

/-- The device-window address of a program store (Table 08-1). -/
def progBase (k : Nat) : SeqId → Nat
  | .A => 0x1C0000000 + 0x20000 * k
  | .E => 0x1C0000000 + 0x20000 * k + 0x10000

/-- The word a sequencer fetches (R42). -/
def fetch (m : Memory) (k : Nat) (q : SeqId) (pc : BitVec 13) : Nat := m.num (progBase k q + 8 * pc.toNat) 8

/-- Does the core's region have its clock? Not while it sleeps or while a slip gates it (R378, R388). -/
def Dev.clocked (d : Dev) (k : Nat) : Bool :=
  let r := regionOf (d.posOf k)
  (match lk .run d.clk.sleep r with
   | .run => true
   | _ => false) && !d.clk.gated.contains r

/-- What a sequencer offers at its program counter for a row with opcode `op`. -/
inductive Front where
  | no
  | bad
  | go (w : Nat)
  deriving DecidableEq, Repr

/-- The word at the program counter, if the sequencer can dispatch, the word has this opcode and is defined. -/
def front (m : Memory) (d : Dev) (k : Nat) (q : SeqId) (op : Nat) : Front :=
  let x := (d.core k).seq q
  let w := fetch m k q x.pc
  if !(x.live && d.clocked k && wOp w == op) then .no
  else if wordOk q x.pc.toNat (d.core k).dqdir.toNat w then .go w else .bad

/-- A sequencer's row: nothing when the sequencer does not stand at such a word; a refusal when the word is undefined. -/
def seqOp (k : Nat) (q : SeqId) (op : Nat) (f : Memory → Dev → Nat → Res) (s : State) :
    Host.Outcome State Fault Refusal :=
  liftO (fun m _ d =>
    match front m d k q op with
    | .no => .ok d []
    | .bad => .refuse (.undefinedWord op)
    | .go w => f m d w) s

def Dev.seq (d : Dev) (k : Nat) (q : SeqId) : Seq := (d.core k).seq q
def Dev.setSeq (d : Dev) (k : Nat) (q : SeqId) (x : Seq) : Dev := d.setCore k ((d.core k).setSeq q x)

/-- A word that only changes registers: read the sequencer, write register D, go on (R156, R158). -/
def regOp (k : Nat) (q : SeqId) (op : Nat) (val : Dev → Seq → Nat → Word) (s : State) :
    Host.Outcome State Fault Refusal :=
  seqOp k q op (fun _ d w =>
    let x := d.seq k q
    .ok (d.setSeq k q ((x.set (wD w) (val d x w)).advance)) []) s

/-- An RR word: d from registers A and B (R158). -/
def rrOp (k : Nat) (q : SeqId) (op : Nat) (f : Word → Word → Word) (s : State) : Host.Outcome State Fault Refusal :=
  regOp k q op (fun _ x w => f (x.get (wA w)) (x.get (wB w))) s

/-- IMM[45:0] extended by its sign to 64 bits (R158). -/
def immS (w : Nat) : Word := BitVec.ofInt 64 (sext (wImm w) 46)

/-- An RI word: d from register A and the immediate (R158). -/
def riOp (k : Nat) (q : SeqId) (op : Nat) (f : Word → Word → Word) (s : State) : Host.Outcome State Fault Refusal :=
  regOp k q op (fun _ x w => f (x.get (wA w)) (immS w)) s

/-- A handle as captured at dispatch (R90). -/
def Core.cap (c : Core) (h : Nat) : Cap :=
  let e := lk DescEntry.reset c.desc h
  ⟨h, e.valid, e.gen⟩

/-- The queue of an engine. -/
def Core.queue (c : Core) : Eng → List QEntry
  | .tq => c.tq
  | .vq => c.vq
  | .mq => c.mq
def Core.setQueue (c : Core) (e : Eng) (l : List QEntry) : Core :=
  match e with
  | .tq => { c with tq := l }
  | .vq => { c with vq := l }
  | .mq => { c with mq := l }

/-- Does an access-stream word wait for a create of a handle it names (R88)? -/
def Core.creating (c : Core) (hs : List Nat) : Bool := c.creates.any (fun e => hs.contains e.h)

/-- The core once the word w stands at the end of an engine queue, with the handles captured as they are (R90), scalar values, VL and VTYPE
(R128) and the next number in the order of dispatch. -/
def Core.pushEntry (c : Core) (eng : Eng) (w : Nat) (handles : List Nat) (vals : List Word) : Core :=
  ({ c with nextEnt := c.nextEnt + 1 } : Core).setQueue eng (c.queue eng ++
    [{ word := BitVec.ofNat 64 w, num := c.nextEnt, caps := handles.map c.cap, vals := vals, vl := c.vec.vl, vtype := c.vec.vtype }])

/-- Dispatch the word into an engine queue: with 8 entries STALL_EQ (R47); an access-stream word that names a handle
whose create or retire runs waits in STALL_OPERAND (R88); else an entry that captures the handles, the scalar values,
VL and VTYPE. -/
def enqueue (k : Nat) (q : SeqId) (op : Nat) (eng : Eng) (handles regs : Nat → List Nat) (s : State) :
    Host.Outcome State Fault Refusal :=
  seqOp k q op (fun _ d w =>
    let c := d.core k
    let x := c.seq q
    if decide (q = .A) && c.creating (handles w) then .ok (d.setSeq k q (x.stall .stallOperand)) []
    else if (c.queue eng).length ≥ 8 then .ok (d.setSeq k q (x.stall .stallEq)) []
    else
      .ok (d.setCore k ((c.pushEntry eng w (handles w) ((regs w).map x.get)).setSeq q x.advance)) []) s

end Sys2Proof.Machine
end

