-- ==== Sys2Proof/Machine/Crc.lean ====
section
/-! DEFINITION. The checks over bytes: CRC-64 of the lock-step digest (R235), CRC-32C of flits (R258), SHAKE256 with 256-bit
output of every digest (R242, R291, R364; its permutation is FIPS 202's: log entry 16). -/

namespace Sys2Proof.Machine

/-- One bit of the CRC-64, ECMA-182, not reflected (R235). -/
def crc64Bit (c : BitVec 64) : BitVec 64 := if c.msb then (c <<< 1) ^^^ 0x42F0E1EBA9EA3693 else c <<< 1

/-- CRC-64 over bytes: initial value 0, no final XOR (R235). -/
def crc64 (bs : List Byte) : BitVec 64 :=
  bs.foldl (fun (c : BitVec 64) (b : Byte) =>
    (List.range 8).foldl (fun (c : BitVec 64) _ => crc64Bit c) (c ^^^ ((b.setWidth 64 : BitVec 64) <<< (56 : Nat)))) 0

/-- The digest item of one included write: address, length minus 1, data (R235). -/
def digestItem (addr : Nat) (data : List Byte) : BitVec 64 :=
  crc64 (natLe addr 8 ++ natLe (data.length - 1) 1 ++ data)

/-- One bit of CRC-32C in reflected form. -/
def crc32Bit (c : BitVec 32) : BitVec 32 := if c.getLsbD 0 then (c >>> 1) ^^^ 0x82F63B78 else c >>> 1

/-- CRC-32C: reflected, initial value and final XOR all ones (R258). -/
def crc32c (bs : List Byte) : BitVec 32 :=
  (bs.foldl (fun (c : BitVec 32) (b : Byte) =>
    (List.range 8).foldl (fun (c : BitVec 32) _ => crc32Bit c) (c ^^^ (b.setWidth 32 : BitVec 32))) 0xFFFFFFFF) ^^^ 0xFFFFFFFF

/-! ### SHAKE256 -/

/-- The walk of the rotation step: from lane (1, 0), each lane (x, y) is followed by (y, 2x + 3y), and the t-th is rotated by
(t + 1)(t + 2)/2 bits. Answers (lane, rotation) for `n` lanes from the t-th on. -/
def rotWalk : Nat → Nat → Nat → Nat → List (Nat × Nat)
  | 0, _, _, _ => []
  | n + 1, t, x, y => (x + 5 * y, (t + 1) * (t + 2) / 2 % 64) :: rotWalk n (t + 1) y ((2 * x + 3 * y) % 5)

/-- The rotation of each lane x + 5·y; lane 0 is not rotated. -/
def keccakRot : List Nat :=
  let w := rotWalk 24 0 1 0
  (List.range 25).map (fun i => ((w.find? (fun e => e.1 == i)).map (fun e => e.2)).getD 0)

/-- The register that gives the bits of the round constants, shifted once: x^8 + x^6 + x^5 + x^4 + 1 over GF(2). -/
def rcShift (r : Nat) : Nat := if r < 128 then 2 * r else (2 * r - 256) ^^^ 0x71

/-- The constant of one round: bits 2^j − 1 for j from 0 to 6, from seven successive states of the register; and the state after. -/
def rcNext (r : Nat) : BitVec 64 × Nat :=
  (List.range 7).foldl (fun (a : BitVec 64 × Nat) j =>
    (a.1 ||| BitVec.ofNat 64 (a.2 % 2 * 2 ^ (2 ^ j - 1)), rcShift a.2)) (0, r)

/-- The constants of `n` rounds, from register state r on. -/
def roundConsts : Nat → Nat → List (BitVec 64)
  | 0, _ => []
  | n + 1, r => (rcNext r).1 :: roundConsts n (rcNext r).2

/-- The 24 round constants. -/
def keccakRc : List (BitVec 64) := roundConsts 24 1

/-- Lane (x, y) of a state; coordinates wrap. -/
def keccakLane (a : List (BitVec 64)) (x y : Nat) : BitVec 64 := a.getD (x % 5 + 5 * (y % 5)) 0

/-- A state from the value of each lane. -/
def keccakLanes (f : Nat → Nat → BitVec 64) : List (BitVec 64) :=
  (List.range 5).flatMap (fun y => (List.range 5).map (fun x => f x y))

/-- The parity of a column. -/
def colParity (a : List (BitVec 64)) (x : Nat) : BitVec 64 :=
  (List.range 5).foldl (fun v y => v ^^^ keccakLane a x y) 0

/-- Each lane takes in the parities of its neighbour columns. -/
def keccakTheta (a : List (BitVec 64)) : List (BitVec 64) :=
  keccakLanes (fun x y => keccakLane a x y ^^^ colParity a (x + 4) ^^^ (colParity a (x + 1)).rotateLeft 1)

/-- Each lane is rotated, and lane (x, y) comes from lane (x + 3y, x). -/
def keccakRhoPi (a : List (BitVec 64)) : List (BitVec 64) :=
  keccakLanes (fun x y => (keccakLane a (x + 3 * y) x).rotateLeft (keccakRot.getD ((x + 3 * y) % 5 + 5 * x) 0))

/-- The step that is not linear. -/
def keccakChi (a : List (BitVec 64)) : List (BitVec 64) :=
  keccakLanes (fun x y => keccakLane a x y ^^^ (~~~ keccakLane a (x + 1) y &&& keccakLane a (x + 2) y))

/-- One round on the 25 lanes; its constant goes into lane 0. -/
def keccakRound (a : List (BitVec 64)) (rc : BitVec 64) : List (BitVec 64) :=
  match keccakChi (keccakRhoPi (keccakTheta a)) with
  | [] => []
  | l :: r => (l ^^^ rc) :: r

/-- The permutation. -/
def keccakF (a : List (BitVec 64)) : List (BitVec 64) := keccakRc.foldl keccakRound a

/-- Absorb blocks of 136 B; `n` bounds their number. -/
def absorb : Nat → List (BitVec 64) → List Byte → List (BitVec 64)
  | 0, a, _ => a
  | n + 1, a, bs =>
    if bs.isEmpty then a
    else
      absorb n (keccakF (a.zipIdx.map (fun e =>
        if e.2 < 17 then e.1 ^^^ BitVec.ofNat 64 (leNat ((bs.drop (8 * e.2)).take 8)) else e.1))) (bs.drop 136)

/-- The padding of SHAKE: 0x1F, zeros, and 0x80 in the last byte of the block. -/
def shakePad (n : Nat) : List Byte :=
  let z := 135 - n % 136
  if z = 0 then [0x9F] else [0x1F] ++ List.replicate (z - 1) 0 ++ [0x80]

/-- SHAKE256 with 256-bit output, as a number whose bytes are the output's, little-endian (R3). -/
def shake256 (bs : List Byte) : Nat :=
  let m := bs ++ shakePad bs.length
  leNat (((absorb (m.length / 136) (List.replicate 25 0) m).take 4).flatMap (fun l => natLe l.toNat 8))

end Sys2Proof.Machine
end

