-- ==== Sys2Proof/Machine/Fab.lean ====
section
/-! DEFINITION. The fabric table, the members of a fabric partition and the ports that lead to them (R274, R278 to R281). -/

namespace Sys2Proof.Machine

/-- The version of the fabric table a Mould's send epoch names (R281). -/
def Mould.tab (m : Mould) (v : Nat) : FabTab := if v = 0 then m.tabA else m.tabB
def Mould.setTab (m : Mould) (v : Nat) (t : FabTab) : Mould := if v = 0 then { m with tabA := t } else { m with tabB := t }
def FabRec.none : FabRec := ⟨0, 0xFFFF, 0xFFFF, 0xFFFF, 0xFFFF, false, false⟩
def FabTab.rec_ (t : FabTab) (i : Nat) : FabRec := t.recs.getD i FabRec.none
/-- Do the replica rules apply (Table 15-2)? -/
def Mould.replica (m : Mould) : Bool := m.tabA.replica

/-- The Moulds that are committed: those of the ports' rules (R271 to R273). -/
def Dev.committed (d : Dev) : List Mould := d.moulds.filter (fun m => 4 ≤ m.phase)

/-- The member of a Mould in a slot of a board. -/
def Mould.memberAt (m : Mould) (board slot : Nat) : Option Nat :=
  (m.members.zipIdx.find? (fun e => e.1.board == board && e.1.slot == slot)).map (fun e => e.2)
def Mould.boardOf (m : Mould) (i : Nat) : Option Nat := (m.members[i]?).map (fun x => x.board)

/-- The board a port of this member leads to: its own for a board link, that of REMOTEe for EP0 and EP1 (Table 15-3). -/
def Mould.facing (m : Mould) (t : FabTab) (u : Nat) : Option Nat :=
  if u < 7 then m.boardOf m.self
  else
    let r := if u = 7 then (t.rec_ m.self).remote0 else (t.rec_ m.self).remote1
    if r = 0xFFFF then none else m.boardOf r

/-- Is a member in service: no other receives its traffic? -/
def Mould.alive (m : Mould) (i : Nat) : Bool := ((m.tab m.epoch).rec_ i).aliasTo == 0xFFFF

/-- The destination member of an outgoing packet (R278). -/
def Mould.destOf (m : Mould) (t : FabTab) (u addr : Nat) : Option Nat :=
  match (m.facing t u).bind (fun b => m.memberAt b (bits addr 36 34)) with
  | none => none
  | some x => some (if (t.rec_ x).aliasTo = 0xFFFF then x else (t.rec_ x).aliasTo)

/-- The board link cabled to a member's slot (R274, R279). -/
def Mould.linkTo (m : Mould) (i : Nat) : Option Nat :=
  (List.range 7).find? (fun v => match m.nbrs[v]?, m.members[i]? with
    | some e, some x => e.mode == 1 && e.slot == x.slot && e.board == x.board
    | _, _ => false)

/-- The port towards a member (R279): its board link, or the Ethernet port that faces its board, EP0 first. -/
def Mould.portTo (m : Mould) (i : Nat) : Option Nat :=
  if m.boardOf i = m.boardOf m.self then m.linkTo i
  else [7, 8].find? (fun u => (m.facing (m.tab m.epoch) u).isSome && m.facing (m.tab m.epoch) u == m.boardOf i)

/-- The members whose devices are the peers of an Ethernet port (R269): those of the board it faces that stand for themselves. -/
def Mould.peersOf (m : Mould) (u : Nat) : List Nat :=
  (List.range m.devices).filter (fun i => i != m.self && (m.facing (m.tab m.epoch) u).isSome &&
    m.facing (m.tab m.epoch) u == m.boardOf i && ((m.tab m.epoch).rec_ i).aliasTo == 0xFFFF)

/-- The IP addresses a device with a serial has in the committed Moulds' tables. -/
def Dev.ipsOf (d : Dev) (serial : Nat) : List Nat :=
  d.committed.flatMap (fun m => (List.range m.devices).filterMap (fun i =>
    if (m.members[i]?).any (fun e => e.serial == serial) then some ((m.tab m.epoch).rec_ i).ip else none))

end Sys2Proof.Machine
end

