-- ==== Sys2Proof/Machine/FlitFmt.lean ====
section
/-! DEFINITION. Flits, control flits and datagrams on the wire (R258 to R261, R267; Tables 14-2 to 14-4, 14-6 and 14-7). -/

namespace Sys2Proof.Machine

/-! ### Flits (Table 14-2) -/

/-- The n-byte field of a flit at an offset. -/
def flitNum (f : BitVec 2048) (off n : Nat) : Nat := bits f.toNat (8 * (off + n) - 1) (8 * off)

/-- A flit before its XOFF, ACK and CRC are filled in. -/
def mkWire (typ cls : Nat) (last : Bool) (seq len : Nat) (body : List Byte) : BitVec 2048 :=
  BitVec.ofNat 2048 (typ + 16 * cls + 64 * b2n last + seq * 2 ^ 16 + len * 2 ^ 48 + leNat body * 2 ^ 96)

/-- XOFF, ACK and CRC as the flit leaves; on Ethernet ports XOFF, SEQ and ACK are 0 (R262, R265, R267). -/
def Port.stamp (x : Port) (eth : Bool) (f : BitVec 2048) : BitVec 2048 :=
  let v := f.toNat % 2 ^ 2016
  let v := if eth then v - flitNum f 2 2 * 2 ^ 16 else v + x.xoffTx.toNat * 2 ^ 8 + (0x8000 + (x.expect - 1).toNat) * 2 ^ 32
  BitVec.ofNat 2048 (v + (crc32c (natLe v 252)).toNat * 2 ^ 2016)

/-- A control flit (Table 14-4). R258 gives it no class: it is 0 on a board link and MGMT on an Ethernet port (R269, log entry
153). -/
def ctrlFlit (eth : Bool) (ctype part arg reason : Nat) (data : List Byte) : BitVec 2048 :=
  mkWire 3 (3 * b2n eth) false 0 0 (natLe ctype 1 ++ natLe part 1 ++ natLe arg 2 ++ natLe reason 4 ++ data)

/-- An IDLE flit of board link port x: all it says is XOFF and ACK. -/
def Port.idle (x : Port) : BitVec 2048 := x.stamp false 0

/-! ### Datagrams (R267, Table 14-7) -/

/-- PCP of a class (LNK_ENCAP). -/
def Port.pcp (x : Port) (cls : Nat) : Nat := bits x.encap.toNat (3 * cls + 2) (3 * cls)

/-- UDP source port (R267). -/
def udpSource (fpid src dst cls : Nat) : Nat :=
  0xC000 + (crc32c (natLe fpid 2 ++ natLe src 2 ++ natLe dst 2 ++ natLe cls 1)).toNat % 0x4000

/-- The frame of a Mould's datagrams from port u to a member, by version v of the fabric table (R267, R279). -/
def Dev.frameTo (d : Dev) (u : Nat) (m : Mould) (v dst cls : Nat) : Frame :=
  let t := m.tab v
  let x := d.port u
  { ipver := t.ipver, src := (t.rec_ m.self).ip, dst := (t.rec_ dst).ip, hoplim := t.hoplim,
    sport := udpSource m.fpid m.self dst cls, dport := bits x.encap.toNat 63 48, pcp := x.pcp cls, dscp := 8 * x.pcp cls }

/-- A peer not met yet: sequences at 0 (log entry 8). -/
def SegPeer.fresh (ip : Nat) : SegPeer :=
  { peer := ip, expect := 0, next := 0, unacked := [], resends := 0, from_ := 0, rx := [], refused := none, rev := 0 }
def Port.seg (x : Port) (ip : Nat) : SegPeer := (x.peers.find? (fun p => p.peer == ip)).getD (SegPeer.fresh ip)
def Port.setSeg (x : Port) (p : SegPeer) : Port := { x with peers := x.peers.filter (fun (q : SegPeer) => q.peer ≠ p.peer) ++ [p] }

/-- The segment header. -/
def segHdr (rev : Nat) (ack nak : Bool) (seq : BitVec 32) (last : BitVec 32) (n : Nat) : BitVec 128 :=
  BitVec.ofNat 128 (0x5253 + rev % 256 * 2 ^ 16 + (b2n ack + 2 * b2n nak) * 2 ^ 24 + seq.toNat * 2 ^ 32 + last.toNat * 2 ^ 64 +
    n % 256 * 2 ^ 96)

/-- The peers of an Ethernet port, each once by its address, with the frame its control traffic goes in (R269: class MGMT). -/
def Dev.ctrlFrames (d : Dev) (u : Nat) : List Frame :=
  (d.committed.flatMap (fun m => (m.peersOf u).map (fun i => d.frameTo u m m.epoch i 3))).foldl
    (fun (l : List Frame) f => if l.any (fun g => g.dst == f.dst) then l else l ++ [f]) []

/-- Control flits to one peer, in datagrams of up to `per` flits; they take no segment sequence number (R261). -/
def ctrlGrams (u per : Nat) (fr : Frame) (p : SegPeer) : Nat → List (BitVec 2048) → List Out
  | 0, _ => []
  | n + 1, fs =>
    if fs.isEmpty then []
    else
      .datagram u fr (segHdr p.rev true false p.next (p.expect - 1) (min per fs.length)) (fs.take per) ::
        ctrlGrams u per fr p n (fs.drop per)

/-- Control flits as they leave port u: on a board link as they are, on an Ethernet port in datagrams to each of its peers, or to
the one with the address given. -/
def Dev.ctrlOuts (d : Dev) (u : Nat) (only : Option Nat) (fs : List (BitVec 2048)) : List Out :=
  let x := d.port u
  if u < 7 then fs.map (fun f => .flit u (x.stamp false f))
  else
    ((d.ctrlFrames u).filter (fun f => only.all (fun ip => ip == f.dst))).flatMap (fun f =>
      ctrlGrams u (x.fpd.toNat + 1) f (x.seg f.dst) fs.length (fs.map (fun g => x.stamp true g)))

def Dev.emits (d : Dev) (l : List Out) : Dev := l.foldl (fun d o => d.emit o) d

/-- Send one control flit. -/
def Dev.sendCtrl (d : Dev) (u : Nat) (only : Option Nat) (ctype arg reason : Nat) (data : List Byte) : Dev :=
  d.emits (d.ctrlOuts u only [ctrlFlit (decide (7 ≤ u)) ctype 0 arg reason data])

/-! ### The identity block (Table 14-6) -/

def Identity.encode (b : Identity) : List Byte :=
  natLe b.serial 8 ++ natLe b.board 8 ++ natLe b.slot 1 ++ natLe b.port 1 ++ natLe b.revMin 1 ++ natLe b.revMax 1 ++
    natLe b.fwVersion 4 ++ natLe b.state 1 ++ natLe b.parts.length 1 ++ List.replicate 6 0 ++
    b.parts.flatMap (fun e => natLe e.1 2 ++ List.replicate 6 0 ++ natLe e.2 32)

/-- Its three control flits (Table 14-4). -/
def Identity.flits (b : Identity) (eth : Bool) : List (BitVec 2048) :=
  (List.range 3).map (fun i => ctrlFlit eth 2 i 0 0 (((b.encode).drop (232 * i)).take 232))

end Sys2Proof.Machine
end

