-- ==== Sys2Proof/Machine/TurnSync.lean ====
section
/-! DEFINITION. Keeping the Turn in step (R222 to R226). Times are in 1/65,536 tick. -/

namespace Sys2Proof.Machine

/-- Does the port carry the sync exchange: from training step 3 on (R222, Table 14-8)? -/
def Port.syncs (x : Port) : Bool :=
  match x.st with
  | .down => false
  | .training => decide (3 ≤ x.step)
  | _ => true

/-- A candidate for the parent: PRIO, root serial, hops, port code (R222). -/
structure Cand where
  prio : Nat
  root : Nat
  hops : Nat
  code : Nat
  deriving DecidableEq, Repr

/-- Is a better than b, lowest first (R222)? -/
def Cand.better (a b : Cand) : Bool :=
  if a.prio ≠ b.prio then decide (a.prio < b.prio)
  else if a.root ≠ b.root then decide (a.root < b.root)
  else if a.hops ≠ b.hops then decide (a.hops < b.hops)
  else decide (a.code < b.code)

/-- The announcements a device ranks; a quarantined port is never chosen (R273). -/
def Dev.cands (d : Dev) : List Cand :=
  d.turn.ann.filterMap (fun (e : Nat × Announce) =>
    let x := d.port e.1
    if x.syncs && x.st != .quarantined then some ⟨e.2.prio, e.2.root, e.2.hops + 1, e.1 + 4⟩ else none)

/-- The best candidate; the device itself is (TURN_PRIO, own serial, 0 hops). -/
def Dev.bestCand (d : Dev) : Cand :=
  d.cands.foldl (fun a b => if b.better a then b else a) ⟨d.turn.prio.toNat, d.serial.toNat, 0, 0⟩

/-- Choose the parent port or become the root; a root is LOCKED at once (R222, Table 12-2). A device that is no longer the root is no
longer anchored to PTP (R226). -/
def Dev.chooseParent (d : Dev) : Dev :=
  let c := d.bestCand
  let r : Bool := c.code == 0
  { d with turn := { d.turn with parent := c.code, root := r,
                                 anchored := r && d.turn.anchored, ptpLock := r && d.turn.ptpLock,
                                 st := if r && d.turn.st == .listen then .locked else d.turn.st } }

/-- DATA of a SYNC control flit (Table 14-4): the timestamp, PRIO, root serial and hops, in that order (log entry 152). -/
def syncData (t : Turn) (c : Cand) : List Byte :=
  natLe t.now.toNat 8 ++ natLe t.frac.toNat 2 ++ natLe c.prio 1 ++ natLe c.root 8 ++ natLe c.hops 1

/-- SYNC_EXCHANGE_SEND (R222): at most once every 4,096 ticks a port sends the timestamp and the announcement. -/
def execSyncExchangeSend (u : PortId) (s : State) : Host.Outcome State Fault Refusal :=
  lift (fun d =>
    let t := d.turn
    let due : Bool := (t.lastSync.find? (fun e => e.1 == u.val)).all (fun e => decide (e.2 + 4096 ≤ t.now.toNat))
    if d.rst || !(d.port u).syncs || !due then d
    else
      let d := d.chooseParent
      let c := d.bestCand
      ({ d with turn := { d.turn with lastSync := up d.turn.lastSync u t.now.toNat } }).sendCtrl u none 1 0 0 (syncData d.turn c)) s

/-- Tick count and fraction as one number. -/
def Turn.units (t : Turn) : Nat := t.now.toNat * 65536 + t.frac.toNat
/-- Set both from one number. -/
def Turn.setUnits (t : Turn) (u : Nat) : Turn := { t with now := BitVec.ofNat 64 (u / 65536), frac := BitVec.ofNat 16 u }

/-- Twice θ of R223. -/
def theta2 (t1 t2 t3 t4 : Nat) : Int := ((t2 : Int) - t1) - ((t4 : Int) - t3)

/-- θ in 1/65,536 tick; which way half a unit is rounded is not given, `up_` says it (log entry 23). -/
def thetaOf (t1 t2 t3 t4 : Nat) (up_ : Bool) : Int := (theta2 t1 t2 t3 t4 + b2n up_).fdiv 2

/-- δ of R223 in 1/65,536 tick, rounded like θ. -/
def deltaOf (t1 t2 t3 t4 : Nat) (up_ : Bool) : Int := (((t4 : Int) - t1) - ((t3 : Int) - t2) + b2n up_).fdiv 2

/-- The correction by θ on the parent port (R223, R224, Table 12-2). 4 ns are 1/40 tick, 40 ns a quarter. -/
def Dev.correct (d : Dev) (th : Int) : Dev :=
  let t := { d.turn with theta := BitVec.ofInt 32 th }
  match t.st with
  | .holdover => { d with turn := t }
  | .listen =>
    let g := if th.natAbs * 40 ≤ 65536 then t.good + 1 else 0
    let t := if t.begun then t else t.setUnits (((t.units : Int) + th) % (2 ^ 80 : Int)).toNat
    { d with turn := { t with good := if 3 ≤ g then 0 else g, st := if 3 ≤ g then .locked else .listen } }
  | .locked =>
    let d := { d with turn := { t with slew := th } }
    if th.natAbs * 4 > 65536 then
      ({ d with turn := { d.turn with syncLost := true } }).raise
        { code := 0x31, cls := 0, source := 16, core := 0xFFFF, pmask := 0, fpid := 0xFFFF,
          detail := [(BitVec.ofInt 32 th).toNat] }
    else d

/-- SYNC_WORD_RECEIVE (R222 to R224): discarded before training step 3 (R396). -/
def execSyncWordReceive (u : PortId) (prio root hops : Nat) (t1 t2 t3 t4 : Nat) (s : State) :
    Host.Outcome State Fault Refusal :=
  lift (fun d =>
    if d.rst || !(d.port u).syncs then d
    else
      let d := ({ d with turn := { d.turn with ann := up d.turn.ann u ⟨prio, root, hops⟩ } }).chooseParent
      if d.turn.parent = u.val + 4 then
        let v := Config.freeValue d.free
        ({ d with free := d.free + 1
                  turn := { d.turn with delta := BitVec.ofInt 32 (deltaOf t1 t2 t3 t4 (v.getLsbD 1)) } } : Dev).correct
          (thetaOf t1 t2 t3 t4 (v.getLsbD 0))
      else d) s

/-- PTP_MESSAGE (R226): `ns` is the PTP time now. The first message of an anchoring root writes TURN_EPOCH, the time at
tick 0; then the root slews so that TURN_EPOCH + 160 ns × Turn follows; which way a part of a unit is rounded is free (log entry 23). A device that is no root ignores it. -/
def execPtpMessage (u : PortId) (ns : Nat) (s : State) : Host.Outcome State Fault Refusal :=
  lift (fun d =>
    let t := d.turn
    let up_ := b2n ((Config.freeValue d.free).getLsbD 0)
    if d.rst || !t.root || u.val < 7 then d
    else if !t.anchored then
      { d with free := d.free + 1
               turn := { t with anchored := true, ptpLock := true,
                                epoch := BitVec.ofInt 64 ((ns : Int) - ((160 * t.units + 65535 * up_) / 65536 : Nat)) } }
    else
      let off : Int := ((ns : Int) - t.epoch.toNat) * 65536 - 160 * (t.units : Int)
      { d with free := d.free + 1
               turn := { t with ptpLock := decide (off.natAbs ≤ 40 * 65536),
                                slew := if t.st = .locked then (off + (159 * up_ : Nat)).fdiv 160 else t.slew } }) s

end Sys2Proof.Machine
end

