-- ==== Sys2Proof/Machine/PortOps.lean ====
section
/-! DEFINITION. What several units do with a port: its identity block, revision, admission, going down (R254, R269 to R273). -/

namespace Sys2Proof.Machine

/-- Is a Mould with COMPAT_S420 loaded (R270)? -/
def Dev.anyCompat (d : Dev) : Bool := d.committed.any (fun m => m.compat)
/-- RIND_MIN of the device (R271). -/
def Dev.rindMin (d : Dev) : Nat := d.committed.foldl (fun a m => max a m.rindMin) 1
/-- The highest revision port u offers (R270). -/
def Dev.revMax (d : Dev) (u : Nat) : Nat := if u < 7 && d.anyCompat then 1 else 2

/-- STATE of an identity block (Table 14-6). -/
def PortSt.idCode : PortSt → Nat
  | .admitted => 1
  | .quarantined => 2
  | _ => 0
/-- LNK_STATUS.STATE. -/
def PortSt.code : PortSt → Nat
  | .down => 0
  | .training => 1
  | .notAdmitted => 2
  | .admitted => 3
  | .quarantined => 4

/-- The identity block of port u (Table 14-6). -/
def Dev.ownIdentity (d : Dev) (u : Nat) : Identity :=
  { serial := d.serial.toNat, board := d.board.toNat, slot := d.slot.toNat, port := u + 4, revMin := 1,
    revMax := d.revMax u, fwVersion := d.crm.fwver.toNat, state := (d.port u).st.idCode,
    parts := d.committed.map (fun m => (m.fpid, m.digest)) }

/-- The own identity block as it leaves port u, to all its peers or to one of an Ethernet port's. -/
def Dev.identityOuts (d : Dev) (u : Nat) (only : Option Nat) : List Out :=
  d.ctrlOuts u only ((d.ownIdentity u).flits (decide (7 ≤ u)))

/-- Send IDENTITY; without an acknowledgement it is sent again 1 ms later (R261). -/
def Dev.sendIdentity (d : Dev) (u : Nat) : Dev :=
  (d.updPort u (fun x => { x with idSent := some d.turn.now.toNat })).emits (d.identityOuts u none)

/-- Has the port reached the identity exchange? -/
def Port.identified (x : Port) : Bool :=
  match x.st with
  | .down => false
  | .training => decide (4 ≤ x.step)
  | _ => true

/-- A field of the identity blocks has changed: every port that exchanges identities sends its own again (R261). -/
def Dev.identityChanged (d : Dev) : Dev :=
  (List.range 9).foldl (fun d u => if (d.port u).identified then d.sendIdentity u else d) d

/-- What a port keeps when it goes down: its registers and counters, and the packets and flits it holds (R262, R273: the traffic
held behind it flows once it is admitted again), and a retraining in progress (R264), not its link state. -/
def Port.goDown (x : Port) : Port :=
  { x with st := .down, step := 0, rev := 0, peer := none, ids := [], negs := [], xoffRx := 0, xoffTx := 0, probes := [],
           rxRetry := false, idSent := none, offer := false, pfc := 0 }

/-! ### Holding by XOFF (R265, R269, R273) -/

/-- Free flits at or below which class c is held. -/
def Port.xoffLevel (x : Port) : Nat := cdiv (x.rtt.toNat * 625) 655360 + 16

/-- Does the fill of the receive buffer hold class c: from the level on, until 64 above it? -/
def Port.fillHolds (x : Port) (c : Nat) : Bool :=
  let free := 512 - lk 0 x.rxUsed c
  if free ≤ x.xoffLevel then true else if x.xoffLevel + 64 ≤ free then false else bit x.xoffTx.toNat c

/-- Does a board link ask its peer to hold class c: by the fill once admitted; before that every class, but for LOAD while an offer
lasts? -/
def Port.holds (x : Port) (c : Nat) : Bool :=
  match x.st with
  | .down => false
  | .admitted => x.fillHolds c
  | .quarantined | .training => true
  | .notAdmitted => if x.offer && c == 2 then x.fillHolds c else true

/-- The XOFF field after the state of a port or the fill of its buffers has changed; 0 on an Ethernet port (R266). -/
def Port.reXoff (x : Port) (eth : Bool) : Port :=
  { x with xoffTx := if eth then 0 else BitVec.ofNat 4 ((List.range 4).foldl (fun a c => a + 2 ^ c * b2n (x.holds c)) 0) }

/-- After a change at port u: its XOFF field follows; a change of STATE sends the identity block again (R261); on a board link that
has sent nothing since, an IDLE flit carries a changed XOFF or ACK to the peer, or repeats the ACK (R258, R262, R265, log entry 29).
`d0` is the device before. -/
def Dev.settled (d d0 : Dev) (u : Nat) (again : Bool) : Dev :=
  let a := d0.port u
  let e := d.updPort u (fun x => x.reXoff (decide (7 ≤ u)))
  let e := if a.st.idCode ≠ (e.port u).st.idCode ∧ (e.port u).identified then e.sendIdentity u else e
  let b := e.port u
  let news : Bool := if d.out.length = d0.out.length then again || a.xoffTx != b.xoffTx || a.expect != b.expect else b.xoffTx != (d.port u).xoffTx
  if u < 7 ∧ b.syncs ∧ news ∧ e.out.length = d.out.length then e.emit (.flit u b.idle) else e

/-- A port goes down: its announcement no longer counts for the Turn (R222). -/
def Dev.portDown (d : Dev) (u : Nat) : Dev :=
  let d := (d.updPort u Port.goDown)
  let d := { d with turn := { d.turn with ann := del d.turn.ann u } }
  if d.turn.parent = u + 4 then d.chooseParent else d

/-- A port begins training at step 1 (R269). -/
def Dev.trainFrom1 (d : Dev) (u : Nat) : Dev :=
  (d.portDown u).updPort u (fun x => { x with st := .training, step := 1 })

/-- The entries of the committed Moulds for port u. -/
def Dev.entries (d : Dev) (u : Nat) : List Nbr := d.committed.filterMap (fun m => m.nbrs[u]?)
/-- Is the port held down: by LNK_CTRL or by a neighbour entry with MODE 0 (R269, R272)? -/
def Dev.heldDown (d : Dev) (u : Nat) : Bool := (d.port u).disable || (d.entries u).any (fun e => e.mode == 0)

/-- Does a peer match an expected-neighbour entry (R272)? -/
def Nbr.fits (e : Nbr) (b : Identity) : Bool :=
  e.serial == b.serial && e.board == b.board && e.slot == b.slot && e.port == b.port

/-- Does the peer of port u pass? MODE 2 takes any MODE 2 entry of the whole table with the same GROUP (R272). `none`: no entry governs. -/
def Dev.passes (d : Dev) (u : Nat) (b : Identity) : Option Bool :=
  match d.entries u with
  | [] => none
  | e :: r =>
    if r.any (fun x => x ≠ e) then some false
    else if e.mode = 2 then
      some (7 ≤ u && (d.committed.any (fun m => m.nbrAll.any (fun x => x.mode == 2 && x.group == e.group && x.fits b))))
    else some (e.mode == 1 && e.fits b)

/-- An error of port u that names no partition. -/
def Dev.raisePort (d : Dev) (u code : Nat) (detail : List Nat) : Dev :=
  d.raise { code := code, cls := 0, source := u + 4, core := 0xFFFF, pmask := 0, fpid := 0xFFFF, detail := detail }

/-- Quarantine a port with NEIGHBOUR_MISMATCH (R272). -/
def Dev.nbrMismatch (d : Dev) (u : Nat) (b : Identity) : Dev :=
  (d.updPort u (fun x => { x with st := .quarantined, step := 0, nmism := true, offer := false })).raisePort u 0x41
    [b.serial, b.slot, b.port]

/-- Step 7 for a port whose peer is known: admitted, quarantined, or not admitted while no Mould has an entry. Digests that
differ for one FPID are recorded and shut that partition out only (R254). -/
def Dev.letIn (d : Dev) (u : Nat) : Dev :=
  match (d.port u).peer with
  | none => d
  | some b =>
    match d.passes u b with
    | none => d.updPort u (fun x => { x with st := .notAdmitted, step := 0 })
    | some false => if (d.port u).st = .quarantined then d else d.nbrMismatch u b
    | some true =>
      let d := d.updPort u (fun x =>
        let x := { x with st := .admitted, step := 0,
                          ids := if u < 7 then [] else b :: x.ids.filter (fun (i : Identity) => i.serial ≠ b.serial) }
        if u < 7 then x else (d.ipsOf b.serial).foldl (fun x ip => x.setSeg { x.seg ip with rev := x.rev }) x)
      let bad := d.moulds.any (fun m => b.parts.any (fun e => e.1 == m.fpid && e.2 != m.digest))
      if bad then (d.updPort u (fun x => { x with nmism := true })).raisePort u 0x41 [b.serial, b.slot, b.port] else d

/-- The identity block of the device a packet of a fabric partition comes from or goes to behind port u: the peer of a board
link, the member's own block on an Ethernet port (R269). -/
def Dev.peerId (d : Dev) (u fpid member : Nat) : Option Identity :=
  if u < 7 then (d.port u).peer
  else
    match d.mouldFp fpid with
    | none => none
    | some m => (d.port u).ids.find? (fun b => (m.members[member]?).any (fun x => x.serial == b.serial))

/-- Does port u carry partition FPID to or from a member: admitted, and the peer lists the same digest (R254, R272)? -/
def Dev.portAdmits (d : Dev) (u fpid member : Nat) : Bool :=
  (d.port u).st == .admitted &&
  (match d.mouldFp fpid, d.peerId u fpid member with
   | some m, some b => decide (4 ≤ m.phase) && b.parts.any (fun e => e.1 == fpid && e.2 == m.digest)
   | _, _ => false)

/-- A Mould commit (R271, R273): ports whose offered range or RIND_MIN changed repeat steps 4 to 7, every other identified
port is checked again, and the identity blocks go out anew. `min0` and `max0` are what held before. -/
def Dev.recheckPorts (d : Dev) (min0 : Nat) (max0 : Nat → Nat) : Dev :=
  let d := (List.range 9).foldl (fun d u =>
    let x := d.port u
    if d.heldDown u then (if x.st = .down then d else d.portDown u)
    else if !x.identified then d
    else if d.rindMin ≠ min0 || d.revMax u ≠ max0 u then
      d.updPort u (fun x => { x with st := .training, step := 4, rev := 0, negs := [], probes := [] })
    else if x.st = .training || x.rev = 0 then d
    else
      (d.updPort u (fun x => { x with st := if x.st = .quarantined then .notAdmitted else x.st })).letIn u) d
  ((List.range 9).foldl (fun d u => d.updPort u (fun x => x.reXoff (decide (7 ≤ u)))) d).identityChanged

end Sys2Proof.Machine
end

