-- ==== Sys2Proof/Machine/Wire.lean ====
section
/-! DEFINITION. Packets as flits (R259, Table 14-3) and the sending side of a port unit (R262, R265, R266, R267). The flits of the
packets that wait go out as far as their classes may send and the buffers have room (log entry 29). -/

namespace Sys2Proof.Machine

/-- Payload bytes, or the count of a header-only packet (BYTES of Table 14-3). -/
def Packet.bytes (k : Packet) : Nat := k.amount.getD k.data.length

/-- The transaction header (Table 14-3); revision 1 has no EPOCH flag (R270). -/
def Packet.header (k : Packet) (rev : Nat) : List Byte :=
  natLe (k.addr % 2 ^ 37) 5 ++ natLe ((if rev = 1 then 0 else k.epoch % 2) + 2 * (k.fmt % 2)) 1 ++ natLe (k.fpid % 4096) 2 ++
    natLe (k.syn % 2 ^ 15) 2 ++ natLe k.bytes 2 ++ natLe k.src 2 ++ natLe k.dst 2 ++ natLe k.tree 1 ++ List.replicate 31 0

/-- How many flits BYTES payload bytes take (R259). -/
def flitCount (n : Nat) : Nat := if n ≤ 192 then 1 else 1 + cdiv (n - 192) 240
def Packet.flits (k : Packet) : Nat := flitCount k.data.length

/-- The CONT flits of a payload; SEQ counts on modulo 4,096. -/
def contFlits (cls : Nat) : Nat → Nat → List Byte → List (BitVec 2048)
  | 0, _, _ => []
  | n + 1, seq, bs =>
    if bs.isEmpty then []
    else mkWire 2 cls (decide (bs.length ≤ 240)) (seq % 4096) (min 240 bs.length) (bs.take 240) ::
      contFlits cls n (seq + 1) (bs.drop 240)

/-- The flits of a packet: a HEAD, then CONT flits (R259). A header-only packet is one HEAD with LEN 0. -/
def Packet.wire (k : Packet) (rev seq : Nat) : List (BitVec 2048) :=
  mkWire 1 k.cls (decide (k.data.length ≤ 192)) (seq % 4096) (min 192 k.data.length) (k.header rev ++ k.data.take 192) ::
    contFlits k.cls 18 (seq + 1) (k.data.drop 192)

/-- The packet a HEAD flit announces, without payload; on a revision 1 link EPOCH reads 0. -/
def headPacket (f : BitVec 2048) (rev : Nat) : Packet :=
  { cls := flitNum f 0 1 / 16 % 4, addr := flitNum f 0x0C 5, epoch := if rev = 1 then 0 else flitNum f 0x11 1 % 2,
    fmt := flitNum f 0x11 1 / 2 % 2, fpid := flitNum f 0x12 2 % 4096, syn := flitNum f 0x14 2 % 2 ^ 15,
    src := flitNum f 0x18 2, dst := flitNum f 0x1A 2, tree := flitNum f 0x1C 1, data := [],
    amount := if flitNum f 6 1 = 0 then some (flitNum f 0x16 2) else none }

/-- Bytes of a flit's body. -/
def flitBytes (f : BitVec 2048) (off n : Nat) : List Byte := natLe (f.toNat / 2 ^ (8 * off)) n

/-! ### Sending -/

/-- The frame a packet's datagrams go in (R267, R279). -/
def Dev.frame (d : Dev) (u : Nat) (k : Packet) : Option Frame := (d.mouldFp k.fpid).map (fun m => d.frameTo u m k.epoch k.dst k.cls)

/-- Datagrams of up to `per` flits each. -/
def datagrams (u rev per : Nat) (fr : Frame) (last : BitVec 32) : Nat → BitVec 32 → List (BitVec 2048) → List Out
  | 0, _, _ => []
  | n + 1, seq, fs =>
    if fs.isEmpty then []
    else
      .datagram u fr (segHdr rev true false seq last (min per fs.length)) (fs.take per) ::
        datagrams u rev per fr last n (seq + BitVec.ofNat 32 per) (fs.drop per)

/-- Has a neighbour behind port u taken an offer of this partition's Mould, so that its bytes flow before the port is admitted (R250,
R273)? -/
def Dev.offerTaken (d : Dev) (u : Nat) (k : Packet) : Bool :=
  k.cls == 2 && ((d.port u).st == .notAdmitted || (d.port u).st == .admitted) &&
  d.offers.any (fun o => o.taken && o.fpid == k.fpid && o.port == u + 4)

/-- May port u send flits of packet k now? Its partition is carried or its Mould's offer taken, its class is not held, and a revision 1
link has no class PRESS (R270, log entry 154). -/
def Dev.canSend (d : Dev) (u : Nat) (k : Packet) : Bool :=
  let x := d.port u
  (d.portAdmits u k.fpid k.dst || d.offerTaken u k) && x.retrain.isNone && !bit x.xoffRx.toNat k.cls &&
  (if u < 7 then !(k.cls == 1 && x.rev == 1)
   else (d.frame u k).any (fun fr => (x.seg fr.dst).refused.isNone && !(k.cls == 1 && (x.seg fr.dst).rev == 1)))

/-- Send the flits of packet k from its n-th on as far as the replay buffer of 256, or the peer's window of 1,024, has room (R262,
R268); the number sent. -/
def Dev.sendSome (d : Dev) (u : Nat) (k : Packet) (n : Nat) : Dev × Nat :=
  let x := d.port u
  if u < 7 then
    let fs := ((k.wire x.rev (x.nextSeq.toNat + 4096 - n)).drop n).take (256 - x.replay.length)
    let x := { x with nextSeq := x.nextSeq + BitVec.ofNat 12 fs.length, replay := x.replay ++ fs.map (fun f => (f, k.fpid)) }
    ((d.setPort u x).emits (fs.map (fun f => .flit u (x.stamp false f))), fs.length)
  else
    match d.frame u k with
    | none => (d, 0)
    | some fr =>
      let p := x.seg fr.dst
      let fs := (((k.wire p.rev 0).drop n).take (1024 - p.unacked.length)).map (fun f => x.stamp true f)
      let new := fs.zipIdx.map (fun e => (⟨p.next + BitVec.ofNat 32 e.2, e.1, k.fpid, fr⟩ : SegFlit))
      let x := x.setSeg { p with next := p.next + BitVec.ofNat 32 fs.length, unacked := p.unacked ++ new }
      ((d.setPort u x).emits (datagrams u p.rev (x.fpd.toNat + 1) fr (p.expect - 1) fs.length p.next fs), fs.length)

/-- Go through the packets that wait, in order. A class whose packet must wait, or stops in its middle, keeps all its later ones
back (R259); a packet stopped in its middle goes on where it stopped (R265). -/
def Dev.sendLoop (d : Dev) (u : Nat) : List Packet → List Nat → List Packet → Dev
  | [], _, kept => d.updPort u (fun x => { x with sendQ := kept.reverse })
  | k :: r, bl, kept =>
    if bl.contains k.cls || !d.canSend u k then Dev.sendLoop d u r (k.cls :: bl) (k :: kept)
    else
      let n := lk 0 (d.port u).sent k.cls
      let (e, j) := d.sendSome u k n
      if n + j < k.flits then
        Dev.sendLoop (e.updPort u (fun x => { x with sent := up x.sent k.cls (n + j) })) u r (k.cls :: bl) (k :: kept)
      else Dev.sendLoop (e.updPort u (fun x => { x with sent := del x.sent k.cls })) u r bl kept

/-- Send what port u holds and may send. -/
def Dev.portSend (d : Dev) (u : Nat) : Dev := d.sendLoop u (d.port u).sendQ [] []

/-- Put a packet into a port unit and send what may go. -/
def Dev.enqueue (d : Dev) (u : Nat) (k : Packet) : Dev := (d.updPort u (fun x => { x with sendQ := x.sendQ ++ [k] })).portSend u

/-- FAB_VLASTp_v: a packet of the Mould stamped v passes a port now. -/
def Dev.stampV (d : Dev) (m : Mould) (v : Nat) : Dev := d.updMould m.pmask (fun m => { m with vlast := up m.vlast v d.turn.now })

/-- Resend the flits of a replay buffer from the n-th on (R262). -/
def Dev.resend (d : Dev) (u n : Nat) : Dev :=
  let x := d.port u
  d.emits ((x.replay.drop n).map (fun e => .flit u (x.stamp false e.1)))

/-- Partitions (as a PMASK) of the FPIDs in a list (R264). -/
def Dev.fpidMask (d : Dev) (l : List Nat) : Nat :=
  d.moulds.foldl (fun a m => if l.contains m.fpid then Nat.lor a m.pmask else a) 0

/-- A port's LINK_RETRY_EXHAUSTED record: class CORRECTED, or PARTITION for the partitions that had a flit there. -/
def Dev.exhausted (d : Dev) (u seq peer : Nat) (lost : Option (List Nat)) : Dev :=
  match lost with
  | none => d.raisePort u 0x40 [seq, peer]
  | some l =>
    let fps := l.eraseDups
    d.raise { code := 0x40, cls := 2, source := u + 4, core := 0xFFFF, pmask := d.fpidMask fps,
              fpid := if fps.length = 1 then fps.headD 0xFFFF else 0xFFFF, detail := [seq, peer] }

end Sys2Proof.Machine
end

