-- ==== Sys2Proof/Machine/Members.lean ====
section
/-! DEFINITION. Messages between the members of a fabric partition that several meanings share (R286, R361). -/

namespace Sys2Proof.Machine

/-- A management message: its 16 B header (Table 20-3) and what the message carries. -/
def mgmtBytes (mtype : Nat) (answer : Bool) (fpid src seq arg : Nat) (body : List Byte) : List Byte :=
  natLe mtype 1 ++ natLe (b2n answer) 1 ++ natLe (fpid % 4096) 2 ++ natLe src 2 ++ natLe 0 2 ++ natLe seq 4 ++ natLe arg 4 ++ body

/-- The packets of a Creamery transfer: `bs` in pieces of at most 4,096 B, padded to whole 64 B (R259). The manual gives them no board
address and no object: those are free (log entry 153). -/
def Dev.transfer (d : Dev) (fpid epoch self u dst cls : Nat) (bs : List Byte) : Dev :=
  (List.range (cdiv bs.length 4096)).foldl (fun d i =>
    let b := (bs.drop (4096 * i)).take 4096
    let v := (Config.freeValue d.free).toNat
    ({ d with free := d.free + 1 } : Dev).enqueue u
      { cls := cls, addr := 64 * (v % 2 ^ 31), epoch := epoch, fmt := 0, fpid := fpid, syn := v / 2 ^ 31 % 2 ^ 15, src := self,
        dst := dst, tree := 0, data := b ++ List.replicate (64 * cdiv b.length 64 - b.length) 0, amount := none }) d

/-- The committed Mould of a fabric partition and the port towards a member, where there is one (R279). -/
def Dev.mgmtPort (d : Dev) (fpid dst : Nat) (via : Option Nat) : Option (Mould × Nat) :=
  match d.committed.find? (fun m => m.fpid == fpid) with
  | none => none
  | some m => (via.orElse (fun _ => m.portTo dst)).map (fun u => (m, u))

/-- The packet of a management message, with class MGMT (R286, R361). -/
def Dev.mgmtPacket (d : Dev) (via : Option Nat) (fpid dst mtype : Nat) (answer : Bool) (seq arg : Nat) (body : List Byte) : Dev :=
  if mtype ≤ 5 then d
  else
    match d.mgmtPort fpid dst via with
    | none => d
    | some (m, u) => (d.stampV m m.epoch).transfer fpid m.epoch m.self u dst 3 (mgmtBytes mtype answer fpid m.self seq arg body)

/-- Send a management message, by the port given or by the port towards the member: SEQ counts per fabric partition from 1
(Table 20-3); `body` is what follows the header, in the model's layout (log entry 153). Its packet goes with class MGMT once the Mould is committed; the messages of a load (MTYPE 1 to 5) pass between ports
that carry no packet of it yet (log entry 153). -/
def Dev.sendMgmtVia (d : Dev) (via : Option Nat) (fpid dst mtype arg : Nat) (body : List Byte) : Dev :=
  let n := lk 0 d.crm.mgmtOut fpid + 1
  let d := ({ d with crm := { d.crm with mgmtOut := up d.crm.mgmtOut fpid n } }).emit (.mgmt dst mtype fpid n arg false)
  d.mgmtPacket via fpid dst mtype false n arg body

def Dev.sendMgmt (d : Dev) (fpid dst mtype arg : Nat) : Dev := d.sendMgmtVia none fpid dst mtype arg []
/-- Send a message that carries more than ARG; `o` names what it carries. -/
def Dev.sendMgmtWith (d : Dev) (fpid dst mtype arg : Nat) (body : List Byte) (o : Out) : Dev :=
  (d.sendMgmtVia none fpid dst mtype arg body).emit o

/-- Pass a message on as it came, with its sender and SEQ (R297). -/
def Dev.relay (d : Dev) (fpid dst mtype : Nat) (h : MHdr) (arg : Nat) : Dev :=
  let d := match d.mgmtPort fpid dst none with
    | none => d
    | some (m, u) => (d.stampV m m.epoch).transfer fpid m.epoch m.self u dst 3 (mgmtBytes mtype false fpid h.src h.seq arg [])
  d.emit (.mgmt dst mtype fpid h.seq arg false)

/-- The answer to a forwarded access (R337): the SEQ of the request, ARG 1 where it was served, and the bytes read. -/
def Dev.fwdReply (d : Dev) (fpid dst seq : Nat) (ok : Bool) (bs : List Byte) : Dev :=
  (d.mgmtPacket none fpid dst 22 true seq (b2n ok) bs).emit (.fwdAnswer dst fpid seq ok bs)

/-- Make an offer, or make it again (R249, R250): its message carries the image's first 64 bytes, T0 and REPLAY. -/
def Dev.sendOffer (d : Dev) (o : Offer) : Dev :=
  let n := lk 0 d.crm.mgmtOut o.fpid + 1
  ({ d with crm := { d.crm with mgmtOut := up d.crm.mgmtOut o.fpid n } }).emit
    (.offer (o.port - 4) o.to_ o.fpid n (o.image.take 64) o.t0 o.replay)

/-- Bytes of a weight image or of a member's state go to a member in packets of class LOAD (R259, R289, R297). -/
def Dev.sendBytes (d : Dev) (fpid dst : Nat) (bs : List Byte) : Dev :=
  match d.mgmtPort fpid dst none with
  | none => d
  | some (m, u) => (d.stampV m m.epoch).transfer fpid m.epoch m.self u dst 2 bs

/-- Send to every other member of a Mould. -/
def Dev.sendAll (d : Dev) (m : Mould) (mtype arg : Nat) : Dev :=
  ((List.range m.devices).filter (fun i => i ≠ m.self)).foldl (fun d i => d.sendMgmt m.fpid i mtype arg) d

/-- Send a message with more than ARG to every other member; `o` names what it carries. -/
def Dev.sendAllWith (d : Dev) (m : Mould) (mtype arg : Nat) (body : List Byte) (o : Nat → Out) : Dev :=
  ((List.range m.devices).filter (fun i => i ≠ m.self)).foldl (fun d i => d.sendMgmtWith m.fpid i mtype arg body (o i)) d

/-- The member after this one in distribution order, if any. -/
def Mould.nextMember (m : Mould) : Option Nat :=
  match (m.dist.dropWhile (fun e => e.1 ≠ m.self)) with
  | _ :: (n, _) :: _ => some n
  | _ => none

/-- Pass a message along the distribution order (R249, R251, R283, R288). -/
def Dev.passOn (d : Dev) (m : Mould) (mtype arg : Nat) : Dev :=
  match m.nextMember with
  | some n => d.sendMgmt m.fpid n mtype arg
  | none => d

/-- A SWITCH command completes once every member in service has switched (R283). -/
def Dev.switchCheck (d : Dev) (m : Mould) : Dev :=
  match (d.mouldOf (lowPart m.pmask)).bind (fun m => m.switching) with
  | none => d
  | some r =>
    if (List.range m.devices).all (fun i => r.done.contains i || !m.alive i) then
      (d.updMould m.pmask (fun m => { m with switching := none })).complete r.fn r.cid (if r.late then 7 else 0) 0
    else d

/-- Member 0 holds the report of member i that it switched at boundary n; one past the step named is late (R283, log entry 123). -/
def Dev.switchedIn (d : Dev) (m : Mould) (i n : Nat) : Dev :=
  (d.updMould m.pmask (fun m =>
    { m with switching := m.switching.map (fun (r : SwitchRun) =>
        { r with done := if r.done.contains i then r.done else i :: r.done, late := r.late || decide (r.step < n) }) })).switchCheck m

/-- Member 0 holds STEPDONE(S) of member x; with all of them it sends GO(S) (R286). -/
def Dev.stepDoneIn (d : Dev) (m : Mould) (x step : Nat) : Dev :=
  let l := if m.stepDone.contains (x, step) then m.stepDone else (x, step) :: m.stepDone
  let all := (List.range m.devices).all (fun i => l.contains (i, step) || (m.tab m.epoch |>.rec_ i).aliasTo ≠ 0xFFFF)
  if all then
    (d.updMould m.pmask (fun m => { m with stepDone := l.filter (fun e => e.2 ≠ step), go := max m.go (step + 1) })).sendAll m 12 step
  else d.updMould m.pmask (fun m => { m with stepDone := l })

/-- Is a sequencer of the core still running its step? -/
def Core.stepDone (c : Core) : Bool := c.a.st == .stepWait && c.e.st == .stepWait

/-- Every sequencer of partition p is in STEP_WAIT (R231, R286). -/
def Dev.partDone (d : Dev) (p : Nat) : Bool :=
  d.cores.all (fun e => d.partOf e.1 ≠ p || e.2.stepDone)

/-- What follows the entry of core k's last sequencer into STEP_WAIT: STEP_END, when it is the partition's last (R231); in recovery starter mode the register-file BIST
starts (R136); with REPLICA set a member whose last sequencer this is reports STEPDONE (R286). -/
def Dev.afterStepEnd (d : Dev) (k : Nat) : Dev :=
  let c := d.core k
  if !c.stepDone then d
  else
    let d := d.setCore k c.startBist
    let p := d.partOf k
    let d := if d.partDone p then d.updPart p (fun t => { t with stepEnd := true }) else d
    match d.mouldOf p with
    | none => d
    | some m =>
      if m.replica && (partsOf m.pmask).all (fun p => d.partDone p) then
        let st := (d.part (lowPart m.pmask)).step.toNat
        if m.self = 0 then d.stepDoneIn m 0 st else d.sendMgmt m.fpid 0 11 st
      else d

end Sys2Proof.Machine
end

