-- ==== Sys2Proof/Machine/CoreCtl.lean ====
section
/-! DEFINITION. What software does to one core: program-store writes (R43), CORE_CTRL (R60, R413), VEC_CTRL (R135). -/

namespace Sys2Proof.Machine

/-- PROGRAM_STORE_WRITE (R43): taken only while both sequencers are IDLE or HALTED, else dropped with PS_WDROP. -/
def execProgramStoreWrite (k : CoreId) (q : SeqId) (n : BitVec 13) (v : Word) (s : State) :
    Host.Outcome State Fault Refusal :=
  liftW (fun _ _ d =>
    if (d.core k).quiet then (d, wrBytes (progBase k q + 8 * n.toNat) (natLe v.toNat 8))
    else (d.updCore k (fun c => { c with psWdrop := true }), [])) s

/-- Does function f own the Mould that holds partition p (R336)? -/
def Dev.owns (d : Dev) (f p : Nat) : Bool := (d.mouldOf p).any (fun m => m.owner == some f)

/-- May PT_BREAK or CORE_CTRL of partition p be written: a Mould holds it, and a function must own that Mould; firmware
(`none`) writes every register (R413). -/
def Dev.mayCtrl (d : Dev) (who : Option FnId) (p : Nat) : Bool :=
  (d.mouldOf p).isSome && (match who with
    | some f => d.owns f p
    | none => true)

/-- Resume a sequencer that CORE_CTRL.HALT halted; one halted by an error ignores it (R60). -/
def Seq.resume (x : Seq) : Seq :=
  match x.st, x.haltBy with
  | .halted, .ctrl => { x with st := x.saved, haltBy := .nothing, stallRun := 0 }
  | _, _ => x

/-- The effect of a write to CORE_CTRL: HALT wins over RESUME (R60). -/
def Core.ctrl (c : Core) (halt resume : Bool) : Core :=
  if halt then c.halt .ctrl
  else if resume then { c with a := c.a.resume, e := c.e.resume }
  else c

/-- A write to CORE_CTRL of core k, as far as the writer may (R60, R413). A resumed sequencer may be the last to be in STEP_WAIT
again. -/
def Dev.coreCtrl (d : Dev) (who : Option FnId) (k : Nat) (halt resume : Bool) : Dev :=
  if d.mayCtrl who (d.partOf k) then
    let d' := d.updCore k (fun c => c.ctrl halt resume)
    if (d.core k).stepDone then d' else d'.afterStepEnd k
  else d

/-- CORE_HALT (R60). -/
def execCoreHalt (who : Option FnId) (k : CoreId) (s : State) : Host.Outcome State Fault Refusal :=
  lift (fun d => d.coreCtrl who k true false) s

/-- CORE_RESUME (R60). -/
def execCoreResume (who : Option FnId) (k : CoreId) (s : State) : Host.Outcome State Fault Refusal :=
  lift (fun d => d.coreCtrl who k false true) s

/-- A write to VEC_CTRL.STARTER: ignored unless both sequencers are IDLE or HALTED; start-up and recovery keep their mode
until they end (R135). -/
def Core.starterWrite (c : Core) (v : Bool) : Core :=
  if c.quiet then
    let x := { c.vec with starter := v }
    { c with vec := if x.mode = 1 ∨ x.mode = 3 then x else x.settle }
  else c

/-- VEC_STARTER_WRITE (R135). -/
def execVecStarterWrite (k : CoreId) (v : Bool) (s : State) : Host.Outcome State Fault Refusal :=
  lift (fun d => d.updCore k (fun c => c.starterWrite v)) s

end Sys2Proof.Machine
end

