-- ==== Sys2Proof/Machine/HostOps.lean ====
section
/-! DEFINITION. The command queue pair of a function: taking an entry, its checks, its completion (R336 to R344). -/

namespace Sys2Proof.Machine

/-! ### Fields of a command entry (Table 18-4) -/

def cOpc (e : BitVec 512) : Nat := bits e.toNat 7 0
def cFlags (e : BitVec 512) : Nat := bits e.toNat 15 8
def cCid (e : BitVec 512) : Nat := bits e.toNat 31 16
def cPtag (e : BitVec 512) : Nat := bits e.toNat 39 32
def cCtx (e : BitVec 512) : Nat := bits e.toNat 47 40
def cAddr (e : BitVec 512) : Nat := bits e.toNat 127 64
def cLen (e : BitVec 512) : Nat := bits e.toNat 191 128
def cArg0 (e : BitVec 512) : Nat := bits e.toNat 255 192
def cArg1 (e : BitVec 512) : Nat := bits e.toNat 319 256
/-- Are the reserved fields 0? -/
def cReserved (e : BitVec 512) : Bool := bits e.toNat 63 48 == 0 && bits e.toNat 511 320 == 0

/-- The opcodes of the command queue (Table 18-7). -/
def cmdOpcodes : List Nat :=
  [0x01, 0x02, 0x03, 0x04, 0x05, 0x06, 0x07, 0x10, 0x11, 0x12, 0x13, 0x14, 0x15, 0x16, 0x17, 0x18, 0x19, 0x20, 0x21, 0x22,
   0x23, 0x24, 0x25, 0x26, 0x27, 0x30, 0x31]

/-- General status codes (Table 18-6). -/
def stOk : Nat := 0
def stAlready : Nat := 1
def stNotFound : Nat := 2
def stInvalid : Nat := 3
def stNotOwner : Nat := 4
def stNotFront : Nat := 5
def stVersionBusy : Nat := 6
def stSwitchLate : Nat := 7
def stHoldTimeout : Nat := 8
def stPending : Nat := 9
def stKeyInvalid : Nat := 10
def stKeyFull : Nat := 11
def stHoldupLow : Nat := 12
def stCavePinned : Nat := 13
def stRefused : Nat := 14
def stHostError : Nat := 15
/-- A load status (Table 13-8) and a weight status (Table 16-4) as completion STATUS. -/
def stLoad (c : Nat) : Nat := 0x100 + c
def stWeight (c : Nat) : Nat := 0x200 + c

/-- Can firmware take a command entry of function f now (R338, R340, R348)? -/
def Dev.canTake (d : Dev) (f : Nat) : Bool :=
  let x := d.func f
  d.crm.fwReady && x.ready && x.en && x.left.isNone && !x.wedged && x.sqHead != x.sqTail && decide (x.held.length < 256)

/-- Take the entry at the head: it is fetched from its slot of the command ring, and the head moves past it (R338). -/
def Dev.takeHead (d : Dev) (f cid : Nat) : Dev :=
  let x := d.func f
  let h := (x.sqHead + 1) % x.sqEntries
  (d.emit (.hostRead f (x.sqSlot x.sqHead) 64)).setFunc f { x with sqHead := h, sqAt := up x.sqAt cid h }

/-- Take a command of opcode `opc` whose entry is e and run `body`. Another opcode of Table 18-7 is another command; one
that the table does not list for the command queue, and a reserved field that is not 0, complete INVALID (R339, R341). -/
def Dev.takeCmd (d : Dev) (f opc : Nat) (e : BitVec 512) (body : Dev → Dev × List MemOp) : Dev × List MemOp :=
  if !d.canTake f || (cOpc e != opc && cmdOpcodes.contains (cOpc e)) then (d, [])
  else
    let d := d.takeHead f (cCid e)
    if cOpc e ≠ opc || !cReserved e then (d.complete f (cCid e) stInvalid 0, []) else body d

/-- A command that changes no memory. -/
def hostCmd (f : FnId) (opc : Nat) (e : BitVec 512) (body : Dev → Dev) (s : State) : Host.Outcome State Fault Refusal :=
  liftW (fun _ _ d => d.takeCmd f opc e (fun d => (body d, []))) s

/-- The Mould a command names by its lowest partition. -/
def Dev.mouldLow (d : Dev) (p : Nat) : Option Mould := d.moulds.find? (fun m => lowPart m.pmask == p)

/-- The first owner-only command on a Mould that came from a neighbour makes its function the owner (R336). -/
def Dev.takeOwner (d : Dev) (m : Mould) (f : Nat) : Dev :=
  if m.fromNbr && m.owner.isNone then d.updMould m.pmask (fun m => { m with owner := some f, fromNbr := false }) else d

/-- The checks of a command on a loaded Mould: it must exist (INVALID), be addressed on member 0 where the command is
marked front (NOT_FRONT), and belong to the function where the command is owner-only (NOT_OWNER) (R336, R339, R341; the order
of the checks is log entry 22). -/
def Dev.onMould (d : Dev) (f : Nat) (e : BitVec 512) (front owner : Bool) (body : Dev → Mould → Dev × List MemOp) :
    Dev × List MemOp :=
  let no := fun st => (d.complete f (cCid e) st 0, ([] : List MemOp))
  match d.mouldLow (cPtag e) with
  | none => no stInvalid
  | some m =>
    if front && m.self ≠ 0 then no stNotFront
    else if owner && m.owner ≠ some f && !(m.fromNbr && m.owner.isNone) then no stNotOwner
    else if owner then
      let d := d.takeOwner m f
      body d { m with owner := some f }
    else body d m

end Sys2Proof.Machine
end

