-- ==== Sys2Proof/Machine/Numbers.lean ====
section
/-! DEFINITION. Number formats and exact arithmetic (chapter "Number formats and arithmetic", R61-R72).
A value is NaN, an infinity, or a sign with an exact dyadic magnitude m·2^e; every rounding goes through
one function, `encodeQ`, which rounds an exact quotient once to nearest, ties to even. -/

namespace Sys2Proof.Machine

/-- The sticky flags that one operation sets (R69): invalid, overflow, underflow, division by zero. -/
structure NFlags where
  nv : Bool := false
  of_ : Bool := false
  uf : Bool := false
  dz : Bool := false
  deriving DecidableEq, Repr

/-- Flags of several operations together: each bit is set when any of them sets it. -/
def NFlags.or (a b : NFlags) : NFlags :=
  ⟨a.nv || b.nv, a.of_ || b.of_, a.uf || b.uf, a.dz || b.dz⟩

/-- The exact dyadic number m·2^e. -/
structure Dy where
  m : Int := 0
  e : Int := 0
  deriving DecidableEq, Repr

/-- 2^n as an integer, for an exponent that is not negative. -/
def pow2 (n : Int) : Int := 2 ^ n.toNat

/-- The mantissa of d when it is written with the exponent e ≤ d.e. -/
def Dy.at (d : Dy) (e : Int) : Int := d.m * pow2 (d.e - e)

/-- Exact sum. -/
def Dy.add (a b : Dy) : Dy :=
  let e := min a.e b.e
  ⟨a.at e + b.at e, e⟩

/-- Exact product. -/
def Dy.mul (a b : Dy) : Dy := ⟨a.m * b.m, a.e + b.e⟩

/-- Exact negation. -/
def Dy.neg (a : Dy) : Dy := ⟨-a.m, a.e⟩

/-- Exact difference. -/
def Dy.sub (a b : Dy) : Dy := a.add b.neg

/-- The integer n as a dyadic number. -/
def Dy.ofInt (n : Int) : Dy := ⟨n, 0⟩

/-- a < b, exactly. -/
def Dy.lt (a b : Dy) : Bool := decide ((a.sub b).m < 0)

/-- The largest integer not above d. -/
def Dy.floor (d : Dy) : Int :=
  if d.e ≥ 0 then d.m * pow2 d.e else d.m.fdiv (pow2 (-d.e))

/-- round_int of Table 04-3 on the exact quotient n/d, d > 0: nearest integer, ties to the even one. -/
def roundQ (n : Int) (d : Nat) : Int :=
  let q := n.fdiv d
  let r := n - q * d
  if 2 * r < d then q
  else if 2 * r > d then q + 1
  else if q % 2 = 0 then q else q + 1

/-- round_int of Table 04-3 on a dyadic number. -/
def Dy.roundInt (a : Dy) : Int :=
  if a.e ≥ 0 then a.m * pow2 a.e else roundQ a.m (2 ^ (-a.e).toNat)

/-- trunc of R76: toward zero. -/
def Dy.trunc (a : Dy) : Int :=
  if a.e ≥ 0 then a.m * pow2 a.e else a.m.tdiv (pow2 (-a.e))

/-- fixq(n/d, k) of Table 04-3: the nearest dyadic with k fraction bits. -/
def fixqQ (n : Int) (d : Nat) (k : Nat) : Dy := ⟨roundQ (n * pow2 k) d, -(k : Int)⟩

/-- floor(log2(n/d)) for n, d > 0. -/
def log2Q (n d : Nat) : Int :=
  let e : Int := (Nat.log2 n : Int) - (Nat.log2 d : Int)
  let ge : Bool := if e ≥ 0 then decide (d * 2 ^ e.toNat ≤ n) else decide (d ≤ n * 2 ^ (-e).toNat)
  if ge then e else e - 1

/-- A decoded value (R62): NaN, an infinity with its sign, or ±m·2^e. -/
inductive Val where
  | nan
  | inf (neg : Bool)
  | fin (neg : Bool) (m : Nat) (e : Int)
  deriving DecidableEq, Repr

/-- The exact dyadic number of a finite value; 0 for the others. -/
def Val.dy : Val → Dy
  | .fin neg m e => ⟨if neg then -(m : Int) else m, e⟩
  | _ => ⟨0, 0⟩

/-- A dyadic number as a value; a zero takes the sign given. -/
def Val.ofDy (d : Dy) (zeroNeg : Bool := false) : Val :=
  if d.m = 0 then .fin zeroNeg 0 0 else .fin (decide (d.m < 0)) d.m.natAbs d.e

/-- The sign bit of a value; NaN counts as positive (R62: the device's NaN is the positive one). -/
def Val.neg? : Val → Bool
  | .nan => false
  | .inf n => n
  | .fin n _ _ => n

/-- Is the value an exact zero? -/
def Val.isZero : Val → Bool
  | .fin _ m _ => m == 0
  | _ => false

/-- Is the value NaN? -/
def Val.isNan : Val → Bool
  | .nan => true
  | _ => false

/-- Is the value infinite? -/
def Val.isInf : Val → Bool
  | .inf _ => true
  | _ => false

/-- −v, the sign of a zero included; NaN stays NaN. -/
def Val.negate : Val → Val
  | .nan => .nan
  | .inf n => .inf (!n)
  | .fin n m e => .fin (!n) m e

/-- A floating-point format (Table 04-1): exponent bits, fraction bits, bias, whether it has infinities and NaNs. -/
structure Fmt where
  eb : Nat
  mb : Nat
  bias : Int
  inf : Bool
  nan : Bool
  deriving DecidableEq, Repr

/-- FP32, BF16 and FP16 of Table 04-1. -/
def fp32 : Fmt := ⟨8, 23, 127, true, true⟩
def bf16 : Fmt := ⟨8, 7, 127, true, true⟩
def fp16 : Fmt := ⟨5, 10, 15, true, true⟩
/-- FP8, FP6 and FP4 of Table 04-1. -/
def e4m3 : Fmt := ⟨4, 3, 7, false, true⟩
def e5m2 : Fmt := ⟨5, 2, 15, true, true⟩
def e3m2 : Fmt := ⟨3, 2, 3, false, false⟩
def e2m3 : Fmt := ⟨2, 3, 1, false, false⟩
def e2m1 : Fmt := ⟨2, 1, 1, false, false⟩

/-- Width in bits. -/
def Fmt.width (f : Fmt) : Nat := 1 + f.eb + f.mb

/-- Smallest exponent 1 − bias. -/
def Fmt.emin (f : Fmt) : Int := 1 - f.bias

/-- The largest finite magnitude. E4M3 gives up only its top fraction to NaN; a format with infinities gives
up its top exponent; the FP6 and FP4 formats give up nothing (R62). -/
def Fmt.maxDy (f : Fmt) : Dy :=
  let top : Int := 2 ^ f.eb - 1
  if f.inf then ⟨2 ^ (f.mb + 1) - 1, top - 1 - f.bias - f.mb⟩
  else if f.nan then ⟨2 ^ (f.mb + 1) - 2, top - f.bias - f.mb⟩
  else ⟨2 ^ (f.mb + 1) - 1, top - f.bias - f.mb⟩

/-- The canonical NaN of R62, for a format that has one. -/
def Fmt.canonNan (f : Fmt) : Nat :=
  if f.inf then (2 ^ f.eb - 1) * 2 ^ f.mb + 2 ^ (f.mb - 1) else 2 ^ (f.eb + f.mb) - 1

/-- decode_fp of Table 04-3 (R62). -/
def Fmt.decode (f : Fmt) (b : Nat) : Val :=
  let s := (b / 2 ^ (f.eb + f.mb)) % 2 == 1
  let e := (b / 2 ^ f.mb) % 2 ^ f.eb
  let fr := b % 2 ^ f.mb
  if e == 0 then .fin s fr (f.emin - f.mb)
  else if e == 2 ^ f.eb - 1 && f.inf then (if fr == 0 then .inf s else .nan)
  else if e == 2 ^ f.eb - 1 && f.nan && fr == 2 ^ f.mb - 1 then .nan
  else .fin s (2 ^ f.mb + fr) ((e : Int) - f.bias - f.mb)

/-- The bits of sign s and the representable magnitude m·2^(e−mb) with exponent e ≥ emin. -/
def Fmt.bits (f : Fmt) (s : Bool) (e : Int) (m : Nat) : Nat :=
  let sb := if s then 2 ^ (f.eb + f.mb) else 0
  if m < 2 ^ f.mb then sb + m
  else sb + (e + f.bias).toNat * 2 ^ f.mb + (m - 2 ^ f.mb)

/-- The encoding of an infinity: the exponent field all ones, the fraction 0. -/
def Fmt.infBits (f : Fmt) (s : Bool) : Nat :=
  (if s then 2 ^ (f.eb + f.mb) else 0) + (2 ^ f.eb - 1) * 2 ^ f.mb

/-- The encoding of ± the largest finite value. -/
def Fmt.maxBits (f : Fmt) (s : Bool) : Nat :=
  let d := f.maxDy
  f.bits s (d.e + f.mb) d.m.toNat

/-- encode_fp of Table 04-3 on the exact value ±n/d (d > 0): one rounding, then the overflow rule of R68. -/
def Fmt.encodeQ (f : Fmt) (s : Bool) (n d : Nat) (sat : Bool) : Nat × NFlags :=
  if n = 0 then (f.bits s f.emin 0, {}) else
  let lg := log2Q n d
  let e := max lg f.emin
  let sh := e - f.mb
  let q : Nat := (if sh ≥ 0 then roundQ n (d * 2 ^ sh.toNat) else roundQ (n * 2 ^ (-sh).toNat) d).toNat
  let (e, m) := if q = 2 ^ (f.mb + 1) then (e + 1, 2 ^ f.mb) else (e, q)
  let mx := f.maxDy
  if decide ((Dy.mk m (e - f.mb)).lt mx) || decide (((Dy.mk m (e - f.mb)).sub mx).m = 0) then
    let exact : Bool :=
      if sh ≥ 0 then decide (q * (d * 2 ^ sh.toNat) = n) else decide (q * d = n * 2 ^ (-sh).toNat)
    (f.bits s e m, { uf := !exact && decide (lg < f.emin) })
  else if f.inf && !sat then (f.infBits s, { of_ := true })
  else (f.maxBits s, { of_ := true })

/-- encode_fp of Table 04-3 on a value. -/
def Fmt.encode (f : Fmt) (v : Val) (sat : Bool) : Nat × NFlags :=
  match v with
  | .nan => if f.nan then (f.canonNan, {}) else (0, { nv := true })
  | .inf s => if f.inf && !sat then (f.infBits s, {}) else (f.maxBits s, { of_ := true })
  | .fin s m e => if e ≥ 0 then f.encodeQ s (m * 2 ^ e.toNat) 1 sat else f.encodeQ s m (2 ^ (-e).toNat) sat

/-- to_int of Table 04-3: the integer n clamped to N bits. -/
def clampInt (n : Int) (w : Nat) (signed : Bool) : Int × NFlags :=
  let lo : Int := if signed then -(2 ^ (w - 1)) else 0
  let hi : Int := if signed then 2 ^ (w - 1) - 1 else 2 ^ w - 1
  if n < lo then (lo, { of_ := true }) else if n > hi then (hi, { of_ := true }) else (n, {})

/-- to_int of Table 04-3 on a value. -/
def toInt (v : Val) (w : Nat) (signed : Bool) : Int × NFlags :=
  match v with
  | .nan => (0, { nv := true })
  | .inf s =>
    let lo : Int := if signed then -(2 ^ (w - 1)) else 0
    let hi : Int := if signed then 2 ^ (w - 1) - 1 else 2 ^ w - 1
    (if s then lo else hi, { of_ := true })
  | .fin s m e => clampInt (Val.fin s m e).dy.roundInt w signed

/-- The w low bits of an integer in two's complement. -/
def intBits (n : Int) (w : Nat) : Nat := (n % 2 ^ w).toNat

/-- Read w bits as a signed or unsigned integer. -/
def bitsInt (b : Nat) (w : Nat) (signed : Bool) : Int :=
  let b := b % 2 ^ w
  if signed && decide (2 ^ (w - 1) ≤ b) then (b : Int) - 2 ^ w else b

/-- x + y of R71: NaN for infinities of both signs (V_NV) or a NaN operand; an exact zero of operands with
opposite signs is +0. -/
def Val.add (x y : Val) : Val × NFlags :=
  match x, y with
  | .nan, _ => (.nan, {})
  | _, .nan => (.nan, {})
  | .inf a, .inf b => if a == b then (.inf a, {}) else (.nan, { nv := true })
  | .inf a, _ => (.inf a, {})
  | _, .inf b => (.inf b, {})
  | .fin a m e, .fin b m' e' =>
    (Val.ofDy ((Val.fin a m e).dy.add (Val.fin b m' e').dy) (m == 0 && m' == 0 && a && b), {})

/-- x · y of R71: 0 × infinity is NaN and sets V_NV. -/
def Val.mul (x y : Val) : Val × NFlags :=
  match x, y with
  | .nan, _ => (.nan, {})
  | _, .nan => (.nan, {})
  | .inf a, .inf b => (.inf (a != b), {})
  | .inf a, .fin b m _ => if m == 0 then (.nan, { nv := true }) else (.inf (a != b), {})
  | .fin a m _, .inf b => if m == 0 then (.nan, { nv := true }) else (.inf (a != b), {})
  | .fin a m e, .fin b m' e' => (.fin (a != b) (m * m') (e + e'), {})

/-- x · y + z of R71, before its one rounding: the flags of a product 0 × infinity stand whatever z is. -/
def Val.fma (x y z : Val) : Val × NFlags :=
  let (p, fp) := x.mul y
  let (r, fr) := p.add z
  (r, fp.or fr)

/-- x < y for finite or infinite values, −0 equal to +0; false with a NaN (R71). -/
def Val.lt (x y : Val) : Bool :=
  match x, y with
  | .nan, _ => false
  | _, .nan => false
  | .inf a, .inf b => a && !b
  | .inf a, _ => a
  | _, .inf b => !b
  | x, y => x.dy.lt y.dy

/-- x = y numerically, −0 equal to +0; false with a NaN (R71). -/
def Val.eq (x y : Val) : Bool :=
  match x, y with
  | .nan, _ => false
  | _, .nan => false
  | .inf a, .inf b => a == b
  | .inf _, _ => false
  | _, .inf _ => false
  | x, y => decide ((x.dy.sub y.dy).m = 0)

/-- The order of minimum and maximum (R71): numerical, with −0 below +0. -/
def Val.below (x y : Val) : Bool :=
  x.lt y || (x.eq y && x.neg? && !y.neg?)

/-- Minimum of R71: NaN if either is NaN. -/
def Val.min (x y : Val) : Val :=
  if x.isNan || y.isNan then .nan else if y.below x then y else x

/-- Maximum of R71: NaN if either is NaN. -/
def Val.max (x y : Val) : Val :=
  if x.isNan || y.isNan then .nan else if x.below y then y else x

/-- What a format code of Table 04-1 names. -/
inductive ElemFmt where
  | flt (f : Fmt)
  | int (w : Nat) (signed : Bool)
  | mxFlt (f : Fmt)
  | mxInt8
  deriving DecidableEq, Repr

/-- The format of a code; none for the reserved codes (R61). -/
def elemFmt (code : Nat) : Option ElemFmt :=
  match code with
  | 0x00 => some (.flt fp32)
  | 0x01 => some (.flt bf16)
  | 0x02 => some (.flt fp16)
  | 0x03 => some (.flt e4m3)
  | 0x04 => some (.flt e5m2)
  | 0x05 => some (.flt e3m2)
  | 0x06 => some (.flt e2m3)
  | 0x07 => some (.flt e2m1)
  | 0x08 => some (.int 8 true)
  | 0x09 => some (.int 8 false)
  | 0x0A => some (.int 4 true)
  | 0x0B => some (.int 32 true)
  | 0x13 => some (.mxFlt e4m3)
  | 0x14 => some (.mxFlt e5m2)
  | 0x15 => some (.mxFlt e3m2)
  | 0x16 => some (.mxFlt e2m3)
  | 0x17 => some (.mxFlt e2m1)
  | 0x18 => some .mxInt8
  | _ => none

/-- Element width W in bits (Table 05-1). -/
def ElemFmt.width : ElemFmt → Nat
  | .flt f => f.width
  | .int w _ => w
  | .mxFlt f => f.width
  | .mxInt8 => 8

/-- Is the format one of the MX block formats (R64)? -/
def ElemFmt.isMx : ElemFmt → Bool
  | .mxFlt _ => true
  | .mxInt8 => true
  | _ => false

/-- Is the format of the integer class of R70? MXINT8 is of the floating class. -/
def ElemFmt.isInt : ElemFmt → Bool
  | .int _ _ => true
  | _ => false

/-- Decode one element; `scale` is the block's E8M0 byte, read only in MX formats (R62-R64). -/
def ElemFmt.decode (f : ElemFmt) (b : Nat) (scale : Nat) : Val :=
  match f with
  | .flt f => f.decode b
  | .int w s => Val.ofDy (Dy.ofInt (bitsInt b w s))
  | .mxFlt f =>
    if scale = 255 then .nan else
    match f.decode b with
    | .fin s m e => .fin s m (e + scale - 127)
    | v => v
  | .mxInt8 =>
    if scale = 255 then .nan else
    let n := bitsInt b 8 true
    .fin (decide (n < 0)) n.natAbs (-6 + scale - 127)

/-- emax of R66 for each MX element format. -/
def mxEmax (f : Fmt) : Int :=
  if f = e4m3 then 8 else if f = e5m2 then 15 else if f = e3m2 then 4 else 2

/-- floor(log2 |v|) of a nonzero finite value. -/
def Val.ilog2 : Val → Int
  | .fin _ m e => (Nat.log2 m : Int) + e
  | _ => 0

/-- Multiply a finite value by 2^k exactly. -/
def Val.scale (v : Val) (k : Int) : Val :=
  match v with
  | .fin s m e => .fin s m (e + k)
  | v => v

/-- Quantise one MX block by R66: the scale byte, the element encodings, the flags. -/
def mxQuantise (f : ElemFmt) (vs : List Val) : Nat × List Nat × NFlags :=
  if vs.any (fun v => v.isNan || v.isInf) then (255, vs.map (fun _ => 0), { nv := true })
  else if vs.all Val.isZero then (0, vs.map (fun _ => 0), {})
  else
    let nz := vs.filter (fun v => !v.isZero)
    let lg := nz.foldl (fun a v => max a v.ilog2) ((nz.headD .nan).ilog2)
    let emax : Int := match f with
      | .mxFlt g => mxEmax g
      | _ => 0
    let x : Int := max (-127) (min 127 (lg - emax))
    let enc : Val → Nat × NFlags := fun v => match f with
      | .mxFlt g => g.encode (v.scale (-x)) true
      | _ => let (n, fl) := toInt (v.scale (6 - x)) 8 true; (intBits n 8, fl)
    let rs := vs.map enc
    ((x + 127).toNat, rs.map Prod.fst, rs.foldl (fun a r => a.or r.2) {})

/-- Convert a value into a format that is not MX (R68): encode_fp or to_int, as bits. -/
def ElemFmt.convert (f : ElemFmt) (v : Val) (sat : Bool) : Nat × NFlags :=
  match f with
  | .flt g => g.encode v sat
  | .int w s => let (n, fl) := toInt v w s; (intBits n w, fl)
  | .mxFlt g => g.encode v true
  | .mxInt8 => let (n, fl) := toInt v 8 true; (intBits n 8, fl)

end Sys2Proof.Machine
end

