-- ==== Sys2Proof/Machine/Operands.lean ====
section
/-! DEFINITION. Tensor descriptors: reading an image, validating it, and the addresses of elements
(chapter "Tensor descriptors and layouts", R87 to R106). -/

namespace Sys2Proof.Machine

/-- The bytes of the core's own local store lie from here (Table 08-1). -/
def lsBase (k : Nat) : Nat := 0x180000000 + 0x100000 * k

/-- Does [lo, hi] lie wholly in core k's own local store? -/
def inOwnLs (k lo hi : Nat) : Bool := decide (lsBase k ≤ lo ∧ hi < lsBase k + 0x100000 ∧ lo ≤ hi)
/-- Does [lo, hi] lie wholly in the slices (R102)? -/
def inSlices (lo hi : Nat) : Bool := decide (lo ≤ hi ∧ hi < 0x180000000)

/-- Does a nonzero reserved bit or byte stand in the image, or a field out of its range? Read with the fields below. -/
def le (bs : List Byte) (off n : Nat) : Nat := leNat ((bs.drop off).take n)

/-- The fields of a native image (Table 05-1), or of a forerunner image (Table 05-6), as they stand. -/
def parseDesc (bs : List Byte) (compat : Bool) : DescF :=
  let nd := if compat then 4 else 5
  let st := if compat then 0x18 else 0x1C
  { base := le bs 0 5, fmt := le bs 5 1 % 32, xform := le bs 6 1 % 16, r := bit (le bs 7 1) 0, w := bit (le bs 7 1) 1,
    ndim := le bs 8 1 % 8,
    size := (List.range nd).map (fun n => le bs (0x0C + 3 * n) 3),
    stride := (List.range nd).map (fun n => sext (le bs (st + 4 * n) 4) 32),
    ext := if compat then DescF.zero.ext else
      ⟨le bs 0x30 1, le bs 0x31 1, le bs 0x32 1, le bs 0x33 1, le bs 0x34 1, le bs 0x35 1, le bs 0x36 1, le bs 0x37 1,
       le bs 0x38 2, le bs 0x3A 2, le bs 0x3C 4⟩,
    compat := compat }

def DescF.sz (f : DescF) (n : Nat) : Nat := f.size.getD n 0
def DescF.st (f : DescF) (n : Nat) : Int := f.stride.getD n 0

/-- The element format of a descriptor; INT8 stands for the reserved codes, which no valid descriptor holds. -/
def DescF.elem (f : DescF) : ElemFmt := (elemFmt f.fmt).getD (.int 8 true)
/-- Element width in bits. -/
def DescF.width (f : DescF) : Nat := f.elem.width
/-- Group size of an MX format in bytes (Table 04-2). -/
def DescF.group (f : DescF) : Nat := 4 + 16 * f.width

/-- The sizes an engine sees (Table 05-3); a forerunner descriptor is read through IDENT (R106). A dimension the
descriptor does not have counts 1. -/
def DescF.presented (f : DescF) : List Nat :=
  let s := fun n => if n < f.ndim then f.sz n else 1
  if f.compat then [s 0, s 1, s 2, s 3, 1]
  else match f.xform with
    | 1 => [s 1, s 0, s 2, s 3, s 4]
    | 3 => [s 2, s 0, s 1, s 3, 1]
    | 4 => [s 1, s 2, s 0, s 3, 1]
    | 5 => [f.ext.kh * f.ext.kw * s 0, s 3 * f.ext.oh * f.ext.ow, 1, 1, 1]
    | _ => [s 0, s 1, s 2, s 3, s 4]

/-- How many elements a descriptor presents. -/
def DescF.count (f : DescF) : Nat := f.presented.foldl (· * ·) 1

/-- The stored index of a presented index (Table 05-3, R100); none where IM2COL reads PAD. -/
def DescF.stored (f : DescF) (p : List Nat) : Option (List Nat) :=
  let g := fun n => p.getD n 0
  if f.compat then some p
  else match f.xform with
    | 1 => some [g 1, g 0, g 2, g 3, g 4]
    | 3 => some [g 1, g 2, g 0, g 3]
    | 4 => some [g 2, g 0, g 1, g 3]
    | 5 =>
      let x := f.ext
      let c := g 0 % f.sz 0
      let t := g 0 / f.sz 0
      let kw := t % x.kw
      let kh := t / x.kw
      let ow := g 1 % x.ow
      let u := g 1 / x.ow
      let ih : Int := ((u % x.oh) * x.sh + kh * x.dh : Nat) - (x.pt : Int)
      let iw : Int := (ow * x.sw + kw * x.dw : Nat) - (x.pl : Int)
      if 0 ≤ ih ∧ ih < f.sz 2 ∧ 0 ≤ iw ∧ iw < f.sz 1 then some [c, iw.toNat, ih.toNat, u / x.oh] else none
    | _ => some p

/-- Σ iₙ·STRIDEn from dimension n on. -/
def strideSum (f : DescF) (i : List Nat) (n : Nat) : Int :=
  ((List.range (f.ndim - n)).map (fun j => (i.getD (n + j) 0 : Int) * f.st (n + j))).sum

/-- The tile offset of R99. -/
def tileOffset (f : DescF) (i : List Nat) : Int :=
  let i0 := i.getD 0 0
  let i1 := i.getD 1 0
  (((i1 / 16) * cdiv (f.sz 0) 16 + i0 / 16) * 256 + (i1 % 16) * 16 + i0 % 16 : Nat) + strideSum f i 2

/-- The element offset of a stored index (R94, R99). `tiled` says whether the TILE16 layout applies. -/
def DescF.offset (f : DescF) (i : List Nat) (tiled : Bool) : Int :=
  if tiled then tileOffset f i else strideSum f i 0

/-- Where an element lies: the bit address of its W bits and, in MX formats, the address of its scale byte (R95, R96). -/
structure Loc where
  bitAddr : Nat
  scale : Option Nat
  deriving DecidableEq, Repr

/-- The location of the element with offset o (R95, R96). -/
def DescF.locOf (f : DescF) (o : Int) : Loc :=
  if f.elem.isMx then
    let g := o.fdiv 128
    let r := (o - 128 * g).toNat
    let b := r / 32
    let base := ((f.base : Int) + g * f.group).toNat
    ⟨8 * (base + 4 + (f.group / 4 - 1) * b) + f.width * (r % 32), some (base + b)⟩
  else ⟨(8 * (f.base : Int) + f.width * o).toNat, none⟩

/-- The location of a presented element; none where the engine supplies PAD. -/
def DescF.loc (f : DescF) (p : List Nat) : Option Loc :=
  (f.stored p).map (fun i => f.locOf (f.offset i (!f.compat && f.xform == 2)))

/-- The location an accumulator store writes (column, row) through a forerunner descriptor (R106). -/
def DescF.storeLoc (f : DescF) (p : List Nat) : Loc :=
  if f.compat then
    match f.xform with
    | 1 => f.locOf (f.offset ([p.getD 1 0, p.getD 0 0] ++ p.drop 2) false)
    | 2 => f.locOf (f.offset p true)
    | _ => f.locOf (f.offset p false)
  else f.locOf (f.offset p false)

/-- Presented sizes of an accumulator store: through a forerunner TRANSPOSE2D they are swapped, so that element
(column, row) is inside exactly when its stored index is (R106, log entry 15). -/
def DescF.storeSizes (f : DescF) : List Nat :=
  if f.compat && f.xform == 1 then [f.sz 1, f.sz 0] ++ f.presented.drop 2 else f.presented

/-- W bits at a bit address, little-endian (R65), through a byte reader. -/
def readBits (rd : Nat → Byte) (bitAddr w : Nat) : Nat :=
  let a := bitAddr / 8
  let n := cdiv (bitAddr % 8 + w) 8
  (leNat ((List.range n).map (fun j => rd (a + j))) / 2 ^ (bitAddr % 8)) % 2 ^ w

/-- Masked bytes that write the w low bits of v at a bit address. -/
def writeBits (bitAddr w v : Nat) : List MByte :=
  let a := bitAddr / 8
  let n := cdiv (bitAddr % 8 + w) 8
  let mv := (v % 2 ^ w) * 2 ^ (bitAddr % 8)
  let mm := (2 ^ w - 1) * 2 ^ (bitAddr % 8)
  (List.range n).map (fun j => ⟨a + j, BitVec.ofNat 8 (mm / 256 ^ j), BitVec.ofNat 8 (mv / 256 ^ j)⟩)

/-- The encoding of a presented element; PAD where IM2COL supplies it. -/
def DescF.rdEnc (f : DescF) (rd : Nat → Byte) (p : List Nat) : Nat :=
  match f.loc p with
  | some l => readBits rd l.bitAddr f.width
  | none => f.ext.pad

/-- The scale byte of a presented element; 127 (2^0) in formats without one. -/
def DescF.rdScale (f : DescF) (rd : Nat → Byte) (p : List Nat) : Nat :=
  match f.loc p with
  | some ⟨_, some a⟩ => (rd a).toNat
  | _ => 127

/-- The value of a presented element (R62 to R64). -/
def DescF.rdVal (f : DescF) (rd : Nat → Byte) (p : List Nat) : Val := f.elem.decode (f.rdEnc rd p) (f.rdScale rd p)

/-- A linear presented index, dimension 0 fastest, as a presented index (R192). -/
def unlin : List Nat → Nat → List Nat
  | [], _ => []
  | s :: r, n => (if s = 0 then 0 else n % s) :: unlin r (if s = 0 then 0 else n / s)

/-! ### Validation at creation (R102 to R105) -/

/-- Errors of a creation, with the number of the failing check (Table 23-4, DETAIL). -/
inductive DescErr where
  | format
  | range (check : Nat)
  | alias_ (dim : Nat)
  deriving DecidableEq, Repr

/-- Formats column of Table 05-3. -/
def xformFmtOk (xf : Nat) (e : ElemFmt) : Bool :=
  match xf with
  | 0 => true
  | 1 => !e.isMx
  | 2 | 3 | 4 | 5 => !e.isMx && decide (8 ≤ e.width)
  | _ => true

/-- The MX stride rules of R96. -/
def mxStrideOk (f : DescF) : Bool :=
  f.st 0 == 1 && (List.range f.ndim).all (fun n => n == 0 || (f.st n) % 128 == 0)

/-- Field rules of the image bytes: reserved fields 0, ranges of R94 and Table 05-1 (native) or Table 05-6. -/
def fieldsOk (bs : List Byte) (f : DescF) : Bool :=
  let nd := f.size.length
  decide (f.base < 2 ^ 34) && le bs 5 1 / 32 == 0 && le bs 6 1 / 16 == 0 && le bs 7 1 / 4 == 0 && (f.r || f.w) &&
  le bs 8 1 / 8 == 0 && decide (1 ≤ f.ndim ∧ f.ndim ≤ nd) && le bs 0x0A 2 == 0 &&
  (List.range nd).all (fun n =>
    if n < f.ndim then decide (1 ≤ f.sz n) else f.sz n == 0 && f.st n == 0) &&
  (if f.compat then le bs 0x28 8 == 0
   else le bs 0x1B 1 == 0 && (f.xform == 5 || le bs 0x30 16 == 0))

/-- NDIM and Access columns of Table 05-3, R98, R99, R100, R101; R105 for forerunner images. -/
def xformOk (f : DescF) : Bool :=
  if f.compat then
    match f.xform with
    | 0 => true
    | 1 => decide (2 ≤ f.ndim) && f.w && !f.r
    | 2 => decide (2 ≤ f.ndim) && f.w && !f.r && f.st 0 == 0 && f.st 1 == 0
    | _ => false
  else
    match f.xform with
    | 0 => true
    | 1 => decide (2 ≤ f.ndim) && !f.w
    | 2 => decide (2 ≤ f.ndim) && !f.w && f.st 0 == 0 && f.st 1 == 0
    | 3 | 4 => f.ndim == 4 && !f.w
    | 5 =>
      let x := f.ext
      f.ndim == 4 && !f.w && decide (1 ≤ x.kh) && decide (1 ≤ x.kw) && decide (1 ≤ x.sh) && decide (1 ≤ x.sw) &&
      decide (1 ≤ x.dh) && decide (1 ≤ x.dw) && decide (1 ≤ x.oh) && decide (1 ≤ x.ow) &&
      decide (x.pad < 2 ^ f.width) && f.presented.all (fun n => decide (n ≤ 16777215))
    | _ => false

/-- (size, stride) pairs of R102: TILE16's dimensions 0 and 1 as one run, MX's SIZE0 padded to whole groups. -/
def DescF.dims (f : DescF) : List (Nat × Int) :=
  let ds := (List.range f.ndim).map (fun n => (f.sz n, f.st n))
  let ds := if f.xform = 2 then (256 * cdiv (f.sz 0) 16 * cdiv (f.sz 1) 16, 1) :: ds.drop 2 else ds
  if f.elem.isMx then
    match ds with
    | (_, st) :: r => (128 * cdiv (f.sz 0) 128, st) :: r
    | [] => []
  else ds

/-- Lowest and highest element offset (R102). -/
def DescF.lohi (f : DescF) : Int × Int :=
  f.dims.foldl (fun (lo, hi) (n, st) =>
    if st < 0 then (lo + ((n : Int) - 1) * st, hi) else (lo, hi + ((n : Int) - 1) * st)) (0, 0)

/-- [amin, amax] of R102, as integers. -/
def DescF.spanI (f : DescF) : Int × Int :=
  let (lo, hi) := f.lohi
  if f.elem.isMx then
    ((f.base : Int) + lo.fdiv 128 * f.group, (f.base : Int) + hi.fdiv 128 * f.group + f.group - 1)
  else
    ((f.base : Int) + (f.width * lo).fdiv 8, (f.base : Int) + (f.width * hi + f.width - 1).fdiv 8)

/-- [amin, amax] as addresses. -/
def DescF.span (f : DescF) : Nat × Nat := (f.spanI.1.toNat, f.spanI.2.toNat)

/-- Does one allocation range of the partition contain [lo, hi] and grant the access (R102)? -/
def rangesGrant (rs : List Range) (p k lo hi : Nat) (f : DescF) : Bool :=
  rs.any (fun g =>
    g.part == p && (!f.r || g.r) && (!f.w || g.w) &&
    (if inOwnLs k lo hi then g.kind == 1 && decide (g.first + lsBase k ≤ lo ∧ hi ≤ g.last + lsBase k)
     else g.kind == 2 && decide (g.first ≤ lo ∧ hi ≤ g.last)))

/-- Insert a (size, |stride|, dimension) triple by |stride|. -/
def insLive (x : Nat × Nat × Nat) : List (Nat × Nat × Nat) → List (Nat × Nat × Nat)
  | [] => [x]
  | y :: r => if x.2.1 < y.2.1 then x :: y :: r else y :: insLive x r

/-- The span test of R102 over the sorted live dimensions: the first that fails, if any. -/
def aliasScan (span : Nat) : List (Nat × Nat × Nat) → Option Nat
  | [] => none
  | (n, a, i) :: r => if a < span then some i else aliasScan (span + (n - 1) * a) r

/-- The alias test of R102: the dimension that fails it, by its index in the list in which TILE16's dimensions 0 and 1 are one run (log
entry 140). -/
def DescF.aliasFail (f : DescF) : Option Nat :=
  let live := (f.dims.zipIdx.filter (fun e => decide (1 < e.1.1))).map (fun e => (e.1.1, e.1.2.natAbs, e.2))
  match live.find? (fun e => e.2.1 == 0) with
  | some e => some e.2.2
  | none => aliasScan 1 (live.foldl (fun l x => insLive x l) [])

/-- validate(D) of R102 for core k of partition p with the partition's ranges: the first check that fails. -/
def validate (bs : List Byte) (f : DescF) (rs : List Range) (p k : Nat) : Option DescErr :=
  match elemFmt f.fmt with
  | none => some .format
  | some e =>
    if !(f.compat && decide (3 ≤ f.xform)) && !xformFmtOk f.xform e then some .format
    else if e.isMx && decide (1 ≤ f.ndim ∧ f.ndim ≤ 5) && !mxStrideOk f then some .format
    else if !(fieldsOk bs f && xformOk f) then some (.range 1)
    else
      let (lo, hi) := f.spanI
      if lo < 0 ∨ !(inOwnLs k lo.toNat hi.toNat || inSlices lo.toNat hi.toNat) then some (.range 2)
      else if !rangesGrant rs p k lo.toNat hi.toNat f then some (.range 3)
      else if f.w then (f.aliasFail).map .alias_ else none

end Sys2Proof.Machine
end

