-- ==== Sys2Proof/Machine/Flags.lean ====
section
/-! DEFINITION. NUM_FLAGS: which bits the engines set (R69). -/

namespace Sys2Proof.Machine

/-- The V_ bits of an operation's flags: V_NV 0, V_OF 1, V_UF 2, V_DZ 3. -/
def NFlags.vBits (f : NFlags) : Nat := b2n f.nv + 2 * b2n f.of_ + 4 * b2n f.uf + 8 * b2n f.dz
/-- The M_ bits: M_NV 8, M_OF 9, M_UF 10. -/
def NFlags.mBits (f : NFlags) : Nat := 256 * b2n f.nv + 512 * b2n f.of_ + 1024 * b2n f.uf
/-- EXA_OVF 11 and EXA_UNF 12. -/
def exaBits (ovf unf : Bool) : Nat := 2048 * b2n ovf + 4096 * b2n unf

/-- Set sticky bits of NUM_FLAGS. -/
def Core.flag (c : Core) (b : Nat) : Core := { c with numFlags := c.numFlags ||| BitVec.ofNat 32 b }

/-- The flags of several results. -/
def flagsOf (l : List NFlags) : NFlags := l.foldl NFlags.or {}

end Sys2Proof.Machine
end

