-- ==== Sys2Proof/Machine/Grid.lean ====
section
/-! DEFINITION. Where things lie on the die: port segments, attach points, region boundaries and admission masks
(R14, R20, R22, R23, R36, R37), and the mesh header (Table 02-3). -/

namespace Sys2Proof.Machine

/-- px and py of a physical position 32·py + px (R14). -/
def pxOf (pos : Nat) : Nat := pos % 32
def pyOf (pos : Nat) : Nat := pos / 32

/-- A unit's edge segment (Table 02-2): whether it is a south or north unit, its fixed row or column, and its span. -/
structure Segment where
  horiz : Bool
  line : Nat
  first : Nat
  last : Nat
  deriving DecidableEq, Repr

/-- Table 02-2. -/
def segment (code : Nat) : Option Segment :=
  match code with
  | 1 => some ⟨true, 25, 0, 9⟩
  | 2 => some ⟨true, 25, 10, 21⟩
  | 3 => some ⟨true, 25, 22, 31⟩
  | 4 => some ⟨false, 0, 0, 5⟩
  | 5 => some ⟨false, 0, 6, 11⟩
  | 6 => some ⟨false, 0, 12, 19⟩
  | 7 => some ⟨false, 0, 20, 25⟩
  | 8 => some ⟨false, 31, 0, 7⟩
  | 9 => some ⟨false, 31, 8, 17⟩
  | 10 => some ⟨false, 31, 18, 25⟩
  | 11 => some ⟨true, 0, 0, 15⟩
  | 12 => some ⟨true, 0, 16, 31⟩
  | _ => none

/-- Is a position an attach point of the unit (R22)? -/
def inSegment (code pos : Nat) : Bool :=
  match segment code with
  | none => false
  | some g =>
    if g.horiz then pyOf pos == g.line && decide (g.first ≤ pxOf pos ∧ pxOf pos ≤ g.last)
    else pxOf pos == g.line && decide (g.first ≤ pyOf pos ∧ pyOf pos ≤ g.last)

/-- Is a position an attach point of some unit (R30)? -/
def isAttach (pos : Nat) : Bool := (List.range 13).any (fun c => inSegment c pos)

/-- Where traffic from a unit to a position enters the grid (R23). -/
def entryPoint (code pos : Nat) : Nat :=
  match segment code with
  | none => pos
  | some g =>
    if g.horiz then 32 * g.line + max g.first (min g.last (pxOf pos))
    else 32 * max g.first (min g.last (pyOf pos)) + g.line

/-- Inputs and outputs of a router in port order: L 0, N 1, E 2, S 3, W 4, P 5 (R28). The output that dimension order
takes from one position to another (R25); 0 at the destination itself. -/
def dorOut (pos dest : Nat) : Nat :=
  if pxOf pos < pxOf dest then 2
  else if pxOf dest < pxOf pos then 4
  else if pyOf pos < pyOf dest then 3
  else if pyOf dest < pyOf pos then 1
  else 0

/-- The neighbour behind output o (N 1, E 2, S 3, W 4), if there is one. -/
def neighbour (pos o : Nat) : Option Nat :=
  match o with
  | 1 => if 1 ≤ pyOf pos then some (pos - 32) else none
  | 2 => if pxOf pos < 31 then some (pos + 1) else none
  | 3 => if pyOf pos < 25 then some (pos + 32) else none
  | 4 => if 1 ≤ pxOf pos then some (pos - 1) else none
  | _ => none

/-- The input at the neighbour that output o feeds. -/
def inputAt (o : Nat) : Nat :=
  match o with
  | 1 => 3
  | 2 => 4
  | 3 => 1
  | 4 => 2
  | n => n

/-- Does the hop from `a` to its neighbour `b` cross a region boundary (R20)? -/
def crosses (a b : Nat) : Bool := regionOf a != regionOf b

/-- The hops of the dimension-order path: (position entered, input). -/
def dorPath (a b : Nat) : Nat → List (Nat × Nat)
  | 0 => []
  | n + 1 =>
    match neighbour a (dorOut a b) with
    | some c => if dorOut a b = 0 then [] else (c, inputAt (dorOut a b)) :: dorPath c b n
    | none => []

/-- The boundary inputs (position, input) on a path (R37). -/
def pathInputs (a b : Nat) : List (Nat × Nat) :=
  (dorPath a b 60).filter (fun e =>
    match neighbour e.1 e.2 with
    | some c => crosses c e.1
    | none => false)

/-- R26: latency of an f-flit message between two positions. -/
def meshLatency (a b f : Nat) : Nat :=
  let dx := (pxOf a : Int) - pxOf b
  let dy := (pyOf a : Int) - pyOf b
  let cx := (pxOf a / 8 : Int) - (pxOf b / 8 : Nat)
  let cy := (pyOf a / 2 : Int) - (pyOf b / 2 : Nat)
  3 + (dx.natAbs + dy.natAbs) + 2 * (cx.natAbs + cy.natAbs) + 3 + (f - 1)

/-- The admission mask keys (6·position + input) a declared route of partition p adds its tag to (R37). `rect` are the
positions of the partition. -/
def routeInputs (rect : List Nat) (r : Route) : List (Nat × Nat) :=
  (rect.flatMap (fun c => pathInputs c r.attach)) ++ (rect.flatMap (fun c => pathInputs (entryPoint r.unit c) c))

/-- The mesh header of Table 02-3. -/
def mkHdr (ptag vc kind dest port tree syn lsaddr flits : Nat) : BitVec 64 :=
  BitVec.ofNat 64 (ptag % 16 * 2 ^ 60 + vc % 2 * 2 ^ 59 + kind % 4 * 2 ^ 57 + pxOf dest % 32 * 2 ^ 52 +
    pyOf dest % 32 * 2 ^ 47 + port % 16 * 2 ^ 43 + tree % 256 * 2 ^ 35 + syn % 2 ^ 15 * 2 ^ 20 + lsaddr % 2 ^ 14 * 2 ^ 6 +
    flits % 64)

/-- Fields of a flit's header. -/
def Flit.ptag (f : Flit) : Nat := bits f.hdr.toNat 63 60
def Flit.vc (f : Flit) : Nat := bits f.hdr.toNat 59 59
def Flit.kind (f : Flit) : Nat := bits f.hdr.toNat 58 57
def Flit.dest (f : Flit) : Nat := 32 * bits f.hdr.toNat 51 47 + bits f.hdr.toNat 56 52
def Flit.port (f : Flit) : Nat := bits f.hdr.toNat 46 43
def Flit.tree (f : Flit) : Nat := bits f.hdr.toNat 42 35
def Flit.syn (f : Flit) : Nat := bits f.hdr.toNat 34 20
def Flit.lsaddr (f : Flit) : Nat := bits f.hdr.toNat 19 6
def Flit.flits (f : Flit) : Nat := bits f.hdr.toNat 5 0 + 1

end Sys2Proof.Machine
end

