-- ==== Sys2Proof/Machine/Jobs.lean ====
section
/-! DEFINITION. What the three engines share: captured handles (R90, R93), the fill guard (R149 to R152), jobs in flight
with their reads and writes (R34, R142), and the handling of a failed instruction (R431). -/

namespace Sys2Proof.Machine

/-! ### Handles at acceptance -/

/-- The check of R90 and R93 for a captured handle: DESC_STALE, or DESC_RANGE (check 16) when the bit it needs is
clear. `wr` asks for W, else R. -/
def Core.capErr (c : Core) (p : Cap) (wr : Bool) : Option (Nat × List Nat) :=
  let e := lk DescEntry.reset c.desc p.h
  if !p.valid || !e.valid || p.gen != e.gen then some (0x13, [p.h, b2n p.valid, p.gen.toNat, e.gen.toNat])
  else if (if wr then e.f.w else e.f.r) then none
  else some (0x11, [p.h, 16])

/-- The fields the entry of a handle holds now (R87, R431). -/
def Core.fields (c : Core) (h : Nat) : DescF := (lk DescEntry.reset c.desc h).f

/-- The first error of several checks. -/
def firstErr : List (Option (Nat × List Nat)) → Option (Nat × List Nat)
  | [] => none
  | some e :: _ => some e
  | none :: r => firstErr r

/-- An error when a condition holds. -/
def errIf (b : Bool) (code : Nat) (detail : List Nat) : Option (Nat × List Nat) := if b then some (code, detail) else none

/-- Presented dimensions: IM2COL presents 2, every other transform NDIM (Table 05-3). -/
def DescF.pdim (f : DescF) : Nat := if !f.compat && f.xform == 5 then 2 else f.ndim
/-- Presented sizes, the present dimensions only. -/
def DescF.psizes (f : DescF) : List Nat := f.presented.take f.pdim
/-- How many elements the fields present; an entry on which nothing was ever created holds zeros and presents none
(R87). -/
def DescF.elems (f : DescF) : Nat := if f.ndim = 0 then 0 else f.psizes.foldl (· * ·) 1
/-- Bytes of n elements (R95). -/
def DescF.bytesOf (f : DescF) (n : Nat) : Nat := cdiv (n * f.width) 8

/-! ### The fill guard -/

def overlap (a b : Nat × Nat) : Bool := decide (a.1 ≤ b.2 ∧ b.1 ≤ a.2)

/-- Does [lo, hi] lie in core k's own local store or the slice of its own position (R149)? -/
def guarded (k : Nat) (r : Nat × Nat) : Bool :=
  inOwnLs k r.1 r.2 || decide (0x800000 * k ≤ r.1 ∧ r.2 < 0x800000 * (k + 1))

/-- The bytes of a create's image. -/
def Create.range (x : Create) : Nat × Nat := (x.addr, x.addr + x.len - 1)

/-- Is acceptance withheld (R150, R151)? `dst` is a destination that takes an entry. -/
def Core.guardHold (c : Core) (src : List (Nat × Nat)) (dst : Option (Nat × Nat)) : Bool :=
  src.any (fun r => c.fgw.any (fun g => overlap r (g.lo, g.hi))) ||
  (match dst with
   | none => false
   | some r =>
     decide (32 ≤ c.fgw.length) || c.fgw.any (fun g => overlap r (g.lo, g.hi)) ||
     c.fgr.any (fun g => overlap r (g.lo, g.hi)) || c.creates.any (fun x => x.asked && x.left ≠ 0 && overlap r x.range))

/-! ### Masked bytes -/

/-- Merge masked bytes by address, later ones on top. -/
def mergeBytes (l : List MByte) : SMap MByte :=
  l.foldl (fun m b =>
    match lk none (m.map (fun e => (e.1, some e.2))) b.addr with
    | some o => up m b.addr ⟨b.addr, o.mask ||| b.mask, maskByte o.val b.mask b.val⟩
    | none => up m b.addr b) []

/-- The memory changes of masked bytes (R141). -/
def storeBytes (m : Memory) (l : List MByte) : List MemOp :=
  (mergeBytes l).map (fun e => .wr e.1 (maskByte (m.rd e.1) e.2.mask e.2.val))

/-- Whole bytes from an address on. -/
def wholeBytes (a : Nat) (bs : List Byte) : List MByte := bs.zipIdx.map (fun e => ⟨a + e.2, 0xFF, e.1⟩)

/-- Group masked bytes by blocks of sz bytes: (block number, bytes). -/
def byBlock (sz : Nat) (l : List MByte) : SMap (List MByte) :=
  ((mergeBytes l).reverse).foldl (fun m e => up m (e.1 / sz) (e.2 :: lk [] m (e.1 / sz))) []

/-- Distinct values, rising. -/
def distinct (l : List Nat) : List Nat := (l.foldl (fun m n => up m n ()) ([] : SMap Unit)).map (fun e => e.1)

/-- Split lines, in order, into requests of at most n lines whose banks differ (R140, R142). -/
def requests {α : Type} (n : Nat) (line : α → Nat) (l : List α) : List (List α) :=
  (l.foldl (fun (acc : List (List α)) x =>
    match acc with
    | [] => [[x]]
    | g :: gs =>
      if g.length < n ∧ !g.any (fun y => line y % 16 == line x % 16) then (g ++ [x]) :: gs else [x] :: g :: gs) []).reverse

/-! ### Jobs -/

def Job.new (id : Nat) (eng : Eng) (kind : JobKind) (ent : QEntry) : Job :=
  { id := id, eng := eng, kind := kind, ent := ent, descs := [], srcs := [], tiles := [], got := [], rdLeft := 0,
    wrLeft := 0, stLeft := 0, issued := false, lost := false, starter := false, owed := [], popped := [], elem := 0,
    staged := false, active := false, age := 0 }

/-- A number no job and no create of the core bears. -/
def Core.newJob (c : Core) : Nat :=
  c.creates.foldl (fun n x => max n (x.id + 1)) (c.jobs.foldl (fun n j => max n (j.id + 1)) 0)

/-- A byte a job's reads have returned. -/
def Job.rd (j : Job) (a : Nat) : Byte := (lk (0 : BitVec 512) j.got (a / 64)).extractLsb' (8 * (a % 64)) 8

/-- Change a job of a core. -/
def Core.updJob (c : Core) (id : Nat) (f : Job → Job) : Core :=
  { c with jobs := c.jobs.map (fun j => if j.id = id then f j else j) }

/-- Ask a core's local store for lines: requests of at most n lines in address order (R142). -/
def readReqs (k : Nat) (cls : LsClass) (id n : Nat) (addrs : List Nat) : List LsReq :=
  let ls := distinct (addrs.map (fun a => (a - lsBase k) / 64))
  (requests n (fun (a : Nat) => a) ls).map (fun l => { cls := cls, job := id, lines := l, write := false, bytes := [] })

/-- Write requests of at most n lines. -/
def writeReqs (k : Nat) (cls : LsClass) (id n : Nat) (bs : List MByte) : List LsReq :=
  let g := byBlock 64 bs
  (requests n (fun e => e.1) g).map (fun l =>
    { cls := cls, job := id, lines := l.map (fun e => e.1 - lsBase k / 64), write := true,
      bytes := l.flatMap (fun e => e.2) })

/-- Ask for the images of creates that no live fill-guard entry holds (R89, R150): one request of the TQ-read class each (R166).
Bytes past the end of the store lie in no line. -/
def Core.askCreates (c : Core) (k : Nat) : Core :=
  c.creates.foldl (fun c x =>
    if x.asked || c.fgw.any (fun g => overlap x.range (g.lo, g.hi)) then c
    else
      let ls := (distinct ((List.range x.len).map (fun j => (x.addr + j - lsBase k) / 64))).filter (fun l => decide (l < 16384))
      { c with lsq := c.lsq ++ [⟨.tqRead, x.id, ls, false, []⟩],
               creates := c.creates.map (fun y => if y.id = x.id then { y with asked := true, left := 1 } else y) }) c

/-- The lines a read has brought, added to those that are there. -/
def addLines (got : SMap (BitVec 512)) (lines : List (Nat × BitVec 512)) : SMap (BitVec 512) :=
  lines.foldl (fun g l => up g l.1 l.2) got

/-- A read of a job or of a create has been served: its lines are in. -/
def Core.readDone (c : Core) (id : Nat) (cls : LsClass) (lines : List (Nat × BitVec 512)) : Core :=
  { c.updJob id (fun j => { j with got := addLines j.got lines, rdLeft := j.rdLeft - 1,
                                   stLeft := if cls = LsClass.matStationary then j.stLeft - 1 else j.stLeft }) with
    creates := c.creates.map (fun x =>
      if x.id = id then { x with got := addLines x.got lines, left := x.left - 1 } else x) }

/-- A write of a job has been served; with the last one its fill-guard entry is released (R149). -/
def Core.writeDone (c : Core) (id : Nat) : Core :=
  let c := c.updJob id (fun j => { j with wrLeft := j.wrLeft - 1 })
  if c.jobs.any (fun j => j.id == id && j.issued && j.wrLeft == 0) then { c with fgw := c.fgw.filter (fun g => g.job ≠ id) }
  else c

/-- Put accesses to slices into the slices' queues (R35). -/
def Net.askSlices (n : Net) (l : List SlcAcc) : Net :=
  l.foldl (fun n a => { n with slcQ := up n.slcQ (a.block / 0x800000) (lk [] n.slcQ (a.block / 0x800000) ++ [a]) }) n

/-- Cut a run of bytes, in presented order, into accesses: a new one begins whenever the next byte lies in another block
of 128 B (Table 09-4). -/
def accessRuns {α : Type} (addr : α → Nat) (l : List α) : List (Nat × List α) :=
  (l.foldl (fun (acc : List (Nat × List α)) x =>
    match acc with
    | (b, ys) :: r => if b = addr x / 128 then (b, x :: ys) :: r else (addr x / 128, [x]) :: (b, ys) :: r
    | [] => [(addr x / 128, [x])]) []).reverse.map (fun e => (e.1, e.2.reverse))

def sliceReads (k id p : Nat) (cls : LsClass) (addrs : List Nat) : List SlcAcc :=
  (accessRuns (fun (a : Nat) => a) addrs).map (fun e =>
    { core := k, job := id, cls := cls, block := 128 * e.1, write := false, bytes := [], ptag := p })

def sliceWrites (k id p : Nat) (cls : LsClass) (bs : List MByte) : List SlcAcc :=
  (accessRuns (fun (b : MByte) => b.addr) bs).map (fun e =>
    { core := k, job := id, cls := cls, block := 128 * e.1, write := true, bytes := (mergeBytes e.2).map (fun x => x.2),
      ptag := p })

/-- The order in which a core issues the slice accesses of its engines (R34). -/
def LsClass.slot : LsClass → Nat
  | .matStationary => 0
  | .matStreaming => 1
  | .matStore => 2
  | _ => 3

/-- The slice access a core issues next: the oldest of the first engine in R34's order that wants one. -/
def Core.nextSlc (c : Core) : Option SlcAcc :=
  (List.range 4).findSome? (fun o => c.slcWant.find? (fun a => a.cls.slot == o))

/-- Core k issues one slice access (R34). -/
def Dev.issueSlc (d : Dev) (k : Nat) : Dev :=
  match (d.core k).nextSlc with
  | none => d
  | some a =>
    let d := d.updCore k (fun c => { c with slcWant := c.slcWant.erase a })
    { d with net := d.net.askSlices [a] }

/-! ### The lock-step digest (R235) -/

/-- The item of one write access: the address of its first byte and the bytes it carries, by rising address; of a byte written
in part, the bits written (log entry 138). -/
def accItem (bs : List MByte) : Nat × List Byte := ((bs.map (fun b => b.addr)).headD 0, bs.map (fun b => b.val &&& b.mask))

/-- Add the items of included writes to core k's digest, when its partition compares in lock-step. -/
def Dev.digestAdd (d : Dev) (k : Nat) (items : List (Nat × List Byte)) : Dev :=
  if (d.part (d.partOf k)).lock.isSome then
    d.updCore k (fun c => { c with digest := items.foldl (fun a e => a + digestItem e.1 e.2) c.digest })
  else d

/-- Slice accesses of core k: FILL and COPY run at the memory (R145), every other engine asks for the core's issue slot
(R34). -/
def Dev.wantSlices (d : Dev) (k : Nat) (cls : LsClass) (l : List SlcAcc) : Dev :=
  if cls = .fillCopy then { d with net := d.net.askSlices l } else d.updCore k (fun c => { c with slcWant := c.slcWant ++ l })

/-- Issue a job's reads: lines of the own local store under a class, blocks of slices. The job counts them. -/
def Dev.issueReads (d : Dev) (k id : Nat) (cls : LsClass) (n : Nat) (addrs : List Nat) : Dev :=
  let rs := readReqs k cls id n (addrs.filter (fun a => inOwnLs k a a))
  let ss := sliceReads k id (d.partOf k) cls (addrs.filter (fun a => inSlices a a))
  let m := rs.length + ss.length
  (d.updCore k (fun c => { c with lsq := c.lsq ++ rs }.updJob id (fun j =>
    { j with rdLeft := j.rdLeft + m, stLeft := if cls = LsClass.matStationary then j.stLeft + m else j.stLeft }))).wantSlices k cls ss

/-- Issue a job's writes, one group of bytes after the other; `last` says that none follows. Each slice access of TQ or of a
matrix store is an item of the core's digest (R235). -/
def Dev.issueStores (d : Dev) (k id : Nat) (cls : LsClass) (n : Nat) (last : Bool) (groups : List (List MByte)) : Dev :=
  let rs := groups.flatMap (fun bs => writeReqs k cls id n (bs.filter (fun b => inOwnLs k b.addr b.addr)))
  let ss := groups.flatMap (fun bs => sliceWrites k id (d.partOf k) cls (bs.filter (fun b => inSlices b.addr b.addr)))
  let d := d.updCore k (fun c => { c with lsq := c.lsq ++ rs }.updJob id (fun j =>
    { j with wrLeft := j.wrLeft + rs.length + ss.length, issued := last }))
  (d.digestAdd k (ss.map (fun a => accItem a.bytes))).wantSlices k cls ss

/-- Byte addresses of a location's element and scale. -/
def Loc.addrs (l : Loc) (w : Nat) : List Nat :=
  (List.range (cdiv (l.bitAddr % 8 + w) 8)).map (fun j => l.bitAddr / 8 + j) ++ l.scale.toList

/-- Byte addresses of presented elements; padding is never addressed (R100). -/
def DescF.addrs (f : DescF) (ps : List (List Nat)) : List Nat :=
  ps.flatMap (fun p => (f.loc p).elim [] (fun l => l.addrs f.width))

/-- Remove a job that is complete: its fill-guard entry (R149) and reads in progress (R151) go with it. -/
def Core.endJob (c : Core) (id : Nat) : Core :=
  { c with jobs := c.jobs.filter (fun j => j.id ≠ id), fgw := c.fgw.filter (fun g => g.job ≠ id),
           fgr := c.fgr.filter (fun g => g.job ≠ id) }

/-- Take a job into the core: its queue's head goes, its source ranges stand until their last access is granted (R151),
a guarded destination takes an entry (R149). -/
def Core.startJob (c : Core) (j : Job) (src : List (Nat × Nat)) (dst : Option (Nat × Nat)) : Core :=
  { c.setQueue j.eng ((c.queue j.eng).drop 1) with
    jobs := c.jobs ++ [j]
    fgr := c.fgr ++ src.map (fun r => ⟨j.id, r.1, r.2⟩)
    fgw := c.fgw ++ dst.toList.map (fun r => ⟨j.id, r.1, r.2⟩) }

/-- Drop the head of a queue whose instruction failed at acceptance (R431). -/
def Core.dropHead (c : Core) (e : Eng) : Core := c.setQueue e ((c.queue e).drop 1)

end Sys2Proof.Machine
end

