-- ==== Sys2Proof/Machine/Ecc.lean ====
section
/-! DEFINITION. Error correction of the local stores and slices (R147), and the accesses that reach them beside the jobs of the
cores: mesh ejections and the device window (R142, R146). -/

namespace Sys2Proof.Machine

/-! ### ECC (R147) -/

/-- Words (8 B addresses) of a byte range. -/
def wordsOf (a n : Nat) : List Nat := (List.range (cdiv n 8)).map (fun i => a / 8 * 8 + 8 * i)

/-- Where a word lies: 0 LS, 1 SLICE. -/
def unitOfWord (w : Nat) : Nat := if w < 0x180000000 then 1 else 0
/-- The partition that owns a word's memory. -/
def Dev.ownerOfWord (d : Dev) (w : Nat) : Nat :=
  if w < 0x180000000 then lk 16 d.net.slcOwner (w / 0x800000) else d.partOf ((w - 0x180000000) / 0x100000)

/-- A corrected single-bit error (R147): recorded, counted in the block of the memory's core, its write-back due. -/
def Dev.eccCe (d : Dev) (w reader : Nat) : Dev :=
  let u := unitOfWord w
  let k := if u = 1 then w / 0x800000 else (w - 0x180000000) / 0x100000
  let d := d.updCore k (fun c =>
    { c with cnt := if u = 1 then { c.cnt with slcCe := satAdd c.cnt.slcCe 1 } else { c.cnt with lsCe := satAdd c.cnt.lsCe 1 } })
  let d := { d with net := { d.net with ce := if d.net.ce.contains w then d.net.ce else d.net.ce ++ [w] } }
  let p := d.ownerOfWord w
  d.raise { code := 0x01, cls := 0, source := if u = 1 then 14 else 0, core := reader, pmask := pmaskOf p,
            fpid := d.fpidOf p, detail := [u, w] }

/-- An uncorrectable error (R147), class PARTITION for the owner. -/
def Dev.eccUe (d : Dev) (w reader : Nat) : Dev :=
  let u := unitOfWord w
  let p := d.ownerOfWord w
  let d := { d with net := { d.net with ue := if d.net.ue.contains w then d.net.ue else d.net.ue ++ [w] } }
  d.raise { code := 0x02, cls := 2, source := if u = 1 then 14 else 0, core := reader, pmask := pmaskOf p,
            fpid := d.fpidOf p, detail := [u, w] }

/-- The errors a read of some words meets: those struck now, those still uncorrected and those not yet written back. -/
def Dev.eccRead (d : Dev) (ws : List Nat) (reader : Nat) (ce : List Nat) (ue : List (Nat × BitVec 64)) : Dev :=
  ws.foldl (fun d w =>
    if ue.any (fun e => e.1 == w) || d.net.ue.contains w then d.eccUe w reader
    else if ce.contains w || d.net.ce.contains w then d.eccCe w reader
    else d) d

/-- The words as stored after double-bit errors struck them. -/
def ueOps (ws : List Nat) (ue : List (Nat × BitVec 64)) : List MemOp :=
  (ue.filter (fun e => ws.contains e.1)).flatMap (fun e => wrBytes e.1 (natLe e.2.toNat 8))

/-- Words of a write, with whether it writes all 64 bits. -/
def writtenWords (bs : List MByte) : List (Nat × Bool) :=
  (byBlock 8 bs).map (fun e => (8 * e.1, e.2.length == 8 && e.2.all (fun b => b.mask == 0xFF)))

/-- A write meets bad words: a whole word makes it good, a part keeps it bad and raises again (R147). -/
def Dev.eccWrite (d : Dev) (bs : List MByte) (writer : Nat) : Dev :=
  (writtenWords bs).foldl (fun d e =>
    let d := if e.2 then { d with net := { d.net with ce := d.net.ce.filter (fun w => w ≠ e.1) } } else d
    if !d.net.ue.contains e.1 then d
    else if e.2 then { d with net := { d.net with ue := d.net.ue.filter (fun w => w ≠ e.1) } }
    else d.eccUe e.1 writer) d

/-! ### Accesses that serve no job (R142, R146) -/

/-- An access carried out by a command of its own takes its line in the store's arbitration. -/
def Core.lsToken (c : Core) (cls : LsClass) (write : Bool) (line : Nat) : Core :=
  { c with lsq := c.lsq ++ [⟨cls, 0, [line], write, []⟩] }

/-- An access of the device window to n bytes from a on: each line of a local store is a request of the lowest class
(Table 08-2), and each 128 B of a slice takes a cycle in which the accesses that stand at it wait (R146). -/
def Dev.winTouch (d : Dev) (a n : Nat) (write : Bool) : Dev :=
  if n = 0 then d
  else
    (List.range ((a + n - 1) / 64 - a / 64 + 1)).foldl (fun d i =>
      let w := 64 * (a / 64 + i)
      if inSlices w w then
        let j := w / 0x800000
        let q := (lk [] d.net.slcQ j).length
        if i ≠ 0 ∧ w % 128 ≠ 0 ∨ q = 0 then d
        else d.updCore j (fun c => { c with cnt := { c.cnt with slcCont := c.cnt.slcCont + BitVec.ofNat 64 q } })
      else if 0x180000000 ≤ w ∧ w < 0x1B0000000 then
        d.updCore ((w - 0x180000000) / 0x100000) (fun c => c.lsToken .window write (w % 0x100000 / 64))
      else d) d

end Sys2Proof.Machine
end

