-- ==== Sys2Proof/Machine/VecFn.lean ====
section
/-! DEFINITION. The vector functions of R81 to R86, each in exact arithmetic with one rounding at its end (R80). The
tables hold the rationals fixq of the manual's formulas: T of R81 with 30 fraction bits, L of R82 with 40, P and D of
R86 with 48 for x at most 0 (P(-x) = 1 - P(x) and D(-x) = D(x)). -/

namespace Sys2Proof.Machine

/-- Entry i of a list of literals that pack 64 entries of w bits each. -/
def packed (t : List Nat) (w i : Nat) : Nat := (t.getD (i / 64) 0 / 2 ^ (w * (i % 64))) % 2 ^ w

/-- T[i] of R81 times 2^30, 32 bits each. -/
def tabT : List Nat :=
  [0x7E9F06067D41D96E7BE86FBA7A92BE8B7940BB9E77F25CCE76A7980F75606374741CB52872DC8374719FC4B970666F766F307A416DFDDBCC6CCE8AE16BA27E656A79AD5669540EC9683199ED6712460B65F60A7F64DCDEC363C6BA6462B3950961A3666D609626655F8BCCDB5E8451D05D7FAD595C7DD7A45B7EC8F25A82799A5988E2095891FAC1579DBC5756AC1F7555BD1CDB54D0AD5A53E6C9DA52FF6B55521A8AD751382182505828884F7A99304E9F6CD44DC69CDD4CF022CA4C1BF8294B4A169C4A7A77D449AD159848E1E9BA4818EE2247521CC6468D6FAE45CAE0F2450A6ABB444C0740438FB0CB42D561B4421D14624166C34C40B268FA40000000]

/-- L[i] of R82 times 2^40, 48 bits each. -/
def tabL : List Nat :=
  [0xFD1A708BEC00FA2F045E8F00F73DA38C5A00F446359B4100F148A1712300EE44CD59BA00EB3A9F022800E829FB67ED00E512C6E46E00E1F4E5162600DED038E64B00DBA4A47A3600D87209361A00D53847AC1800D1F73F9C9900CEAECFEB3900CB5ED6957D00C80730B05100C4A7BA584F00C1404EAE0B00BDD0C7CA7E00BA58FEB34C00B6D8CB53C800B35004712700AFBE7FA14700AC241133EA00A8808C387900A4D3C25F6700A11D83F3D7009D5D9FD60A009993E355D90095C01A39430091E20EA150008DF988F3D3008A064FD48A00860828076A0081FED45CD4007DEA15A3430079C9AA885600759D4F809D007164BEB432006D1FAFDCB40068CDD8298400646EEA2493006002958D0B005B8887363A00570068E76B005269E12ED8004DC49339B20049101EAC4F00444C1F6BDC003F782D721C003A93DC98D200359EBC5B8100309857A075002B8034733F002655D3C520002118B119CC001BC842405D001663F6FAB20010EB389EEA000B5D69BA990005B9E5A188000000000000]

/-- P[j] of R86 times 2^48 for j = 0 to 512, 52 bits each. -/
def tabP : List Nat :=
  [0x1420000000000120000000000010200000000000E600000000000CE00000000000B800000000000A40000000000092000000000008300000000000750000000000068000000000005D0000000000053000000000004A0000000000042000000000003B0000000000034000000000002F000000000002900000000000250000000000021000000000001D000000000001A0000000000017000000000001500000000000120000000000010000000000000E000000000000D000000000000B000000000000A000000000000900000000000080000000000007000000000000600000000000060000000000005000000000000400000000000040000000000003000000000000300000000000030000000000002000000000000200000000000020000000000002000000000000100000000000010000000000001000000000000100000000000010000000000001000000000000100000000000010000000000001000000000000000000000000000000000000000000000000000000000000000000000000000000000000000000000000000000000000000000000,
   0x3D9210000000037E6F0000000032BE4000000002E0CB0000000029C7B0000000025E5C00000000225E1000000001F28A000000001C3E300000000199800000000017300000000001500B000000001304E0000000011380000000000F95C000000000E1A6000000000CC24000000000B8A4000000000A6F700000000096F1000000000886D0000000007B470000000006F5E00000000064960000000005AD300000000051FE0000000004A0000000000042C60000000003C3C000000000365300000000030FC0000000002C2800000000027CC00000000023DB000000000204D0000000001D170000000001A31000000000179400000000015380000000001317000000000112C0000000000F710000000000DE20000000000C7B0000000000B370000000000A14000000000090D0000000000821000000000074C000000000068D00000000005E1000000000054600000000004BB000000000043E00000000003CD0000000000368000000000030E00000000002BC0000000000273000000000023200000000001F700000000001C200000000001930000000000168,
   0x46F304F00000041673BC0000003C46C900000003789DB100000033292C30000002F1DF910000002B61F8300000027EF51B00000024C097B00000021D0BF00000001F1B18B0000001C9B4B70000001A4D4E1000000182D61B00000016380CF000000146A16D00000012C082700000011388AE0000000FCF9F00000000E835E10000000D519460000000C3837B0000000B3564D0000000A475C6000000096C80900000008A352800000007EA704000000074092600000006A48A7000000061540F0000000591B390000000518F3F00000004AA25C00000004447DC00000003E74070000000391C0B00000003435EF00000002FB88000000002B9B44000000027D66900000002462BC000000021399B00000001E54EB00000001BAF0C00000001942D00000000170B76000000015049A0000000132A36000000011789500000000FEC4F00000000E824300000000D379100000000C099400000000AF5E1000000009FA3C000000009149B000000008431E000000007840D000000006D5D30000000063700000000005A63E0000000052259000000004AA310000000043CC4,
   0x1F15901F400001D168850600001B36B28E70000197443805000017CD8862500001640E5D30000014CCD6ACC0000136FEAECE00001228C6A61000010F620FFA00000FD6C33FC00000EC987E0800000DCD59B0000000CE132FA400000C041CBD300000B352DE6000000A738A972000009BE6377C00000914F50AD00000876870E9000007E26BE3800000757FFFB0000006D6A94C50000065DD6D17000005ED0009400000583A480A000005214B614000004C5830610000046FE09510000041FFF9E9000003D581C10000003900E51C0000034F520A500000312FEB9E000002DACAFB2000002A671ED600000275B2F2300000248516E00000021E148C8000001F6C707D000001D236F32000001B0358810000019096F6A000001733238800000157E0E590000013E7F0C600000126EB0B700000111056DA000000FCB0C82000000E9D19A7000000D84E305000000C80E855000000B8FC29E000000AB022A40000009E0CF6B000000920A4CF00000086E92360000007C99953000000730CCF80000006A3500300000062054510000005A719CD000000536ED800000004CF28BD,
   0x54089A50030004FCDE901480004BC54D0E9600047ECB2EB46000444219E4BD00040C3939F5C0003D6F4395170003A435E95C2000373E2A4932000345DFCB33000031A13BB9600002F065CAB1B0002C8BE3CB4F0002A3063DC7600027F27DAEA000025D0DFAFA000023CA457D6D00021DD777AA200020094A65480001E4C9EEFC50001CA6615C180001B15891949000199918631D00018301BE40900016D9AA59650001594E439D70001460F35E05000133D0AAB71000122865C19C000112248A9450001029FF85E90000F3EDE495C0000E604069880000D8D88984B0000CC6207D5F0000C0978725B0000B570740B50000AAE49E1BD0000A0EC340950000977FBFE1900008E982369D0000862E9499A00007E3C9A324000076BC0872400006FA6FDE64000068F7E0540000062A959C0F00005CB65592D00005719FDC9D000051CFB854200004CD32479400004820185DC000043B29E9E000003F86F3FF300003B998536D000037E6ECC750000346BF0F170000312581BA000002E10B703200002B2ACEB86000028712B0DB000025E150D0300002378E5C7E00002135AF2A9,
   0x59C85E4C43F00567C7E6B9BB00534AFB394540050333360199004D34877495A004A4E5A02CC00047800F9B6910044C90EDFCE0004228C08D45B003F9E8F87584003D29E8E140B003ACA3BE689900387EFA22D490036479768D2800342389D86FB00321249E43A70030135256082002E262052DE6002C4A335E255002A7F0D5C28E0028C43293EDB00271929B05FA00257D7BC0DFC0023F0B43936500227260F0EF40021021222267001F9F5A67C97001E49CEBB540001D0106720D6001BC49B39CBA001A94291542B00196F4E57E4A001855ABA1586001746E3D88C90016429C266BD0015487BF03750014582CD18D60013715A96210001293B33326F0011BEE6C07DF0010F2A77196A00102EA98E1F8000F72A36A7A7000EBE4D5FFF4000E1161C5108000D6B9CE506A000CCCBCF7F55000C34821A4F6000BA2AE446D8000B170541FAC000A914CA94B5000A114BD2A0E000996CBCF5FE00092197613940008B17AF14B800084644873E70007DFC3C05CE00077DC9C6AE1000720294812D0006C6B66D67E00067146D1B0D00061FB1794D00005D1CEC9396000587787E617,
   0x27A7C9D3BB5C026B5D1056836025C7B654A715024DD78924B54023F716197AE4023148CD1E8DD02235DA3223560215AFB41F36102083EC9CCE3D01FB0AA74569001EE13092ECBB01E157A5E4D2401D4D82DA3B7201C8944AB39A401BC8BA1949F901B0BDD12BA9C01A52A72EFA070199D11B1730A018EB158C6F820183CAB6400A101791CB90EBD8016EA6E239B5F016468AE71155015A61963DC920150910E30E2D0146F68712EC8013D916E132BE0134612CF6C4D012B652A47ADE01229CC983693011A076B4974A0111A46D896480109732BB09C6010172FED79A800F9A33DEECA000F2033DEAD0B00EA9251F04E800E34FCB7F04000DC3AFA9C56600D5532DFD27C00CE97B32EFB500C807D6C05C700C1A2E46881F00BB68272E25600B556E98D87E00AF6E759D9E400A9AE15345EE00A415120A2AB009EA2B5DC4E40099564A8E94C00942F1A4BEA3008F2C6FA6085008A4D95B42C2008591D830D050080F883966BA007C80E53B2FE00782A4B6BCA00073F4058520D006FDD640D129006BE5B8CA30F00680C56DA7C000645092C91C30060B1C2A31CB005D2F3E0B276,
   0x7E677FEE196407CCF196345A207B36E5E1CE880799EFEE26D45078077DCF85DD076707C00670C074DA12B49026073445B0EFE5B071AF6E1182E40701B6498237F06E88575486AA06CF65EC96D0706B6593463943069D60CE287E906847E379D866066BB2EA748950653005C16417063A67FD608B50621EB3A660F106098B7A2F60E05F14A1E7DA8B05D928838EE4705C127FFE3D4305A949E407A0905918F7A594B20579FA06D6F6405628AC6EB136054B42F13B837053423B57AB68051D2E3C3AD57050663A6C300104EFC50EE6A9C04D95386DF1CE04C31019272D104ACFBC8591FE0497178F0ED070481645FC415C046BE324BB6D8045694BFE4F0804417A0AC7932042C93D66CB2A0417E2EB4DF1304036809455FF03EF23E77FF6F03DB17347258003C74295CFDB603B3A6A883E1B03A04400AD675038D1B299CD4A037A2CA5D4049036778EF087B90355007627C750342C3A35DFF30330C2D61E5D6031EFE652DE63030D769EB014902FC2BC83580E02EB1E1ECC75F02DA4DD7136A202C9BB1D4D4E702B9661577A7F02A94EDB6265A02997582C964C0289DA176F964,
   0x800000000000]

/-- D[j] of R86 times 2^48 for j = 0 to 512, 44 bits each. -/
def tabD : List Nat :=
  [0x24000000000200000000001D0000000001A000000000170000000001500000000013000000000110000000000F0000000000D0000000000C0000000000B00000000009000000000080000000000800000000007000000000060000000000500000000005000000000040000000000400000000003000000000030000000000300000000002000000000020000000000200000000002000000000020000000000100000000001000000000010000000000100000000001000000000010000000000100000000001000000000010000000000000000000000000000000000000000000000000000000000000000000000000000000000000000000000000000000000000000000000000000000000000000000000000000000000000000000000000000000000000000000000000000000000000000000000000000000000000000000000000000000000000000000000000000000000000000000000,
   0x5F080000000567F00000004EB50000000479A0000000411F00000003B37000000035D5000000030EC00000002C7400000002862000000024AC0000000214C00000001E3A00000001B6E000000018E300000001693000000014790000000128F000000010D300000000F3F00000000DD000000000C8200000000B5400000000A41000000009480000000086600000000799000000006DF000000006370000000059E000000005130000000049600000000425000000003BE000000003610000000030D000000002C00000000027C0000000023D00000000205000000001D2000000001A40000000017B000000001550000000013300000000115000000000F9000000000E0000000000CA000000000B5000000000A30000000009300000000084000000000760000000006A00000000060000000000560000000004D000000000450000000003E00000000038000000000320000000002D00000000028,
   0x5C434700000554C43000004ED6EB0000048DA3500000434DAE000003E2978000003966370000034FD110000030E7A1000002D1FF00000029A072000002663F8000002365B00000020A11D000001E1212000001BB4A900000198544000001780860000015A34D0000013EAAF000001253F80000010DCA5000000F8260000000E42FD000000D1C7A000000C0CF7000000B12BA000000A2C27000000957BF000000894210000007E00500000073A3B0000006A1A90000006154A0000005942D00000051D730000004B04D00000044BFB0000003EFCC00000039B1D00000034D57000000305EF0000002C4620000002883A0000002510800000021E680000001EFFB0000001C56B00000019E6800000017AA9000000159EA00000013BEB00000012075000000107510000000F04F0000000DB420000000C8010000000B6650000000A64C0000000979400000008A2200000007DD9000000072A100000006862,
   0x20F405810001EF201D40001D0D7F020001B44E9D00001996C2A500018019CB400016841D28000151CFA5F00013CAFB26000128CF6020001161D07900010487E660000F4001550000E4767E00000D5DCD180000C8257EF0000BB43AAC0000AF2B2620000A3D066D000099287F300008F29170000085C864000007CFD22E000074BE91100006D04660000065C6CD300005EFE60B000058A4231000052B17AA00004D202BE000047EA5500000430A69500003E7B2C800003A37AEB0000363B4880000328197000002F0678500002BC607D000028BC9B4000025E6BF60000234134F000020C8EDD00001E7B0AA00001C54D7B00001A53CB00000187581B000016B7BDD00001518647000013957B80000122D281000010DDAC700000FA566700000E82CE000000D7473800000C78FE600000B8F2BC00000AB5CD3000009EBC770000093011600000881B2C000007DFC37000007496A2000006BDDBC0000063C5A6,
   0x45471FC9E004214C707F003F0440A21003C145AD69003943EC21A003691D32330033FCF684600318444DAF002F26B48C6002CE343AF6002AB8F7ECD0028A6DE5FC0026AC0B74C0024C79AC860022F8AF05A00213E71C31001F9813605001E04CAE2C001C83D5D1F001B14781430019B5FBCA6001867B12C6001728EE64C0015F90F6CF0014D775E940013C3890560012BCB55030011C26C98C0010D425CB0000FF15CCCD000F19925B5000E4C4BE8A000D89137A2000CCF7786D000C1F0AD63000B77645FF000AD81F2B8000A40DA3080009B13837F000928DFBD10008A77ACFF00082CB6F770007B84514B000749D946B0006E12ACE500067DF3F3B00061FF1EB00005C6E4BB30005728F241000522B68620004D722CA000048F9E49100044BF5B6D00040BF80A30003CF76681000396440E6000360363F200032D242CF0002FCE6E780002CF5948E0002A457E3600027BC0EFC000255743C5000231531C6,
   0x3594476555033E967DE5A03248ACA8D4030B1F79F0C02F2529B4B802DA22305EA02C28C2E5C302AB8E7ECEE029527007E1027F53884D1026A11E216D02555FD184E02413B12E1F022DA15BE73021A905C853020805BFA7C01F5FF2BF4401E47A4483401D374A994A01C2EBF93DE01B2DDD013A01A347C9CD601942781E3901857A9428301773E9D59E0169713BB13015C100F687014F18BB3E1014288E4F1101365E35B82012A965AB35011F2F0557F011425EBD78010978C980E00FF255F1C400F5297342300EB82D2AD100E22F5085B00D92CC6AB100D07915F4F00C8122671D00BFF5E7A0600B82250A3F00B0956074D00A94D1E0C200A247988B5009B82E76000094FD2A632008EB489F480088A7371310082D36B70B007D37698310077D17C90E00729FF8BC0006DA13B0840068D3A95F6006435B291F005FC5CE55B005B827D41000576A48C4100537BC31F8004FB58758F004C16392CF00489C84FF6,
   0xF3E82450EA0F00996ED040EC2BFD25DC0E84FCDBF800E4757D4D5C0E09D7E1E7B0DCC8402AD20D8F63101920D527BBB88B0D15D48DC960CD973E63120C9D5FF9C6C0C619ED27BD0C26364E76E0BEB2C1F6F40BB085CA1900B7648A5A1E0B3C79DB3F40B031E65CBA0ACA3B117560A91D47B7C90A59EF120180A228F13E2409EBB890A7D09B56F68822097FB74C52C094A93BDC640916080F7B808E2176538308AEC4B42B9087C12C33D4084A042B69108189B5826C07E7DA87DD807B7C3CC6290788590B82E07599BFF96D072B8E381FE06FE311A6FE06D185E259306A58DA2E6F067A49471E1064FB992C4E0625DF2332B05FCBA7025205D44BCC9C105AC9367BB10585914DAFC055F45689D30539AF818B00514CF4158F04F0A431B4E04CD2DBE14604AA6B34B0704885BC782D0466FE8D45B0446528273C0426568A4970407096FC6603E869E6AED03CA768C8CC03AD2DE9AFF03908E722D703749686DD0,
   0x198778F4DB91985145E3C2198117E2C92197B8441BAD19745A8672C196B9C0828519614A697D919556797FCF1947F5CB7F71938F7857C319286F9040F191660FE14C1902CF2844A18EDBDAE1A218D73073BDF18BF2BA104C18A5B3A028F188ACD1C705186E7D00BF01850C87617E1831B4E20BB181147E517017EF8758EF517CC794EC1617A8240D60417828E0F660175BBE014791733BABF5BA170A8B53D6416E036F4B9216B4C501BA216883D02208165AA6A299E162C09B307815FC6E2445715CBDC05EB9159A5B840A01567F4E4E161534B08698A150096DCEFD14CBB06EF29149605D4A92145F9FB4CAC142886C270D13F0C3BACC813B85F62DF1137F62853651345D5EFAD3130BC27132812D130D794E129629ED569125AB677882121EDF33ABE11E2ACD5A2711A62805A0A1169595E2FF112C496A39E10EF00A31EF10B1876ED981073E61E2D6103624EAE4A0FF84BF619B0FBA63468FD0F7C72C7199,
   0x19884533D43]

/-- P[j] and D[j] of R86. -/
def geluP (j : Nat) : Dy :=
  ⟨if j ≤ 512 then packed tabP 52 j else 2 ^ 48 - packed tabP 52 (1024 - j), -48⟩
def geluD (j : Nat) : Dy := ⟨packed tabD 44 (if j ≤ 512 then j else 1024 - j), -48⟩

/-- C1, C2, C3 of R81. -/
def expC1 : Dy := ⟨11908177887, -34⟩
def expC2 : Dy := ⟨4127059964, -34⟩
def expC3 : Dy := ⟨953553326, -34⟩
/-- K1 to K4 of R82; K1 is also K_E of R84. -/
def logK1 : Dy := ⟨1586259972792, -40⟩
def logK2 : Dy := ⟨-793129986396, -40⟩
def logK3 : Dy := ⟨528753324264, -40⟩
def logK4 : Dy := ⟨-396564993198, -40⟩

def Dy.one : Dy := ⟨1, 0⟩

/-- exp2_core of R81. -/
def exp2Core (y : Dy) : Dy :=
  let n := y.floor
  let f := y.sub (Dy.ofInt n)
  let i := ((⟨64, 0⟩ : Dy).mul f).floor.toNat
  let r := f.sub ⟨i, -6⟩
  let p := Dy.one.add ((expC1.mul r).add ((expC2.mul (r.mul r)).add (expC3.mul (r.mul (r.mul r)))))
  (((⟨packed tabT 32 i, -30⟩ : Dy).mul p).mul ⟨1, n⟩)

/-- encode_fp of the exact quotient a / b, b > 0, SAT = 0; a zero takes the sign `zs`. -/
def encodeQuot (f : Fmt) (a b : Dy) (zs : Bool) : Nat × NFlags :=
  let e := a.e - b.e
  let n := a.m.natAbs
  let m := b.m.natAbs
  let s := if a.m = 0 then zs else decide (a.m < 0)
  if e ≥ 0 then f.encodeQ s (n * 2 ^ e.toNat) m false else f.encodeQ s n (m * 2 ^ (-e).toNat) false

/-- encode_fp of a dyadic number, SAT = 0. -/
def encodeDy (f : Fmt) (a : Dy) : Nat × NFlags := encodeQuot f a Dy.one false

/-- The result of a special case: an infinity, NaN, a zero, one. -/
def fnInf (f : Fmt) (s : Bool) (fl : NFlags) : Nat × NFlags := (f.infBits s, fl)
def fnNan (f : Fmt) (fl : NFlags) : Nat × NFlags := (f.canonNan, fl)
def fnZero (f : Fmt) (s : Bool) (fl : NFlags) : Nat × NFlags := (f.bits s f.emin 0, fl)
def fnOne (f : Fmt) (s : Bool) : Nat × NFlags := (f.bits s 0 (2 ^ f.mb), {})

/-- exp2 (R81). -/
def vExp2 (f : Fmt) (x : Val) : Nat × NFlags :=
  match x with
  | .nan => fnNan f {}
  | .inf false => fnInf f false {}
  | .inf true => fnZero f false {}
  | v =>
    let d := v.dy
    if !d.lt ⟨128, 0⟩ then fnInf f false { of_ := true }
    else if d.lt ⟨-150, 0⟩ then fnZero f false { uf := true }
    else encodeDy f (exp2Core d)

/-- log2 (R82). -/
def vLog2 (f : Fmt) (x : Val) : Nat × NFlags :=
  match x with
  | .nan => fnNan f {}
  | .inf true => fnNan f { nv := true }
  | .inf false => fnInf f false {}
  | .fin s m e =>
    if m = 0 then fnInf f true { dz := true }
    else if s then fnNan f { nv := true }
    else
      let lg : Int := (Nat.log2 m : Int) + e
      let d : Dy := ⟨m, e - lg⟩
      let i := ((⟨64, 0⟩ : Dy).mul (d.sub Dy.one)).floor.toNat
      let r := (d.mul ⟨roundQ (64 * 2 ^ 32) (64 + i), -32⟩).sub Dy.one
      let r2 := r.mul r
      encodeDy f ((Dy.ofInt lg).add ((⟨packed tabL 48 i, -40⟩ : Dy).add ((logK1.mul r).add ((logK2.mul r2).add
        ((logK3.mul (r2.mul r)).add (logK4.mul (r2.mul r2)))))))

/-- recip (R83). -/
def vRecip (f : Fmt) (x : Val) : Nat × NFlags :=
  match x with
  | .nan => fnNan f {}
  | .inf s => fnZero f s {}
  | .fin s m e => if m = 0 then fnInf f s { dz := true } else encodeQuot f ⟨if s then -1 else 1, 0⟩ ⟨m, e⟩ s

/-- 1/√(m·2^e) as a quotient that rounds as the exact value does: the integer square root of 2^(2k)/m, with a low bit
that says whether anything was cut off. -/
def rsqrtQ (m : Nat) (e : Int) : Dy :=
  let (m, e) := if e % 2 = 0 then (m, e) else (2 * m, e - 1)
  let k := 64 + Nat.log2 m
  let q := Nat.sqrt (2 ^ (2 * k) / m)
  ⟨2 * q + (if q * q * m = 2 ^ (2 * k) then 0 else 1), -(k : Int) - 1 - e / 2⟩

/-- rsqrt (R83). -/
def vRsqrt (f : Fmt) (x : Val) : Nat × NFlags :=
  match x with
  | .nan => fnNan f {}
  | .inf true => fnNan f { nv := true }
  | .inf false => fnZero f false {}
  | .fin s m e =>
    if m = 0 then fnInf f s { dz := true }
    else if s then fnNan f { nv := true }
    else encodeDy f (rsqrtQ m e)

/-- tanh (R84). -/
def vTanh (f : Fmt) (x : Val) : Nat × NFlags :=
  match x with
  | .nan => fnNan f {}
  | .inf s => fnOne f s
  | .fin s m e =>
    let a : Dy := ⟨m, e⟩
    if !a.lt ⟨16, 0⟩ then fnOne f s
    else
      let a2 := a.mul a
      if a.lt ⟨1, -5⟩ then
        let n := a.mul ((⟨315, 0⟩ : Dy).add (a2.mul ((⟨-105, 0⟩ : Dy).add (a2.mul ((⟨42, 0⟩ : Dy).add (a2.mul ⟨-17, 0⟩))))))
        encodeQuot f (if s then n.neg else n) ⟨315, 0⟩ s
      else
        let ex := exp2Core ((⟨-2, 0⟩ : Dy).mul (a.mul logK1))
        let n := Dy.one.sub ex
        encodeQuot f (if s then n.neg else n) (Dy.one.add ex) s

/-- sigmoid (R85). -/
def vSigmoid (f : Fmt) (x : Val) : Nat × NFlags :=
  match x with
  | .nan => fnNan f {}
  | .inf false => fnOne f false
  | .inf true => fnZero f false {}
  | v =>
    let d := v.dy
    if !d.lt ⟨32, 0⟩ then fnOne f false
    else if !(⟨-128, 0⟩ : Dy).lt d then fnZero f false { uf := true }
    else encodeQuot f Dy.one (Dy.one.add (exp2Core (d.neg.mul logK1))) false

/-- The interpolated Φ of R86 at a finite x in [−8, 8). -/
def geluPhi (d : Dy) : Dy :=
  let s := (⟨64, 0⟩ : Dy).mul (d.add ⟨8, 0⟩)
  let j := s.floor.toNat
  let t := s.sub (Dy.ofInt j)
  let t2 := t.mul t
  let t3 := t2.mul t
  let c (n : Int) (v : Dy) : Dy := (⟨n, 0⟩ : Dy).mul v
  ((((c 2 t3).add (c (-3) t2)).add Dy.one).mul (geluP j)).add
    (((((t3.add (c (-2) t2)).add t).mul (geluD j)).add
      ((((c (-2) t3).add (c 3 t2)).mul (geluP (j + 1))).add ((t3.sub t2).mul (geluD (j + 1))))))

/-- gelu (R86). Where the interpolated Φ is exactly 0 and x is not, the manual gives the zero's sign nowhere: `zs` is
that sign (log entry 13). -/
def vGelu (f : Fmt) (zs : Bool) (x : Val) : Nat × NFlags :=
  match x with
  | .nan => fnNan f {}
  | .inf false => fnInf f false {}
  | .inf true => fnZero f true {}
  | .fin s m e =>
    let d := (Val.fin s m e).dy
    if m = 0 then fnZero f s {}
    else if !d.lt ⟨8, 0⟩ then f.encode (.fin s m e) false
    else if d.lt ⟨-8, 0⟩ then fnZero f true { uf := true }
    else encodeQuot f (d.mul (geluPhi d)) Dy.one zs

end Sys2Proof.Machine
end

