-- ==== Sys2Proof/Machine/Lanes.lean ====
section
/-! DEFINITION. Lane arithmetic of the vector engine (R126, R127, R183 to R191): what each instruction computes from the
lanes of its sources. -/

namespace Sys2Proof.Machine

/-! ### Lane types (Table 07-1) -/

def vtWidth (v : Nat) : Nat :=
  match bits v 1 0 with
  | 0 => 32
  | 1 => 16
  | _ => 8
/-- 0 floating, 1 signed, 2 unsigned. -/
def vtKind (v : Nat) : Nat := bits v 3 2
def vtFmt (v : Nat) : Fmt := if bits v 1 0 = 0 then fp32 else if bit v 4 then fp16 else bf16
def vlMax (v : Nat) : Nat := 2048 / vtWidth v

/-- Lane i of a register, as raw bits (R126). -/
def lane (w i : Nat) (r : BitVec 2048) : Nat := r.toNat / 2 ^ (w * i) % 2 ^ w
/-- Write lane i. -/
def setLane (w i x : Nat) (r : BitVec 2048) : BitVec 2048 :=
  BitVec.ofNat 2048 (r.toNat - lane w i r * 2 ^ (w * i) + x % 2 ^ w * 2 ^ (w * i))
/-- Lanes 0 to n − 1. -/
def lanes (w n : Nat) (r : BitVec 2048) : List Nat := (List.range n).map (fun i => lane w i r)

/-- The value of a lane. -/
def laneVal (v b : Nat) : Val :=
  if vtKind v = 0 then (vtFmt v).decode b else Val.ofDy (Dy.ofInt (bitsInt b (vtWidth v) (vtKind v == 1)))
/-- The integer of an integer lane. -/
def laneInt (v b : Nat) : Int := bitsInt b (vtWidth v) (vtKind v == 1)
/-- encode_fp or to_int into a lane (R68). -/
def toLane (v : Nat) (x : Val) (sat : Bool) : Nat × NFlags :=
  if vtKind v = 0 then (vtFmt v).encode x sat
  else let (n, f) := toInt x (vtWidth v) (vtKind v == 1); (intBits n (vtWidth v), f)

/-! ### Arithmetic, logic, comparison (R183 to R185) -/

/-- A floating result with its one rounding. -/
def fRound (v : Nat) (sat : Bool) (r : Val × NFlags) : Nat × NFlags :=
  let (b, f) := (vtFmt v).encode r.1 sat
  (b, r.2.or f)

/-- The comparison of Table 10-3. -/
def vcmp (v sub x y : Nat) : Bool :=
  if vtKind v = 0 then
    let a := laneVal v x
    let b := laneVal v y
    match sub with
    | 0 => a.eq b
    | 1 => !a.eq b
    | 2 => a.lt b
    | 3 => a.lt b || a.eq b
    | 4 => b.lt a
    | _ => b.lt a || a.eq b
  else
    let a := laneInt v x
    let b := laneInt v y
    match sub with
    | 0 => a == b
    | 1 => a != b
    | 2 => decide (a < b)
    | 3 => decide (a ≤ b)
    | 4 => decide (b < a)
    | _ => decide (b ≤ a)

/-- One lane of a floating operation (R183). -/
def fLane (op v : Nat) (sat : Bool) (x y z : Nat) : Nat × NFlags :=
  let a := laneVal v x
  let b := laneVal v y
  let c := laneVal v z
  match op with
  | 0x81 => fRound v sat (a.add b)
  | 0x82 => fRound v sat (a.add b.negate)
  | 0x83 => fRound v sat (a.mul b)
  | 0x84 => fRound v sat (a.fma b c)
  | 0x85 => fRound v sat (a.negate.fma b c)
  | 0x86 => ((vtFmt v).encode (a.min b) false)
  | _ => ((vtFmt v).encode (a.max b) false)

/-- One lane of an integer operation (R184). -/
def iLane (op v : Nat) (x y z : Nat) : Nat × NFlags :=
  let w := vtWidth v
  let a := laneInt v x
  let b := laneInt v y
  let c := laneInt v z
  let s := y % w
  let wrapped := fun (n : Int) => ((intBits n w, {}) : Nat × NFlags)
  let clipped := fun (n : Int) => let (m, f) := clampInt n w (vtKind v == 1); ((intBits m w, f) : Nat × NFlags)
  match op with
  | 0x81 => wrapped (a + b)
  | 0x82 => wrapped (a - b)
  | 0x83 => wrapped (a * b)
  | 0x84 => wrapped (a * b + c)
  | 0x85 => wrapped (c - a * b)
  | 0x86 => wrapped (min a b)
  | 0x87 => wrapped (max a b)
  | 0x88 => clipped (a + b)
  | 0x89 => clipped (a - b)
  | 0x8A => wrapped ((a * b).fdiv (2 ^ w))
  | 0x8E => wrapped (a * 2 ^ s)
  | 0x8F => wrapped (a.fdiv (2 ^ s))
  | _ => wrapped (roundQ a (2 ^ s))

/-- One lane of an ALU instruction 0x81 to 0x92. -/
def aluLane (op sub v : Nat) (sat : Bool) (x y z : Nat) : Nat × NFlags :=
  match op with
  | 0x8B => (x &&& y, {})
  | 0x8C => (x ||| y, {})
  | 0x8D => (x ^^^ y, {})
  | 0x91 => (if vcmp v sub x y then 2 ^ vtWidth v - 1 else 0, {})
  | 0x92 => (if z ≠ 0 then x else y, {})
  | _ => if vtKind v = 0 then fLane op v sat x y z else iLane op v x y z

/-! ### Results -/

/-- What an instruction writes: lanes of a width, flags, EXA bits. -/
structure VRes where
  w : Nat
  out : List (Nat × Nat)
  fl : NFlags
  exa : Nat
  deriving DecidableEq, Repr

/-- Lane i gets the i-th of a list of results. -/
def VRes.ofList (w : Nat) (l : List (Nat × NFlags)) : VRes :=
  ⟨w, l.zipIdx.map (fun e => (e.2, e.1.1)), flagsOf (l.map Prod.snd), 0⟩

/-- Write the lanes into a register. -/
def VRes.apply (r : VRes) (old : BitVec 2048) : BitVec 2048 := r.out.foldl (fun a e => setLane r.w e.1 e.2 a) old

/-- The bit pattern of a conversion from lane type s to lane type t (R186). -/
def cvtLane (s t : Nat) (sat : Bool) (b : Nat) : Nat × NFlags := toLane t (laneVal s b) sat

/-- VCVT (R186): `hi` selects the upper half in a widening conversion. -/
def vcvt (s t vl : Nat) (sat hi : Bool) (a b : BitVec 2048) : VRes :=
  let ws := vtWidth s
  let wt := vtWidth t
  let ls := vlMax s
  if wt = 2 * ws then
    let o := if hi then ls / 2 else 0
    VRes.ofList wt ((List.range (min (ls / 2) (vl - o))).map (fun i => cvtLane s t sat (lane ws (i + o) a)))
  else if 2 * wt = ws then
    let la := (lanes ws vl a).map (cvtLane s t sat)
    let lb := (lanes ws vl b).map (cvtLane s t sat)
    ⟨wt, (la.zipIdx.map (fun e => (e.2, e.1.1))) ++ (lb.zipIdx.map (fun e => (ls + e.2, e.1.1))),
      flagsOf ((la ++ lb).map Prod.snd), 0⟩
  else VRes.ofList wt ((lanes ws vl a).map (cvtLane s t sat))

/-- One level of the tree of R187. -/
def redLevel {α : Type} (op : α → α → α × NFlags) : List α → List α × NFlags
  | a :: b :: r =>
    let (x, f) := op a b
    let (l, g) := redLevel op r
    (x :: l, f.or g)
  | l => (l, {})

/-- The tree of R187: 8 levels reduce 256 lanes. -/
def redTree {α : Type} (op : α → α → α × NFlags) : Nat → List α × NFlags → List α × NFlags
  | 0, x => x
  | n + 1, (l, f) => let (m, g) := redLevel op l; redTree op n (m, f.or g)

/-- VREDSUM, VREDMAX, VREDMIN (R187): each op acts as one VADD, VMAX or VMIN. -/
def vred (op v vl : Nat) (sat : Bool) (a : BitVec 2048) : VRes :=
  let o := if op = 0xA0 then 0x81 else if op = 0xA1 then 0x87 else 0x86
  let (l, f) := redTree (fun x y => aluLane o 0 v sat x y 0) 8 (lanes (vtWidth v) vl a, {})
  ⟨vtWidth v, [(0, l.headD 0)], f, 0⟩

/-- Is the right value the greater one for VREDARGMAX (R188)? -/
def argAbove (v x y : Nat) : Bool :=
  if vtKind v = 0 then
    let a := laneVal v x
    let b := laneVal v y
    (b.isNan && !a.isNan) || a.below b
  else decide (laneInt v x < laneInt v y)

/-- VREDARGMAX (R188); a NaN is written as the canonical one (R62). -/
def vargmax (v vl : Nat) (a : BitVec 2048) : VRes :=
  let ps := (lanes (vtWidth v) vl a).zipIdx
  let (l, _) := redTree (fun (x y : Nat × Nat) => (if argAbove v x.1 y.1 then y else x, {})) 8 (ps, {})
  let (x, i) := l.headD (0, 0)
  let x := if vtKind v = 0 && (laneVal v x).isNan then (vtFmt v).canonNan else x
  ⟨vtWidth v, [(0, x), (1, i)], {}, 0⟩

/-- VPERM (R189). -/
def vperm (v vl : Nat) (a b : BitVec 2048) : VRes :=
  let w := vtWidth v
  VRes.ofList w ((lanes w vl b).map (fun j => (if j < vlMax v then lane w j a else 0, {})))

/-- VSLIDE (R189). -/
def vslide (v vl : Nat) (k : Int) (a : BitVec 2048) : VRes :=
  let w := vtWidth v
  VRes.ofList w ((List.range vl).map (fun (i : Nat) =>
    let j := (i : Int) + k
    (if 0 ≤ j ∧ j < vl then lane w j.toNat a else 0, {})))

/-- The function of a VFN SUB code (Table 10-3). -/
def vfnOf (sub : Nat) (zs : Bool) (f : Fmt) (x : Val) : Nat × NFlags :=
  match sub with
  | 0 => vExp2 f x
  | 1 => vLog2 f x
  | 2 => vRecip f x
  | 3 => vRsqrt f x
  | 4 => vTanh f x
  | 5 => vSigmoid f x
  | _ => vGelu f zs x

/-- VFN (R190); `zs` gives the sign of gelu's open zero for a lane's encoding (log entry 13). -/
def vfn (sub v vl : Nat) (zs : Nat → Bool) (a : BitVec 2048) : VRes :=
  VRes.ofList (vtWidth v) ((lanes (vtWidth v) vl a).map (fun b => vfnOf sub (zs b) (vtFmt v) (laneVal v b)))

/-! ### Accumulator tiles (R78, R111, R133, R191) -/

/-- Element [i][j] of a tile, its 194 bits. -/
def Tile.at (t : Tile) (i j : Nat) : BitVec 194 := lk 0 t.el (16 * i + j)
/-- u of an EXA element (R75, R76). -/
def exaU (b : BitVec 194) : Int := bitsInt b.toNat 192 true
def exaOvf (b : BitVec 194) : Bool := bit b.toNat 192
def exaUnf (b : BitVec 194) : Bool := bit b.toNat 193
/-- An EXA element of u and its flags. -/
def mkExa (u : Int) (ovf unf : Bool) : BitVec 194 :=
  BitVec.ofNat 194 (intBits u 192 + 2 ^ 192 * b2n ovf + 2 ^ 193 * b2n unf)

/-- The value of a tile's element: FP32, INT32, or u·2⁻⁹⁶ (R78). -/
def Tile.val (t : Tile) (b : BitVec 194) : Val :=
  match t.tag with
  | 0 => fp32.decode (b.toNat % 2 ^ 32)
  | 1 => Val.ofDy (Dy.ofInt (bitsInt b.toNat 32 true))
  | _ => Val.ofDy ⟨exaU b, -96⟩

/-- The EXA bits of NUM_FLAGS that converting these elements sets (R78). -/
def Tile.exaBits (t : Tile) (l : List (BitVec 194)) : Nat :=
  if t.tag = 2 then Sys2Proof.Machine.exaBits (l.any exaOvf) (l.any exaUnf) else 0

/-- VACC (R133, R191). -/
def vacc (v vl row : Nat) (sat : Bool) (t : Tile) : VRes :=
  let n := min vl (16 * (16 - row))
  let es := (List.range n).map (fun i => t.at (row + i / 16) (i % 16))
  let rs := es.map (fun b => toLane v (t.val b) sat)
  { VRes.ofList (vtWidth v) rs with exa := t.exaBits es }

end Sys2Proof.Machine
end

