-- ==== Sys2Proof/Machine/MatMath.lean ====
section
/-! DEFINITION. Arithmetic of the matrix unit (R73 to R78, R107 to R111, R117, R122, R196, R202): partials, accumulation,
exact accumulation, residues. -/

namespace Sys2Proof.Machine

/-- p of Table 06-1. -/
def ElemFmt.rate (f : ElemFmt) : Nat := if f.width = 16 then 1 else if f.width = 4 then 4 else 2

/-- Is the format BF16 or FP16 (R108)? -/
def ElemFmt.is16 (f : ElemFmt) : Bool := f.width == 16

/-! ### EXA (R75 to R77) -/

/-- u, OVF, UNF. -/
structure Exa where
  u : Int
  ovf : Bool
  unf : Bool
  deriving DecidableEq, Repr

def exaClamp (u : Int) (ovf unf : Bool) : Exa :=
  if u > 2 ^ 191 - 1 then ⟨2 ^ 191 - 1, true, unf⟩
  else if u < -(2 ^ 191) then ⟨-(2 ^ 191), true, unf⟩
  else ⟨u, ovf, unf⟩

/-- exa_block of an exact sum (R76). -/
def exaBlock (s : Dy) : Exa :=
  let t : Dy := ⟨s.m, s.e + 96⟩
  let u := t.trunc
  exaClamp u false (decide ((t.sub (Dy.ofInt u)).m ≠ 0))

/-- exa_add (R76). -/
def exaAdd (a b : Exa) : Exa := exaClamp (a.u + b.u) (a.ovf || b.ovf) (a.unf || b.unf)

def Exa.ofBits (b : BitVec 194) : Exa := ⟨exaU b, exaOvf b, exaUnf b⟩
def Exa.toBits (x : Exa) : BitVec 194 := mkExa x.u x.ovf x.unf

/-! ### Partials (R73, R74, R77) -/

/-- Exact sum of the finite values of a list. -/
def sumDy (l : List Val) : Dy := l.foldl (fun a v => a.add v.dy) ⟨0, 0⟩

/-- The partial of a chunk, floating class (R74), from its products with their flags. -/
def partialF (ps : List (Val × NFlags)) : Val × NFlags :=
  let vs := ps.map Prod.fst
  let pos := vs.any (fun v => decide (v = .inf false))
  let neg := vs.any (fun v => decide (v = .inf true))
  let fl := flagsOf (ps.map Prod.snd)
  let fl := if pos && neg then { fl with nv := true } else fl
  if vs.any Val.isNan || (pos && neg) then (.nan, fl)
  else if pos then (.inf false, fl)
  else if neg then (.inf true, fl)
  else (Val.ofDy (sumDy vs), fl)

/-- The block sum of a block under EXA (R77): a NaN product contributes 0 and sets M_NV. -/
def partialX (ps : List (Val × NFlags)) : Exa × NFlags :=
  let vs := ps.map Prod.fst
  let pos := vs.any (fun v => decide (v = .inf false))
  let neg := vs.any (fun v => decide (v = .inf true))
  let nan := vs.any Val.isNan
  if pos && neg then (⟨0, false, false⟩, { nv := true })
  else if pos then (⟨2 ^ 191 - 1, true, false⟩, { nv := nan })
  else if neg then (⟨-(2 ^ 191), true, false⟩, { nv := nan })
  else (exaBlock (sumDy (vs.filter (fun v => !v.isNan))), { nv := nan })

/-- FP32 accumulation with one rounding (R73). -/
def accF (acc : Nat) (p : Val) : Nat × NFlags :=
  let (v, f) := (fp32.decode acc).add p
  let (b, g) := fp32.encode v false
  (b, f.or g)

/-- INT32 accumulation (R73). -/
def accI (acc : Nat) (p : Int) : Nat × NFlags :=
  let (n, f) := clampInt (bitsInt acc 32 true + p) 32 true
  (intBits n 32, f)

/-- One chunk into a tile element of the given tag. -/
def accChunk (tag : Nat) (acc : BitVec 194) (ps : List (Val × NFlags)) : BitVec 194 × NFlags :=
  match tag with
  | 0 =>
    let (p, f) := partialF ps
    let (b, g) := accF acc.toNat p
    (BitVec.ofNat 194 b, f.or g)
  | 1 =>
    let (b, g) := accI acc.toNat (sumDy (ps.map Prod.fst)).floor
    (BitVec.ofNat 194 b, g)
  | _ =>
    let (x, f) := partialX ps
    ((exaAdd (Exa.ofBits acc) x).toBits, f)

/-- Add a loaded element into a tile element (MLDACC with ADD, R202). -/
def accLoad (tag : Nat) (acc x : BitVec 194) : BitVec 194 × NFlags :=
  match tag with
  | 0 => let (b, g) := accF acc.toNat (fp32.decode (x.toNat % 2 ^ 32)); (BitVec.ofNat 194 b, g)
  | 1 => let (b, g) := accI acc.toNat (bitsInt x.toNat 32 true); (BitVec.ofNat 194 b, g)
  | _ => ((exaAdd (Exa.ofBits acc) (Exa.ofBits x)).toBits, {})

/-! ### Residues (R122) -/

/-- q = 2^61 − 1. -/
def ckQ : Int := 2 ^ 61 - 1
/-- ρ of an exact value. -/
def rho (d : Dy) : Nat := ((d.m * 2 ^ ((d.e % 61).toNat)) % ckQ).toNat
def addQ (a b : Nat) : Nat := ((a : Int) + b).toNat % (2 ^ 61 - 1)
def mulQ (a b : Nat) : Nat := a * b % (2 ^ 61 - 1)

end Sys2Proof.Machine
end

