-- ==== Sys2Proof/Machine/Transfer.lean ====
section
/-! DEFINITION. The transfer queue (R144, R145, R167 to R177, R431): dispatch of the eight transfer instructions,
acceptance, the movement of their bytes, completion. -/

namespace Sys2Proof.Machine

/-! ### Dispatch (R156, R167, Table 09-5) -/

def tloadHandles (w : Nat) : List Nat := if bit w 17 then [bits w 49 44] else [bits w 49 44, bits w 55 50]

def execTload (k : CoreId) (s : State) : Host.Outcome State Fault Refusal :=
  enqueue k .A 0x60 .tq tloadHandles (fun w => [bits w 43 39, bits w 38 34]) s
def execTstore (k : CoreId) (s : State) : Host.Outcome State Fault Refusal :=
  enqueue k .A 0x61 .tq (fun w => [bits w 49 44, bits w 55 50]) (fun w => [bits w 43 39, bits w 38 34]) s
def execFill (k : CoreId) (s : State) : Host.Outcome State Fault Refusal :=
  enqueue k .A 0x62 .tq (fun w => [bits w 55 50]) (fun w => [bits w 49 45]) s
def execCopy (k : CoreId) (s : State) : Host.Outcome State Fault Refusal :=
  enqueue k .A 0x63 .tq (fun w => [bits w 49 44, bits w 55 50]) (fun _ => []) s
def execMsend (k : CoreId) (s : State) : Host.Outcome State Fault Refusal :=
  enqueue k .A 0x64 .tq (fun _ => []) (fun w => [bits w 55 51, bits w 50 46]) s
def execFsend (k : CoreId) (s : State) : Host.Outcome State Fault Refusal :=
  enqueue k .A 0x65 .tq (fun _ => []) (fun w => [bits w 55 51, bits w 50 46, bits w 45 41]) s
def execCaveq (k : CoreId) (s : State) : Host.Outcome State Fault Refusal :=
  enqueue k .A 0x66 .tq (fun _ => []) (fun w => [bits w 55 51]) s
def execHostq (k : CoreId) (s : State) : Host.Outcome State Fault Refusal :=
  enqueue k .A 0x67 .tq (fun _ => []) (fun w => [bits w 55 51]) s

/-! ### Windows and moves (R169, R170) -/

/-- Presented indices of the window of cnt indices from `first` on the top dimension, dimension 0 fastest. -/
def winIdx (sizes : List Nat) (first cnt : Nat) : List (List Nat) :=
  let low := sizes.take (sizes.length - 1)
  let sz := low ++ [cnt]
  (List.range (sz.foldl (· * ·) 1)).map (fun n =>
    let p := unlin sz n
    p.take low.length ++ [first + p.getD low.length 0])

/-- The windows of an MX tensor in whole groups: the presented index of each group's first element. -/
def groupIdx (sizes : List Nat) (first cnt : Nat) : List (List Nat) :=
  match sizes with
  | [_] => (List.range (cdiv (first + cnt) 128 - first / 128)).map (fun g => [128 * (first / 128 + g)])
  | s0 :: r => (winIdx (cdiv s0 128 :: r) first cnt).map (fun p => (128 * p.getD 0 0) :: p.drop 1)
  | [] => []

/-- The address of the group that holds a presented element (R96). -/
def DescF.groupAddr (f : DescF) (p : List Nat) : Nat :=
  ((f.base : Int) + (f.offset p false).fdiv 128 * f.group).toNat

/-- One move: the bit address it reads (none: the padding value), the padding value, the bit address it writes, its
width. -/
structure Move where
  src : Option Nat
  pad : Nat
  dst : Nat
  w : Nat
  deriving DecidableEq, Repr

/-- The moves of a transfer between two tensors (R169): elements, or whole MX groups byte by byte. -/
def moves (s d : DescF) (fs fd cnt : Nat) : List Move :=
  if s.elem.isMx then
    ((groupIdx s.psizes fs cnt).zip (groupIdx d.psizes fd cnt)).flatMap (fun (a, b) =>
      (List.range s.group).map (fun j => ⟨some (8 * (s.groupAddr a + j)), 0, 8 * (d.groupAddr b + j), 8⟩))
  else
    ((winIdx s.psizes fs cnt).zip (winIdx d.psizes fd cnt)).map (fun (a, b) =>
      ⟨(s.loc a).map (fun l => l.bitAddr), s.ext.pad, (d.loc b).elim 0 (fun l => l.bitAddr), s.width⟩)

/-- The moves of a COPY, in presented order (R145). -/
def copyMoves (s d : DescF) : List Move := moves s d 0 0 (s.psizes.getD (s.pdim - 1) 0)

/-- Bit addresses and widths the bytes of a queue load come from, in presented order (R170). -/
def streamOf (s : DescF) (fs cnt : Nat) : List (Option Nat × Nat × Nat) :=
  if s.elem.isMx then
    (distinct ((groupIdx s.psizes fs cnt).map s.groupAddr)).flatMap (fun a =>
      (List.range s.group).map (fun j => (some (8 * (a + j)), 0, 8)))
  else (winIdx s.psizes fs cnt).map (fun a => ((s.loc a).map (fun l => l.bitAddr), s.ext.pad, s.width))

/-- Bytes a queue load pushes, without the padding of its last entry (R170). -/
def streamBytes (s : DescF) (fs cnt : Nat) : Nat :=
  if s.ndim = 0 then 0
  else if s.elem.isMx then (distinct ((groupIdx s.psizes fs cnt).map s.groupAddr)).length * s.group
  else s.bytesOf (cnt * ((s.psizes.take (s.pdim - 1)).foldl (· * ·) 1))

/-- The value a move carries. -/
def srcVal (rd : Nat → Byte) (src : Option Nat) (pad w : Nat) : Nat :=
  match src with
  | some b => readBits rd b w
  | none => pad % 2 ^ w

/-- Values of given widths as one little-endian bit string: (number, bits). -/
def packBits (l : List (Nat × Nat)) : Nat × Nat := l.foldl (fun (a, n) (v, w) => (a + v * 2 ^ n, n + w)) (0, 0)

/-- Byte addresses of w bits at a bit address. -/
def bitAddrs (b w : Nat) : List Nat := (List.range (cdiv (b % 8 + w) 8)).map (fun j => b / 8 + j)

/-- Bytes a completed TLOAD or TSTORE writes (R167, R431): the elements' bits, or whole groups. -/
def moveBytes (s : DescF) (fs cnt : Nat) : Nat :=
  if s.ndim = 0 then 0
  else if s.elem.isMx then (groupIdx s.psizes fs cnt).length * s.group
  else s.bytesOf (cnt * ((s.psizes.take (s.pdim - 1)).foldl (· * ·) 1))

/-! ### Acceptance -/

/-- What acceptance found: the first failing check, the amount of its credit (R431), the ranges it reads, its
destination, the kind, the descriptor copies, the bytes it reads. -/
structure TPlan where
  err : Option (Nat × List Nat)
  n : Nat
  reads : List (Nat × Nat)
  dst : Option (Nat × Nat)
  kind : JobKind
  descs : List DescF
  addrs : List Nat
  deriving DecidableEq, Repr

def QEntry.val (e : QEntry) (i : Nat) : Nat := (e.vals.getD i 0).toNat
def QEntry.hnd (e : QEntry) (i : Nat) : Cap := e.caps.getD i ⟨0, false, 0⟩
def QEntry.w (e : QEntry) : Nat := e.word.toNat

/-- The window of a TLOAD or TSTORE: first source index, first destination index, count (R169). -/
def QEntry.window (e : QEntry) (s : DescF) : Nat × Nat × Nat :=
  let fs := e.val 0 % 2 ^ 24
  let c := bits e.w 16 1
  (fs, e.val 1 % 2 ^ 24, if c = 0 then s.psizes.getD (s.pdim - 1) 0 - fs else c)

/-- Does an MX window begin and end on whole groups (R169)? -/
def mxWindowOk (f : DescF) (first cnt : Nat) : Bool :=
  decide (1 < f.pdim) || (first % 128 == 0 && ((first + cnt) % 128 == 0 || first + cnt == f.sz 0))

/-- TLOAD and TSTORE (R169, R170). A failing one is credited by the size of its source descriptor (log entry 143). -/
def planMove (c : Core) (k : Nat) (e : QEntry) (q store : Bool) : TPlan :=
  let hs := e.hnd 0
  let s := c.fields hs.h
  let d := c.fields (e.hnd 1).h
  let (fs, fd, cnt) := e.window s
  let h := hs.h
  let top := s.psizes.getD (s.pdim - 1) 0
  let sp := s.span
  let dp := d.span
  let place := if store then inOwnLs k sp.1 sp.2 && inSlices dp.1 dp.2
    else inSlices sp.1 sp.2 && inOwnLs k dp.1 dp.2
  let err := firstErr [
    c.capErr hs false,
    (if q then none else c.capErr (e.hnd 1) true),
    errIf (decide (2 ^ 24 ≤ e.val 0) || decide (2 ^ 24 ≤ e.val 1) || (q && e.val 1 ≠ 0)) 0x11 [h, 17],
    errIf (!q && !place) 0x11 [h, 18],
    errIf (decide (cnt < 1) || decide (top < fs + cnt) ||
      (!q && decide (d.psizes.getD (d.pdim - 1) 0 < fd + cnt))) 0x11 [h, 19],
    errIf (!q && s.psizes.take (s.pdim - 1) != d.psizes.take (d.pdim - 1)) 0x11 [h, 20],
    errIf (!q && s.fmt ≠ d.fmt) 0x10 [wOp e.w, 19, 0],
    errIf (s.elem.isMx && !(mxWindowOk s fs cnt && (q || mxWindowOk d fd cnt))) 0x11 [h, 21]]
  { err := err, n := if q then streamBytes s fs cnt else moveBytes s fs cnt, reads := [sp],
    dst := if !q && guarded k dp then some dp else none,
    kind := if q then .tloadQ else if store then .tstore else .tload,
    descs := [s, d],
    addrs := match err with
      | some _ => []
      | none =>
        if q then (streamOf s fs cnt).flatMap (fun x => x.1.elim [] (fun b => bitAddrs b x.2.2))
        else (moves s d fs fd cnt).flatMap (fun m => m.src.elim [] (fun b => bitAddrs b m.w)) }

/-- Does [lo, hi] lie in one slice? -/
def oneSlice (r : Nat × Nat) : Bool := inSlices r.1 r.2 && r.1 / 0x800000 == r.2 / 0x800000

/-- FILL (R144, R171). The credit of a failing FILL or COPY counts element bits also where its descriptor is an MX one (log entry
144). -/
def planFill (c : Core) (k : Nat) (e : QEntry) : TPlan :=
  let h := e.hnd 0
  let d := c.fields h.h
  let dp := d.span
  { err := firstErr [
      c.capErr h true,
      errIf (d.elem.isMx || d.xform ≠ 0) 0x10 [0x62, 20, 0],
      errIf (!(inOwnLs k dp.1 dp.2 || oneSlice dp)) 0x11 [h.h, 18]],
    n := d.bytesOf d.elems, reads := [], dst := if guarded k dp then some dp else none, kind := .fill, descs := [d],
    addrs := [] }

/-- COPY (R144, R145, R171). A failing one is credited by the size of its destination (log entry 143). -/
def planCopy (c : Core) (k : Nat) (e : QEntry) : TPlan :=
  let hs := e.hnd 0
  let hd := e.hnd 1
  let s := c.fields hs.h
  let d := c.fields hd.h
  let sp := s.span
  let dp := d.span
  let err := firstErr [
    c.capErr hs false, c.capErr hd true,
    errIf (s.elem.isMx || d.elem.isMx || s.xform ≠ 0 || d.xform ≠ 0 || s.fmt ≠ d.fmt) 0x10 [0x63, 20, 0],
    errIf (s.psizes != d.psizes) 0x11 [hs.h, 20],
    errIf (!((inOwnLs k sp.1 sp.2 && inOwnLs k dp.1 dp.2) ||
      (oneSlice sp && oneSlice dp && sp.1 / 0x800000 == dp.1 / 0x800000))) 0x11 [hs.h, 18]]
  { err := err, n := d.bytesOf d.elems, reads := [sp], dst := if guarded k dp then some dp else none, kind := .copy,
    descs := [s, d],
    addrs := if err.isSome then [] else (copyMoves s d).flatMap (fun m => m.src.elim [] (fun b => bitAddrs b m.w)) }

/-- The bytes [a, a + n) of core k's local store. -/
def lsRun (k a n : Nat) : List Nat := (List.range n).map (fun j => lsBase k + a + j)

/-- MSEND (R172, Table 09-6). -/
def planMsend (k p : Nat) (e : QEntry) : TPlan :=
  let a := e.val 0
  let b := e.val 1
  let fl := bits e.w 43 38 + 1
  let err := firstErr [
    errIf (decide (2 ^ 32 ≤ b) || (bits e.w 45 44 == 0 && bits b 31 24 ≠ 0)) 0x11 [0xFF, 17],
    errIf (a % 64 ≠ 0 || decide (2 ^ 20 < a + 64 * fl) || decide (2 ^ 14 < bits b 23 10 + fl)) 0x11 [0xFF, 22],
    errIf (decide (767 < bits b 9 0)) 0x20 [p, k, 0]]
  { err := err, n := 64 * fl, reads := [(lsBase k + a, lsBase k + a + 64 * fl - 1)], dst := none, kind := .msend,
    descs := [], addrs := if err.isSome then [] else lsRun k a (64 * fl) }

/-- FSEND (R173, R270, Table 09-7); its source run follows R172 (log entry 18). -/
def planFsend (d : Dev) (k pos : Nat) (e : QEntry) : TPlan :=
  let a := e.val 0
  let b := e.val 1
  let r := e.val 2
  let fl := bits e.w 38 33 + 1
  let port := bits r 19 16
  let att := bits r 29 20
  let err := firstErr [
    errIf (b % 64 ≠ 0 || decide (2 ^ 37 ≤ b)) 0x11 [0xFF, 17],
    errIf (decide (2 ^ 31 ≤ r) || bit r 15) 0x11 [0xFF, 17],
    errIf (!(decide (4 ≤ port) && decide (port ≤ 12))) 0x11 [0xFF, 23],
    errIf (if bit r 30 then !inSegment port pos || att ≠ 0 else !inSegment port att) 0x11 [0xFF, 23],
    errIf (bits e.w 40 39 == 1 && (d.port (port - 4)).rev == 1) 0x11 [0xFF, 24],
    errIf (a % 64 ≠ 0 || decide (2 ^ 20 < a + 64 * fl)) 0x11 [0xFF, 22]]
  { err := err, n := 64 * fl, reads := [(lsBase k + a, lsBase k + a + 64 * fl - 1)], dst := none, kind := .fsend,
    descs := [], addrs := if err.isSome then [] else lsRun k a (64 * fl) }

/-- Does the partition own a request queue (R174, R176)? kind 2 is a Cave queue, 3 a host queue. -/
def Dev.ownsQueue (d : Dev) (p kind n : Nat) : Bool :=
  (d.mouldOf p).elim false (fun m => m.syncs.any (fun e => e.kind == kind && e.part == p && e.queue == n))

/-- CAVEQ and HOSTQ (R174, R176). -/
def planRec (d : Dev) (k : Nat) (e : QEntry) (kind : JobKind) (sk : Nat) : TPlan :=
  let a := e.val 0
  let p := d.partOf k
  let err := firstErr [
    errIf (a % 32 ≠ 0 || decide (2 ^ 20 ≤ a)) 0x11 [0xFF, 22],
    errIf (!d.ownsQueue p sk (bits e.w 50 47)) 0x20 [p, k, 0]]
  { err := err, n := 0, reads := [(lsBase k + a, lsBase k + a + 31)], dst := none, kind := kind, descs := [],
    addrs := if err.isSome then [] else lsRun k a 32 }

/-- The check of the head entry. -/
def Dev.planT (d : Dev) (k : Nat) (e : QEntry) : TPlan :=
  let c := d.core k
  match wOp e.w with
  | 0x60 => planMove c k e (bit e.w 17) false
  | 0x61 => planMove c k e false true
  | 0x62 => planFill c k e
  | 0x63 => planCopy c k e
  | 0x64 => planMsend k (d.partOf k) e
  | 0x65 => planFsend d k (d.posOf k) e
  | 0x66 => planRec d k e .caveq 2
  | _ => planRec d k e .hostq 3

/-- CR and SYN of a transfer word (Table 09-5). -/
def tqSyn (w : Nat) : Option Nat :=
  match wOp w with
  | 0x60 => if bit w 18 then some (bits w 33 19) else none
  | 0x61 => if bit w 18 then some (bits w 33 19) else none
  | 0x62 => if bit w 29 then some (bits w 44 30) else none
  | 0x63 => if bit w 28 then some (bits w 43 29) else none
  | _ => none

/-- The credit of a transfer. -/
def Dev.creditOpt (d : Dev) (o : Option Nat) (n : Nat) : Dev :=
  match o with
  | some s => if n = 0 then d else d.credit s n 2
  | none => d

/-! ### Injection (R24, R27, R201) -/

/-- The first flit of a virtual channel, and the rest. -/
def takeVc (vc : Nat) : List Flit → Option (Flit × List Flit)
  | [] => none
  | f :: r => if f.vc = vc then some (f, r) else (takeVc vc r).map (fun e => (e.1, f :: e.2))

/-- A press store has sent a flit: the oldest one that still waits for the injection. -/
def Core.pressSent (c : Core) : Core :=
  match c.jobs.find? (fun j => j.kind == .mstorePress && j.wrLeft ≠ 0) with
  | some j => c.updJob j.id (fun x => { x with wrLeft := x.wrLeft - 1 })
  | none => c

/-- Does input i of a router have room on a channel: a free one of its 4 places (R27)? -/
def Net.room (n : Net) (pos i vc : Nat) : Bool := decide ((lk [] n.bufs ((6 * pos + i) * 2 + vc)).length < 4)
/-- A flit enters an input's buffer. -/
def Net.push (n : Net) (pos i vc : Nat) (f : Flit) : Net :=
  let key := (6 * pos + i) * 2 + vc
  { n with bufs := up n.bufs key (lk [] n.bufs key ++ [f]) }

/-- Input L of core k's router takes flits of a channel while it has room: TQ's before a press store's (R201). -/
def Dev.feedL (d : Dev) (k vc : Nat) : Nat → Dev
  | 0 => d
  | n + 1 =>
    let pos := d.posOf k
    if !d.net.room pos 0 vc then d
    else
      match takeVc vc (lk [] d.net.inj k) with
      | some (f, r) => ({ d with net := { d.net with inj := up d.net.inj k r }.push pos 0 vc f }).feedL k vc n
      | none =>
        match takeVc vc (lk [] d.net.injM k) with
        | some (f, r) =>
          let d := { d with net := { d.net with injM := up d.net.injM k r }.push pos 0 vc f }
          (if f.amount.isSome then d else d.updCore k Core.pressSent).feedL k vc n
        | none => d

/-- What waits at core k's injection enters input L as far as there is room. -/
def Dev.feed (d : Dev) (k : Nat) : Dev := (d.feedL k 0 4).feedL k 1 4

/-- Put TQ's flits into core k's injection (R24, R25). -/
def Dev.inject (d : Dev) (k : Nat) (l : List Flit) : Dev :=
  ({ d with net := { d.net with inj := up d.net.inj k (lk [] d.net.inj k ++ l) } }).feed k
/-- Put a press store's flits into it (R200, R201). -/
def Dev.injectM (d : Dev) (k : Nat) (l : List Flit) : Dev :=
  ({ d with net := { d.net with injM := up d.net.injM k (lk [] d.net.injM k ++ l) } }).feed k

/-- The header of an MSEND (R172): ladle messages carry the sender's own position. -/
def msendHdr (d : Dev) (k : Nat) (w b flits : Nat) : BitVec 64 :=
  let kind := bits w 45 44
  mkHdr (d.partOf k) 0 kind (if kind = 1 then d.posOf k else d.posOf (bits b 9 0)) 0 (if kind = 0 then 0 else bits b 31 24)
    (bits w 37 23) (bits b 23 10) (flits - 1)

/-- The flits of a payload. -/
def mkFlits (hdr : BitVec 64) (k : Nat) (credit : Bool) (fab : Option FabPkt) (data : List (BitVec 512)) : List Flit :=
  data.zipIdx.map (fun e =>
    { hdr := hdr, idx := e.2, data := e.1, src := k, credit := credit, amount := none, fab := fab })

/-- What an FSEND's packet carries (R173). -/
def fsendFab (d : Dev) (k : Nat) (e : QEntry) : FabPkt :=
  { addr := e.val 1 % 2 ^ 40, cls := bits e.w 40 39, fpid := d.fpidOf (d.partOf k), syn := bits (e.val 2) 14 0 }

/-- Send an FSEND's flits on its route: the direct lane into the unit, or the mesh to the attach point. -/
def Dev.sendRoute (d : Dev) (k : Nat) (e : QEntry) (mk : BitVec 64 → List Flit) (flits : Nat) : Dev :=
  let r := e.val 2
  let port := bits r 19 16
  let direct := bit r 30
  let hdr := mkHdr (d.partOf k) 0 0 (if direct then d.posOf k else bits r 29 20) port 0 (bits r 14 0) 0 (flits - 1)
  if direct then { d with net := { d.net with unitIn := up d.net.unitIn port (lk [] d.net.unitIn port ++ mk hdr) } }
  else d.inject k (mk hdr)

/-- The credit of a failed transfer (R168, R431): a local object at once, a remote one in a header-only packet. A
destination above 767 has nothing to credit, and an FSEND whose route is no route sends nothing. -/
def Dev.failCredit (d : Dev) (k : Nat) (e : QEntry) (p : TPlan) : Dev :=
  match p.kind with
  | .msend =>
    if 767 < bits (e.val 1) 9 0 then d
    else d.inject k [{ hdr := msendHdr d k e.w (e.val 1) 1, idx := 0, data := 0, src := k, credit := true,
                       amount := some p.n, fab := none }]
  | .fsend =>
    let r := e.val 2
    let port := bits r 19 16
    if 4 ≤ port ∧ port ≤ 12 ∧ (if bit r 30 then inSegment port (d.posOf k) else inSegment port (bits r 29 20)) then
      d.sendRoute k e (fun hdr => [{ hdr := hdr, idx := 0, data := 0, src := k, credit := true, amount := some p.n,
                                     fab := some (fsendFab d k e) }]) 1
    else d
  | _ => d.creditOpt (tqSyn e.w) p.n

/-- Do source and destination of a COPY overlap, so that it goes element by element (R145)? -/
def Job.elementwise (j : Job) : Bool :=
  j.kind == .copy && overlap (j.descs.getD 0 DescF.zero).span (j.descs.getD 1 DescF.zero).span

/-- The bytes a job writes once its reads are in. -/
def Job.stores (j : Job) : List MByte :=
  let s := j.descs.getD 0 DescF.zero
  let d := j.descs.getD 1 DescF.zero
  match j.kind with
  | .copy => (copyMoves s d).flatMap (fun m => writeBits m.dst m.w (srcVal j.rd m.src m.pad m.w))
  | .fill =>
    (winIdx s.psizes 0 (s.psizes.getD (s.pdim - 1) 0)).flatMap (fun p =>
      (s.loc p).elim [] (fun l => writeBits l.bitAddr s.width (j.ent.val 0)))
  | _ =>
    let (fs, fd, cnt) := j.ent.window s
    (moves s d fs fd cnt).flatMap (fun m => writeBits m.dst m.w (srcVal j.rd m.src m.pad m.w))

/-- The bytes a queue load pushes (R170), padded with zeros to whole entries. -/
def Job.stream (j : Job) : List Byte :=
  let s := j.descs.getD 0 DescF.zero
  let (fs, _, cnt) := j.ent.window s
  let (v, n) := packBits ((streamOf s fs cnt).map (fun x => (srcVal j.rd x.1 x.2.1 x.2.2, x.2.2)))
  natLe v (64 * cdiv (cdiv n 8) 64)

/-- A line of 64 B from a job's reads. -/
def Job.line (j : Job) (a : Nat) : BitVec 512 := BitVec.ofNat 512 (leNat ((List.range 64).map (fun i => j.rd (a + i))))

/-- A board address with bits [36:34] 0 (R235). -/
def boardNoSlot (a : Nat) : Nat := a / 2 ^ 37 * 2 ^ 37 + a % 2 ^ 34

/-- An overlapping COPY goes on (R145): it reads its next element, or writes the one it has read; the read of the next element is
asked for once that write has landed. With the last element the source range is free (R151). -/
def Dev.copyStep (d : Dev) (k : Nat) (j : Job) : Dev :=
  let ms := copyMoves (j.descs.getD 0 DescF.zero) (j.descs.getD 1 DescF.zero)
  match ms[j.elem]? with
  | none => d
  | some m =>
    if j.wrLeft ≠ 0 then d
    else if j.got = [] then d.issueReads k j.id .fillCopy 4 (m.src.elim [] (fun b => bitAddrs b m.w))
    else
      let last := decide (ms.length ≤ j.elem + 1)
      let d := d.updCore k (fun c => { c with fgr := if last then c.fgr.filter (fun g => g.job ≠ j.id) else c.fgr }.updJob j.id
        (fun x => { x with got := [], elem := x.elem + 1 }))
      d.issueStores k j.id .fillCopy 4 last [writeBits m.dst m.w (srcVal j.rd m.src m.pad m.w)]

/-- Once a job's last read is in: its source ranges are free (R151) and what follows from its data leaves. -/
def Dev.issueJob (d : Dev) (k id : Nat) : Dev :=
  let c := d.core k
  match c.jobs.find? (fun j => j.id == id) with
  | none => d
  | some j =>
    if j.rdLeft ≠ 0 || j.issued then d
    else if j.elementwise then d.copyStep k j
    else
      let d := d.setCore k ({ c with fgr := c.fgr.filter (fun g => g.job ≠ id) }.updJob id (fun j => { j with issued := true }))
      let e := j.ent
      match j.kind with
      | .tload => d.issueStores k id .sliceReturn 2 true [j.stores]
      | .tstore => d.issueStores k id .tqRead 2 true [j.stores]
      | .fill => d.issueStores k id .fillCopy 4 true [j.stores]
      | .copy => d.issueStores k id .fillCopy 4 true [j.stores]
      | .tloadQ => d.updCore k (fun c => c.updJob id (fun j => { j with owed := j.stream }))
      | .msend =>
        let fl := bits e.w 43 38 + 1
        let data := (List.range fl).map (fun i => j.line (lsBase k + e.val 0 + 64 * i))
        d.inject k (mkFlits (msendHdr d k e.w (e.val 1) fl) k true none data)
      | .fsend =>
        let fl := bits e.w 38 33 + 1
        let data := (List.range fl).map (fun i => j.line (lsBase k + e.val 0 + 64 * i))
        let a := boardNoSlot (e.val 1)
        (d.digestAdd k (data.zipIdx.map (fun x => (a + 64 * x.2, natLe x.1.toNat 64)))).sendRoute k e
          (fun hdr => mkFlits hdr k true (some (fsendFab d k e)) data) fl
      | _ => d

/-! ### Request records on the mesh (R167, R174, R176) -/

/-- The records of a Cave queue (host: of a host queue) n, those on their way to it included: at most 32. -/
def Dev.recCount (d : Dev) (host : Bool) (n : Nat) : Nat :=
  (lk [] (if host then d.hostQ else d.caveQ) n).length + lk 0 d.net.recFly (if host then 16 + n else n)

/-- Where a record of core k leaves the mesh into the Cave controller or the PCIe controller: the attach point of a route its
partition declares to that unit; without one the attach point nearest the core (log entry 137). -/
def Dev.recAttach (d : Dev) (k unit : Nat) : Nat :=
  let p := d.partOf k
  (d.net.routes.find? (fun r => r.part == p && r.unit == unit)).elim (entryPoint unit (d.posOf k)) (fun r => r.attach)

/-- Send a record on the service channel VC1 (R167). -/
def Dev.sendRec (d : Dev) (k : Nat) (host : Bool) (n off : Nat) (bs : List Byte) : Dev :=
  let unit := if host then 1 else 3
  let key := if host then 16 + n else n
  let f : Flit := { hdr := mkHdr (d.partOf k) 1 0 (d.recAttach k unit) unit 0 0 0 0, idx := 0,
                    data := BitVec.ofNat 512 (leNat bs), src := k, credit := false, amount := none, fab := none,
                    rec_ := some (host, n, off) }
  ({ d with net := { d.net with recFly := up d.net.recFly key (lk 0 d.net.recFly key + 1) } }).inject k [f]

/-- Is a transfer held by a full queue: its bytes wait for a data queue, or its record for a request queue (R170,
R174, R176)? It holds TQ. -/
def Dev.tqHeld (d : Dev) (c : Core) : Bool :=
  c.jobs.any (fun j =>
    match j.kind with
    | .tloadQ => j.issued && !j.owed.isEmpty && decide (16 ≤ (lk [] c.dq (bits j.ent.w 52 50)).length)
    | .caveq => j.issued && decide (32 ≤ d.recCount false (bits j.ent.w 50 47))
    | .hostq => j.issued && decide (32 ≤ d.recCount true (bits j.ent.w 50 47))
    | _ => false)

/-- Raise what a failing check found. -/
def Dev.raiseFail (d : Dev) (k : Nat) (x : Nat × List Nat) : Dev := d.raiseStep k x.1 x.2

/-- TQ_ACCEPT (R167, R168): the head entry is checked; a failing one ends at once with its credit (R431), one that the
fill guard withholds waits, any other becomes a job whose reads are issued. -/
def execTqAccept (k : CoreId) (s : State) : Host.Outcome State Fault Refusal :=
  lift (fun d =>
    let c := d.core k
    match c.tq with
    | [] => d
    | e :: _ =>
      if !d.clocked k || d.tqHeld c then d
      else
        let p := d.planT k e
        match p.err with
        | some x => ((d.setCore k (c.dropHead .tq)).raiseFail k x).failCredit k e p
        | none =>
          if c.guardHold p.reads p.dst then d
          else
            let j := { Job.new c.newJob .tq p.kind e with descs := p.descs }
            let d := d.setCore k (c.startJob j p.reads p.dst)
            (if j.elementwise then d
             else d.issueReads k j.id (if p.kind = .copy then .fillCopy else .tqRead) (if p.kind = .copy then 4 else 2)
               p.addrs).issueJob k j.id) s

/-- Push as many of the bytes a queue load owes as its data queue takes (R49, R170). -/
def pushOwed (c : Core) (id n : Nat) : Nat → List Byte → Core
  | 0, b => c.updJob id (fun j => { j with owed := b })
  | f + 1, b =>
    if b.isEmpty || decide (16 ≤ (lk [] c.dq n).length) then c.updJob id (fun j => { j with owed := b })
    else pushOwed { c with dq := up c.dq n (lk [] c.dq n ++ [BitVec.ofNat 512 (leNat (b.take 64))]) } id n f (b.drop 64)

/-- The 32 B of a request record (Tables 09-8, 09-9). -/
def Job.record (j : Job) (k : Nat) : List Byte := (List.range 32).map (fun i => j.rd (lsBase k + j.ent.val 0 + i))

/-- TRANSFER_COMPLETE (R167): the i-th job in flight, if it is a transfer whose last byte has landed, releases its
fill-guard entry and gives its credit. A queue load pushes what its queue takes and completes with the last entry; loads
of one queue push in their order of acceptance. A record leaves for its request queue when there is room. -/
def execTransferComplete (k : CoreId) (i : Nat) (s : State) : Host.Outcome State Fault Refusal :=
  lift (fun d =>
    let c := d.core k
    match c.jobs[i]? with
    | none => d
    | some j =>
      if j.eng ≠ .tq || !j.issued || j.rdLeft ≠ 0 || j.wrLeft ≠ 0 || j.lost then d
      else
        let w := j.ent.w
        match j.kind with
        | .tloadQ =>
          let q := bits w 52 50
          if (c.jobs.take i).any (fun x => x.kind == .tloadQ && bits x.ent.w 52 50 == q) then d
          else
            let c' := pushOwed c j.id q (j.owed.length / 64 + 1) j.owed
            if (c'.jobs.any (fun x => x.id == j.id && !x.owed.isEmpty)) then d.setCore k c'
            else
              let s := j.descs.getD 0 DescF.zero
              let (fs, _, cnt) := j.ent.window s
              (d.setCore k (c'.endJob j.id)).creditOpt (tqSyn w) (streamBytes s fs cnt)
        | .caveq =>
          let n := bits w 50 47
          if 32 ≤ d.recCount false n then d
          else (d.setCore k (c.endJob j.id)).sendRec k false n (j.ent.val 0) (j.record k)
        | .hostq =>
          let n := bits w 50 47
          if 32 ≤ d.recCount true n then d
          else (d.setCore k (c.endJob j.id)).sendRec k true n (j.ent.val 0) (j.record k)
        | .fill =>
          let x := j.descs.getD 0 DescF.zero
          (d.setCore k (c.endJob j.id)).creditOpt (tqSyn w) (x.bytesOf x.elems)
        | .copy =>
          let x := j.descs.getD 1 DescF.zero
          (d.setCore k (c.endJob j.id)).creditOpt (tqSyn w) (x.bytesOf x.elems)
        | _ =>
          let s := j.descs.getD 0 DescF.zero
          let (fs, _, cnt) := j.ent.window s
          (d.setCore k (c.endJob j.id)).creditOpt (tqSyn w) (moveBytes s fs cnt)) s

end Sys2Proof.Machine
end

