-- ==== Sys2Proof/Machine/Network.lean ====
section
/-! DEFINITION. The message mesh (R21, R24 to R39): forwarding by the routers, ladle and press trees, delivery. -/

namespace Sys2Proof.Machine

/-! ### Where a flit waits -/

/-- The flits in the buffer of input i of router pos on one virtual channel (R27). A flit behind another of the same input and
channel waits for it. -/
def Dev.inQ (d : Dev) (pos i vc : Nat) : List Flit := lk [] d.net.bufs ((6 * pos + i) * 2 + vc)

/-- Input P of a router takes flits that a unit sends into the grid while it has room. -/
def Net.feedP (n : Net) (pos vc : Nat) : Nat → Net
  | 0 => n
  | m + 1 =>
    if !n.room pos 5 vc then n
    else
      match takeVc vc (lk [] n.injP pos) with
      | some (f, r) => ({ n with injP := up n.injP pos r }.push pos 5 vc f).feedP pos vc m
      | none => n

/-- A unit sends flits into the grid at a position (R23). -/
def Net.fromUnit (n : Net) (pos : Nat) (l : List Flit) : Net :=
  (({ n with injP := up n.injP pos (lk [] n.injP pos ++ l) }).feedP pos 0 4).feedP pos 1 4

/-- Remove the flit at the head of an input; what waits for that input's place enters. -/
def Dev.popIn (d : Dev) (pos i vc : Nat) : Dev :=
  let key := (6 * pos + i) * 2 + vc
  let d := { d with net := { d.net with bufs := up d.net.bufs key ((lk [] d.net.bufs key).drop 1) } }
  match i with
  | 0 => (d.coreAt pos).elim d (fun k => d.feed k)
  | 5 => { d with net := d.net.feedP pos vc 4 }
  | _ => d

/-- The tree entry of a router (R28). -/
def Dev.treeAt (d : Dev) (pos tree : Nat) : Option TreeEntry :=
  d.net.trees.find? (fun e => e.pos == pos && e.tree == tree)

/-- Outputs of a mask, lowest first. -/
def maskOuts (m : Nat) : List Nat := (List.range 6).filter (fun o => bit m o)

/-- The output dimension order gives a flit: P at the attach point of a unit's packet, else L (R23, R25). -/
def Flit.dor (f : Flit) (pos : Nat) : Nat :=
  if pos = f.dest then (if f.port = 0 then 0 else 5) else dorOut pos f.dest

/-- Outputs a flit takes at a router from input i (R25, R29, R31). A ladle or press flit of a tree without an entry here,
and a header-only packet of a press tree, follow dimension order (log entry 19). -/
def Dev.outs (d : Dev) (pos i : Nat) (f : Flit) : List Nat :=
  match f.kind, d.treeAt pos f.tree with
  | 1, some e => if e.press then [f.dor pos] else (maskOuts e.outMask.toNat).filter (fun o => o ≠ i)
  | 2, some e => if e.press && f.amount.isNone then maskOuts e.outMask.toNat else [f.dor pos]
  | _, _ => [f.dor pos]

/-- Does the flit enter a press node at this router (R31)? -/
def Dev.intoNode (d : Dev) (pos : Nat) (f : Flit) : Bool :=
  f.kind == 2 && f.amount.isNone && (d.treeAt pos f.tree).any (fun e => e.press)

/-! ### Credits and gating -/

/-- Regions of partition p. -/
def Dev.regionsOf (d : Dev) (p : Nat) : List Nat := (List.range 52).filter (fun r => lk 16 d.net.regOwner r == p)

/-- Is a region awake, its clocks running? -/
def Dev.regionRuns (d : Dev) (r : Nat) : Bool := decide (lk .run d.clk.sleep r = .run)

/-- Positions of a list of regions. -/
def positionsOf (rs : List Nat) : List Nat := (List.range 832).filter (fun p => rs.contains (regionOf p))

/-- Does the region's network plane run (R21, R378)? It stops for a slip, and while the region sleeps unless a partition
whose routes pass through it is awake: a route passes the regions of its boundary inputs, of its attach point and of the points at
which its unit's traffic enters. -/
def Dev.planeOn (d : Dev) (r : Nat) : Bool :=
  !d.clk.gated.contains r &&
  (d.regionRuns r || d.net.routes.any (fun t =>
    let rs := d.regionsOf t.part
    rs.any d.regionRuns &&
    (regionOf t.attach == r || (positionsOf rs).any (fun c => regionOf (entryPoint t.unit c) == r) ||
     (routeInputs (positionsOf rs) t).any (fun e => regionOf e.1 == r))))

/-- Would the packet be dropped at a boundary input (R37, R38)? Management packets on VC1 are admitted everywhere. -/
def Dev.barred (d : Dev) (src pos i : Nat) (f : Flit) : Bool :=
  crosses src pos && !(f.kind == 3 && f.vc == 1) && !bit (lk (0 : BitVec 16) d.net.masks (6 * pos + i)).toNat f.ptag

/-- Does the flit hold a credit for output o: a free slot of the 4 in the buffer behind it (R27)? A flit that the input
behind drops needs none; L and P always take. -/
def Dev.hasCredit (d : Dev) (pos o : Nat) (f : Flit) : Bool :=
  match neighbour pos o with
  | none => true
  | some n =>
    d.barred pos n (inputAt o) f ||
    (d.planeOn (regionOf n) && d.net.room n (inputAt o) f.vc)

/-! ### Drops (R38) -/

/-- A packet or access with tag t dropped at a position: counted and recorded once a packet, on its first flit. -/
def Dev.tagDrop (d : Dev) (t src pos source : Nat) : Dev :=
  let d := { d with net := { d.net with drop := up d.net.drop t (satAdd (lk (0 : BitVec 32) d.net.drop t) 1) } }
  d.raise { code := 0x20, cls := 2, source := source, core := src, pmask := pmaskOf t, fpid := d.fpidOf t,
            detail := [t, src, pos] }

/-- A request record is no longer on its way to its queue. -/
def Net.recGone (n : Net) (f : Flit) : Net :=
  match f.rec_ with
  | some (host, q, _) =>
    let key := if host then 16 + q else q
    { n with recFly := up n.recFly key (lk 0 n.recFly key - 1) }
  | none => n

/-- Drop a flit; only a packet's first flit is recorded. -/
def Dev.dropFlit (d : Dev) (f : Flit) (pos : Nat) : Dev :=
  let d := { d with net := d.net.recGone f }
  if f.idx = 0 then d.tagDrop f.ptag f.src pos 13 else d

/-! ### Leaving through an output -/

/-- The unit behind output P of a router: the one a unit's packet names. A ladle or press flit names none, and at a corner two units
stand behind P: it is the one of the lower code (log entry 136). -/
def unitAt (pos : Nat) (f : Flit) : Nat :=
  if f.port ≠ 0 then f.port else ((List.range 13).find? (fun c => inSegment c pos)).getD 0

/-- A flit reaches a port unit: a request record enters its queue (R174, R176), any other waits at the unit. -/
def Dev.intoUnit (d : Dev) (pos : Nat) (f : Flit) : Dev :=
  match f.rec_ with
  | some (host, n, off) =>
    let r : ReqRec := { core := f.src, off := off, data := natLe f.data.toNat 32, part := f.ptag }
    let d := { d with net := d.net.recGone f }
    if host then { d with hostQ := up d.hostQ n (lk [] d.hostQ n ++ [r]) }
    else { d with caveQ := up d.caveQ n (lk [] d.caveQ n ++ [r]) }
  | none =>
    let u := unitAt pos f
    { d with net := { d.net with unitIn := up d.net.unitIn u (lk [] d.net.unitIn u ++ [f]) } }

/-- Move a flit out of a router: to the core, to the unit, to the neighbour's buffer, or to its drop there. -/
def Dev.leave (d : Dev) (pos o : Nat) (f : Flit) : Dev :=
  match o with
  | 0 => { d with net := { d.net with eject := up d.net.eject pos (lk [] d.net.eject pos ++ [f]) } }
  | 5 => d.intoUnit pos f
  | _ =>
    match neighbour pos o with
    | none => d
    | some n =>
      if d.barred pos n (inputAt o) f then d.dropFlit f n else { d with net := d.net.push n (inputAt o) f.vc f }

/-! ### Press nodes (R31 to R33) -/

/-- The node of a tree at a router, if it holds flits or flits are still to be dropped. -/
def Dev.nodeAt (d : Dev) (pos tree : Nat) : PressNode :=
  (d.net.nodes.find? (fun n => n.pos == pos && n.tree == tree)).getD ⟨pos, tree, [], 0, []⟩
def Dev.setNode (d : Dev) (n : PressNode) : Dev :=
  let rest := d.net.nodes.filter (fun m => !(m.pos == n.pos && m.tree == n.tree))
  { d with net := { d.net with
      nodes := if n.waiting.isEmpty && n.next == 0 && n.skip.all (fun e => e.2 == 0) then rest else rest ++ [n] } }

/-- PRESS_COUNT (R33). -/
def Dev.pressCount (d : Dev) (tree pos i : Nat) (f : Flit) : Dev :=
  d.raise { code := 0x21, cls := 1, source := 13, core := f.src, pmask := pmaskOf f.ptag, fpid := d.fpidOf f.ptag,
            detail := [tree, pos, i] }

/-- Can the node take a flit from input i: an input it drops from, or one that has none waiting, and no more than 8 trees
at the router (R33)? -/
def Dev.nodeTakes (d : Dev) (pos i : Nat) (f : Flit) : Bool :=
  let n := d.nodeAt pos f.tree
  let known := d.net.nodes.any (fun m => m.pos == pos && m.tree == f.tree)
  let rounds := (d.net.nodes.filter (fun m => m.pos == pos)).length
  !(d.treeAt pos f.tree).any (fun e => bit e.inMask.toNat i) || decide (0 < lk 0 n.skip i) ||
  (!n.waiting.any (fun w => w.1 == i) && (known || decide (rounds < 8)))

/-- A press flit enters its node from input i (R31, R33). -/
def Dev.enterNode (d : Dev) (pos i : Nat) (f : Flit) : Dev :=
  let n := d.nodeAt pos f.tree
  if !(d.treeAt pos f.tree).any (fun e => bit e.inMask.toNat i) then d.pressCount f.tree pos i f
  else if 0 < lk 0 n.skip i then d.setNode { n with skip := up n.skip i (lk 0 n.skip i - 1) }
  else d.setNode { n with waiting := n.waiting ++ [(i, f)] }

/-- FP32 sum of flits in port order, lane by lane (R31). -/
def pressFp32 (l : List (BitVec 512)) : BitVec 512 :=
  BitVec.ofNat 512 (packBits ((List.range 16).map (fun n =>
    let xs := l.map (fun f => fp32.decode (f.toNat / 2 ^ (32 * n) % 2 ^ 32))
    let v := match xs with
      | [] => .fin false 0 0
      | x :: r => r.foldl (fun a y => fp32.decode (fp32.encode (a.add y).1 false).1) x
    ((fp32.encode v false).1, 32)))).1

/-- EXA sum of flits, slot by slot (R31, R32, R76). -/
def pressExa (l : List (BitVec 512)) : BitVec 512 :=
  BitVec.ofNat 512 (packBits ((List.range 2).map (fun n =>
    let xs := l.map (fun f => Exa.ofBits (BitVec.ofNat 194 (f.toNat / 2 ^ (256 * n) % 2 ^ 194)))
    let v := match xs with
      | [] => (⟨0, false, false⟩ : Exa)
      | x :: r => r.foldl exaAdd x
    (v.toBits.toNat, 256)))).1

/-- PRESS_NODE_REDUCE (R31, R33): with a flit waiting from every input of IN_MASK the node sends their sum on its one
output, when that holds a credit; if the first flits of a round carry different FLITS values the round is abandoned. -/
def execPressNodeReduce (p : Pos) (tree : BitVec 8) (s : State) : Host.Outcome State Fault Refusal :=
  lift (fun d =>
    match d.treeAt p tree.toNat with
    | none => d
    | some e =>
      let n := d.nodeAt p tree.toNat
      let ins := maskOuts e.inMask.toNat
      let fs := ins.filterMap (fun i => (n.waiting.find? (fun w => w.1 == i)).map (fun w => (i, w.2)))
      if !e.press || ins.isEmpty || fs.length ≠ ins.length || !d.planeOn (regionOf p) then d
      else
        match fs with
        | [] => d
        | (_, f0) :: r =>
          match (if f0.idx = 0 then r.find? (fun x => x.2.flits ≠ f0.flits) else none) with
          | some (i, f) =>
            let skip := fs.foldl (fun m x => up m x.1 (lk 0 m x.1 + x.2.flits - 1)) n.skip
            (d.setNode { n with waiting := [], next := 0, skip := skip }).pressCount tree.toNat p i f
          | none =>
            let ds := fs.map (fun x => x.2.data)
            let g := { f0 with data := if e.exa then pressExa ds else pressFp32 ds }
            let o := (maskOuts e.outMask.toNat).headD 0
            if d.hasCredit p o g then
              (d.setNode { n with waiting := [], next := if f0.idx + 1 = f0.flits then 0 else f0.idx + 1 }).leave p o g
            else d) s

/-! ### Forwarding -/

/-- The flit at the head of input i on a channel, if it can go through output o: every output it takes has a credit
(R27, R29), or its node takes it. -/
def Dev.ready (d : Dev) (pos o vc i : Nat) : Option Flit :=
  match d.inQ pos i vc with
  | [] => none
  | f :: _ =>
    let os := d.outs pos i f
    if !(os.contains o || (os.isEmpty && o == 0)) then none
    else if d.intoNode pos f then (if d.nodeTakes pos i f then some f else none)
    else if os.all (fun x => d.hasCredit pos x f) then some f else none

/-- The input an output serves next on a channel: the first after the output's pointer among those with a flit ready (R27). -/
def Dev.pickIn (d : Dev) (pos o vc : Nat) : Option (Nat × Flit) :=
  let last := lk 5 d.net.rr (6 * pos + o)
  ((List.range 6).map (fun n => (last + 1 + n) % 6)).findSome? (fun i => (d.ready pos o vc i).map (fun f => (i, f)))

/-- ROUTER_FLIT_FORWARD (R27, R29, R31, R38): VC0 before VC1 among flits able to go. A flit that enters a press node uses no output,
and the sum a node sends comes from no input: neither moves a pointer. -/
def execRouterFlitForward (p : Pos) (o : Fin 6) (s : State) : Host.Outcome State Fault Refusal :=
  lift (fun d =>
    if !d.planeOn (regionOf p) then d
    else
      match (match d.pickIn p o 0 with
        | some x => some (0, x)
        | none => (d.pickIn p o 1).map (fun x => (1, x))) with
      | none => d
      | some (vc, i, f) =>
        let os := d.outs p i f
        let d1 := d.popIn p i vc
        if d.intoNode p f then d1.enterNode p i f
        else
          let rr := os.foldl (fun m x => up m (6 * p + x) i) d1.net.rr
          os.foldl (fun d x => d.leave p x f) { d1 with net := { d1.net with rr := rr } }) s

/-- MESH_FLIT_DELIVER (R25, R38, R142, R168): the oldest flit ejected at a position is written at its core and credits 64 B; a
header-only packet writes nothing and credits its amount; a packet of another partition is dropped. -/
def execMeshFlitDeliver (p : Pos) (s : State) : Host.Outcome State Fault Refusal :=
  liftW (fun _ _ d =>
    match lk [] d.net.eject p with
    | [] => (d, [])
    | f :: r =>
      let d1 := { d with net := { d.net with eject := up d.net.eject p r } }
      match d.coreAt p with
      | none => (d1.dropFlit f p, [])
      | some k =>
        if d.partOf k ≠ f.ptag then (d1.dropFlit f p, [])
        else if !d.clocked k then (d, [])
        else
          let src := 0x10000 + f.src
          match f.amount with
          | some n => (d1.creditIf (f.credit && n ≠ 0) f.syn n src, [])
          | none =>
            let line := (f.lsaddr + f.idx) % 2 ^ 14
            let bs := wholeBytes (lsBase k + 64 * line) (natLe f.data.toNat 64)
            (((d1.eccWrite bs k).updCore k (fun c => c.lsToken .meshEject true line)).creditIf f.credit f.syn 64 src,
             wrBytes (lsBase k + 64 * line) (natLe f.data.toNat 64))) s

end Sys2Proof.Machine
end

