-- ==== Sys2Proof/Machine/Steps.lean ====
section
/-! DEFINITION. Steps and their boundaries, deadline monitors, lock-step comparison (R219 to R221, R230 to R237). -/

namespace Sys2Proof.Machine

/-! ### When a boundary is taken (R219, R220) -/

/-- The nominal boundary of step s: tick T0 + s·STEP_PERIOD (R219). -/
def PartTime.nominal (t : PartTime) (s : Nat) : Nat := (t.t0 + BitVec.ofNat 64 (s * t.period.toNat)).toNat

def Seq.waits (x : Seq) (fresh : Bool) : Bool :=
  match x.st with
  | .stepWait => true
  | .idle => fresh
  | _ => false

/-- Is a core ready for a boundary: its sequencers in STEP_WAIT, or in IDLE before the first boundary after a load or a
restart, and no register-file BIST running or due (R220, R136)? -/
def Core.readyFor (c : Core) (fresh : Bool) : Bool :=
  c.a.waits fresh && c.e.waits fresh && c.vec.bist.isNone && (fresh || c.vec.mode ≠ 3 || c.vec.passed)

/-- Every core of partition p is ready. -/
def Dev.partReady (d : Dev) (p : Nat) (fresh : Bool) : Bool :=
  d.cores.all (fun e => d.partOf e.1 != p || e.2.readyFor fresh)

/-- Do both conditions of R220 hold for the boundary that partition p takes next? A region that still wakes holds it
(R389), and an error stops it for good. -/
def Dev.boundaryDue (d : Dev) (p : Nat) (m : Mould) : Bool :=
  let t := d.part p
  (m.phase == 5 || m.phase == 6) && m.t0 != 0 && !t.dead && decide (t.nominal t.next ≤ d.turn.now.toNat ∧ t.earliest ≤ d.turn.now.toNat) &&
  d.partReady p (t.next == 0 || t.restartAt.isSome) && (d.regionsOf p).all d.regionRuns

/-- Records that wait for room in a token ring of the partition (R325). -/
def Dev.ringHeld (d : Dev) (low : Nat) : Bool :=
  (List.range 4).any (fun f => (d.func f).left.isNone && (d.func f).ctxs.any (fun e => e.2.part == low && !e.2.backlog.isEmpty))

/-- The comparison the boundary waits for: step S + LAG + 1 waits for step S (R236). -/
def PartTime.lockOk (t : PartTime) : Bool :=
  match t.lock with
  | none => true
  | some l => decide (t.next < l.lag + 1) || l.compared.contains (t.next - l.lag - 1)

/-- The further conditions of a boundary: GO of the step before (R286), PLAN of this step in place (R312), room in the
token rings (R325), the lock-step comparison (R236), no STEP-class error to be rerun (R401), no failover running (R287). -/
def Dev.boundaryGates (d : Dev) (p : Nat) (m : Mould) : Bool :=
  let t := d.part p
  let n := t.next
  (!m.replica || n == 0 || decide (n ≤ m.go)) &&
  (match m.serve with
   | none => true
   | some sv => sv.planIn == n + 1 && !(m.self == 0 && d.ringHeld (lowPart m.pmask))) &&
  t.lockOk && !(m.replica && d.errs.stepErrs.any (fun e => bit m.pmask e.1)) && m.failover.isNone

/-- Does a hold stop the partition before this boundary (R288)? -/
def Mould.heldAt (m : Mould) (n : Nat) : Bool := m.hold.any (fun h => decide (h.step ≤ n))

/-- Does the break stop it: at the boundary PT_BREAK names, and then until EN is cleared or a larger STEP is written (R221)? -/
def PartTime.breakAt (t : PartTime) (n : Nat) : Bool :=
  t.breakEn && (t.breakStep.toNat == n || (t.atBreak && decide (t.breakStep.toNat ≤ n)))

/-- Does a frequency change hold it: it runs, and this boundary is nominal at or after R + 64 (R382)? -/
def Dev.freqHeld (d : Dev) (t : PartTime) : Bool :=
  match d.clk.change with
  | none => false
  | some c => (t.st == .running || t.st == .held) && decide (c.tick + 64 ≤ t.nominal t.next)

/-! ### Lock-step (R235 to R237) -/

/-- The 768 core digests of partition p's step, preceded by their sum (R235). -/
def Dev.stepDigests (d : Dev) (p : Nat) : List Nat :=
  let l := (List.range 768).map (fun k => if d.partOf k = p then (d.core k).digest.toNat else 0)
  (l.foldl (· + ·) 0 % 2 ^ 64) :: l

/-- The lowest-numbered core whose digests differ. -/
def firstDiff : Nat → List Nat → List Nat → Nat
  | k, a :: as, b :: bs => if a = b then firstDiff (k + 1) as bs else k
  | _, _, _ => 0xFFFF

/-- LOCKSTEP_DIVERGE, class PARTITION (R236, R237): detail step, first core, NO_PARTNER. -/
def Dev.diverge (d : Dev) (p step core noPartner : Nat) : Dev :=
  d.raise { code := 0x32, cls := 2, source := 16, core := 0xFFFF, pmask := pmaskOf p, fpid := d.fpidOf p,
            detail := [step, core, noPartner] }

/-- Compare own and partner's record of a step once both are there. -/
def Dev.compareStep (d : Dev) (p step : Nat) : Dev :=
  match (d.part p).lock with
  | none => d
  | some l =>
    match l.own.find? (fun x => x.1 == step), l.theirs.find? (fun x => x.1 == step) with
    | some (_, _, a), some (_, b) =>
      let l := { l with own := l.own.filter (fun x => x.1 ≠ step), theirs := l.theirs.filter (fun x => x.1 ≠ step) }
      if a = b then d.updPart p (fun t => { t with lock := some { l with compared := step :: l.compared } })
      else
        (d.updPart p (fun t => { t with lsDiv := true, lock := some { l with diverged := true } })).diverge p step
          (firstDiff 0 (a.drop 1) (b.drop 1)) 0
    | _, _ => d

/-- On taking boundary S + 1: send the record of step S to the partner over the named link and keep it (R236). -/
def Dev.sendLockRecord (d : Dev) (p step : Nat) : Dev :=
  match (d.part p).lock with
  | none => d
  | some l =>
    let ds := d.stepDigests p
    let l := { l with own := l.own ++ [(step, d.turn.now.toNat, ds)] }
    let d := (d.updPart p (fun t => { t with lock := some l })).emit (.lockRecord p (l.port - 4) l.partner step ds)
    let d := (d.mouldOf p).elim d (fun m => d.sendMgmtVia (some (l.port - 4)) m.fpid l.partner 21 0 (ds.flatMap (fun g => natLe g 8)))
    d.compareStep p step

/-- MSG_LOCKSTEP_RECORD (R236, R237). -/
def execMsgLockstepRecord (p : PartId) (step : Nat) (digs : List Nat) (s : State) : Host.Outcome State Fault Refusal :=
  lift (fun d =>
    match (d.part p).lock with
    | none => d
    | some l =>
      if l.compared.contains step || l.theirs.any (fun x => x.1 == step) then d
      else (d.updPart p (fun t => { t with lock := some { l with theirs := l.theirs ++ [(step, digs)] } })).compareStep p step)
    s

/-- LS_WAIT_EXPIRE (R236): the own record was sent LS_WAIT ticks ago and the partner's is missing. -/
def execLsWaitExpire (p : PartId) (step : Nat) (s : State) : Host.Outcome State Fault Refusal :=
  lift (fun d =>
    let t := d.part p
    match t.lock with
    | none => d
    | some l =>
      if !t.dead && l.own.any (fun x => x.1 == step && decide (x.2.1 + l.wait ≤ d.turn.now.toNat)) then
        d.diverge p step 0xFFFF 1
      else d) s

/-! ### Taking a boundary -/

/-- A sequencer starts its step (R163). -/
def Seq.startStep (x : Seq) : Seq :=
  match x.st with
  | .stepWait => { x with st := .run, ended := false, stallRun := 0 }
  | .idle => { x with st := .run, ended := false, stallRun := 0 }
  | _ => x
def Core.startStep (c : Core) : Core :=
  { c with a := c.a.startStep, e := c.e.startStep, digest := 0
           vec := if c.vec.passed then { c.vec with passed := false }.settle else c.vec }

/-- Reseed the arbiters that follow partition p (R356). -/
def Arb.reseed (x : Arb) (p n : Nat) : Arb :=
  if x.repro ∧ x.seedPt.toNat = p then
    let v := BitVec.ofNat 32 n ^^^ x.seedk
    { x with lfsr := if v = 0 then 1 else v }
  else x
def Dev.reseedArbs (d : Dev) (p n : Nat) : Dev :=
  (List.range 4).foldl (fun d a => if (d.arb a).repro then d.setArb a ((d.arb a).reseed p n) else d) d

/-- An armed epoch change takes effect at the boundary of its step, or at the next one when it came late (R283); a member other than
member 0 reports the boundary to it (log entry 123). -/
def Dev.switchEpoch (d : Dev) (m : Mould) (n : Nat) : Dev :=
  match m.switchAt with
  | none => d
  | some st =>
    if st ≤ n then
      let d := d.updMould m.pmask (fun m => { m with epoch := 1 - m.epoch, switchAt := none })
      if m.self = 0 then d.switchedIn m 0 n else d.sendMgmt m.fpid 0 19 n
    else d

/-- Committed VARIANT images are used from this boundary (R298). -/
def Mould.useWeights (m : Mould) : Mould :=
  { m with variants := m.coming ++ m.variants.filter (fun x => !m.coming.any (fun y => y.slot == x.slot)), coming := [] }

/-- Partition p takes boundary n = `next`: step n begins (R220). A divergence that the record sent here brings out stops the
partition before its sequencers start. -/
def Dev.takeBoundary (d : Dev) (p : Nat) (m : Mould) : Dev :=
  let t := d.part p
  let n := t.next
  let d : Dev := if n = 0 then d else d.sendLockRecord p (n - 1)
  if (d.part p).dead then d else
  let d := { d with cores := d.cores.map (fun (e : Nat × Core) => (e.1, if d.partOf e.1 = p then e.2.startStep else e.2))
                    turn := { d.turn with begun := true } }
  let d := d.updPart p (fun t =>
    { t with step := BitVec.ofNat 64 n, next := n + 1, st := .running, atBreak := false, stepEnd := false, restartAt := none, earliest := 0,
             snaps := up t.snaps n t.credits,
             load := BitVec.ofNat 64 (t.load.toNat / 8 * 8 + 6) })
  let d := { d with errs := { d.errs with stepErrs := if m.replica || (m.serve.isSome && m.self == 0) then d.errs.stepErrs else
                                d.errs.stepErrs.filter (fun e => e.1 ≠ p) } }
  let d := (d.reseedArbs p n).updMould m.pmask (fun m => { m with phase := 6, heldFlag := false })
  if lowPart m.pmask = p then (d.updMould m.pmask Mould.useWeights).switchEpoch m n else d

/-- STEP_BOUNDARY (R220, R221, R288, R382): at a tick mark partition p takes its next boundary, or stops before it at a
hold or a break, or is held for a frequency change. -/
def execStepBoundary (p : PartId) (s : State) : Host.Outcome State Fault Refusal :=
  lift (fun d =>
    match d.mouldOf p with
    | none => d
    | some m =>
      let t := d.part p
      if d.cyc ≠ 0 || !d.boundaryDue p m || !d.boundaryGates p m then d
      else if m.heldAt t.next then
        let d := d.updPart p (fun t => { t with st := .stopped })
        if (partsOf m.pmask).all (fun q => (d.part q).st == .stopped) then d.updMould m.pmask (fun m => { m with heldFlag := true }) else d
      else if t.breakAt t.next then
        if t.atBreak then d
        else d.updPart p (fun t => { t with st := .stopped, breakHit := true, atBreak := true })
      else if t.atBreak && decide (d.turn.now.toNat ≤ t.brkTick) then d
      else if d.freqHeld t then d.updPart p (fun t => { t with st := .held })
      else d.takeBoundary p m) s

/-- PT_BREAK_WRITE (R221, R413). -/
def Dev.breakWrite (d : Dev) (who : Option FnId) (p : Nat) (v : BitVec 64) : Dev :=
  if d.mayCtrl who p then
    d.updPart p (fun t =>
      { t with breakEn := v.msb, breakStep := v.extractLsb' 0 63, brkTick := d.turn.now.toNat })
  else d
def execPtBreakWrite (who : Option FnId) (p : PartId) (v : BitVec 64) (s : State) : Host.Outcome State Fault Refusal :=
  lift (fun d => d.breakWrite who p v) s

/-! ### Deadline monitors (R231 to R234) -/

/-- The fields of DL_CFGn and DL_TGTn. -/
def PartTime.cfg (t : PartTime) (n : Nat) : Nat := (lk (0 : BitVec 64) t.dlCfg n).toNat
def PartTime.tgt (t : PartTime) (n : Nat) : Nat := (lk (0 : BitVec 64) t.dlTgt n).toNat
/-- DL_LASTn; its reset value is 0x0000_0000_FFFF_FFFF. -/
def PartTime.last (t : PartTime) (n : Nat) : BitVec 64 := lk 0xFFFFFFFF t.dlLast n

/-- A DL_CFG image after software writes v over old: while EN = 1 only EN changes; a reserved KIND, EVERY or OFFSET and a
PHASE that is not below EVERY leave their field as it was (R6, R231). PHASE is compared with the EVERY of the same write, and an EVERY
lowered to or below a kept PHASE leaves PHASE as it is (log entry 148). -/
def dlCfgNext (old v : Nat) : Nat :=
  let en := bits v 63 63
  if bit old 63 then en * 2 ^ 63 + bits old 62 0
  else
    let kind := if bits v 61 60 = 3 then bits old 61 60 else bits v 61 60
    let every := if bits v 59 52 = 0 then bits old 59 52 else bits v 59 52
    let phase := if bits v 51 44 < every then bits v 51 44 else bits old 51 44
    let off := if bits v 31 0 = 0 then bits old 31 0 else bits v 31 0
    en * 2 ^ 63 + bits v 62 62 * 2 ^ 62 + kind * 2 ^ 60 + every * 2 ^ 52 + phase * 2 ^ 44 + off

/-- DL_CFG_WRITE (R231). -/
def execDlCfgWrite (p : PartId) (n : MonId) (v : BitVec 64) (s : State) : Host.Outcome State Fault Refusal :=
  lift (fun d => d.updPart p (fun t => { t with dlCfg := up t.dlCfg n (BitVec.ofNat 64 (dlCfgNext (t.cfg n) v.toNat)) })) s

/-- The step whose deadline D = T0 + S·STEP_PERIOD + OFFSET is the tick `now`, if the monitor is armed for it (R231). -/
def PartTime.armedAt (t : PartTime) (n now : Nat) : Option Nat :=
  let c := t.cfg n
  let x := (BitVec.ofNat 64 now - t.t0 - BitVec.ofNat 64 (bits c 31 0)).toNat
  let every := bits c 59 52
  if bit c 63 && t.period.toNat != 0 && every != 0 && decide (t.t0.toNat + bits c 31 0 ≤ now) && x % t.period.toNat == 0 &&
      x / t.period.toNat % every == bits c 51 44 && decide (t.nominal (x / t.period.toNat) + bits c 31 0 = now) then
    some (x / t.period.toNat)
  else none

/-- Has the event of monitor n for step st occurred (R231)? A step whose successor has begun has ended. -/
def Dev.dlEvent (d : Dev) (p n st : Nat) : Bool :=
  let t := d.part p
  if t.next ≤ st then false
  else
    match bits (t.cfg n) 61 60 with
    | 0 => decide (st + 1 < t.next) || t.stepEnd
    | 1 =>
      let g := t.tgt n
      let c := d.core (bits g 56 47)
      decide (st + 1 < t.next) || (if bit g 57 then c.e.ended else c.a.ended)
    | _ =>
      let g := t.tgt n
      let o := bits g 46 32
      decide (lk 0 (lk [] t.snaps st) o + bits g 31 0 ≤ lk 0 t.credits o)

/-- Record a miss (R232, R233). -/
def Dev.dlMiss (d : Dev) (p n st tick : Nat) : Dev :=
  let t := d.part p
  let c := t.cfg n
  let l := (t.last n).toNat
  let cnt := if bits l 63 48 = 0xFFFF then 0xFFFF else bits l 63 48 + 1
  let halt := bit c 62
  let d := d.updPart p (fun t =>
    { t with dlMiss := t.dlMiss ||| BitVec.ofNat 64 (2 ^ n), missed := (n, st) :: t.missed,
             dlLast := up t.dlLast n (BitVec.ofNat 64 (cnt * 2 ^ 48 + st % 2 ^ 16 * 2 ^ 32 + 0xFFFFFFFF)),
             late := ⟨n, st, tick⟩ :: t.late.filter (fun x => x.mon ≠ n),
             dlHalt := if halt then some d.turn.now.toNat else t.dlHalt })
  d.raise { code := 0x30, cls := if halt then 2 else 0, source := 16, core := 0xFFFF, pmask := pmaskOf p,
            fpid := d.fpidOf p, detail := [n, st] }

/-- The step monitor n of partition p is tested for now, with its tick D: a tick count that the slewing Turn passed over is tested with the
next one (R232). -/
def Dev.dlDue (d : Dev) (p n : Nat) : Option (Nat × Nat) :=
  let now := d.turn.now.toNat
  match (d.part p).armedAt n now with
  | some st => some (st, now)
  | none => if d.turn.skipped then ((d.part p).armedAt n (now - 1)).map (fun st => (st, now - 1)) else none

/-- Test one monitor. -/
def Dev.dlTest (d : Dev) (p n : Nat) : Dev :=
  match d.dlDue p n with
  | none => d
  | some (st, tick) => if d.dlEvent p n st || (d.part p).missed.contains (n, st) then d else d.dlMiss p n st tick

/-- DEADLINE_MONITOR_TEST (R232, R233): in the first cycle of tick D, the monitors of lower number first, whose records come first.
After a miss with HALT_PARTITION only monitors that miss in the same cycle still record. -/
def execDeadlineMonitorTest (p : PartId) (n : MonId) (s : State) : Host.Outcome State Fault Refusal :=
  lift (fun d =>
    match d.mouldOf p with
    | none => d
    | some m =>
      if d.cyc ≠ 0 || (d.part p).dlHalt.any (fun h => h != d.turn.now.toNat) || m.t0 = 0 || m.phase < 5 then d
      else (List.range (n.val + 1)).foldl (fun d i => d.dlTest p i) d) s

/-- DEADLINE_EVENT_LATE (R232): the event of the monitor's last miss occurs and LATE is written. -/
def execDeadlineEventLate (p : PartId) (n : MonId) (s : State) : Host.Outcome State Fault Refusal :=
  lift (fun d =>
    let t := d.part p
    match t.late.find? (fun x => x.mon == n.val) with
    | none => d
    | some x =>
      if d.dlEvent p n x.step then
        d.updPart p (fun t =>
          { t with late := t.late.filter (fun y => y.mon ≠ n.val),
                   dlLast := up t.dlLast n (BitVec.ofNat 64 ((t.last n).toNat / 2 ^ 32 * 2 ^ 32 +
                     (d.turn.now.toNat - x.tick) % 2 ^ 32)) })
      else d) s

end Sys2Proof.Machine
end

