-- ==== Sys2Proof/Machine/Clock.lean ====
section
/-! DEFINITION. Region clocks, loss of reference, frequency steps, thermal limits and region sleep (R376 to R383, R388,
R389, R392). -/

namespace Sys2Proof.Machine

/-- An error record of the clock and power unit (SOURCE 15) or of firmware (17) that names no partition. -/
def Dev.raiseDev (d : Dev) (code cls source : Nat) (detail : List Nat) : Dev :=
  d.raise { code := code, cls := cls, source := source, core := 0xFFFF, pmask := 0, fpid := 0xFFFF, detail := detail }

/-! ### Stretches and slips (R377, R378) -/

/-- Regions that share a boundary with region r (R20). -/
def neighbours (r : Nat) : List Nat :=
  (if r % 4 = 0 then [] else [r - 1]) ++ (if r % 4 = 3 then [] else [r + 1]) ++
  (if r < 4 then [] else [r - 4]) ++ (if 48 ≤ r then [] else [r + 4])

/-- Does a declared route pass through the crossing of regions a and b (R378)? -/
def Dev.routeCrosses (d : Dev) (t : Route) (a b : Nat) : Bool :=
  (routeInputs (positionsOf (d.regionsOf t.part)) t).any (fun e =>
    match neighbour e.1 e.2 with
    | some c => (regionOf c == a && regionOf e.1 == b) || (regionOf c == b && regionOf e.1 == a)
    | none => false)

/-- The partitions a slip between a and b concerns. -/
def Dev.slipMask (d : Dev) (a b : Nat) : Nat :=
  ((List.range 16).filter (fun p =>
    lk 16 d.net.regOwner a == p || lk 16 d.net.regOwner b == p ||
    d.net.routes.any (fun t => t.part == p && d.routeCrosses t a b))).foldl (fun m p => m + 2 ^ p) 0

/-- XING_SLIP (R378): the record, and both regions gated until the next tick mark. -/
def Dev.slip (d : Dev) (a b : Nat) : Dev :=
  let c := d.clk
  let d := { d with clk := { c with xslip := true, gateTick := d.turn.now.toNat,
                                    gated := (c.gated.filter (fun r => r ≠ a ∧ r ≠ b)) ++ [a, b] } }
  d.raise { code := 0x71, cls := 1, source := 15, core := 0xFFFF, pmask := d.slipMask a b,
            fpid := d.fpidOf (lowPart (d.slipMask a b)), detail := [min a b, max a b] }

/-- DROOP_STRETCH (R377): the next cycle of region r is longer by a half or a quarter, at most once in any 16 cycles; a
crossing whose difference would exceed 1.5 cycles slips. λ counts 1/128 cycle. -/
def execDroopStretch (r : RegionId) (half : Bool) (s : State) : Host.Outcome State Fault Refusal :=
  lift (fun d =>
    let c := d.clk
    if !d.regionRuns r || c.gated.contains r.val || (c.since.find? (fun e => e.1 == r.val)).any (fun e => decide (e.2 < 16))
    then d
    else
      let l := lk 0 c.lag r + (if half then 64 else 32)
      let d := { d with clk := { c with lag := up c.lag r l, since := up c.since r 0, stretch := c.stretch + 1 } }
      (neighbours r).foldl (fun d b =>
        let lb := lk 0 d.clk.lag b
        if l > lb + 192 && d.regionRuns b then d.slip r b else d) d) s

/-- XING_RESTART (R378): at the tick mark the slipped regions run again in phase, λ = 0. -/
def execXingRestart (s : State) : Host.Outcome State Fault Refusal :=
  lift (fun d =>
    let c := d.clk
    if d.cyc ≠ 0 || c.gated.isEmpty || d.turn.now.toNat ≤ c.gateTick then d
    else { d with clk := { c with gated := [], lag := c.gated.foldl (fun m r => up m r 0) c.lag } }) s

/-! ### Loss of reference (R379, R380) -/

/-- REF_LOSS (R379): a window's count outside 56 to 69. -/
def execRefLoss (count : Nat) (s : State) : Host.Outcome State Fault Refusal :=
  lift (fun d =>
    if d.clk.holdover || (56 ≤ count && count ≤ 69) then d
    else
      ({ d with clk := { d.clk with refLoss := true, holdover := true, lossCount := count, lossTick := d.turn.now.toNat },
                turn := { d.turn with before := d.turn.st, st := .holdover } }).raiseDev 0x70 0 15 [count]) s

/-- REFCLK_RESTORED (R380): 16 good windows in a row; the Turn returns to the state it held. -/
def execRefclkRestored (s : State) : Host.Outcome State Fault Refusal :=
  lift (fun d =>
    if d.clk.holdover then
      { d with clk := { d.clk with holdover := false }, turn := { d.turn with st := d.turn.before } }
    else d) s

/-- REF_LOSS_TIMEOUT (R380): not restored within 1 s. -/
def execRefLossTimeout (s : State) : Host.Outcome State Fault Refusal :=
  lift (fun d =>
    if d.clk.holdover && decide (d.clk.lossTick + 6250000 ≤ d.turn.now.toNat) then d.raiseDev 0x70 3 15 [d.clk.lossCount]
    else d) s

/-! ### Frequency steps (R382, R383) -/

/-- Is a code inside FMAX to FMIN of every clock plan (Table 21-2, step 2)? -/
def Dev.codeOk (d : Dev) (code : Nat) : Bool :=
  d.moulds.all (fun m => m.clock.all (fun e => decide (e.fmax ≤ code ∧ code ≤ e.fmin)))

/-- Begin a change, or refuse it. `forced` skips the check. -/
def Dev.beginChange (d : Dev) (r : FChange) : Dev :=
  if r.forced || d.codeOk r.code then { d with clk := { d.clk with change := some { r with tick := d.turn.now.toNat } } }
  else { d with clk := { d.clk with refused := true } }

/-- A request for a step code: while a change is in progress it waits, the latest only; a forced one replaces a waiting one
unless that is slower (R383). -/
def Dev.fRequest (d : Dev) (code : Nat) (forced : Bool) : Dev :=
  let r : FChange := ⟨code, d.turn.now.toNat, forced⟩
  if d.clk.change.isNone then d.beginChange r
  else if forced && d.clk.waiting.any (fun w => decide (code < w.code)) then d
  else { d with clk := { d.clk with waiting := some r } }

/-- A write of CLK_FSTEP: 7 is reserved and ignored (R6). -/
def Dev.fstepWrite (d : Dev) (v : Nat) : Dev :=
  if v % 8 = 7 then d
  else ({ d with clk := { d.clk with req := BitVec.ofNat 3 v } }).fRequest (v % 8) false

/-- CLK_FSTEP_WRITE (R382). -/
def execClkFstepWrite (v : BitVec 32) (s : State) : Host.Outcome State Fault Refusal :=
  lift (fun d => if d.rst then d else d.fstepWrite v.toNat) s

/-- The partitions that take part in a change: RUNNING or HELD. -/
def Dev.changers (d : Dev) : List (Nat × Mould) :=
  (List.range 16).filterMap (fun p =>
    match d.mouldOf p with
    | some m => if (d.part p).st == .running || (d.part p).st == .held then some (p, m) else none
    | none => none)

/-- Has partition p stopped for the change and does it meet the conditions of its boundary? -/
def Dev.stoppedFor (d : Dev) (c : FChange) (p : Nat) (m : Mould) : Bool :=
  let t := d.part p
  decide (c.tick + 64 ≤ t.nominal t.next) && d.boundaryDue p m && d.boundaryGates p m && !m.heldAt t.next &&
  !t.breakAt t.next

/-- FREQ_SWITCH (R230, R382): the switch tick. Every region changes, every partition that stopped takes its boundary, and
a request that waited begins. -/
def execFreqSwitch (s : State) : Host.Outcome State Fault Refusal :=
  lift (fun d =>
    match d.clk.change with
    | none => d
    | some c =>
      let ps := d.changers
      if d.cyc ≠ 0 || decide (d.turn.now.toNat < c.tick + 64) || !ps.all (fun e => d.stoppedFor c e.1 e.2) then d
      else
        let w := d.clk.waiting
        let d := { d with clk := { d.clk with step := c.code, change := none, waiting := none,
                                              forcedNow := c.forced && decide (d.clk.req.toNat < c.code) } }
        let d := ps.foldl (fun d e => match d.mouldOf e.1 with
          | some m => d.takeBoundary e.1 m
          | none => d) d
        match w with
        | none => d
        | some r => d.beginChange r) s

/-- Is a sensor at or above STEP_C, or the 1 s average above PWR_LIMIT (R383)? -/
def Dev.tooHot (d : Dev) : Bool := decide (16 * (d.pwr.stepC.toNat : Int) ≤ d.pwr.tmax)
def Dev.tooMuch (d : Dev) : Bool := decide (d.pwr.limit.toNat < d.pwr.pavg)

/-- THERMAL_FORCE (R383): one code slower, again every 100 ms. The record's detail: 1 THERMAL or 2 POWER, the sensor, the
new code. -/
def execThermalForce (s : State) : Host.Outcome State Fault Refusal :=
  lift (fun d =>
    let now := d.turn.now.toNat
    let c := d.clk
    if d.rst || !(d.tooHot || d.tooMuch) || 6 ≤ c.step || (c.lastForce ≠ 0 && decide (now < c.lastForce - 1 + 625000)) then d
    else
      let code := c.step + 1
      let d := ({ d with clk := { c with lastForce := now + 1 } }).fRequest code true
      d.raiseDev 0x72 0 17 [if d.tooHot then 1 else 2, d.pwr.sensor, code]) s

/-- FREQ_RAISE (R383): after 1 s below the limits the code rises by one, towards CLK_FSTEP.REQ; the check of FMIN to FMAX
is not made, since a forced code may lie outside it (log entry 24). -/
def execFreqRaise (s : State) : Host.Outcome State Fault Refusal :=
  lift (fun d =>
    let now := d.turn.now.toNat
    let c := d.clk
    if d.rst || c.change.isSome || c.step ≤ c.req.toNat || decide (now < c.lastAbove + 6250000) then d
    else
      { d with clk := { c with lastAbove := now, change := some ⟨c.step - 1, now, true⟩ } }) s

/-! ### Telemetry (R392) -/

/-- The hottest reading and the first sensor that has it. -/
def hottest : Nat → List Int → Option (Int × Nat)
  | _, [] => none
  | n, x :: r =>
    match hottest (n + 1) r with
    | none => some (x, n)
    | some (y, k) => if y ≤ x then some (x, n) else some (y, k)

/-- TELEMETRY_SAMPLE (R383, R392): WARN once per crossing of WARN_C (detail 0). Temperatures are in 1/16 °C. -/
def execTelemetrySample (vin iin pin pavg : Nat) (temps : List Int) (s : State) : Host.Outcome State Fault Refusal :=
  lift (fun d =>
    match hottest 0 temps with
    | none => d
    | some (tmax, k) =>
      if d.rst || temps.length ≠ 55 then d
      else
        let w := (List.range 55).filter (fun i => decide (16 * (d.pwr.warnC.toNat : Int) ≤ temps.getD i 0))
        let new := w.filter (fun i => !d.pwr.warned.contains i)
        let hotNow := decide (16 * ((d.pwr.stepC.toNat : Int) - 5) ≤ tmax) || decide (19 * d.pwr.limit.toNat ≤ 20 * pavg)
        let d := { d with
          pwr := { d.pwr with vin := vin, iin := iin, pin := pin, pavg := pavg, tmax := tmax, sensor := k, warned := w },
          clk := { d.clk with lastAbove := if hotNow then d.turn.now.toNat else d.clk.lastAbove } }
        new.foldl (fun d i => d.raiseDev 0x72 0 17 [0, i, d.clk.step]) d) s

/-- THERMAL_TRIP (R392): at 108 °C the compute rails go off without an orderly stop; class DEVICE, detail TRIP (3). -/
def execThermalTrip (sensor : Nat) (temp : Int) (s : State) : Host.Outcome State Fault Refusal :=
  lift (fun d =>
    if d.rst || temp < 16 * 108 || 54 < sensor then d else d.raiseDev 0x72 3 15 [3, sensor, d.clk.step]) s

/-! ### Region sleep (R388, R389) -/

/-- Ticks of a power-gated wake at a step code (Table 21-6). -/
def wakeTicks (code : Nat) : Nat := [25, 28, 31, 34, 39, 49, 95].getD code 95

/-- The sleep plan of partition p. -/
def Dev.planOf (d : Dev) (p : Nat) : Option ClockEnt := (d.mouldOf p).bind (fun m => m.clock.find? (fun e => e.part == p))

/-- Cores at the positions of some regions. -/
def Dev.coresOf (d : Dev) (rs : List Nat) : List Nat := (positionsOf rs).filterMap d.coreAt

/-- Wake one region: the state in which its wake ends. -/
def wakeRegion (now code : Nat) : Sleep → Sleep
  | .clockGated => .waking false (now + 2)
  | .powerGated => .waking true (now + wakeTicks code)
  | x => x

/-- Wake regions: those that were power-gated have their local stores written with 0 (R153). -/
def Dev.wakeRegions (d : Dev) (rs : List Nat) : Dev × List MemOp :=
  let off := rs.filter (fun r => lk Sleep.run d.clk.sleep r == .powerGated)
  let ks := d.coresOf off
  let now := d.turn.now.toNat
  let sl := rs.foldl (fun m r => up m r (wakeRegion now d.clk.step (lk .run m r))) d.clk.sleep
  let inLs := fun w => ks.any (fun k => inOwnLs k w w)
  ({ d with clk := { d.clk with sleep := sl },
            net := { d.net with ce := d.net.ce.filter (fun w => !inLs w), ue := d.net.ue.filter (fun w => !inLs w) } },
   ks.map (fun k => MemOp.clr (lsBase k) (lsBase k + 0xFFFFF)))

/-- REGION_WAKE_START (R389): WAKE_LEAD ticks before the nominal boundary of the next step. -/
def execRegionWakeStart (p : PartId) (s : State) : Host.Outcome State Fault Refusal :=
  liftW (fun _ _ d =>
    match d.planOf p, d.mouldOf p with
    | some c, some m =>
      let t := d.part p
      let now := d.turn.now.toNat
      if c.sleep = 0 || m.t0 = 0 || m.phase < 5 || lk 0 d.clk.wakeStep p == t.next + 1 ||
          decide (now + c.wakeLead < t.nominal t.next) then (d, [])
      else
        let (d, w) := d.wakeRegions (d.regionsOf p)
        ({ d with clk := { d.clk with wakeBegan := up d.clk.wakeBegan p now, wakeStep := up d.clk.wakeStep p (t.next + 1) } }, w)
    | _, _ => (d, [])) s

/-- REGION_WAKE_END (R388). -/
def execRegionWakeEnd (r : RegionId) (s : State) : Host.Outcome State Fault Refusal :=
  lift (fun d =>
    match lk .run d.clk.sleep r with
    | .waking _ e => if e ≤ d.turn.now.toNat then { d with clk := { d.clk with sleep := del d.clk.sleep r } } else d
    | _ => d) s

/-- REGION_SLEEP (R389): AWAKE ticks have passed since the wake of the running step and every sequencer is in STEP_WAIT. -/
def execRegionSleep (p : PartId) (s : State) : Host.Outcome State Fault Refusal :=
  lift (fun d =>
    match d.planOf p with
    | none => d
    | some c =>
      let t := d.part p
      if c.sleep = 0 || t.next = 0 || lk 0 d.clk.wakeStep p ≠ t.next ||
          decide (d.turn.now.toNat < lk 0 d.clk.wakeBegan p + c.awake) || !d.partDone p ||
          !(d.regionsOf p).all d.regionRuns then d
      else
        { d with clk := { d.clk with sleep := (d.regionsOf p).foldl (fun m r =>
            up m r (if c.sleep = 1 then .clockGated else .powerGated)) d.clk.sleep } }) s

end Sys2Proof.Machine
end

