-- ==== Sys2Proof/Machine/Nv.lean ====
section
/-! DEFINITION. Non-volatile writes and the hold-up energy that guards them (R300, R303, R363, R390, R391). -/

namespace Sys2Proof.Machine

/-- Needs of Table 21-7 in µJ. -/
def needCave : Nat := 250000
def needSpi : Nat := 50000

/-- Ask for a non-volatile write. -/
def Dev.nvAsk (d : Dev) (need : Nat) (k : NvKind) : Dev :=
  { d with pwr := { d.pwr with nv := d.pwr.nv ++ [⟨d.pwr.nvNext, need, false, d.turn.now.toNat, k⟩],
                               nvNext := d.pwr.nvNext + 1 } }

/-- Bytes of one commit: a 16 KiB page on each of the 16 channels (R300). -/
def commitBytes : Nat := 262144

/-- The rated endurance: 2.304 × 10^6 GB written (R303). -/
def ratedBytes : Nat := 2304000000000000
/-- Has the Cave reached it? -/
def Cave.worn (c : Cave) : Bool := decide (ratedBytes ≤ c.written)
/-- CAVE_WEAR.USED in units of 0.01 %. -/
def Cave.used (c : Cave) : Nat := min 10000 (c.written * 10000 / ratedBytes)

/-- Program bytes of one commit. -/
def Dev.program (d : Dev) (off : Nat) (bs : List Byte) : Dev × List MemOp :=
  if d.flash.worn then (d, [])
  else ({ d with flash := { d.flash with written := d.flash.written + bs.length,
                                         pgBytes := d.flash.pgBytes + BitVec.ofNat 64 bs.length } }, caveBytes off bs)

/-- A commit of the system area (R300): it wears the medium like any other, by its whole 256 KiB (log entry 156); a worn Cave changes
nothing (R303). -/
def Dev.sysCommit (d : Dev) (g : Cave → Cave) : Dev :=
  if d.flash.worn then d else { d with flash := { g d.flash with written := d.flash.written + commitBytes } }

/-- What a finished write leaves in non-volatile memory. -/
def Dev.nvEffect (d : Dev) : NvKind → Dev × List MemOp
  | .caveWrite _ _ off data => d.program off (data.take commitBytes)
  | .caveShard _ _ off data => d.program off (data.take commitBytes)
  | .keyInstall _ _ k => (d.sysCommit (fun c => { c with sysKeys := c.sysKeys ++ [k] }), [])
  | .keyRemove _ _ g => (d.sysCommit (fun c => { c with sysKeys := c.sysKeys.filter (fun k => k.digest ≠ g) }), [])
  | .retire _ _ pos =>
    ({ d with net := { d.net with retired := if d.net.retired.contains pos then d.net.retired else d.net.retired ++ [pos] } },
     [])
  | .leaf _ => ({ d with crm := { d.crm with reservedEnd := d.crm.reservedEnd + 1024, leafSeq := d.crm.leafSeq + 1 } }, [])
  | .recProgram left im => (if left = 0 then { d with crm := { d.crm with spiImage := some im } } else d, [])
  | .mouldCopy g im done =>
    (d.sysCommit (fun c =>
      if im.length ≤ done + commitBytes then { c with copies := (g, im) :: c.copies.filter (fun e => e.1 ≠ g) } else c), [])

/-- Usable energy in µJ from C in µF and V_B in mV (R390). -/
def holdupEnergy (cap vb : Nat) : Nat := cap * (vb * vb - 24000 * 24000) / 2000000

/-- HOLDUP_MEASURE (R390): ΔV in µV over 2 ms of 0.5 A, V_B in mV. -/
def execHoldupMeasure (dvUv vbMv : Nat) (s : State) : Host.Outcome State Fault Refusal :=
  lift (fun d =>
    if d.rst || d.crm.phase ≠ .firmware || dvUv = 0 then d
    else
      let c := 1000000000 / dvUv
      { d with pwr := { d.pwr with cap := c, vbank := vbMv, energy := holdupEnergy c vbMv, measured := true } }) s

/-- Does the write go to the Cave? -/
def NvKind.isCave : NvKind → Bool
  | .caveWrite .. => true
  | .caveShard .. => true
  | .keyInstall .. => true
  | .keyRemove .. => true
  | .mouldCopy .. => true
  | _ => false

/-- NV_WRITE_START (R300, R363, R391): the inhibit is clear, the energy less the needs in flight covers 1.5 times the
need, and neither the Cave's controller nor the SPI flash is writing already. -/
def execNvWriteStart (id vbMv : Nat) (s : State) : Host.Outcome State Fault Refusal :=
  lift (fun d =>
    match d.pwr.nv.find? (fun x => x.id == id) with
    | none => d
    | some x =>
      let e := holdupEnergy d.pwr.cap vbMv
      let fl := d.pwr.nv.filter (fun y => y.started)
      let d := { d with pwr := { d.pwr with vbank := vbMv, energy := e } }
      if d.rst || x.started || d.pwr.inhibit || !d.pwr.measured || (x.kind.isCave && !d.flash.ready) ||
          fl.any (fun y => y.kind.isCave == x.kind.isCave) ||
          decide (2 * e < 3 * x.need + 2 * (fl.map (fun y => y.need)).sum) then d
      else { d with pwr := { d.pwr with nv := d.pwr.nv.map (fun y => if y.id = id then { y with started := true } else y) } }) s

/-- The command that waits for a write. -/
def NvKind.waiter : NvKind → Option (Nat × Nat)
  | .caveWrite f c _ _ => some (f, c)
  | .keyInstall f c _ => some (f, c)
  | .keyRemove f c _ => some (f, c)
  | .retire f c _ => some (f, c)
  | .leaf r => some (r.fn, r.cid)
  | _ => none

end Sys2Proof.Machine
end

