-- ==== Sys2Proof/Machine/Report.lean ====
section
/-! DEFINITION. The attestation report and its signature (R370 to R373). -/

namespace Sys2Proof.Machine

/-- Bytes cut or filled with 0 to a length. -/
def padTo (n : Nat) (bs : List Byte) : List Byte := (bs ++ List.replicate n 0).take n

/-- An attestation entry (Table 20-8): KIND, SUB, ARG0, ARG1, DIG, AUX. -/
structure AttEnt where
  kind : Nat
  sub : Nat
  arg0 : Nat
  arg1 : Nat
  dig : Nat
  aux : Nat
  deriving DecidableEq, Repr

/-- The sort key: KIND, then SUB, then ARG0. -/
def AttEnt.key (e : AttEnt) : Nat := (e.kind * 256 + e.sub) * 65536 + e.arg0
/-- The 72 bytes of an entry. -/
def AttEnt.bytes (e : AttEnt) : List Byte :=
  natLe e.kind 1 ++ natLe e.sub 1 ++ natLe e.arg0 2 ++ natLe e.arg1 4 ++ natLe e.dig 32 ++ natLe e.aux 32

/-- Insert an entry behind those with the same or a lower key. -/
def attInsert (e : AttEnt) : List AttEnt → List AttEnt
  | [] => [e]
  | x :: r => if e.key < x.key then e :: x :: r else x :: attInsert e r

/-- Every entry of the report, sorted. -/
def Dev.attEnts (d : Dev) : List AttEnt :=
  let loaded := d.moulds.filter (fun m => 5 ≤ m.phase)
  let l :=
    loaded.flatMap (fun m =>
      let p := lowPart m.pmask
      (⟨1, p, m.pmask, m.fpid, m.digest, m.keydig⟩ : AttEnt) ::
        ((if m.base ≠ 0 then [(⟨2, p, 0, m.fpid, m.base, m.baseKey⟩ : AttEnt)] else []) ++
         m.variants.map (fun v => (⟨3, p, v.variant, v.slot, v.digest, v.keydig⟩ : AttEnt)) ++
         m.subs.map (fun x => (⟨5, p, x.1, 0, 0, x.2⟩ : AttEnt)))) ++
    d.crm.keys.map (fun (e : Nat × KeyEnt) => (⟨4, e.1, b2n e.2.persist, 0, e.2.digest, 0⟩ : AttEnt))
  l.foldl (fun a e => attInsert e a) []

/-- LENGTH for a number of entries (R372). -/
def attLength (n : Nat) : Nat := 192 + 72 * n + 5605

/-- Every byte before the signature (Table 20-7, Table 20-8). -/
def Dev.attBody (d : Dev) (nonce : Nat) : List Byte :=
  let es := d.attEnts
  natLe 0x54535441 4 ++ natLe 1 2 ++ natLe es.length 2 ++ natLe d.serial.toNat 8 ++ natLe nonce 16 ++
    natLe d.turn.now.toNat 8 ++ natLe 0xA1 1 ++ natLe 0 3 ++ natLe d.crm.secver.toNat 4 ++ natLe d.crm.fwDigest 32 ++
    padTo 68 Config.idPublic ++ natLe (attLength es.length) 4 ++ natLe 0 40 ++ es.flatMap AttEnt.bytes

/-- Leaves of the identity (R370). -/
def leafCount : Nat := 2 ^ 40

/-- Is a leaf reservation being written? -/
def Dev.reserving (d : Dev) : Bool :=
  d.pwr.nv.any (fun x => match x.kind with
    | .leaf _ => true
    | _ => false)

/-- Sign and deliver one report with the next leaf. -/
def Dev.signReport (d : Dev) (r : AttReq) : Dev :=
  let b := d.attBody r.nonce
  let sig := padTo 5605 (Config.idSign (shake256 b) d.crm.leafNext)
  let d := { d with crm := { d.crm with leafNext := d.crm.leafNext + 1 } }
  (d.emit (.hostWrite r.fn r.addr (b ++ sig))).complete r.fn r.cid stOk (b.length + 5605)

/-- Act on one request once the identity is settled: refused without an identity or leaf, INVALID for a short buffer, a
reservation first when the leaf is not below RESERVED_END (R370, R373). -/
def Dev.attest1 (d : Dev) (r : AttReq) : Dev :=
  let n := attLength d.attEnts.length
  if d.crm.idFail || decide (leafCount ≤ d.crm.leafNext) then d.complete r.fn r.cid stRefused 0
  else if r.len < n then d.complete r.fn r.cid stInvalid n
  else if d.crm.leafNext < d.crm.reservedEnd then d.signReport r
  else d.nvAsk needSpi (.leaf r)

/-- Work through the waiting requests in order, one signature at a time (R370); `n` bounds the work. -/
def attestRun : Nat → Dev → Dev
  | 0, d => d
  | n + 1, d =>
    if !(d.crm.idReady || d.crm.idFail) || d.reserving then d
    else
      match d.crm.attests with
      | [] => d
      | r :: q => attestRun n (({ d with crm := { d.crm with attests := q } }).attest1 r)
def Dev.attestAll (d : Dev) : Dev := attestRun d.crm.attests.length d

/-- ATTEST (R372, R373): it waits for ID_READY. -/
def execAttest (f : FnId) (e : BitVec 512) (s : State) : Host.Outcome State Fault Refusal :=
  hostCmd f 0x22 e (fun d =>
    let r : AttReq := ⟨f, cCid e, cArg0 e + cArg1 e * 2 ^ 64, cAddr e, cLen e⟩
    ({ d with crm := { d.crm with attests := d.crm.attests ++ [r] } }).attestAll) s

/-- IDENTITY_READY (R370, R371): the key is checked after firmware is ready; the next leaf is RESERVED_END of the newest
record. -/
def execIdentityReady (ok : Bool) (s : State) : Host.Outcome State Fault Refusal :=
  lift (fun d =>
    let c := d.crm
    if d.rst || !c.fwReady || c.idReady || c.idFail then d
    else
      Dev.attestAll { d with crm := { c with idReady := ok, idFail := !ok, leafNext := if ok then c.reservedEnd else 0 } }) s

/-- HOLDUP_LOW (R300, R363): a write has waited 100 ms; it does not start, and its command completes. Recovery's own writes go
on waiting. -/
def execHoldupLow (id : Nat) (s : State) : Host.Outcome State Fault Refusal :=
  lift (fun d =>
    match d.pwr.nv.find? (fun x => x.id == id) with
    | none => d
    | some x =>
      if x.started || decide (d.turn.now.toNat < x.since + 625000) ||
          (match x.kind with
           | .recProgram _ _ => true
           | _ => false) then d
      else
        let d := { d with pwr := { d.pwr with nv := d.pwr.nv.filter (fun y => y.id ≠ id) } }
        (d.raiseDev 0x74 0 17 [b2n (!x.kind.isCave), d.pwr.energy]).completeOpt x.kind.waiter stHoldupLow 0 |>.attestAll) s

end Sys2Proof.Machine
end

