-- ==== Sys2Proof/Machine/Power.lean ====
section
/-! DEFINITION. The 36 V input, orderly stop, lockout and hot-plug (R384 to R387). Voltages are in mV. -/

namespace Sys2Proof.Machine

/-- The writes that have started are finished by the hold-up bank (R385, R391). -/
def Dev.finishNv (d : Dev) : Dev × List MemOp :=
  (d.pwr.nv.filter (fun x => x.started)).foldl (fun (a : Dev × List MemOp) x =>
    let r := a.1.nvEffect x.kind
    (r.1, a.2 ++ r.2)) (d, [])

/-- Everything loses power: what is left is what lies in flash, and the pins. A module whose enable pin has broken is being removed: its
pre-charge pins break too, and the switch is open until it mates again (R10, R386). -/
def Dev.powerOff (d : Dev) : Dev × List MemOp :=
  let r := d.finishNv
  let d := r.1
  ({ Dev.reset with
      pwr := { Pwr.reset with st := .off, enable := d.pwr.enable, precharged := d.pwr.precharged && d.pwr.enable,
                              switch := d.pwr.switch && d.pwr.enable, ovp := d.pwr.ovp, nvNext := d.pwr.nvNext }
      crm := { Crm.reset with reservedEnd := d.crm.reservedEnd, leafSeq := d.crm.leafSeq, spiImage := d.crm.spiImage }
      flash := { Cave.reset with sysKeys := d.flash.sysKeys, copies := d.flash.copies, written := d.flash.written }
      net := { Net.reset with retired := d.net.retired }
      funcs := d.funcs.map (fun (e : Nat × Func) => (e.1, { Func.reset with perst := e.2.perst }))
      free := d.free
      out := d.out }, r.2)

/-- SUPPLY_INHIBIT (R384, R399): below 33.0 V no non-volatile write starts. -/
def execSupplyInhibit (mv : Nat) (s : State) : Host.Outcome State Fault Refusal :=
  lift (fun d =>
    if d.pwr.st = .off || d.pwr.inhibit || 33000 ≤ mv then d
    else
      let d := { d with pwr := { d.pwr with inhibit := true } }
      if d.rst then d else d.raiseDev 0x73 0 15 [mv]) s

/-- SUPPLY_INHIBIT_RELEASE (R384): at 33.5 V. -/
def execSupplyInhibitRelease (mv : Nat) (s : State) : Host.Outcome State Fault Refusal :=
  lift (fun d => if d.pwr.inhibit && decide (33500 ≤ mv) then { d with pwr := { d.pwr with inhibit := false } } else d) s

/-- The orderly stop (R385): every sequencer halted, every region clock-gated, every link and PCIe port down; writes that have
started finish, then STANDBY. Device reset is asserted from here on. -/
def Dev.orderlyStop (d : Dev) : Dev :=
  let d := (List.range 9).foldl (fun d u => if (d.port u).st = .down then d else d.portDown u) d
  let nv := startedNv d.pwr.nv
  { d with
    rst := true
    cores := d.cores.map (fun (e : Nat × Core) => (e.1, e.2.halt .error))
    clk := { d.clk with sleep := (List.range 52).map (fun r => (r, Sleep.clockGated)) }
    funcs := d.funcs.map (fun (e : Nat × Func) => (e.1, { Func.reset with perst := e.2.perst }))
    pwr := { d.pwr with st := if nv.isEmpty then .standby else .stopping, sag := true, stopRan := true, nv := nv } }

/-- ORDERLY_STOP (R384, R385, R399): below 31.0 V; the DEVICE-class record is kept in ERR_LASTDEV (R409). -/
def execOrderlyStop (mv : Nat) (s : State) : Host.Outcome State Fault Refusal :=
  lift (fun d =>
    if d.pwr.st ≠ .run || 31000 ≤ mv then d
    else
      let r := d.mkRec { code := 0x73, cls := 3, source := 15, core := 0xFFFF, pmask := 0, fpid := 0xFFFF, detail := [mv] }
      (({ d with errs := { d.errs.put r with lastDev := some r } }).irqs 3 0).orderlyStop) s

/-- SUPPLY_RECOVER (R385, R399): after an orderly stop the input is above 33.5 V again; a full device reset starts. A stop that
has begun completes first. -/
def execSupplyRecover (mv : Nat) (s : State) : Host.Outcome State Fault Refusal :=
  lift (fun d =>
    if d.pwr.st = .standby && d.pwr.stopRan && d.pwr.enable && decide (33500 < mv) then
      ({ d with pwr := { d.pwr with st := .run } }).fullReset 6
    else d) s

/-- UVLO_OFF (R384, R387): below 29.0 V. -/
def execUvloOff (mv : Nat) (s : State) : Host.Outcome State Fault Refusal :=
  liftW (fun _ _ d => if d.pwr.st = .off || 29000 ≤ mv then (d, []) else d.powerOff) s

/-- UVLO_ON (R10, R384, R387): above 30.0 V the module, once its pre-charge pins have mated, leaves lockout for STANDBY. -/
def execUvloOn (mv : Nat) (s : State) : Host.Outcome State Fault Refusal :=
  lift (fun d =>
    if d.pwr.st = .off && d.pwr.precharged && !d.pwr.ovp && decide (30000 < mv) then { d with pwr := { d.pwr with st := .standby } } else d) s

/-- OVERVOLTAGE (R384): above 42.0 V the input switch opens, and with it the supply is gone (log entry 25). -/
def execOvervoltage (mv : Nat) (s : State) : Host.Outcome State Fault Refusal :=
  liftW (fun _ _ d =>
    if d.pwr.ovp || mv ≤ 42000 then (d, [])
    else ({ d with pwr := { d.pwr with ovp := true, switch := false } }).powerOff) s

/-- OVERVOLTAGE_RECOVER (R384): below 40.0 V the module restarts as from power-on. -/
def execOvervoltageRecover (mv : Nat) (s : State) : Host.Outcome State Fault Refusal :=
  lift (fun d =>
    if d.pwr.ovp && decide (mv < 40000) then
      let up_ := d.pwr.precharged
      { d with pwr := { d.pwr with ovp := false, switch := up_ && d.pwr.enable, st := if up_ then .standby else .off } }
    else d) s

/-- PRECHARGE_MATE (R386). -/
def execPrechargeMate (s : State) : Host.Outcome State Fault Refusal :=
  lift (fun d => { d with pwr := { d.pwr with precharged := true } }) s

/-- INPUT_SWITCH_CLOSE (R386): the capacitance is within 2 V of the input and the enable pin has mated. -/
def execInputSwitchClose (capMv inMv : Nat) (s : State) : Host.Outcome State Fault Refusal :=
  lift (fun d =>
    if d.pwr.precharged && !d.pwr.ovp && decide (inMv ≤ capMv + 2000 ∧ capMv ≤ inMv + 2000) then
      { d with pwr := { d.pwr with enable := true, switch := true } }
    else d) s

/-- ENABLE_BREAK (R386): on removal the enable pin breaks first and an orderly stop begins. -/
def execEnableBreak (s : State) : Host.Outcome State Fault Refusal :=
  lift (fun d =>
    let d := { d with pwr := { d.pwr with enable := false } }
    if d.pwr.st = .run then d.orderlyStop else d) s

end Sys2Proof.Machine
end

