-- ==== Sys2Proof/Machine/Leave.lean ====
section
/-! DEFINITION. A host that leaves, and the teardown of its function (R345, R346, R355). -/

namespace Sys2Proof.Machine

/-- Mask or unmask a requester of an arbiter (R355). -/
def Dev.unmask (d : Dev) (a i : Nat) : Dev :=
  let x := d.arb a
  d.setArb a { x with masked := x.masked &&& ~~~(BitVec.ofNat 16 (2 ^ i)) }

/-- A requester that becomes masked: a grant it holds is abandoned, locked or not. -/
def Arb.mask (x : Arb) (i : Nat) : Arb :=
  { x with masked := x.masked ||| BitVec.ofNat 16 (2 ^ i)
           locks := x.locks &&& ~~~(BitVec.ofNat 16 (2 ^ i))
           holder := if x.holder.any (fun g => g.req == i) then none else x.holder }

/-- Does link f exist (Table 18-1)? -/
def Dev.linkOf (d : Dev) (f : Nat) : Bool :=
  match d.bifur.toNat with
  | 0 => f == 0
  | 1 => decide (f < 2)
  | 2 => decide (f < 4)
  | _ => false

/-- Drop a requester's name where it is function f. -/
def notFrom (f : Nat) (r : Option (Nat × Nat)) : Option (Nat × Nat) := if r.any (fun x => x.1 == f) then none else r

/-- No completion goes to the departed host any more: the function's name leaves every request in progress. -/
def Mould.forget (f : Nat) (m : Mould) : Mould :=
  { m with
    owner := if m.owner = some f then none else m.owner
    req := notFrom f m.req
    switching := m.switching.filter (fun r => r.fn ≠ f)
    hold := m.hold.map (fun h => if h.host && h.fn == f then { h with host := false } else h)
    failover := m.failover.map (fun h => { h with req := notFrom f h.req })
    wload := m.wload.map (fun w => { w with req := notFrom f w.req })
    serve := m.serve.map (fun s => { s with waiting := s.waiting.filter (fun w => w.fn ≠ f)
                                            draining := if s.draining.any (fun x => x.1 == f) then none else s.draining
                                            log := if s.log.any (fun x => x.fn == f) then none else s.log }) }

/-- The teardown (R345): ownership, channels, queue pair, registers; a function that can is ready again. -/
def Dev.teardown (d : Dev) (f : Nat) : Dev :=
  let x := d.func f
  let up := !x.perst && d.linkOf f
  let d := { d with
    moulds := d.moulds.map (Mould.forget f)
    loads := d.loads.map (fun (l : Load) => { l with req := notFrom f l.req })
    chans := d.chans.map (fun (c : Chan) => if c.fn = f then { c with down := true } else c)
    bar2 := d.bar2.filter (fun (b : Bar2Wait) => b.fn ≠ f)
    crm := { d.crm with attests := d.crm.attests.filter (fun (r : AttReq) => r.fn ≠ f),
                        waitCmds := d.crm.waitCmds.filter (fun (c : Nat × BitVec 512 × Option (List Byte)) => c.1 ≠ f) }
    pwr := { d.pwr with nv := d.pwr.nv.map (fun (n : NvReq) =>
      if n.kind.waiter.any (fun (w : Nat × Nat) => w.1 == f) then { n with kind := n.kind.orphan } else n) } }
  d.setFunc f { Func.reset with perst := x.perst, linkUp := up, wedged := x.wedged,
                                ready := up && d.crm.fwReady && !x.wedged }

/-- Is a serving Mould's next sampling point still to come on this device (R312)? A stopped partition has none. -/
def Dev.willSample (d : Dev) (m : Mould) : Bool := m.serve.isSome && m.self == 0 && !(d.part (lowPart m.pmask)).dead

/-- The serving Mould of a context, while a sampling point is to come. -/
def Dev.ctxMould (d : Dev) (x : Ctx) : Option Mould := (d.mouldLow x.part).filter (fun m => d.willSample m)

/-- A context is gone. -/
def Dev.delCtx (d : Dev) (f c : Nat) : Dev := d.updFunc f (fun x => { x with ctxs := del x.ctxs c })

/-- Contexts of a departed function whose partition has no sampling point to come are closed; once every context is, the teardown runs. -/
def Dev.tryTeardown (d : Dev) (f : Nat) : Dev :=
  let x := d.func f
  if x.left.isNone then d
  else
    let d := d.setFunc f { x with ctxs := x.ctxs.filter (fun (e : Nat × Ctx) => (d.ctxMould e.2).isSome) }
    if (d.func f).ctxs.isEmpty then d.teardown f else d

/-- Is there a sampling point to come on this device? -/
def Dev.samples (d : Dev) : Bool := d.moulds.any (fun m => d.willSample m)

/-- Departed functions are torn down at once when no sampling point is to come (log entry 26). -/
def Dev.teardownIdle (d : Dev) : Dev := if d.samples then d else (List.range 4).foldl (fun d f => d.tryTeardown f) d

/-- Is the link down after this event? It comes up again with the end of the teardown, unless PERST_Nk is asserted (log entry 157). -/
def LeaveWhy.down : LeaveWhy → Bool
  | .perst | .linkDown | .linkDisabled => true
  | .hotReset | .d3hot | .enablesCleared => false
/-- Has the function gone down by surprise-down or reset, so that its channels are closed at once (R177)? -/
def LeaveWhy.cuts (w : LeaveWhy) : Bool := w.down || w == .hotReset

/-- FUNCTION_LEAVE (R177, R345, R366, R375, R399). The teardown runs at the next sampling point, or at once where no serving partition
has one (log entry 26). A download of recovery that has not begun to program is abandoned. -/
def execFunctionLeave (f : FnId) (why : LeaveWhy) (s : State) : Host.Outcome State Fault Refusal :=
  lift (fun d =>
    let x := d.func f
    let d := if why = .perst then (d.setFunc f { x with perst := true }).setArb 2 ((d.arb 2).mask (4 + f.val)) else d
    let d := if why.down then d.updFunc f (fun x => { x with linkUp := false }) else d
    if d.rst || (x.perst && why != .perst) then d
    else
      let d := if why.cuts then
          { d with chans := d.chans.map (fun (c : Chan) => if c.fn = f then { c with down := true } else c) } else d
      let c := d.crm
      let d := if c.phase = .recovery && c.recOwner = f.val && (c.recState = 1 || c.recState = 2) then
          { d with crm := { c with recState := 0 } } else d
      let y := d.func f
      let d := if y.left.isNone then d.setFunc f { y with left := some d.turn.now.toNat } else d
      d.teardownIdle) s

/-- FUNCTION_WEDGED (R346): 1 s after it left the teardown is not complete. -/
def execFunctionWedged (f : FnId) (s : State) : Host.Outcome State Fault Refusal :=
  lift (fun d =>
    let x := d.func f
    if x.left.any (fun t => decide (t + 6250000 ≤ d.turn.now.toNat)) then d.setFunc f { x with wedged := true } else d) s

end Sys2Proof.Machine
end

