-- ==== Sys2Proof/Machine/Arbiter.lean ====
section
/-! DEFINITION. The lottery arbiters (R350 to R355). -/

namespace Sys2Proof.Machine

/-- URGENT and TICKETS of a requester. -/
def Arb.urgent (x : Arb) (i : Nat) : Bool := (lk (0x10 : BitVec 9) x.tkt i).toNat / 256 == 1
def Arb.tickets (x : Arb) (i : Nat) : Nat := (lk (0x10 : BitVec 9) x.tkt i).toNat % 256

/-- Requesters that hold their request up, are listed (Table 19-1) and not masked (R355). -/
def Arb.contenders (x : Arb) (a : Nat) : List Nat :=
  (List.range ([6, 11, 9, 5].getD a 0)).filter (fun i => bit x.reqs.toNat i && !bit x.masked.toNat i)

/-- The highest class present. -/
def Arb.topClass (x : Arb) (l : List Nat) : List Nat :=
  let u := l.filter x.urgent
  if u.isEmpty then l else u

/-- The winner: the first contender whose cumulative sum exceeds the draw (R351). -/
def pickDraw (x : Arb) (dr : Nat) : Nat → List Nat → Option Nat
  | _, [] => none
  | cum, i :: r => if dr < cum + x.tickets i then some i else pickDraw x dr (cum + x.tickets i) r

/-- The draw of R351 among contenders: with no tickets at all the lowest-numbered wins. -/
def Arb.winner (x : Arb) (l : List Nat) : Option Nat :=
  let c := x.topClass l
  let t := (c.map x.tickets).sum
  if t = 0 then c.head? else pickDraw x (x.lfsr.toNat % 65536 * t / 65536) 0 c

/-- One step of the LFSR (R351). -/
def lfsrStep (l : BitVec 32) : BitVec 32 :=
  let b := l.getLsbD 31 ^^ l.getLsbD 21 ^^ l.getLsbD 1 ^^ l.getLsbD 0
  (l <<< 1) ||| BitVec.ofNat 32 (b2n b)

/-- Draw, and grant in the same cycle; a lock is set only at grant time (R352). -/
def Arb.drawNow (x : Arb) (a now : Nat) : Arb :=
  match x.winner (x.contenders a) with
  | none => x
  | some i => { x with holder := some ⟨i, bit x.locks.toNat i, now⟩, lfsr := lfsrStep x.lfsr }

/-- Take the grant back and draw again (R353); a hart that held the management bus sees RESTART (R354). -/
def Dev.preempt (d : Dev) (a : Nat) (g : Grant) : Dev :=
  let x := d.arb a
  let d := if a = 2 ∧ g.req < 4 then d.emit (.restart a g.req) else d
  d.setArb a (({ x with holder := none, preempt := x.preempt + 1 } : Arb).drawNow a d.turn.now.toNat)

/-- ARB_REQUEST (R351 to R353): the requests and LOCK lines of one cycle. ARB_CAVE grants nothing before the Cave is ready
(R396). -/
def execArbRequest (a : ArbId) (reqs locks : BitVec 16) (s : State) : Host.Outcome State Fault Refusal :=
  lift (fun d =>
    let x := d.arb a
    let x := { x with reqs := reqs, locks := locks,
                      holder := if x.holder.any (fun g => !g.locked && !bit reqs.toNat g.req) then none else x.holder }
    let d := d.setArb a x
    if d.rst || (a.val = 1 && !d.flash.ready) then d
    else
      match x.holder with
      | none => d.setArb a (x.drawNow a d.turn.now.toNat)
      | some g =>
        if !g.locked && !x.urgent g.req && (x.contenders a).any (fun i => i != g.req && x.urgent i) then d.preempt a g else d) s

/-- QUANTUM_EXPIRE (R353): an unlocked grant held for QUANTUM ticks while another contender waits; 0 disables it. -/
def execQuantumExpire (a : ArbId) (s : State) : Host.Outcome State Fault Refusal :=
  lift (fun d =>
    let x := d.arb a
    match x.holder with
    | none => d
    | some g =>
      if g.locked || x.quantum = 0 || decide (d.turn.now.toNat < g.tick + x.quantum.toNat) ||
          !(x.contenders a).any (fun i => i != g.req) then d
      else d.preempt a g) s

/-- LONG_LOCK (R353): a lock has outlasted 16 quanta and stays. -/
def execLongLock (a : ArbId) (s : State) : Host.Outcome State Fault Refusal :=
  lift (fun d =>
    let x := d.arb a
    if x.quantum ≠ 0 && x.holder.any (fun g => g.locked && decide (g.tick + 16 * x.quantum.toNat < d.turn.now.toNat)) then
      d.setArb a { x with longLock := true }
    else d) s

/-- ARB_LOCK_DROP (R352): the holder drops LOCK and its locked sequence ends. -/
def execArbLockDrop (a : ArbId) (s : State) : Host.Outcome State Fault Refusal :=
  lift (fun d =>
    let x := d.arb a
    match x.holder with
    | some g =>
      if g.locked then
        d.setArb a { x with holder := some { g with locked := false }, locks := x.locks &&& ~~~(BitVec.ofNat 16 (2 ^ g.req)) }
      else d
    | none => d) s

/-- ARB_MASK (R355). -/
def execArbMask (a : ArbId) (i : Fin 16) (s : State) : Host.Outcome State Fault Refusal :=
  lift (fun d => d.setArb a ((d.arb a).mask i)) s

end Sys2Proof.Machine
end

