-- ==== Sys2Proof/Machine/Xmss.lean ====
section
/-! DEFINITION. Verification of an XMSS-SHAKE256_20_256 signature (R8, R243, R291, R365): 32-byte hashes, Winternitz base 16 with 67
chains, a tree of height 20. The manual names RFC 8391 and SP 800-208; what they say beyond it is PRESUMED (log entry 12). -/

namespace Sys2Proof.Machine

/-- The n bytes of a number, most significant first. -/
def natBe (v n : Nat) : List Byte := (natLe v n).reverse

/-- The keyed hash of the standard's four functions, told apart by a number: 0 a chain step, 1 a tree node, 2 the message, 3 the keys
and masks. -/
def xmssHash (fn : Nat) (key m : List Byte) : List Byte := natLe (shake256 (natBe fn 32 ++ key ++ m)) 32

def xorBytes (a b : List Byte) : List Byte := List.zipWith (fun x y => x ^^^ y) a b

/-- Where in the key a hash stands: kind 0 a chain of a one-time key, 1 the tree that compresses one, 2 the tree over them; three words
say which chain and step, or which level and node. -/
structure XmssPlace where
  kind : Nat
  key : Nat
  a : Nat
  b : Nat
  deriving DecidableEq, Repr

/-- The key (0) or a mask (1, 2) of a place, from the public seed. -/
def XmssPlace.pad (p : XmssPlace) (seed : List Byte) (n : Nat) : List Byte :=
  xmssHash 3 seed ([0, 0, 0, p.kind, p.key, p.a, p.b, n].flatMap (fun v => natBe v 4))

/-- The node above two nodes. -/
def xmssNode (seed : List Byte) (p : XmssPlace) (l r : List Byte) : List Byte :=
  xmssHash 1 (p.pad seed 0) (xorBytes l (p.pad seed 1) ++ xorBytes r (p.pad seed 2))

/-- `n` steps of chain c of one-time key i, from step j on. -/
def xmssChain (seed : List Byte) (i c : Nat) : Nat → Nat → List Byte → List Byte
  | 0, _, x => x
  | n + 1, j, x =>
    let p : XmssPlace := ⟨0, i, c, j⟩
    xmssChain seed i c n (j + 1) (xmssHash 0 (p.pad seed 0) (xorBytes x (p.pad seed 1)))

/-- The 67 digits of a 32-byte message: two a byte, high one first, and three of the sum of what each lacks to 15. -/
def xmssDigits (m : List Byte) : List Nat :=
  let l := m.flatMap (fun b => [b.toNat / 16, b.toNat % 16])
  let c := (l.map (fun x => 15 - x)).sum
  l ++ [c / 256 % 16, c / 16 % 16, c % 16]

/-- One level of the tree that compresses one-time key i: pairs become nodes, an odd last one goes up as it is. -/
def xmssLevel (seed : List Byte) (i h : Nat) : Nat → List (List Byte) → List (List Byte)
  | n, l :: r :: rest => xmssNode seed ⟨1, i, h, n⟩ l r :: xmssLevel seed i h (n + 1) rest
  | _, rest => rest

/-- Its root, in as many levels as it takes. -/
def xmssFold (seed : List Byte) (i : Nat) : Nat → Nat → List (List Byte) → List Byte
  | 0, _, l => l.headD []
  | n + 1, h, l => xmssFold seed i n (h + 1) (xmssLevel seed i h 0 l)

/-- From leaf i up the tree, along the nodes beside the way. -/
def xmssClimb (seed : List Byte) (i : Nat) : Nat → List (List Byte) → List Byte → List Byte
  | _, [], x => x
  | h, y :: path, x =>
    let p : XmssPlace := ⟨2, 0, h, i / 2 ^ (h + 1)⟩
    xmssClimb seed i (h + 1) path (if i / 2 ^ h % 2 = 0 then xmssNode seed p x y else xmssNode seed p y x)

/-- The n-th 32 bytes of a list. -/
def block32 (bs : List Byte) (n : Nat) : List Byte := (bs.drop (32 * n)).take 32

/-- Does a 2,820-byte signature (leaf index, random value, 67 chain values, 20 nodes) over a 32-byte digest verify under a 68-byte
public key (OID, root, seed)? -/
def xmssVerify (key : List Byte) (digest : Nat) (sig : List Byte) : Bool :=
  let root := (key.drop 4).take 32
  let seed := (key.drop 36).take 32
  let i := leNat (sig.take 4).reverse
  let bs := sig.drop 4
  let m := xmssHash 2 (block32 bs 0 ++ root ++ natBe i 32) (natLe digest 32)
  let ends := (xmssDigits m).zipIdx.map (fun e => xmssChain seed i e.2 (15 - e.1) e.1 (block32 bs (1 + e.2)))
  let path := (List.range 20).map (fun n => block32 bs (68 + n))
  key.length == 68 && sig.length == 2820 && decide (i < 2 ^ 20) &&
    xmssClimb seed i 0 path (xmssFold seed i 7 0 ends) == root

end Sys2Proof.Machine
end

