-- ==== Sys2Proof/Machine/Boot.lean ====
section
/-! DEFINITION. Resets, start-up, boot and recovery (R17, R18, R331, R347, R348, R362 to R368, R393 to R396, R414). -/

namespace Sys2Proof.Machine

/-! ### Good positions (R14, R17, R18) -/

/-- Is a position on the good-position list: it passed its tests and is not retired (R17)? -/
def Dev.goodPos (d : Dev) (pos : Nat) : Bool := !d.net.bad.contains pos && !d.net.retired.contains pos

/-- The good positions of a column. -/
def Dev.goodRows (d : Dev) (x : Nat) : List Nat := (List.range 26).filter (fun py => d.goodPos (32 * py + x))

/-- A column of the default map: its 24 lowest good rows, filled up with the lowest bad ones (R18). -/
def Dev.defaultCol (d : Dev) (x : Nat) : BitVec 26 :=
  let g := (d.goodRows x).take 24
  let b := ((List.range 26).filter (fun py => !d.goodPos (32 * py + x))).take (24 - g.length)
  BitVec.ofNat 26 ((g ++ b).foldl (fun n py => n + 2 ^ py) 0)

/-- Firmware builds the good-position list and the default map anew. -/
def Dev.rebuildMap (d : Dev) : Dev :=
  { d with net := { d.net with defMap := (List.range 32).map (fun x => (x, d.defaultCol x)) } }

/-! ### Device reset -/

/-- DEVICE_RESET_END (R331, R365, R393, R394): tick 0. The straps are sampled, the Turn is 0 in LISTEN, the ROM starts on
hart 0, the ports begin training; PCIe links whose PERST_Nk is released train too. -/
def execDeviceResetEnd (bifur : BitVec 2) (slot : BitVec 3) (s : State) : Host.Outcome State Fault Refusal :=
  lift (fun d =>
    let p := d.pwr
    if !d.rst || p.stopRan || !p.enable || !p.switch || p.ovp || !(p.st == .standby || p.st == .run) then d
    else
      let d := { d with
        rst := false
        cyc := 0
        turn := Turn.reset
        bifur := bifur
        slot := slot
        pwr := { p with st := .run }
        crm := { d.crm with phase := .rom }
        ports := (List.range 9).map (fun (u : Nat) => (u, ({ d.port u with st := PortSt.training, step := 1 } : Port))) }
      (List.range 4).foldl (fun d f =>
        let x := d.func f
        if x.perst then d else (d.setFunc f { x with linkUp := d.linkOf f }).unmask 2 (4 + f)) d) s

/-- MEMORY_BIST_END (R17, R18, R40, R135, R395): every word of every memory becomes 0, every vector engine leaves starter mode,
the good-position list is built. -/
def execMemoryBistEnd (bad : List Pos) (routerFail : Bool) (s : State) : Host.Outcome State Fault Refusal :=
  liftW (fun _ _ d =>
    if d.rst || d.crm.bistDone then (d, [])
    else
      let d := { d with
        crm := { d.crm with bistDone := true }
        net := { d.net with bad := bad.map (fun (p : Pos) => p.val), routerFail := routerFail, ce := [], ue := [] }
        cores := (List.range 768).map (fun (k : Nat) => (k, ({ d.core k with vec := (d.core k).vec.settle } : Core))) }
      (d.rebuildMap, [.clr 0 (2 ^ 36 - 1)])) s

/-- FW_READY (R348, R394, R395): after memory BIST and the measurement of C. Each failure is recorded first; the manual gives
it a class and no code, so the code is free (log entry 27). -/
def execFwReady (s : State) : Host.Outcome State Fault Refusal :=
  lift (fun d =>
    let c := d.crm
    if d.rst || c.phase ≠ .firmware || c.fwReady || !c.bistDone || !d.pwr.measured then d
    else
      let d := d.net.bad.foldl (fun d p =>
        let v := (Config.freeValue d.free).toNat % 2 ^ 16
        ({ d with free := d.free + 1 }).raiseDev v 0 17 [p]) d
      let d := { d with crm := { d.crm with fwReady := true } }
      (List.range 4).foldl (fun d f =>
        let x := d.func f
        if x.perst || !x.linkUp || x.wedged || x.left.isSome then d else d.setFunc f { x with ready := true }) d) s

/-- MOD_RST_N_ASSERT (R347, R409). -/
def execModRstNAssert (s : State) : Host.Outcome State Fault Refusal :=
  lift (fun d => if d.pwr.st = .off || d.pwr.stopRan then d else d.fullReset 2) s

/-- HIF_RESET (R347): the key is 0x4D52_5354. In recovery BAR0 holds only the recovery registers. -/
def execHifReset (f : FnId) (v : BitVec 32) (s : State) : Host.Outcome State Fault Refusal :=
  lift (fun d =>
    if d.rst || d.crm.phase = .recovery || !(d.func f).linkUp || v ≠ 0x4D525354 then d else d.fullReset 3) s

/-- PERST_DEASSERT (R348, R355, R396): the link trains and the function answers Request Retry Status until firmware is
ready; ARB_MGMT serves its register accesses again. -/
def execPerstDeassert (f : FnId) (s : State) : Host.Outcome State Fault Refusal :=
  lift (fun d =>
    let x := d.func f
    if !x.perst then d
    else if d.rst then d.setFunc f { x with perst := false }
    else
      (d.setFunc f { x with perst := false, linkUp := d.linkOf f,
                            ready := d.linkOf f && d.crm.fwReady && !x.wedged && x.left.isNone }).unmask 2 (4 + f.val)) s

/-- The configuration space of a function (Table 18-2); the Device ID differs under the ROM's recovery path. -/
def cfgSpace (device : Nat) : CfgSpace :=
  { vendor := 0x1FE7, device := device, revision := 0xA1, classCode := 0x120000, subVendor := 0x1FE7, subsystem := 1,
    bar0 := 2 ^ 26, bar2 := 2 ^ 40, vectors := 64 }

/-- CONFIG_REQUEST (R333, R345, R346, R348, R366). -/
def execConfigRequest (f : FnId) (s : State) : Host.Outcome State Fault Refusal :=
  lift (fun d =>
    let x := d.func f
    if d.rst || x.perst || !d.linkOf f then d
    else if d.crm.phase = .recovery then d.emit (.configDone f (cfgSpace 0x09F0))
    else if x.ready && x.left.isNone && !x.wedged then d.emit (.configDone f (cfgSpace 0x0960))
    else d.emit (.rrs f)) s

/-! ### Boot (R364, R365) -/

/-- A little-endian field of a list of bytes. -/
def fld (bs : List Byte) (off n : Nat) : Nat := leNat ((bs.drop off).take n)
/-- Are the bytes of a field all 0? -/
def zeroFld (bs : List Byte) (off n : Nat) : Bool := ((bs.drop off).take n).all (fun b => b == 0)

/-- Step 3: MAGIC, VERSION, LENGTH, ENTRY and the reserved fields of Table 20-6. -/
def fwHeaderOk (h : List Byte) : Bool :=
  h.length == 4096 && fld h 0 4 == 0x4D495746 && fld h 4 2 == 1 && zeroFld h 6 2 &&
  fld h 8 4 % 16 == 0 && decide (16 ≤ fld h 8 4 ∧ fld h 8 4 ≤ 1572864) && decide (fld h 0xC 4 < fld h 8 4) &&
  zeroFld h 0x18 8 && zeroFld h 0x64 28 && zeroFld h 0xB84 1148
/-- KEYPUB and SIG. -/
def fwKey (h : List Byte) : List Byte := (h.drop 0x20).take 68
def fwSig (h : List Byte) : List Byte := (h.drop 0x80).take 2820
/-- The firmware digest (R364). -/
def fwDigestOf (h body : List Byte) : Nat := shake256 (h.take 0x80 ++ body)
/-- Steps 3 to 6: the reason of the first failure, 0 for none. -/
def fwCheck (h body : List Byte) : Nat :=
  if !fwHeaderOk h || body.length ≠ fld h 8 4 then 1
  else if shake256 (fwKey h) ≠ Config.rootKeyHash then 2
  else if !xmssVerify (fwKey h) (fwDigestOf h body) (fwSig h) then 3
  else 0

/-- Enter recovery (R366). -/
def Dev.recover (d : Dev) (reason : Nat) : Dev :=
  { d with crm := { d.crm with phase := .recovery, recReason := reason, recState := 0 } }

/-- Step 7 of R365: hart 0 jumps to ENTRY within the SRAM. -/
def Crm.enter (c : Crm) (ent : Nat) : SMap Hart :=
  up c.harts 0 { lk Hart.reset c.harts 0 with pc := BitVec.ofNat 64 (0x10000000 + ent) }

/-- ROM_JUMP_TO_FIRMWARE (R365, R368): the ROM's steps in order. `header` and `body` are what the flash holds, unless recovery
has programmed another image since. The body is in SRAM once steps 3 and 4 have passed. -/
def execRomJumpToFirmware (sfdp : Bool) (header body : List Byte) (s : State) : Host.Outcome State Fault Refusal :=
  lift (fun d =>
    if d.rst || d.crm.phase ≠ .rom then d
    else if d.crm.recover then ({ d with crm := { d.crm with recover := false } }).recover 4
    else if !sfdp then d.recover 5
    else
      let d := { d with serial := Config.idSerial }
      let im := d.crm.spiImage
      let h := im.elim header (fun x => x.take 4096)
      let b := im.elim body (fun x => (x.drop 4096).take (fld h 8 4))
      let r := fwCheck h b
      let d := if r = 0 ∨ r = 3 then { d with crm := { d.crm with sram := b } } else d
      if r ≠ 0 then d.recover r
      else
        let d := { d with crm := { d.crm with phase := .firmware, hartsUp := true, harts := d.crm.enter (fld h 0xC 4),
                                              secver := BitVec.ofNat 32 (fld h 0x10 4), fwver := BitVec.ofNat 32 (fld h 0x14 4),
                                              fwDigest := fwDigestOf h b } }
        let d := [1, 2, 3].foldl (fun d i => d.unmask 2 i) d
        let d := [1, 2, 3, 4].foldl (fun d i => d.unmask 3 i) d
        (List.range 9).foldl (fun d u =>
          let x := d.port u
          if x.st = .training && x.step = 3 then (d.setPort u { x with step := 4 }).sendIdentity u else d) d) s

/-! ### Recovery (R366, R367) -/

/-- REC_GO (R366): the image is what the owner's memory returned, none for a failed read. A good image is erased and programmed in,
one non-volatile write for each 64 KiB sector's erase and one for its program (log entry 28). -/
def execRecGo (f : FnId) (image : Option (List Byte)) (s : State) : Host.Outcome State Fault Refusal :=
  lift (fun d =>
    let c := d.crm
    if d.rst || c.phase ≠ .recovery || !(c.recState = 0 || c.recState = 5) || !(d.func f).linkUp then d
    else
      let im := image.getD []
      let h := im.take 4096
      let ok := image.isSome && im.length == c.recLen.toNat && im.length == 4096 + fld h 8 4 && fwCheck h (im.drop 4096) == 0
      let c := if image.isSome then { c with sram := im.take 0x200000 } else c
      if !ok then { d with crm := { c with recOwner := f, recState := 5, recReason := 6 } }
      else
        ({ d with crm := { c with recOwner := f, recState := 3, spiImage := some [] } }).nvAsk needSpi
          (.recProgram (2 * cdiv im.length 65536 - 1) im)) s

end Sys2Proof.Machine
end

