-- ==== Sys2Proof/Machine/Vector.lean ====
section
/-! DEFINITION. The vector engine (R126 to R137, R178 to R194): SETVL, the dispatch of every vector word into VQ,
acceptance, completion, the end of the register-file BIST. -/

namespace Sys2Proof.Machine

/-- SETVL (R128, R182). -/
def execSetvl (k : CoreId) (s : State) : Host.Outcome State Fault Refusal :=
  seqOp k .E 0x80 (fun _ d w =>
    let c := d.core k
    let vt := bits w 43 36
    let n := if bit w 45 then (c.e.get (wA w)).toNat % 2 ^ 32 else bits w 31 0
    let vl := min n (vlMax vt)
    .ok (d.setCore k { c with e := (c.e.set (wD w) (BitVec.ofNat 64 vl)).advance,
                              vec := { c.vec with vl := vl, vtype := BitVec.ofNat 8 vt } }) []) s

/-- Handles and scalar registers of a vector word (R90, R179). -/
def vecHandles (w : Nat) : List Nat := if wOp w = 0xB8 ∨ wOp w = 0xB9 then [wVImm w] else []
def vecRegs (w : Nat) : List Nat := if wSB w then [wB w] else []

/-- Dispatch of a vector word into VQ (R47, R128, R179). -/
def vqOp (k : Nat) (op : Nat) (s : State) : Host.Outcome State Fault Refusal := enqueue k .E op .vq vecHandles vecRegs s

def execVadd (k : CoreId) (s : State) : Host.Outcome State Fault Refusal := vqOp k 0x81 s
def execVsub (k : CoreId) (s : State) : Host.Outcome State Fault Refusal := vqOp k 0x82 s
def execVmul (k : CoreId) (s : State) : Host.Outcome State Fault Refusal := vqOp k 0x83 s
def execVfma (k : CoreId) (s : State) : Host.Outcome State Fault Refusal := vqOp k 0x84 s
def execVfnma (k : CoreId) (s : State) : Host.Outcome State Fault Refusal := vqOp k 0x85 s
def execVmin (k : CoreId) (s : State) : Host.Outcome State Fault Refusal := vqOp k 0x86 s
def execVmax (k : CoreId) (s : State) : Host.Outcome State Fault Refusal := vqOp k 0x87 s
def execVsadd (k : CoreId) (s : State) : Host.Outcome State Fault Refusal := vqOp k 0x88 s
def execVssub (k : CoreId) (s : State) : Host.Outcome State Fault Refusal := vqOp k 0x89 s
def execVmulh (k : CoreId) (s : State) : Host.Outcome State Fault Refusal := vqOp k 0x8A s
def execVand (k : CoreId) (s : State) : Host.Outcome State Fault Refusal := vqOp k 0x8B s
def execVor (k : CoreId) (s : State) : Host.Outcome State Fault Refusal := vqOp k 0x8C s
def execVxor (k : CoreId) (s : State) : Host.Outcome State Fault Refusal := vqOp k 0x8D s
def execVshl (k : CoreId) (s : State) : Host.Outcome State Fault Refusal := vqOp k 0x8E s
def execVshr (k : CoreId) (s : State) : Host.Outcome State Fault Refusal := vqOp k 0x8F s
def execVshrr (k : CoreId) (s : State) : Host.Outcome State Fault Refusal := vqOp k 0x90 s
def execVcmp (k : CoreId) (s : State) : Host.Outcome State Fault Refusal := vqOp k 0x91 s
def execVsel (k : CoreId) (s : State) : Host.Outcome State Fault Refusal := vqOp k 0x92 s
def execVidx (k : CoreId) (s : State) : Host.Outcome State Fault Refusal := vqOp k 0x93 s
def execVcvt (k : CoreId) (s : State) : Host.Outcome State Fault Refusal := vqOp k 0x98 s
def execVredsum (k : CoreId) (s : State) : Host.Outcome State Fault Refusal := vqOp k 0xA0 s
def execVredmax (k : CoreId) (s : State) : Host.Outcome State Fault Refusal := vqOp k 0xA1 s
def execVredmin (k : CoreId) (s : State) : Host.Outcome State Fault Refusal := vqOp k 0xA2 s
def execVredargmax (k : CoreId) (s : State) : Host.Outcome State Fault Refusal := vqOp k 0xA3 s
def execVperm (k : CoreId) (s : State) : Host.Outcome State Fault Refusal := vqOp k 0xA8 s
def execVslide (k : CoreId) (s : State) : Host.Outcome State Fault Refusal := vqOp k 0xA9 s
def execVfn (k : CoreId) (s : State) : Host.Outcome State Fault Refusal := vqOp k 0xB0 s
def execVacc (k : CoreId) (s : State) : Host.Outcome State Fault Refusal := vqOp k 0xB4 s
def execVld (k : CoreId) (s : State) : Host.Outcome State Fault Refusal := vqOp k 0xB8 s
def execVst (k : CoreId) (s : State) : Host.Outcome State Fault Refusal := vqOp k 0xB9 s
def execVpop (k : CoreId) (s : State) : Host.Outcome State Fault Refusal := vqOp k 0xBA s
def execVpush (k : CoreId) (s : State) : Host.Outcome State Fault Refusal := vqOp k 0xBB s

/-! ### Registers, starter mode (R126, R134) -/

/-- Register n: of the file, or in starter mode of the tile buffers. -/
def Vector.reg (v : Vector) (starter : Bool) (n : Nat) : BitVec 2048 :=
  if starter then lk 0 v.tb n else lk 0 v.regs n
def Vector.setReg (v : Vector) (starter : Bool) (n : Nat) (x : BitVec 2048) : Vector :=
  if starter then { v with tb := up v.tb n x } else { v with regs := up v.regs n x }

/-- Does the instruction read VB as a vector register? VLD, VST and VSLIDE do not, VCVT only when it narrows (R186). -/
def vbRead (w vt : Nat) : Bool :=
  match vUse (wOp w) with
  | none => false
  | some u =>
    u.vb && !wSB w &&
    (match wOp w with
     | 0xA9 => false
     | 0xB8 => false
     | 0xB9 => false
     | 0x98 => 2 * vtWidth (wVImm w) == vtWidth vt
     | _ => true)

/-- The registers an entry reads. -/
def vecSrcs (w vt : Nat) : List Nat :=
  match vUse (wOp w) with
  | none => []
  | some u =>
    (if u.va then [wA w] else []) ++ (if vbRead w vt then [wB w] else []) ++ (if u.vc then [wVC w] else []) ++
      (if wOp w = 0xB9 ∧ bit (wSub w) 0 then [wA w + 1] else [])

/-- The register an entry writes. -/
def vecDst (w : Nat) : Option Nat :=
  match vUse (wOp w) with
  | none => none
  | some u => if u.vd then some (wD w) else none

/-- The registers an entry names (R134): those it reads or writes, and VB of a VCVT also where it does not read it. -/
def vecNames (w vt : Nat) : List Nat :=
  vecSrcs w vt ++ (vecDst w).toList ++ (if wOp w = 0x98 then [wB w] else [])

/-- Tiles an entry of MQ writes (R196, R202, R203). -/
def mqTiles (w : Nat) : List Nat :=
  match wOp w with
  | 0xC0 => (List.range (2 ^ bits w 41 40)).map (fun j => 2 * (bits w 39 37 + j) + bits w 36 36)
  | 0xC2 => [bits w 55 52]
  | 0xC3 => (List.range 16).filter (fun t => bit (bits w 55 40) t)
  | _ => []

/-! ### Checks at acceptance -/

/-- Elements a VLD or VST moves (R192). -/
def vecCount (w vl : Nat) : Nat := if wOp w = 0xB9 ∧ bit (wSub w) 0 then 2 * vl else vl

/-- Bytes a VST writes (R97, R180, R193): the elements' bits, or whole groups. A handle on which nothing was ever created gives none
(log entry 142). -/
def vstBytes (f : DescF) (c : Nat) : Nat :=
  if f.ndim = 0 then 0 else if f.elem.isMx then cdiv c 128 * f.group else f.bytesOf c

/-- The amount of an entry's credit (R180, R431). -/
def Core.vecAmount (c : Core) (e : QEntry) : Nat :=
  match wOp e.w with
  | 0xB9 => vstBytes (c.fields (wVImm e.w)) (vecCount e.w e.vl)
  | 0xBB => e.vl * vtWidth e.vtype.toNat / 8
  | _ => 1

/-- Integer-only opcodes of Table 10-2. -/
def intOnly (op : Nat) : Bool := op == 0x88 || op == 0x89 || op == 0x8A || op == 0x8E || op == 0x8F || op == 0x90

/-- The checks of a memory entry (R90, R93, R192, R193). -/
def vecMemErr (c : Core) (k : Nat) (e : QEntry) : Option (Nat × List Nat) :=
  let h := e.hnd 0
  let f := c.fields h.h
  let st := wOp e.w == 0xB9
  let n := vecCount e.w e.vl
  let l0 := e.val 0
  let row := f.sz 0
  let sp := f.span
  firstErr [
    c.capErr h st,
    errIf (!inOwnLs k sp.1 sp.2) 0x11 [h.h, 18],
    errIf (decide (2 ^ 48 ≤ l0) || decide (f.elems < l0 + n)) 0x11 [h.h, 19],
    errIf (st && f.elem.isMx && (l0 % 128 ≠ 0 || (l0 % row) % 128 ≠ 0 || decide (row < l0 % row + n) ||
      !(n % 128 == 0 || l0 % row + n == row))) 0x11 [h.h, 21]]

/-- The first error of an entry at acceptance (R70, R90, R134, R181). -/
def vecErr (c : Core) (k : Nat) (e : QEntry) : Option (Nat × List Nat) :=
  let w := e.w
  let op := wOp w
  let vt := e.vtype.toNat
  let wt := vtWidth (wVImm w)
  let ws := vtWidth vt
  firstErr [
    errIf (c.vec.mode ≠ 0 && (vecNames w vt).any (fun r => decide (15 < r))) 0x10 [op, 24, 1],
    errIf ((intOnly op && vtKind vt == 0) || (op == 0xB0 && vtKind vt ≠ 0)) 0x10 [op, 25, 0],
    errIf (op == 0x98 && (wt == 4 * ws || ws == 4 * wt)) 0x10 [op, 26, 0],
    (if op = 0xB4 then
      let t := (lk Tile.reset c.mx.acc (bits w 3 0)).tag
      errIf (t ≠ 2 && ((t == 0) != (vtKind vt == 0))) 0x10 [op, 27, 0]
     else none),
    (if op = 0xB8 ∨ op = 0xB9 then vecMemErr c k e else none)]

/-- Presented indices of elements L0 to L0 + n − 1 (R192). -/
def linIdx (f : DescF) (l0 n : Nat) : List (List Nat) := (List.range n).map (fun i => unlin f.presented (l0 + i))

/-- Smallest and largest of a list of addresses. -/
def boundsOf (l : List Nat) : List (Nat × Nat) :=
  match l with
  | [] => []
  | a :: r => [(r.foldl min a, r.foldl max a)]

/-- Entries a VPOP or VPUSH moves (R181). -/
def vecEntries (e : QEntry) : Nat := cdiv (e.vl * vtWidth e.vtype.toNat) 512

/-- Is a VPOP held at an empty queue, a VPUSH at a full one (R49, R194)? -/
def Job.vecHeld (c : Core) (j : Job) : Bool :=
  let q := lk [] c.dq (bits j.ent.w 2 0)
  match wOp j.ent.w with
  | 0xBA => q.isEmpty && decide (j.popped.length < vecEntries j.ent)
  | 0xBB => decide (16 ≤ q.length) && !j.owed.isEmpty
  | _ => false

/-- Is the entry held: by a register or a tile that is still being written, a tile also by an operation that was dispatched earlier
and waits in MQ (R7, R47, R120, R130, R179), or by an engine that holds its instruction at a data queue (R49)? -/
def vecHold (c : Core) (e : QEntry) : Bool :=
  let w := e.w
  let regs := vecSrcs w e.vtype.toNat ++ (vecDst w).toList
  let mem := fun (op : Nat) => op == 0xB8 || op == 0xB9 || op == 0xBA || op == 0xBB
  (wOp w == 0xB4 && c.mq.any (fun m => decide (m.num < e.num) && (mqTiles m.w).contains (bits w 3 0))) ||
  c.jobs.any (fun j =>
    match j.eng with
    | .vq =>
      j.vecHeld c || (j.ent.vl ≠ 0 && (vecDst j.ent.w).any (fun r => regs.contains r)) ||
      (mem (wOp w) && (wOp j.ent.w == 0xBA || wOp j.ent.w == 0xBB))
    | .mq => wOp w == 0xB4 && (mqTiles j.ent.w).contains (bits w 3 0)
    | .tq => false)

/-! ### Stores -/

/-- Lane values to be stored, in element order: VA, then VA + 1 with PAIR (R192). -/
def Job.storeLanes (j : Job) : List Nat :=
  let w := vtWidth j.ent.vtype.toNat
  lanes w j.ent.vl (j.srcs.getD 0 0) ++
    (if bit (wSub j.ent.w) 0 then lanes w j.ent.vl (j.srcs.getD 3 0) else [])

/-- The masked bytes of one MX block: its scale byte and its 32 elements (R66, R97). -/
def mxBlock (f : DescF) (p0 : List Nat) (vs : List Val) : List MByte × NFlags :=
  let (s, es, fl) := mxQuantise f.elem vs
  let at_ := fun i => f.loc ((p0.getD 0 0 + i) :: p0.drop 1)
  ((es.zipIdx.flatMap (fun (x, i) => (at_ i).elim [] (fun l => writeBits l.bitAddr f.width x))) ++
    ((at_ 0).elim [] (fun l => l.scale.toList.map (fun a => ⟨a, 0xFF, BitVec.ofNat 8 s⟩))), fl)

/-- The bytes and flags of a VST (R132, R192, R193). -/
def Job.vst (j : Job) : List MByte × NFlags :=
  let e := j.ent
  let f := j.descs.getD 0 DescF.zero
  let vt := e.vtype.toNat
  let ls := j.storeLanes
  if f.elem.isMx then
    let p := unlin f.presented (e.val 0)
    let nb := 4 * cdiv ls.length 128
    let bs := (List.range nb).map (fun b =>
      mxBlock f ((p.getD 0 0 + 32 * b) :: p.drop 1)
        ((List.range 32).map (fun i => (ls[32 * b + i]?).elim (.fin false 0 0) (laneVal vt))))
    ((bs.map Prod.fst).flatten, flagsOf (bs.map Prod.snd))
  else
    let rs := ls.map (fun b => f.elem.convert (laneVal vt b) (wSat e.w))
    (((linIdx f (e.val 0) ls.length).zip rs).flatMap (fun (p, r) =>
      (f.loc p).elim [] (fun l => writeBits l.bitAddr f.width r.1)), flagsOf (rs.map Prod.snd))

/-- The bytes a VPUSH pushes, padded to whole entries (R194). -/
def Job.pushBytes (j : Job) : List Byte :=
  let n := j.ent.vl * vtWidth j.ent.vtype.toNat / 8
  natLe ((j.srcs.getD 0 0).toNat % 2 ^ (8 * n)) (64 * cdiv n 64)

/-! ### Acceptance (R130) -/

/-- The ranges an entry reads, its guarded destination (R150, R151). -/
def vecRanges (c : Core) (k : Nat) (e : QEntry) : List Nat × Option (Nat × Nat) :=
  let f := c.fields (wVImm e.w)
  match wOp e.w with
  | 0xB8 => (if e.vl = 0 then [] else f.addrs (linIdx f (e.val 0) e.vl), none)
  | 0xB9 => ([], if e.vl ≠ 0 ∧ guarded k f.span then some f.span else none)
  | _ => ([], none)

/-- The job of an accepted entry: source registers and tile read now (R179). -/
def vecJob (c : Core) (e : QEntry) : Job :=
  let st : Bool := decide (c.vec.mode ≠ 0)
  let w := e.w
  { Job.new c.newJob .vq .vec e with
    descs := if vecHandles w = [] then [] else [c.fields (wVImm w)]
    srcs := [c.vec.reg st (wA w), c.vec.reg st (wB w), c.vec.reg st (wVC w), c.vec.reg st (wA w + 1)]
    tiles := if wOp w = 0xB4 then [lk Tile.reset c.mx.acc (bits w 3 0)] else []
    starter := st }

/-- A parity error on a register read (R136): the record names VRF (2), the register and the lane. -/
def vecParity (d : Dev) (k : Nat) (e : QEntry) (reg ln : Nat) : Dev :=
  let c := d.core k
  let v := { c.vec with parErr := true, parCnt := satAdd c.vec.parCnt 1, mode := 3, passed := false }
  let d := (d.setCore k { c.dropHead .vq with vec := v }.startBist).raiseStep k 0x02 [2, reg, ln]
  d.creditIf (wVCr e.w) (wVSyn e.w) (c.vecAmount e) 3

/-- VQ_ACCEPT (R130). `parity` names a register and lane whose read fails parity (R136). -/
def execVqAccept (k : CoreId) (parity : Option (Nat × Nat)) (s : State) : Host.Outcome State Fault Refusal :=
  lift (fun d =>
    let c := d.core k
    match c.vq with
    | [] => d
    | e :: _ =>
      if !d.clocked k || vecHold c e then d
      else
        match vecErr c k e with
        | some x =>
          ((d.setCore k (c.dropHead .vq)).raiseFail k x).creditIf (wVCr e.w && c.vecAmount e ≠ 0) (wVSyn e.w)
            (c.vecAmount e) 3
        | none =>
          let (src, dst) := vecRanges c k e
          if c.guardHold (boundsOf src) dst then d
          else
            match parity with
            | some (r, l) =>
              if c.vec.mode = 0 ∧ e.vl ≠ 0 ∧ (vecSrcs e.w e.vtype.toNat).contains r then vecParity d k e r l else d
            | none =>
              let j := vecJob c e
              let d := d.setCore k (c.startJob j (boundsOf src) dst)
              match wOp e.w with
              | 0xB8 => (d.issueReads k j.id .vecMem 4 src).issueJob k j.id
              | 0xB9 => d.issueStores k j.id .vecMem 4 true [j.vst.1]
              | 0xBB => d.updCore k (fun c => c.updJob j.id (fun j => { j with owed := j.pushBytes, issued := true }))
              | _ => d.issueJob k j.id) s

/-! ### Completion (R180) -/

/-- What an entry writes, from what its job captured and read. -/
def Job.vecRes (j : Job) : VRes :=
  let e := j.ent
  let w := e.w
  let op := wOp w
  let vt := e.vtype.toNat
  let wd := vtWidth vt
  let vl := e.vl
  let a := j.srcs.getD 0 0
  let b := j.srcs.getD 1 0
  let f := j.descs.getD 0 DescF.zero
  match op with
  | 0x93 => VRes.ofList wd ((List.range vl).map (fun (i : Nat) =>
      if vtKind vt = 0 then (vtFmt vt).encode (Val.ofDy (Dy.ofInt i)) false else (i % 2 ^ wd, {})))
  | 0x98 => vcvt vt (wVImm w) vl (wSat w) (bit (wSub w) 0) a b
  | 0xA0 | 0xA1 | 0xA2 => vred op vt vl (wSat w) a
  | 0xA3 => vargmax vt vl a
  | 0xA8 => vperm vt vl a b
  | 0xA9 => vslide vt vl (if wSB w then (e.vals.getD 0 0).toInt else sext (wVImm w) 14) a
  | 0xB0 => vfn (wSub w) vt vl Config.geluZeroSign a
  | 0xB4 => vacc vt vl (bits w 7 4) (wSat w) (j.tiles.getD 0 Tile.reset)
  | 0xB8 => VRes.ofList wd ((linIdx f (e.val 0) vl).map (fun p => toLane vt (f.rdVal j.rd p) (wSat w)))
  | 0xB9 => ⟨wd, [], j.vst.2, 0⟩
  | 0xBA =>
    let v := (j.popped.zipIdx.map (fun x => x.1.toNat * 2 ^ (512 * x.2))).sum
    VRes.ofList wd ((List.range vl).map (fun i => (v / 2 ^ (wd * i) % 2 ^ wd, {})))
  | 0xBB => ⟨wd, [], {}, 0⟩
  | _ =>
    let ys := if wSB w then List.replicate vl (e.val 0 % 2 ^ wd) else lanes wd vl b
    VRes.ofList wd (((lanes wd vl a).zip (ys.zip (lanes wd vl (j.srcs.getD 2 0)))).map (fun (x, y, z) =>
      aluLane op (wSub w) vt (wSat w) x y z))

/-- Pop what a VPOP still needs, as far as its queue goes (R194). -/
def popMore (c : Core) (id q : Nat) : Nat → Core
  | 0 => c
  | n + 1 =>
    match lk [] c.dq q with
    | [] => c
    | x :: r => popMore ({ c with dq := up c.dq q r }.updJob id (fun j => { j with popped := j.popped ++ [x] })) id q n

/-- Write an entry's result, set its flags, end its job. -/
def Core.vecWrite (c : Core) (j : Job) : Core :=
  let c := c.endJob j.id
  if j.ent.vl = 0 then c
  else
    let r := j.vecRes
    let v := match vecDst j.ent.w with
      | some n => c.vec.setReg j.starter n (r.apply (c.vec.reg j.starter n))
      | none => c.vec
    { c with vec := v }.flag (r.fl.vBits + r.exa)

/-- VQ_ENTRY_COMPLETE (R180): the i-th job in flight, if it is a vector entry whose reads are in and whose writes are
granted. VPOP first takes its entries, VPUSH gives them, as far as the queue goes (R49, R194). -/
def execVqEntryComplete (k : CoreId) (i : Nat) (s : State) : Host.Outcome State Fault Refusal :=
  lift (fun d =>
    let c := d.core k
    match c.jobs[i]? with
    | none => d
    | some j =>
      if j.eng ≠ .vq || !j.issued || j.rdLeft ≠ 0 || j.wrLeft ≠ 0 || j.lost || !d.clocked k then d
      else
        let w := j.ent.w
        let q := bits w 2 0
        let c1 := match wOp w with
          | 0xBA => popMore c j.id q (vecEntries j.ent - j.popped.length)
          | 0xBB => pushOwed c j.id q (j.owed.length / 64 + 1) j.owed
          | _ => c
        match c1.jobs[i]? with
        | none => d
        | some j1 =>
          if (wOp w = 0xBA ∧ j1.popped.length < vecEntries j.ent) ∨ (wOp w = 0xBB ∧ j1.owed ≠ []) then d.setCore k c1
          else
            let n := match wOp w with
              | 0xB9 => vstBytes (j.descs.getD 0 DescF.zero) (vecCount w j.ent.vl)
              | 0xBB => j.ent.vl * vtWidth j.ent.vtype.toNat / 8
              | _ => 1
            (d.setCore k (c1.vecWrite j1)).creditIf (wVCr w && n ≠ 0) (wVSyn w) n 3) s

/-- VRF_BIST_END (R135, R136): after 65,536 cycles. On a pass v0 to v31 read 0 and register mode returns at the next step boundary;
on a failure the core is HALTED and the record carries VRF_BIST (3) with class PARTITION. -/
def execVrfBistEnd (k : CoreId) (pass : Bool) (s : State) : Host.Outcome State Fault Refusal :=
  lift (fun d =>
    let c := d.core k
    match c.vec.bist with
    | some 0 =>
      if pass then d.setCore k { c with vec := { c.vec with regs := [], bist := none, passed := true } }
      else
        let p := d.partOf k
        (d.setCore k { c.halt .error with vec := { c.vec with bist := none } }).raise
          { code := 0x02, cls := 2, source := 0, core := k, pmask := pmaskOf p, fpid := d.fpidOf p, detail := [3] }
    | _ => d) s

end Sys2Proof.Machine
end

