-- ==== Sys2Proof/Machine/MatUnit.lean ====
section
/-! DEFINITION. The matrix unit (R107 to R125, R195 to R204): dispatch into MQ, acceptance, the pass of an MMUL, the
checksum comparison, accumulator transfers. -/

namespace Sys2Proof.Machine

/-! ### Dispatch (R195, Table 10-4) -/

def execMmul (k : CoreId) (s : State) : Host.Outcome State Fault Refusal :=
  enqueue k .E 0xC0 .mq (fun w => [bits w 55 50, bits w 49 44]) (fun w => [bits w 31 27, bits w 26 22, bits w 21 17]) s

/-- The MODE bit of the word the execute sequencer stands at. -/
def mstoreMode (s : State) (k : Nat) : Bool := bit (fetch s.mem k .E (s.dev.core k).e.pc) 40

/-- MSTORE with MODE = 0 (R199). -/
def execMstore (k : CoreId) (s : State) : Host.Outcome State Fault Refusal :=
  if mstoreMode s k then .next s
  else enqueue k .E 0xC1 .mq (fun w => [bits w 51 46]) (fun w => [bits w 45 41]) s

/-- MSTORE with MODE = 1 (R200). -/
def execMstorePress (k : CoreId) (s : State) : Host.Outcome State Fault Refusal :=
  if mstoreMode s k then enqueue k .E 0xC1 .mq (fun _ => []) (fun w => [bits w 45 41]) s else .next s

def execMldacc (k : CoreId) (s : State) : Host.Outcome State Fault Refusal :=
  enqueue k .E 0xC2 .mq (fun _ => []) (fun w => [bits w 48 44]) s
def execMclr (k : CoreId) (s : State) : Host.Outcome State Fault Refusal :=
  enqueue k .E 0xC3 .mq (fun _ => []) (fun _ => []) s

/-! ### The pass of an MMUL (R196, Table 10-5) -/

/-- The parameters of a pass. -/
structure Pass where
  a : DescF
  b : DescF
  df : Nat
  g : Nat
  first : Nat
  bank : Nat
  zero : Bool
  keep : Bool
  exa : Bool
  p : Nat
  m0 : Nat
  n0 : Nat
  kb : Nat
  kn : Nat
  rskip : Nat
  rcnt : Nat
  ha : Nat
  hb : Nat
  deriving DecidableEq, Repr

/-- Decode a word, its operand registers s(O), s(X), s(H) and the two descriptors. -/
def mkPass (e : QEntry) (a b : DescF) : Pass :=
  let w := e.w
  let o := e.val 0
  let x := e.val 1
  let h := e.val 2
  let p := min a.elem.rate b.elem.rate
  let os := bits w 43 42 == 1
  { a := a, b := b, df := bits w 43 42, g := 2 ^ bits w 41 40, first := bits w 39 37, bank := bits w 36 36,
    zero := !bit w 35, keep := bits w 34 33 == 1, exa := bit w 32, p := p,
    m0 := bits o 23 0, n0 := bits o 47 24, kb := 16 * p * bits o 63 48,
    kn := if os then p * bits x 31 16 else 16 * p, rskip := bits x 63 48, rcnt := if os then 16 else bits x 4 0,
    ha := bits h 23 0, hb := bits h 47 24 }

/-- Presented size n of a descriptor; a dimension it does not have counts 1. -/
def DescF.ps (f : DescF) (n : Nat) : Nat := f.presented.getD n 1

/-- Origin of array j's output tile (R110). -/
def Pass.mt (q : Pass) (j : Nat) : Nat := if q.df = 2 then q.m0 + 16 * j else q.m0
def Pass.nt (q : Pass) (j : Nat) : Nat := if q.df = 2 then q.n0 else q.n0 + 16 * j

/-- Is tile row r, column c live in the pass (R196)? -/
def Pass.rowLive (q : Pass) (r : Nat) : Bool := !bit q.rskip r && (q.df ≠ 0 || decide (r < q.rcnt))
def Pass.colLive (q : Pass) (c : Nat) : Bool := q.df ≠ 2 || decide (c < q.rcnt)
/-- Valid under R117. -/
def Pass.rowOk (q : Pass) (j r : Nat) : Bool := q.rowLive r && decide (q.mt j + r < q.a.ps 1)
def Pass.colOk (q : Pass) (j c : Nat) : Bool := q.colLive c && decide (q.nt j + c < q.b.ps 1)

/-- The k of the pass that are valid in both operands (R117). -/
def Pass.ks (q : Pass) : List Nat :=
  (List.range q.kn).filterMap (fun i => if q.kb + i < min (q.a.ps 0) (q.b.ps 0) then some (q.kb + i) else none)

/-- Presented indices of a(m, k) and b(n, k). -/
def Pass.aIdx (q : Pass) (m k : Nat) : List Nat := [k, m, q.ha, 0, 0]
def Pass.bIdx (q : Pass) (n k : Nat) : List Nat := [k, n, q.hb, 0, 0]

/-- Is A the stationary operand (IS), is B (WS)? -/
def Pass.aStat (q : Pass) : Bool := q.df == 2
def Pass.bStat (q : Pass) : Bool := q.df == 0

/-- Elements of A and of B the pass reads (R117, R196): live rows and columns; a kept stationary tile is not read, a
loaded one is read whole but for rows masked by RSKIP. -/
def Pass.aReads (q : Pass) : List (List Nat) :=
  if q.aStat && q.keep then []
  else
    (List.range (if q.aStat then q.g else 1)).flatMap (fun j => (List.range 16).flatMap (fun r =>
      if q.rowOk j r then q.ks.map (q.aIdx (q.mt j + r)) else []))
def Pass.bReads (q : Pass) : List (List Nat) :=
  if q.bStat && q.keep then []
  else
    (List.range (if q.aStat then 1 else q.g)).flatMap (fun j => (List.range 16).flatMap (fun c =>
      if q.colOk j c then q.ks.map (q.bIdx (q.nt j + c)) else []))

/-- Byte addresses a feeder reads for presented elements: of an MX operand whole groups (R109). -/
def DescF.feed (f : DescF) (ps : List (List Nat)) : List Nat :=
  if f.elem.isMx then
    (distinct (ps.map f.groupAddr)).flatMap (fun a => (List.range f.group).map (fun j => a + j))
  else f.addrs ps

/-- An operand value as a cell holds it: encoding, scale byte, whether it is valid. -/
def cellOf (f : DescF) (rd : Nat → Byte) (p : List Nat) : BitVec 64 :=
  BitVec.ofNat 64 (f.rdEnc rd p + f.rdScale rd p * 2 ^ 32 + 2 ^ 40)
/-- The value of a cell, read in the format of the operation at hand; none when invalid. -/
def cellVal (f : DescF) (c : BitVec 64) : Option Val :=
  if bit c.toNat 40 then some (f.elem.decode (c.toNat % 2 ^ 32) (bits c.toNat 39 32)) else none

/-- Does the pass stage a stationary tile: WS or IS without KEEP (R114)? -/
def Pass.loads (q : Pass) : Bool := q.df != 1 && !q.keep

/-- The stationary tile of array j, key 16·(k − kb) + index along m or n (R113, R114). An element that is not live in this pass, or
whose k lies beyond the other operand's presented size, is not staged and is invalid to a later KEEP (log entry 141). -/
def Pass.stage (q : Pass) (rd : Nat → Byte) (j : Nat) : SMap (BitVec 64) :=
  (List.range 16).foldl (fun m c => q.ks.foldl (fun m k =>
    if q.aStat then (if q.rowOk j c then up m (16 * (k - q.kb) + c) (cellOf q.a rd (q.aIdx (q.mt j + c) k)) else m)
    else if q.colOk j c then up m (16 * (k - q.kb) + c) (cellOf q.b rd (q.bIdx (q.nt j + c) k)) else m) m) []

/-- a(mt + r, k) and b(nt + c, k) of array j with its stationary tile. -/
def Pass.aVal (q : Pass) (rd : Nat → Byte) (st : SMap (BitVec 64)) (j r k : Nat) : Option Val :=
  if !q.rowOk j r then none
  else if q.aStat then cellVal q.a (lk 0 st (16 * (k - q.kb) + r))
  else some (q.a.rdVal rd (q.aIdx (q.mt j + r) k))
def Pass.bVal (q : Pass) (rd : Nat → Byte) (st : SMap (BitVec 64)) (j c k : Nat) : Option Val :=
  if !q.colOk j c then none
  else if q.bStat then cellVal q.b (lk 0 st (16 * (k - q.kb) + c))
  else some (q.b.rdVal rd (q.bIdx (q.nt j + c) k))

/-- Length of a chunk (R73, R108) or of an EXA block (R75). -/
def Pass.chunk (q : Pass) : Nat := if q.exa || q.a.elem.isMx || q.b.elem.isMx then 32 else 16 * q.p

/-- The k of the pass chunk by chunk, in order. -/
def Pass.kChunks (q : Pass) : List (List Nat) :=
  (List.range (cdiv q.kn q.chunk)).map (fun i =>
    q.ks.filter (fun k => decide (q.kb + i * q.chunk ≤ k ∧ k < q.kb + (i + 1) * q.chunk)))

/-- The products of element [r][c] over some k. -/
def Pass.products (q : Pass) (rd : Nat → Byte) (st : SMap (BitVec 64)) (j r c : Nat) (ks : List Nat) :
    List (Val × NFlags) :=
  ks.filterMap (fun k =>
    match q.aVal rd st j r k, q.bVal rd st j c k with
    | some x, some y => some (x.mul y)
    | _, _ => none)

/-- The tag ZERO would set (R111). -/
def Pass.tag (q : Pass) : Nat := if q.exa then 2 else if q.a.elem.isInt then 1 else 0

/-- The tile of array j after the pass, with the flags (R196). -/
def Pass.run (q : Pass) (rd : Nat → Byte) (st : SMap (BitVec 64)) (j : Nat) (t : Tile) : Tile × NFlags :=
  let t := if q.zero then ⟨q.tag, []⟩ else t
  (List.range 256).foldl (fun (t, f) i =>
    let r := i / 16
    let c := i % 16
    if q.rowOk j r && q.colOk j c then
      let (x, g) := q.kChunks.foldl (fun (x, f) ks =>
        let (y, h) := accChunk t.tag x (q.products rd st j r c ks)
        (y, NFlags.or f h)) (t.at r c, {})
      (⟨t.tag, up t.el i x⟩, NFlags.or f g)
    else (t, f)) (t, {})

/-! ### Checksums (R122 to R124) -/

def optDy (o : Option Val) : Dy := o.elim ⟨0, 0⟩ Val.dy
def nonFinite (o : Option Val) : Bool := o.elim false (fun v => v.isNan || v.isInf)

/-- The comparison that is due for array j: for each row compared (row, CC, Σ ρ(P)), likewise each column. -/
def Pass.due (q : Pass) (rd : Nat → Byte) (st : SMap (BitVec 64)) (j : Nat) : CkDue :=
  let rs := (List.range 16).filter (q.rowOk j)
  let cs := (List.range 16).filter (q.colOk j)
  let av := q.aVal rd st j
  let bv := q.bVal rd st j
  let badRow := fun r => q.ks.any (fun k => nonFinite (av r k))
  let badCol := fun c => q.ks.any (fun k => nonFinite (bv c k))
  let anyA := rs.any badRow
  let anyB := cs.any badCol
  let part := fun r c => rho (sumDy ((q.products rd st j r c q.ks).map Prod.fst))
  let sumB := fun k => rho (cs.foldl (fun a c => a.add (optDy (bv c k))) ⟨0, 0⟩)
  let sumA := fun k => rho (rs.foldl (fun a r => a.add (optDy (av r k))) ⟨0, 0⟩)
  { array := q.first + j, df := q.df,
    rows := if anyB then [] else (rs.filter (fun r => !badRow r)).map (fun r =>
      (r, q.ks.foldl (fun a k => addQ a (mulQ (rho (optDy (av r k))) (sumB k))) 0, cs.foldl (fun a c => addQ a (part r c)) 0)),
    cols := if anyA then [] else (cs.filter (fun c => !badCol c)).map (fun c =>
      (c, q.ks.foldl (fun a k => addQ a (mulQ (sumA k) (rho (optDy (bv c k))))) 0, rs.foldl (fun a r => addQ a (part r c)) 0)) }

/-! ### Acceptance (R112, R197) -/

/-- The tag an operation in flight leaves on its tiles. -/
def mqTag (j : Job) : Option Nat :=
  let w := j.ent.w
  match wOp w with
  | 0xC0 => some (mkPass j.ent (j.descs.getD 0 DescF.zero) (j.descs.getD 1 DescF.zero)).tag
  | 0xC2 => some (bits w 51 50)
  | 0xC3 => some (bits w 39 38)
  | _ => none

/-- The tag of tile t once every earlier operation on it is done. -/
def Core.tagAfter (c : Core) (t : Nat) : Nat :=
  c.jobs.foldl (fun g j =>
    match j.eng with
    | .mq => if (mqTiles j.ent.w).contains t then (mqTag j).getD g else g
    | _ => g) (lk Tile.reset c.mx.acc t).tag

/-- The tile a job reads: VACC, MSTORE. -/
def Job.readsTile (j : Job) (t : Nat) : Bool :=
  match j.eng with
  | .vq => wOp j.ent.w == 0xB4 && bits j.ent.w 3 0 == t
  | .mq => wOp j.ent.w == 0xC1 && bits j.ent.w 55 52 == t
  | .tq => false
/-- Does a job write tile t? -/
def Job.writesTile (j : Job) (t : Nat) : Bool :=
  match j.eng with
  | .mq => (mqTiles j.ent.w).contains t
  | _ => false

/-- The checks of an MMUL (R93, R108, R111, R197). -/
def mmulErr (c : Core) (e : QEntry) : Option (Nat × List Nat) :=
  let ha := e.hnd 0
  let hb := e.hnd 1
  let a := c.fields ha.h
  let b := c.fields hb.h
  let q := mkPass e a b
  let x := e.val 1
  let os := q.df == 1
  let j := bits x 31 16
  let r := bits x 4 0
  firstErr [
    c.capErr ha false, c.capErr hb false,
    errIf (bits x 47 32 ≠ 0 || bits x 15 5 ≠ 0 || decide (2 ^ 48 ≤ e.val 2)) 0x11 [ha.h, 17],
    errIf (if os then j == 0 || r ≠ 0 else j ≠ 0 || r == 0 || decide (16 < r)) 0x11 [ha.h, 28],
    errIf (decide (a.ps 2 ≤ q.ha)) 0x11 [ha.h, 29],
    errIf (decide (b.ps 2 ≤ q.hb)) 0x11 [hb.h, 29],
    errIf (a.fmt == 0 || a.fmt == 0x0B || b.fmt == 0 || b.fmt == 0x0B) 0x10 [0xC0, 30, 0],
    errIf (a.elem.isInt != b.elem.isInt) 0x10 [0xC0, 31, 0],
    errIf (q.exa && (a.elem.is16 || b.elem.is16)) 0x10 [0xC0, 32, 0],
    errIf ((a.elem.isMx && b.elem.is16) || (b.elem.isMx && a.elem.is16)) 0x10 [0xC0, 33, 0],
    errIf (!q.zero && (mqTiles e.w).any (fun t => c.tagAfter t ≠ q.tag)) 0x10 [0xC0, 34, 0]]

/-- The elements an MSTORE writes: tile row, tile column, presented index (R199). -/
def mstoreEls (f : DescF) (o : Nat) : List (Nat × Nat × List Nat) :=
  let c0 := bits o 23 0
  let r0 := bits o 47 24
  let s := f.storeSizes
  (List.range 256).filterMap (fun i =>
    if c0 + i % 16 < s.getD 0 1 ∧ r0 + i / 16 < s.getD 1 1 ∧ f.ndim ≠ 0 then
      some (i / 16, i % 16, [c0 + i % 16, r0 + i / 16, 0, 0, 0])
    else none)

def mstoreErr (c : Core) (e : QEntry) : Option (Nat × List Nat) :=
  let h := e.hnd 0
  let f := c.fields h.h
  let tag := (lk Tile.reset c.mx.acc (bits e.w 55 52)).tag
  firstErr [
    c.capErr h true,
    errIf (decide (2 ^ 48 ≤ e.val 0)) 0x11 [h.h, 17],
    errIf f.elem.isMx 0x10 [0xC1, 20, 0],
    errIf (tag ≠ 2 && ((tag == 1) != f.elem.isInt)) 0x10 [0xC1, 27, 0]]

/-- Flits of a press store: 16, or 128 of an EXA tile (R200). -/
def pressFlits (tag : Nat) : Nat := if tag = 2 then 128 else 16

def pressErr (c : Core) (p k : Nat) (e : QEntry) : Option (Nat × List Nat) :=
  let b := e.val 0
  let tag := (lk Tile.reset c.mx.acc (bits e.w 55 52)).tag
  firstErr [
    errIf (decide (2 ^ 32 ≤ b)) 0x11 [0xFF, 17],
    errIf (tag == 1) 0x10 [0xC1, 27, 0],
    errIf (decide (2 ^ 14 < bits b 23 10 + pressFlits tag)) 0x11 [0xFF, 22],
    errIf (decide (767 < bits b 9 0)) 0x20 [p, k, 0]]

/-- Bytes an MLDACC reads (R202). -/
def mldaccBytes (w : Nat) : Nat := if bits w 51 50 = 2 then 8192 else 1024

def mldaccErr (c : Core) (e : QEntry) : Option (Nat × List Nat) :=
  let a := e.val 0
  firstErr [
    errIf (decide (2 ^ 20 ≤ a) || a % 64 ≠ 0 || decide (2 ^ 20 < a + mldaccBytes e.w)) 0x11 [0xFF, 22],
    errIf (bit e.w 49 && c.tagAfter (bits e.w 55 52) ≠ bits e.w 51 50) 0x10 [0xC2, 34, 0]]

def mqErr (c : Core) (p k : Nat) (e : QEntry) : Option (Nat × List Nat) :=
  match wOp e.w with
  | 0xC0 => mmulErr c e
  | 0xC1 => if bit e.w 40 then pressErr c p k e else mstoreErr c e
  | 0xC2 => mldaccErr c e
  | _ => none

/-- Arrays of an MMUL's gang. -/
def mmulArrays (w : Nat) : List Nat := (List.range (2 ^ bits w 41 40)).map (fun j => bits w 39 37 + j)

/-- Does an MMUL in flight work on one of the arrays of this word? -/
def Job.onArrays (j : Job) (w : Nat) : Bool :=
  j.kind == .mmul && (mmulArrays w).any (fun a => (mmulArrays j.ent.w).contains a)

/-- Does an entry wait: an MMUL for arrays on which an earlier one has not become active (R112, R198), any other for a tile (R47,
R120, R202, R203)? -/
def mqHold (c : Core) (e : QEntry) : Bool :=
  match wOp e.w with
  | 0xC0 => c.jobs.any (fun j => j.onArrays e.w && !j.active)
  | 0xC1 => c.jobs.any (fun j => j.writesTile (bits e.w 55 52))
  | _ => (mqTiles e.w).any (fun t => c.jobs.any (fun j => j.writesTile t || j.readsTile t))

/-- CR, SYN and amount of an MQ word; none credits nothing (R116, R199, R202, R203). The amount of a failing MSTORE counts element
bits also where its descriptor is an MX one (log entry 144). -/
def mqCredit (e : QEntry) (d : DescF) : Option (Nat × Nat) :=
  let w := e.w
  match wOp w with
  | 0xC0 => if bit w 15 then some (bits w 14 0, 1) else none
  | 0xC1 => if bit w 23 && !bit w 40 then some (bits w 38 24, d.bytesOf (mstoreEls d (e.val 0)).length) else none
  | 0xC2 => if bit w 28 then some (bits w 43 29, 1) else none
  | _ => none

def Dev.creditPair (d : Dev) (o : Option (Nat × Nat)) : Dev :=
  match o with
  | some (s, n) => if n = 0 then d else d.credit s n 4
  | none => d

/-- The header of a press store's message (R200). -/
def pressHdr (d : Dev) (k : Nat) (e : QEntry) (off flits : Nat) : BitVec 64 :=
  let b := e.val 0
  mkHdr (d.partOf k) 0 2 (d.posOf (bits b 9 0)) 0 (bits b 31 24) (bits e.w 38 24) (bits b 23 10 + off) (flits - 1)

/-- The flits of a press store (R200). -/
def pressSend (d : Dev) (k : Nat) (e : QEntry) (t : Tile) : List Flit :=
  let cr := bit e.w 23
  if t.tag = 2 then
    let fl := fun n => BitVec.ofNat 512 ((t.at (n / 8) (2 * (n % 8))).toNat + (t.at (n / 8) (2 * (n % 8) + 1)).toNat * 2 ^ 256)
    mkFlits (pressHdr d k e 0 64) k cr none ((List.range 64).map fl) ++
      mkFlits (pressHdr d k e 64 64) k cr none ((List.range 64).map (fun n => fl (64 + n)))
  else
    mkFlits (pressHdr d k e 0 16) k cr none ((List.range 16).map (fun i =>
      BitVec.ofNat 512 ((packBits ((List.range 16).map (fun j => ((t.at i j).toNat % 2 ^ 32, 32)))).1)))

/-- The credit of a failed MQ entry (R431): local, or for a press store one header-only packet with the whole count
(R168, R200). -/
def Dev.failMq (d : Dev) (k : Nat) (e : QEntry) (code : Nat) : Dev :=
  let c := d.core k
  if wOp e.w = 0xC1 ∧ bit e.w 40 then
    if code = 0x20 ∨ 767 < bits (e.val 0) 9 0 ∨ !bit e.w 23 then d
    else
      let n := pressFlits (lk Tile.reset c.mx.acc (bits e.w 55 52)).tag
      d.injectM k [{ hdr := pressHdr d k e 0 1, idx := 0, data := 0, src := k, credit := true, amount := some (64 * n),
                     fab := none }]
  else d.creditPair (mqCredit e (c.fields (e.hnd 0).h))

/-- Converted elements of an MSTORE: encodings with flags, and the EXA bits (R78, R121). -/
def mstoreConv (f : DescF) (e : QEntry) (t : Tile) : List ((Nat × NFlags) × List Nat) :=
  (mstoreEls f (e.val 0)).map (fun (i, j, p) => (f.elem.convert (t.val (t.at i j)) (bit e.w 39), p))

/-- The bytes an MSTORE writes, row by row (R121, R199). -/
def mstoreRows (f : DescF) (e : QEntry) (t : Tile) : List (List MByte) :=
  let l := (mstoreEls f (e.val 0)).zip (mstoreConv f e t)
  (List.range 16).map (fun i => (l.filter (fun x => x.1.1 == i)).flatMap (fun x =>
    writeBits (f.storeLoc x.2.2).bitAddr f.width x.2.1.1))

/-! ### Staging (R114, R198) -/

/-- The pass of an MMUL in flight. -/
def Job.pass (j : Job) : Pass := mkPass j.ent (j.descs.getD 0 DescF.zero) (j.descs.getD 1 DescF.zero)

/-- Does an earlier job keep an MMUL's arrays or tiles from it? -/
def Core.arraysBusy (c : Core) (j : Job) : Bool :=
  (c.jobs.takeWhile (fun x => x.id ≠ j.id)).any (fun x => x.onArrays j.ent.w || (mqTiles j.ent.w).any (fun t => x.writesTile t))

/-- The tile an OS pass loads into the cells of array j (R111, R114). -/
def Core.osStart (c : Core) (q : Pass) (j : Nat) : Tile :=
  if q.zero then ⟨q.tag, []⟩ else lk Tile.reset c.mx.acc (2 * (q.first + j) + q.bank)

/-- A staged tile is in the shadow registers. -/
def Core.stageJob (c : Core) (j : Job) : Core :=
  let q := j.pass
  let mx := if q.loads then
      { c.mx with statShadow := (List.range q.g).foldl (fun m i => up m (q.first + i) (q.stage j.rd i)) c.mx.statShadow }
    else c.mx
  { c with mx := mx }.updJob j.id (fun x => { x with staged := true })

/-- The shadow registers become active; in OS the cells take the tile (R114). -/
def Core.startPass (c : Core) (j : Job) : Core :=
  let q := j.pass
  let arr := List.range q.g
  let mx :=
    if q.df = 1 then
      let m := fun (x : SMap Tile) => arr.foldl (fun m i => up m (q.first + i) (c.osStart q i)) x
      { c.mx with cellShadow := m c.mx.cellShadow, cellActive := m c.mx.cellActive }
    else if q.loads then
      { c.mx with statActive := arr.foldl (fun m i => up m (q.first + i) (lk [] c.mx.statShadow (q.first + i))) c.mx.statActive }
    else c.mx
  { c with mx := mx }.updJob j.id (fun x => { x with active := true })

/-- What an MMUL in flight can do next: its stationary tile, once read, goes into the shadow registers; it becomes active when no
earlier operation works on its arrays. -/
def Core.advanceMmul (c : Core) (id : Nat) : Core :=
  match c.jobs.find? (fun j => j.id == id) with
  | none => c
  | some j =>
    if j.kind ≠ .mmul || j.active || j.lost || (j.pass.loads && j.stLeft ≠ 0) then c
    else
      let c := if j.staged then c else c.stageJob j
      if c.arraysBusy j then c else c.startPass j

/-- Every MMUL in flight, the oldest first. -/
def Core.matAdvance (c : Core) : Core := c.jobs.foldl (fun c j => c.advanceMmul j.id) c

/-! ### Freezes (R115, R116, R119, R120) -/

/-- Bytes of a beat of an operand (Table 06-1). -/
def Pass.beatBytes (q : Pass) (f : DescF) : Nat := cdiv (16 * q.p * f.width) 8 + (if f.elem.isMx then q.p / 2 else 0)

/-- Feed latency F of an operand of core k (R115). -/
def Dev.feedLat (d : Dev) (k : Nat) (f : DescF) : Nat :=
  let a := f.span.1
  if inSlices a a then
    let p := d.posOf k
    let r := d.posOf (a / 0x800000)
    22 + ((pxOf p : Int) - pxOf r).natAbs + ((pyOf p : Int) - pyOf r).natAbs
  else 8

/-- The cycle after acceptance in which the first beat is due (Table 06-3); where the two feeders differ F is the larger (log entry
150). -/
def Pass.firstBeat (q : Pass) (d : Dev) (k : Nat) : Nat :=
  let st := if q.aStat then q.a else q.b
  let s := if q.loads then
      cdiv (q.g * 16 * q.beatBytes st) (if inSlices st.span.1 st.span.1 then 128 else 256)
    else 0
  s + max (d.feedLat k q.a) (d.feedLat k q.b) + 2

/-- Beats of the pass (Table 06-2). -/
def Pass.beats (q : Pass) : Nat := if q.df = 1 then q.kn / q.p else q.rcnt

/-- Byte addresses that beat i streams. -/
def Pass.beatAddrs (q : Pass) (i : Nat) : List Nat :=
  let rows := (List.range 16).filter (q.rowOk 0)
  match q.df with
  | 0 => if q.rowOk 0 i then q.a.feed (q.ks.map (q.aIdx (q.mt 0 + i))) else []
  | 2 => if q.colOk 0 i then q.b.feed (q.ks.map (q.bIdx (q.nt 0 + i))) else []
  | _ =>
    let ks := q.ks.filter (fun k => decide (q.kb + q.p * i ≤ k ∧ k < q.kb + q.p * (i + 1)))
    q.a.feed (rows.flatMap (fun r => ks.map (q.aIdx (q.mt 0 + r)))) ++
      (List.range q.g).flatMap (fun j => q.b.feed (((List.range 16).filter (q.colOk j)).flatMap (fun c =>
        ks.map (q.bIdx (q.nt j + c)))))

/-- Does the MMUL freeze its arrays in this cycle: its stationary tile or the beat that is due has not come (R119), or its first
write meets a tile that is still being read (R120)? -/
def Dev.freezes (d : Dev) (k : Nat) (j : Job) : Bool :=
  let c := d.core k
  let q := j.pass
  let t0 := q.firstBeat d k
  if j.age < t0 then false
  else if !j.active then !c.arraysBusy j
  else
    let t := j.age - t0
    let e := if q.exa then 2 else 1
    let a := if q.exa then 3 else 2
    let late := t % e = 0 && decide (t / e < q.beats) &&
      !(q.beatAddrs (t / e)).all (fun x => j.got.any (fun g => g.1 == x / 64))
    let first := if q.df = 1 then e * (q.beats - 1) + 2 + a else 3 + a
    late || (t == first &&
      (c.jobs.takeWhile (fun x => x.id ≠ j.id)).any (fun x => (mqTiles j.ent.w).any (fun n => x.readsTile n)))

/-- One cycle of the matrix unit: an MMUL's schedule goes on, or its gang freezes and each array counts it (MX_FREEZE_CNTa). -/
def Dev.mxCycle (d : Dev) (k : Nat) (c : Core) : Core :=
  (d.core k).jobs.foldl (fun c j =>
    if j.kind ≠ .mmul || j.lost then c
    else if d.freezes k j then
      { c with mx := { c.mx with freeze := (mmulArrays j.ent.w).foldl (fun m a =>
          up m a (lk (0 : BitVec 64) m a + 1)) c.mx.freeze } }
    else if j.age < j.pass.firstBeat d k || j.active then c.updJob j.id (fun x => { x with age := x.age + 1 })
    else c) c

/-- MQ_ACCEPT (R112, R197). -/
def execMqAccept (k : CoreId) (s : State) : Host.Outcome State Fault Refusal :=
  lift (fun d =>
    let c := d.core k
    match c.mq with
    | [] => d
    | e :: _ =>
      if !d.clocked k || mqHold c e then d
      else
        match mqErr c (d.partOf k) k e with
        | some x => ((d.setCore k (c.dropHead .mq)).raiseFail k x).failMq k e x.1
        | none =>
          let fs := e.caps.map (fun h => c.fields h.h)
          let f0 := fs.getD 0 DescF.zero
          match wOp e.w with
          | 0xC0 =>
            let q := mkPass e f0 (fs.getD 1 DescF.zero)
            let ra := q.a.feed q.aReads
            let rb := q.b.feed q.bReads
            let src := (if q.aReads = [] then [] else [q.a.span]) ++ (if q.bReads = [] then [] else [q.b.span])
            if c.guardHold src none then d
            else
              let j := { Job.new c.newJob .mq .mmul e with descs := fs }
              let d := d.setCore k (c.startJob j src none)
              let (st, sm) := if q.aStat then (ra, rb) else (rb, ra)
              (((d.issueReads k j.id .matStationary 4 st).issueReads k j.id .matStreaming 4 sm).issueJob k j.id).updCore k
                Core.matAdvance
          | 0xC1 =>
            let t := lk Tile.reset c.mx.acc (bits e.w 55 52)
            if bit e.w 40 then
              let fl := pressSend d k e t
              let j := { Job.new c.newJob .mq .mstorePress e with tiles := [t], issued := true, wrLeft := fl.length }
              (d.setCore k (c.startJob j [] none)).injectM k fl
            else
              let dst := if guarded k f0.span then some f0.span else none
              if c.guardHold [] dst then d
              else
                let j := { Job.new c.newJob .mq .mstore e with descs := fs, tiles := [t] }
                let d := d.setCore k (c.startJob j [] dst)
                d.issueStores k j.id .matStore 1 true (mstoreRows f0 e t)
          | 0xC2 =>
            let a := e.val 0
            let n := mldaccBytes e.w
            let src := [(lsBase k + a, lsBase k + a + n - 1)]
            if c.guardHold src none then d
            else
              let j := Job.new c.newJob .mq .mldacc e
              ((d.setCore k (c.startJob j src none)).issueReads k j.id .matStationary 4 (lsRun k a n)).issueJob k j.id
          | _ =>
            let j := Job.new c.newJob .mq .mclr e
            (d.setCore k (c.startJob j [] none)).issueJob k j.id) s

/-! ### Completion -/

/-- Must job j wait for an earlier one: same array, or a tile one of them writes (R112, R120)? -/
def mqBefore (j x : Job) : Bool :=
  (decide (j.kind = .mmul) && x.onArrays j.ent.w) ||
  (mqTiles j.ent.w).any (fun t => x.writesTile t || x.readsTile t)

/-- The effect of an MMUL that is active: tiles (in OS by way of the cells), flags, the comparisons that become due. -/
def Core.mmulRun (c : Core) (jb : Job) : Core :=
  let q := jb.pass
  (List.range q.g).foldl (fun c j =>
    let ar := q.first + j
    let st := if q.df = 1 then [] else lk [] c.mx.statActive ar
    let t := 2 * ar + q.bank
    let (tile, f) := q.run jb.rd st j (lk Tile.reset c.mx.acc t)
    let mx := { c.mx with acc := up c.mx.acc t tile }
    let mx := if q.df = 1 then { mx with cellActive := up mx.cellActive ar tile } else mx
    let mx := if mx.ckEn && !bit jb.ent.w 16 then { mx with due := mx.due ++ [q.due jb.rd st j] } else mx
    { c with mx := mx }.flag f.mBits) c

/-- MMUL_COMPLETE (R116, R196): the i-th job in flight, if it is an active MMUL whose operands are in and no earlier operation on
its arrays or tiles runs. -/
def execMmulComplete (k : CoreId) (i : Nat) (s : State) : Host.Outcome State Fault Refusal :=
  lift (fun d =>
    let c := d.core k
    match c.jobs[i]? with
    | none => d
    | some j =>
      if j.kind ≠ .mmul || !j.active || !j.issued || j.rdLeft ≠ 0 || j.lost || !d.clocked k ||
        (c.jobs.take i).any (mqBefore j) then d
      else (d.setCore k ((c.mmulRun j).endJob j.id).matAdvance).creditPair (mqCredit j.ent DescF.zero)) s

/-- CHECKSUM_COMPARE (R123, R124): the oldest comparison that is due. `faults` are errors the hardware made in the
partials it summed: (row or column, index, the residue added to its sum). -/
def execChecksumCompare (k : CoreId) (faults : List (Bool × Nat × Nat)) (s : State) : Host.Outcome State Fault Refusal :=
  lift (fun d =>
    let c := d.core k
    match c.mx.due with
    | [] => d
    | u :: rest =>
      let err := fun (row : Bool) (i : Nat) => ((faults.filter (fun f => f.1 == row && f.2.1 == i)).map (fun f => f.2.2)).sum
      let bad := fun (row : Bool) (l : List (Nat × Nat × Nat)) =>
        l.find? (fun e => decide (e.2.1 ≠ (e.2.2 + err row e.1) % (2 ^ 61 - 1)))
      let r := bad true u.rows
      let cl := bad false u.cols
      let d := d.setCore k { c with mx := { c.mx with due := rest } }
      if (r.isSome || cl.isSome) && c.mx.ckEn then
        (d.updCore k (fun c => { c with mx := { c.mx with ckErr := c.mx.ckErr ||| BitVec.ofNat 8 (2 ^ u.array) } })).raiseStep
          k 0x16 [u.array, u.df, r.elim 0xFF Prod.fst, cl.elim 0xFF Prod.fst]
      else d) s

/-- The tile element an MLDACC loads at [i][j] (R202). -/
def mldaccEl (j : Job) (base n : Nat) : BitVec 194 :=
  if bits j.ent.w 51 50 = 2 then BitVec.ofNat 194 (leNat ((List.range 25).map (fun b => j.rd (base + 32 * n + b))))
  else BitVec.ofNat 194 (leNat ((List.range 4).map (fun b => j.rd (base + 4 * n + b))))

/-- MLDACC's effect on its tile (R202). -/
def Core.mldaccRun (c : Core) (k : Nat) (j : Job) : Core :=
  let w := j.ent.w
  let t := bits w 55 52
  let tag := bits w 51 50
  let base := lsBase k + j.ent.val 0
  let old := lk Tile.reset c.mx.acc t
  let els := (List.range 256).map (fun n =>
    let x := mldaccEl j base n
    if bit w 49 then accLoad tag (old.at (n / 16) (n % 16)) x else (x, {}))
  let tile : Tile := ⟨tag, els.zipIdx.foldl (fun m e => up m e.2 e.1.1) []⟩
  { c with mx := { c.mx with acc := up c.mx.acc t tile } }.flag (flagsOf (els.map Prod.snd)).mBits

/-- MCLR's effect (R203). -/
def Core.mclrRun (c : Core) (w : Nat) : Core :=
  { c with mx := { c.mx with acc := (mqTiles w).foldl (fun m t => up m t ⟨bits w 39 38, []⟩) c.mx.acc } }

/-- MSTORE's flags, once its writes are granted (R69, R78). -/
def Core.mstoreFlags (c : Core) (j : Job) : Core :=
  let t := j.tiles.getD 0 Tile.reset
  let f := j.descs.getD 0 DescF.zero
  let fl := flagsOf ((mstoreConv f j.ent t).map (fun x => x.1.2))
  c.flag (fl.mBits + t.exaBits ((mstoreEls f (j.ent.val 0)).map (fun x => t.at x.1 x.2.1)))

/-- ACC_TRANSFER_COMPLETE (R204): an MSTORE, MLDACC or MCLR whose accesses are done. -/
def execAccTransferComplete (k : CoreId) (i : Nat) (s : State) : Host.Outcome State Fault Refusal :=
  lift (fun d =>
    let c := d.core k
    match c.jobs[i]? with
    | none => d
    | some j =>
      if j.eng ≠ .mq || j.kind = .mmul || !j.issued || j.rdLeft ≠ 0 || j.wrLeft ≠ 0 || j.lost || !d.clocked k ||
        (c.jobs.take i).any (mqBefore j) then d
      else
        let c' := match j.kind with
          | .mldacc => c.mldaccRun k j
          | .mclr => c.mclrRun j.ent.w
          | .mstore => c.mstoreFlags j
          | _ => c
        (d.setCore k (c'.endJob j.id).matAdvance).creditPair (mqCredit j.ent (j.descs.getD 0 DescF.zero))) s

end Sys2Proof.Machine
end

