-- ==== Sys2Proof/Machine/MemSvc.lean ====
section
/-! DEFINITION. Service of the memories (R34, R35, R38, R140 to R147): grants of the local store, accesses of a slice,
write-back. -/

namespace Sys2Proof.Machine

/-- Does an access wait for the bank or slice of a word, so that this cycle has one granted there (R147)? -/
def Dev.wordBusy (d : Dev) (w : Nat) : Bool :=
  if unitOfWord w = 1 then !(lk [] d.net.slcQ (w / 0x800000)).isEmpty
  else (d.core ((w - 0x180000000) / 0x100000)).lsq.any (fun r => r.lines.any (fun l => l % 16 == w / 64 % 16))

/-- ECC_WRITEBACK (R147): the corrected word goes back in a cycle in which its bank or slice has no granted access. -/
def execEccWriteback (w : Nat) (s : State) : Host.Outcome State Fault Refusal :=
  lift (fun d =>
    if d.wordBusy w then d else { d with net := { d.net with ce := d.net.ce.filter (fun x => x ≠ w) } }) s

/-- The 64 B line at an address, as a job keeps it. -/
def lineAt (m : Memory) (a : Nat) : BitVec 512 := BitVec.ofNat 512 (m.num a 64)

/-! ### The local store (R140 to R143) -/

/-- The order of Table 08-2. -/
def LsClass.prio : LsClass → Nat
  | .sliceReturn => 1
  | .meshEject => 2
  | .matStationary => 3
  | .matStreaming => 4
  | .vecMem => 5
  | .matStore => 6
  | .tqRead => 7
  | .fillCopy => 8
  | .window => 9

/-- The requests of this cycle, in priority order: the oldest of each class; fill and copy ask for a read and a write
(R142). -/
def lsOffers (q : List LsReq) : List LsReq :=
  [LsClass.sliceReturn, .meshEject, .matStationary, .matStreaming, .vecMem, .matStore, .tqRead, .fillCopy, .window].flatMap
    (fun c =>
      let l := q.filter (fun r => r.cls = c)
      if c = .fillCopy then (l.find? (fun r => !r.write)).toList ++ (l.find? (fun r => r.write)).toList
      else l.take 1)

/-- What a cycle has granted: banks taken, lines read, lines written, requests granted, and the counts of R143. -/
structure LsCycle where
  banks : List Nat
  rd : Nat
  wr : Nat
  granted : List LsReq
  conf : SMap (BitVec 64)
  port : BitVec 64
  deriving DecidableEq, Repr

/-- Grant a request whole or not at all (R142). -/
def lsTry (x : LsCycle) (r : LsReq) : LsCycle :=
  let bs := r.lines.map (fun l => l % 16)
  let taken := distinct (bs.filter (fun b => x.banks.contains b))
  let n := r.lines.length
  let room : Bool := if r.write then decide (x.wr + n ≤ 4) else decide (x.rd + n ≤ 8)
  if taken ≠ [] then { x with conf := taken.foldl (fun m b => up m b (lk 0 m b + 1)) x.conf }
  else if !room then { x with port := x.port + 1 }
  else { x with banks := x.banks ++ bs, granted := x.granted ++ [r],
                rd := if r.write then x.rd else x.rd + n, wr := if r.write then x.wr + n else x.wr }

/-- Remove one copy of a request. -/
def eraseReq (r : LsReq) : List LsReq → List LsReq
  | [] => []
  | x :: l => if x = r then l else x :: eraseReq r l

/-- Does a request serve a job or a create? A mesh ejection and a device-window access do not. -/
def LsReq.serves (r : LsReq) : Bool := r.cls != .meshEject && r.cls != .window

/-- LOCAL_STORE_GRANT (R141, R142, R143, R147): one cycle of grants. Reads see the store as it stood before the cycle's
writes. `ce` and `ue` are the bit errors that the reads of this cycle meet. -/
def execLocalStoreGrant (k : CoreId) (ce : List Nat) (ue : List (Nat × BitVec 64)) (s : State) :
    Host.Outcome State Fault Refusal :=
  liftW (fun m _ d =>
    if !d.clocked k then (d, [])
    else
      let c := (d.core k).askCreates k
      let x := (lsOffers c.lsq).foldl lsTry ⟨[], 0, 0, [], c.cnt.lsConf, c.cnt.lsPort⟩
      let c := { c with lsq := x.granted.foldl (fun q r => eraseReq r q) c.lsq,
                        cnt := { c.cnt with lsConf := x.conf, lsPort := x.port } }
      let rs := x.granted.filter (fun r => !r.write && r.serves)
      let ws := x.granted.filter (fun r => r.write && r.serves)
      let words := rs.flatMap (fun r => r.lines.flatMap (fun l => wordsOf (lsBase k + 64 * l) 64))
      let m' := memAll m (ueOps words ue)
      let c := rs.foldl (fun c r => c.readDone r.job r.cls (r.lines.map (fun l =>
        (lsBase k / 64 + l, lineAt m' (lsBase k + 64 * l))))) c
      let c := ws.foldl (fun c r => c.writeDone r.job) c
      let d := (d.setCore k c).eccRead words k ce ue
      let bs := ws.flatMap (fun r => r.bytes)
      let d := d.eccWrite bs k
      let d := (rs ++ ws).foldl (fun d r => d.issueJob k r.job) d
      (d.updCore k Core.matAdvance, ueOps words ue ++ storeBytes m' bs)) s

/-! ### The slices (R34, R35, R38, R146, R153) -/

/-- Is slice j at retention voltage: does its owner sleep power-gated (R153, R389)? -/
def Dev.atRetention (d : Dev) (j : Nat) : Bool :=
  (d.regionsOf (lk 16 d.net.slcOwner j)).any (fun r =>
    match lk .run d.clk.sleep r with
    | .powerGated => true
    | .waking true _ => true
    | _ => false)

/-! ### The device window (R94, R138, R146, R153) -/

/-- Does part of [a, a + n - 1] lie in a slice at retention? -/
def Dev.winAsleep (d : Dev) (a n : Nat) : Bool :=
  decide (a < 0x180000000) && (List.range ((a + n - 1) / 0x800000 - a / 0x800000 + 1)).any (fun i => d.atRetention (a / 0x800000 + i))

/-- Has the local store at this address lost its contents: is its region power-gated (R153)? -/
def Dev.winLost (d : Dev) (a : Nat) : Bool :=
  decide (0x180000000 ≤ a ∧ a < 0x1B0000000) &&
    (match lk .run d.clk.sleep (regionOf (d.posOf ((a - 0x180000000) / 0x100000))) with
     | .powerGated => true
     | _ => false)

/-- The GEN bytes that a read-back shows: those of the images that valid entries were made from and that memory still holds (R94). -/
def Dev.genBytes (d : Dev) (m : Memory) (a n : Nat) : List (Nat × Byte) :=
  d.cores.flatMap (fun (e : Nat × Core) => e.2.desc.filterMap (fun (x : Nat × DescEntry) =>
    match x.2.img with
    | none => none
    | some i =>
      if x.2.valid ∧ a ≤ i + 9 ∧ i + 9 < a + n ∧ parseDesc (m.bytes i (if x.2.f.compat then 48 else 64)) x.2.f.compat = x.2.f then
        some (i + 9, x.2.gen)
      else none))

/-- The bytes that a read of the device window shows. -/
def Dev.shown (d : Dev) (m : Memory) (a n : Nat) : List Byte :=
  let gens := d.genBytes m a n
  (m.bytes a n).zipIdx.map (fun (e : Byte × Nat) =>
    if d.winLost (a + e.2) then BitVec.ofNat 8 (Config.freeValue (d.free + e.2)).toNat
    else (gens.find? (fun (g : Nat × Byte) => g.1 == a + e.2)).elim e.1 (fun g => g.2))

/-- Read through the device window; no slice of it is at retention. -/
def Dev.winRead (d : Dev) (m : Memory) (a n : Nat) : Dev × List Byte :=
  (({ d with free := if d.winLost a then d.free + n else d.free } : Dev).winTouch a n false |>.eccRead (wordsOf a (a % 8 + n)) 0xFFFF [] [],
   d.shown m a n)

/-- Write through the device window; no slice of it is at retention. -/
def Dev.winStore (d : Dev) (a : Nat) (bs : List Byte) : Dev × List MemOp :=
  ((d.winTouch a bs.length true).eccWrite (wholeBytes a bs) 0xFFFF, wrBytes a bs)

/-- Answer an access that has been served. -/
def Dev.winAnswer (d : Dev) (who : WinWho) (write : Bool) (bs : List Byte) : Dev :=
  match who with
  | .func f => if write || (d.func f).left.isSome then d else d.emit (.readData f (leNat bs))
  | .hart h => if write then d else d.emit (.hartData h (leNat bs))
  | .member dst fpid seq => d.fwdReply fpid dst seq true bs
  | .nobody => d

/-- An access of the device window, of n bytes: it waits while a slice of it is at retention (R153). -/
def Dev.winAccess (d : Dev) (m : Memory) (x : WinAcc) : Dev × List MemOp :=
  if d.winAsleep x.addr x.len then ({ d with net := { d.net with winQ := d.net.winQ ++ [x] } }, [])
  else if x.write then
    let r := d.winStore x.addr x.data
    (r.1.winAnswer x.who true [], r.2)
  else
    let r := d.winRead m x.addr x.len
    (r.1.winAnswer x.who false r.2, [])

/-- Bytes that come from software or another device and that nobody waits for. -/
def Dev.winWrite (d : Dev) (a : Nat) (bs : List Byte) : Dev × List MemOp :=
  d.winAccess [] ⟨.nobody, a, bs.length, true, bs⟩

/-- An access of the window that waited for slice j, now that all it needs is at full voltage. -/
def Dev.winServe (d : Dev) (m : Memory) (j : Nat) : Dev × List MemOp :=
  match d.net.winQ.find? (fun x => decide (x.addr / 0x800000 ≤ j ∧ j ≤ (x.addr + x.len - 1) / 0x800000) && !d.winAsleep x.addr x.len) with
  | none => (d, [])
  | some x => ({ d with net := { d.net with winQ := d.net.winQ.erase x } } : Dev).winAccess m x

/-- The access a slice serves next: round-robin by core number after the one served last (R35). -/
def slcPick (q : List SlcAcc) (last : Nat) : Option SlcAcc :=
  ((List.range 768).map (fun n => (last + 1 + n) % 768)).findSome? (fun k => q.find? (fun a => a.core == k))

/-- Cores whose next slice access goes to slice j issue it (R34). -/
def Dev.issueTo (d : Dev) (j : Nat) : Dev :=
  d.cores.foldl (fun d e => if e.2.nextSlc.any (fun a => a.block / 0x800000 == j) then d.issueSlc e.1 else d) d

/-- SLICE_ACCESS_SERVE (R34, R35, R38, R146, R147, R153): every access that stands at the slice and is not the one served waits a cycle;
with none standing there, an access of the window that waited for full voltage is carried out. -/
def execSliceAccessServe (j : CoreId) (ce : List Nat) (ue : List (Nat × BitVec 64)) (s : State) :
    Host.Outcome State Fault Refusal :=
  liftW (fun m _ d =>
    let d := d.issueTo j
    let q := lk [] d.net.slcQ j
    if d.atRetention j then (d, [])
    else
      match slcPick q (lk 767 d.net.slcRr j) with
      | none => d.winServe m j
      | some a =>
        let d := { d with net := { d.net with slcQ := up d.net.slcQ j (q.erase a), slcRr := up d.net.slcRr j a.core } }
        let d := d.updCore j (fun c => { c with cnt := { c.cnt with slcCont := c.cnt.slcCont + BitVec.ofNat 64 (q.length - 1) } })
        if lk 16 d.net.slcOwner j ≠ a.ptag then
          (((d.updCore a.core (fun c => c.updJob a.job (fun x => { x with lost := true }))).tagDrop a.ptag a.core
            (d.posOf j) 14), [])
        else if a.write then
          (((d.updCore a.core (fun c => c.writeDone a.job)).eccWrite a.bytes a.core).issueJob a.core a.job, storeBytes m a.bytes)
        else
          let words := wordsOf a.block 128
          let m' := memAll m (ueOps words ue)
          let d := d.updCore a.core (fun c => c.readDone a.job a.cls
            [(a.block / 64, lineAt m' a.block), (a.block / 64 + 1, lineAt m' (a.block + 64))])
          (((d.eccRead words a.core ce ue).issueJob a.core a.job).updCore a.core Core.matAdvance, ueOps words ue)) s

end Sys2Proof.Machine
end

