-- ==== Sys2Proof/Machine/ServeOps.lean ====
section
/-! DEFINITION. Firmware's serving bookkeeping that other units read: free KV blocks and variant slots, the admission log
(R310, R317 to R319, R330). -/

namespace Sys2Proof.Machine

/-- KV blocks in use: of active requests, of registered or referenced prefixes, of learned prefixes. -/
def Serve.used (v : Serve) : List Nat :=
  v.active.flatMap (fun a => a.blocks) ++ v.prefixes.flatMap (fun p => p.blocks) ++ v.vslots.flatMap (fun x => x.blocks)
def Serve.kvFree (v : Serve) : Nat := v.hdr.kvBlocks - v.used.length
/-- The free blocks. -/
def Serve.freeBlocks (v : Serve) : List Nat := (List.range v.hdr.kvBlocks).filter (fun b => !v.used.contains b)
def Serve.vFree (v : Serve) : Nat := v.hdr.vslots - v.vslots.length
/-- The free variant slots. -/
def Serve.freeVslots (v : Serve) : List Nat := (List.range v.hdr.vslots).filter (fun x => !v.vslots.any (fun y => y.slot == x))
/-- Registered handles. -/
def Serve.handles (v : Serve) : Nat := (v.prefixes.filter (fun p => p.live)).length

/-- A log entry (Table 17-9), without the record of an ADMIT. -/
def logBytes (step kind fn ctx slot tag arg digest : Nat) : List Byte :=
  natLe step 8 ++ natLe kind 1 ++ natLe fn 1 ++ natLe ctx 1 ++ natLe 0 1 ++ natLe slot 2 ++ natLe 0 2 ++ natLe tag 8 ++
    natLe arg 8 ++ natLe digest 32

/-- Free entries of the log ring (R343). -/
def LogRing.room (l : LogRing) : Nat := l.ents - 1 - (l.tail + l.ents - l.head) % l.ents

/-- Write one entry into a ring with room. -/
def Dev.logWrite (d : Dev) (m : Mould) (l : LogRing) (bs : List Byte) : Dev :=
  let p := lowPart m.pmask
  let t := (l.tail + 1) % l.ents
  let d := d.updMould m.pmask (fun m => { m with serve := m.serve.map (fun v => { v with log := some { l with tail := t } }) })
  (d.updFunc l.fn (fun x => { x with logTail := up x.logTail p (BitVec.ofNat 32 t) })).emit (.logEntry l.fn p l.tail bs)

/-- Write the GAP entry that is due once the ring has room again (R330). -/
def Dev.logGapDue (d : Dev) (m : Mould) : Dev :=
  match m.serve.bind (fun v => v.log) with
  | none => d
  | some l =>
    if l.dropped = 0 || l.room = 0 then d
    else
      d.logWrite m { l with dropped := 0 }
        (logBytes (d.part (lowPart m.pmask)).next 7 l.fn 0 0xFFFF 0 l.dropped 0)

/-- Log an event of the step whose plan it enters; an entry that finds the ring full is dropped and LOG_GAP set (R330). -/
def Dev.log (d : Dev) (pm : Nat) (bs : List Byte) : Dev :=
  match d.moulds.find? (fun m => m.pmask == pm) with
  | none => d
  | some m =>
    let d := d.logGapDue m
    match d.moulds.find? (fun m => m.pmask == pm) with
    | none => d
    | some m =>
      match m.serve.bind (fun v => v.log) with
      | none => d
      | some l =>
        if l.room = 0 then
          d.updMould pm (fun m => { m with serve := m.serve.map (fun v =>
            { v with logGap := true, log := some { l with dropped := l.dropped + 1 } }) })
        else d.logWrite m l bs

/-- n rounded up to a multiple of 128. -/
def up128 (n : Nat) : Nat := 128 * cdiv n 128
/-- The address of plan buffer `step` mod 2, and of that output buffer (R314). -/
def ServeHdr.planBuf (h : ServeHdr) (step : Nat) : Nat := h.planAddr + step % 2 * up128 (64 + 8 * h.rows)
def ServeHdr.outBuf (h : ServeHdr) (step : Nat) : Nat := h.outAddr + step % 2 * up128 (64 + 16 * h.rows)
/-- PLAN(step) as it stands in its buffer (Table 17-6). -/
def planBytes (step : Nat) (rows : List (BitVec 64)) : List Byte :=
  natLe step 8 ++ List.replicate 56 0 ++ rows.flatMap (fun r => natLe r.toNat 8)

/-- Member 0 puts PLAN(step) in place: on itself, and over class MGMT on every other member (R312). -/
def Dev.sendPlan (d : Dev) (m : Mould) (step : Nat) (rows : List (BitVec 64)) : Dev × List MemOp :=
  match m.serve with
  | none => (d, [])
  | some v =>
    let d := d.updMould m.pmask (fun m => { m with serve := m.serve.map (fun v => { v with planIn := step + 1 }) })
    let d := d.sendAllWith m 20 (step % 2 ^ 32) (natLe step 8 ++ rows.flatMap (fun r => natLe r.toNat 8)) (fun i => .plan i m.fpid step rows)
    d.winWrite (v.hdr.planBuf step) (planBytes step rows)

/-- Is this a flit of a message that leaves the device as a packet of a fabric partition: an FSEND or a press partial (R259)? -/
def Dev.leavesAs (d : Dev) (fp : Nat) (f : Flit) : Bool :=
  (f.fab.isSome || f.kind == 2) && (d.mouldOf f.ptag).any (fun m => m.fpid == fp)

/-- Does no packet of a fabric partition remain in the port units (R288, FAB_STATEp.QUIET)? -/
def Dev.fpQuiet (d : Dev) (fp : Nat) : Bool :=
  d.ports.all (fun e => !e.2.sendQ.any (fun k => k.fpid == fp) && !e.2.replay.any (fun x => x.2 == fp) &&
    !e.2.done.any (fun k => k.fpid == fp) && e.2.rx.all (fun r => !r.2.any (fun k => k.hdr.fpid == fp)) &&
    e.2.peers.all (fun p => !p.unacked.any (fun x => x.fpid == fp) && p.rx.all (fun r => !r.2.any (fun k => k.hdr.fpid == fp)))) &&
  d.net.unitIn.all (fun e => !e.2.any (d.leavesAs fp))

end Sys2Proof.Machine
end

