-- ==== Sys2Proof/Machine/Regs.lean ====
section
/-! DEFINITION. The register space (R5, R6, R407, R410 to R415): every register's value, and what a write changes. -/

namespace Sys2Proof.Machine

/-- A register as read: its width in bytes and its value. -/
structure RegVal where
  width : Nat
  val : Nat
  deriving DecidableEq, Repr

def r32 (v : Nat) : Option RegVal := some ⟨4, v % 2 ^ 32⟩
def r64 (v : Nat) : Option RegVal := some ⟨8, v % 2 ^ 64⟩

/-- The block an offset lies in: its number in the order of Table 24-1, the instance, the offset in it (R410). -/
def regBlock (x : Nat) : Option (Nat × Nat × Nat) :=
  if x < 0x8000 then some (x / 0x1000, 0, x % 0x1000)
  else if x < 0x9000 then some (8, (x - 0x8000) / 0x400, (x - 0x8000) % 0x400)
  else if x < 0x10000 then none
  else if x < 0x20000 then some (9, 0, x - 0x10000)
  else if x < 0x30000 then some (10, (x - 0x20000) / 0x1000, x % 0x1000)
  else if x < 0x39000 then some (11, (x - 0x30000) / 0x1000, x % 0x1000)
  else if x < 0x100000 then none
  else if x < 0x400000 then some (12, (x - 0x100000) / 0x1000, x % 0x1000)
  else none

/-! ### Records (Table 23-2) -/

/-- DETAIL: the values Table 23-4 names, in equal shares of its 24 B of at most 8 B each (log entry 14). -/
def ErrRec.detailBytes (r : ErrRec) : List Byte :=
  padTo 24 (r.detail.flatMap (fun v => natLe v (min 8 (24 / max 1 r.detail.length))))
/-- The 64 bytes of a record. -/
def ErrRec.bytes (r : ErrRec) : List Byte :=
  natLe r.turn.toNat 8 ++ natLe r.seq.toNat 4 ++ natLe r.code 2 ++ natLe r.cls 1 ++ natLe r.source 1 ++ natLe r.core 2 ++
    natLe r.pmask.toNat 2 ++ natLe r.fpid 2 ++ natLe r.rep.toNat 2 ++ natLe (b2n r.turnEst + 2 * b2n r.escalated) 4 ++
    natLe 0 4 ++ natLe r.step.toNat 8 ++ r.detailBytes
/-- The record in a slot of the ring (R404). -/
def Errs.slot (x : Errs) (n : Nat) : Option ErrRec := x.ring.find? (fun r => r.seq.toNat % 256 == n)

/-! ### Reading -/

def Dev.regId (d : Dev) (o : Nat) : Option RegVal :=
  match o with
  | 0x00 => r32 0x0960A100
  | 0x08 => r64 d.serial.toNat
  | 0x10 => r64 d.board.toNat
  | 0x18 => r32 (d.bifur.toNat * 256 + d.slot.toNat)
  | _ => none

/-- PWR_STATUS. -/
def Dev.pwrStatus (d : Dev) : Nat :=
  64 * b2n d.pwr.sag + 32 * b2n d.pwr.inhibit +
    (match d.pwr.st with
     | .run => 1
     | .stopping => 2
     | _ => 0)

def Dev.regClk (d : Dev) (o : Nat) : Option RegVal :=
  let c := d.clk
  let p := d.pwr
  match o with
  | 0x000 =>
    r32 (4096 * b2n c.holdover + 2048 * b2n c.refLoss + 1024 * b2n c.xslip + 512 * b2n c.refused + 256 * b2n c.change.isSome +
      128 * b2n c.forcedNow + 16 * (c.change.elim 0 (fun x => x.code)) + c.step)
  | 0x008 => r32 c.req.toNat
  | 0x010 => r64 c.stretch.toNat
  | 0x100 => r32 d.pwrStatus
  | 0x108 => r64 (p.cap % 65536 * 2 ^ 48 + p.vbank % 65536 * 2 ^ 32 + p.energy % 2 ^ 32)
  | 0x110 => r64 (p.vin % 65536 * 2 ^ 48 + p.iin % 65536 * 2 ^ 32 + p.pin % 65536 * 2 ^ 16 + p.pavg % 65536)
  | 0x118 => r32 p.limit.toNat
  | 0x120 => r32 ((BitVec.ofInt 16 p.tmax).toNat * 65536 + p.sensor % 256)
  | 0x128 => r32 (p.stepC.toNat * 256 + p.warnC.toNat)
  | _ => none

def TurnState.code : TurnState → Nat
  | .listen => 0
  | .locked => 1
  | .holdover => 2

def Dev.regTurn (d : Dev) (o : Nat) : Option RegVal :=
  let t := d.turn
  match o with
  | 0x00 => r64 t.now.toNat
  | 0x08 => r32 (1024 * b2n t.ptpLock + 512 * b2n t.syncLost + 256 * b2n t.root + 16 * t.parent + t.st.code)
  | 0x10 => r32 t.theta.toNat
  | 0x18 => r32 t.prio.toNat
  | 0x20 => r64 t.epoch.toNat
  | _ => none

def Dev.regCrm (d : Dev) (o : Nat) : Option RegVal :=
  let c := d.crm
  match o with
  | 0x00 => r32 (8 * b2n c.idFail + 4 * b2n c.idReady + 2 * b2n c.keysLoaded + b2n c.fwReady)
  | 0x08 => r32 (b2n c.recover)
  | 0x10 => r64 (c.secver.toNat * 2 ^ 32 + c.fwver.toNat)
  | 0x18 => r64 (c.leafNext % 2 ^ 40)
  | 0x20 => r32 c.mgmtDrop.toNat
  | _ => none

/-- ROLE of FAB_STATEp: 1 primary (MIRROR), 2 standby (MUTED), 0 otherwise. -/
def Mould.role (m : Mould) : Nat :=
  let r := (m.tab m.epoch).rec_ m.self
  if r.partner = 0xFFFF then 0 else if r.mirror then 1 else if r.muted then 2 else 0

def Dev.fabState (d : Dev) (m : Mould) : Nat :=
  64 * m.role + 32 * b2n m.pairLost + 16 * b2n m.failoverRan + 8 * b2n m.heldFlag + 4 * b2n (d.fpQuiet m.fpid) +
    2 * b2n (m.tab (1 - m.epoch)).valid + m.epoch

def Dev.regFab (d : Dev) (o : Nat) : Option RegVal :=
  if o < 0x80 && o % 8 == 0 then r32 ((d.mouldLow (o / 8)).elim 0 d.fabState)
  else if 0x100 ≤ o && o < 0x200 && o % 8 == 0 then
    r64 ((d.mouldLow ((o - 0x100) / 16)).elim 0 (fun m => (lk (0 : BitVec 64) m.vlast (o / 8 % 2)).toNat))
  else if 0x200 ≤ o && o < 0x218 && o % 4 == 0 then r32 (lk (0 : BitVec 32) d.fabDrop ((o - 0x200) / 4)).toNat
  else none

/-- SRV_STATUSp; 0 on members other than member 0. -/
def Dev.srvStatus (d : Dev) (p : Nat) : Nat :=
  match d.mouldLow p with
  | none => 0
  | some m =>
    match m.serve with
    | none => 0
    | some v =>
      if m.self ≠ 0 then 0
      else
        v.active.length * 2 ^ 51 + v.handles * 2 ^ 38 + b2n v.draining.isSome * 2 ^ 37 +
          b2n (d.ringHeld p && d.boundaryDue p m) * 2 ^ 36 + b2n v.logGap * 2 ^ 35 + v.vFree * 2 ^ 25 + v.kvFree

def Dev.regSrv (d : Dev) (o : Nat) : Option RegVal := if o < 0x80 && o % 8 == 0 then r64 (d.srvStatus (o / 8)) else none

/-- WT_STATUSp. -/
def WLoad.statusReg (w : WLoad) : Nat :=
  (w.shards.filter (fun x => x.ok)).length * 2 ^ 32 + w.repairs.toNat * 65536 + w.status * 256 + w.state

def Dev.regWt (d : Dev) (o : Nat) : Option RegVal :=
  if o < 0x400 then
    let m := d.mouldLow (o / 0x40)
    let q := o % 0x40
    if q = 0 then r64 ((m.bind (fun m => m.wload)).elim (lk (0 : BitVec 64) d.wtLast (o / 0x40)).toNat WLoad.statusReg)
    else if 0x20 ≤ q && q % 8 == 0 then r64 (m.elim 0 (fun m => m.base / 2 ^ (64 * ((q - 0x20) / 8)) % 2 ^ 64))
    else none
  else
    let f := d.flash
    match o with
    | 0x400 =>
      r32 (d.crm.keys.foldl (fun n (e : Nat × KeyEnt) => n + 2 ^ e.1 + (if e.2.persist then 2 ^ (16 + e.1) else 0)) 0)
    | 0x408 =>
      r32 (f.chFail.toNat * 65536 + 4 * b2n (d.pwr.nv.any (fun x => x.kind.isCave && !x.started)) + 2 * b2n f.worn + b2n f.ready)
    | 0x410 => r32 f.used
    | 0x418 => r64 f.rdBytes.toNat
    | 0x420 => r64 f.pgBytes.toNat
    | _ => none

def Dev.regNet (d : Dev) (o : Nat) : Option RegVal :=
  if 0x100 ≤ o && o < 0x140 && o % 4 == 0 then r32 (lk (0 : BitVec 32) d.net.drop ((o - 0x100) / 4)).toNat else none

/-- How many requesters an arbiter lists (Table 19-1). -/
def arbListed (a : Nat) : Nat := [6, 11, 9, 5].getD a 0
/-- ARB_TKTi of a requester; TICKETS of an unlisted one read 0. -/
def Arb.ticket (x : Arb) (a i : Nat) : Nat :=
  let v := (lk (0x10 : BitVec 9) x.tkt i).toNat
  if i < arbListed a then v else v / 256 * 256

def Dev.regArb (d : Dev) (a o : Nat) : Option RegVal :=
  let x := d.arb a
  if o < 0x40 && o % 4 == 0 then r32 (x.ticket a (o / 4))
  else
    match o with
    | 0x40 => r32 (b2n x.repro * 2 ^ 20 + x.seedPt.toNat * 65536 + x.quantum.toNat)
    | 0x48 => r32 x.seedk.toNat
    | 0x50 => r32 x.lfsr.toNat
    | 0x58 => r32 (64 * b2n x.longLock + (x.holder.elim 0 (fun g => 32 * b2n g.locked + 16 + g.req)))
    | 0x60 => r64 x.preempt.toNat
    | _ => none

def Dev.regErr (d : Dev) (o : Nat) : Option RegVal :=
  let e := d.errs
  if 0x10 ≤ o && o < 0x30 && o % 8 == 0 then
    let f := (o - 0x10) / 8
    r32 ((lk (0 : BitVec 6) e.irqVec f).toNat * 256 + (lk (0 : BitVec 4) e.irqEn f).toNat)
  else if 0x80 ≤ o && o < 0xC0 && o % 8 == 0 then r64 (leNat (((e.lastDev.elim [] ErrRec.bytes).drop (o - 0x80)).take 8))
  else if 0x1000 ≤ o && o < 0x5000 && o % 8 == 0 then
    r64 (leNat ((((e.slot ((o - 0x1000) / 64)).elim [] ErrRec.bytes).drop (o % 64)).take 8))
  else if o = 0 then r32 e.next.toNat
  else if o = 0x40 then r32 (e.count.toNat * 65536 + e.cause)
  else none

def PtState.code : PtState → Nat
  | .idle => 0
  | .running => 1
  | .held => 2
  | .stopped => 3

def Dev.regPart (d : Dev) (p o : Nat) : Option RegVal :=
  let t := d.part p
  if 0x80 ≤ o && o < 0xA0 && o % 8 == 0 then r64 (lk (0 : BitVec 64) t.mdig ((o - 0x80) / 8)).toNat
  else if 0x100 ≤ o && o < 0x900 then
    let n := (o - 0x100) / 32
    match o % 32 with
    | 0x00 => r64 (t.cfg n)
    | 0x08 => r64 (t.tgt n)
    | 0x10 => r64 (t.last n).toNat
    | _ => none
  else
    match o with
    | 0x00 => r64 t.step.toNat
    | 0x08 => r64 t.t0.toNat
    | 0x10 => r64 (t.period.toNat * 2 ^ 32 + t.cycles.toNat)
    | 0x18 => r64 (b2n t.breakEn * 2 ^ 63 + t.breakStep.toNat)
    | 0x20 => r32 (8 * b2n t.breakHit + 4 * b2n t.lsDiv + t.st.code)
    | 0x28 => r64 t.holdTicks.toNat
    | 0x30 => r64 t.load.toNat
    | 0x40 => r64 t.dlMiss.toNat
    | _ => none

def Dev.regPort (d : Dev) (u o : Nat) : Option RegVal :=
  let x := d.port u
  match o with
  | 0x00 =>
    r32 (x.xoffRx.toNat * 2 ^ 20 + b2n x.retryExh * 2 ^ 19 + b2n x.rttFail * 2 ^ 18 + b2n x.vmism * 2 ^ 17 + b2n x.nmism * 2 ^ 16 +
      (x.peer.elim 0 (fun b => b.slot % 8 * 4096 + b.port % 16 * 256)) + x.rev % 16 * 16 + x.st.code)
  | 0x08 => r32 (x.fpd.toNat * 16 + 2 * b2n x.disable)
  | 0x10 => r32 x.rtt.toNat
  | 0x18 => r64 x.peerSerial.toNat
  | 0x20 => r64 (x.fecUncorr.toNat * 2 ^ 32 + x.fecCorr.toNat)
  | 0x28 => r64 x.crcCnt.toNat
  | 0x30 => r64 x.retryCnt.toNat
  | 0x40 => r64 (lk (0 : BitVec 64) x.xoffTicks 0).toNat
  | 0x48 => r64 (lk (0 : BitVec 64) x.xoffTicks 1).toNat
  | 0x50 => r64 (lk (0 : BitVec 64) x.xoffTicks 2).toNat
  | 0x58 => r64 (lk (0 : BitVec 64) x.xoffTicks 3).toNat
  | 0x60 => r32 x.dropCnt.toNat
  | 0x68 => r64 (if u < 7 then 0 else x.encap.toNat)
  | _ => none

/-- Arrays with an operation in progress: those of an MMUL's gang, and for an operation on tiles the arrays that hold them. -/
def Core.busyArrays (c : Core) : Nat :=
  let l := (c.jobs.filter (fun j => j.eng == .mq)).flatMap (fun j =>
    if j.kind = .mmul then mmulArrays j.ent.w else (mqTiles j.ent.w).map (fun t => t / 2))
  ((List.range 8).filter (fun a => l.contains a)).foldl (fun n a => n + 2 ^ a) 0

def Core.reg (c : Core) (o : Nat) : Option RegVal :=
  if 0x100 ≤ o && o < 0x180 && o % 4 == 0 then r32 (lk (0 : BitVec 32) c.syn ((o - 0x100) / 4)).toNat
  else if 0x210 ≤ o && o < 0x250 && o % 8 == 0 then r64 (lk (0 : BitVec 64) c.mx.freeze ((o - 0x210) / 8)).toNat
  else if 0x400 ≤ o && o < 0x480 && o % 8 == 0 then r64 (lk (0 : BitVec 64) c.cnt.lsConf ((o - 0x400) / 8)).toNat
  else
    match o with
    | 0x000 => r32 0
    | 0x008 =>
      r32 (b2n c.psWdrop * 2 ^ 18 + b2n c.rtnOver * 2 ^ 17 + b2n c.wdog * 2 ^ 16 + c.e.loops.length * 4096 + c.e.st.code * 256 +
        c.a.loops.length * 16 + c.a.st.code)
    | 0x010 => r32 (c.wdogExp.toNat * 256 + c.dqdir.toNat)
    | 0x020 => r64 c.a.disp.toNat
    | 0x028 => r64 c.a.stalls.toNat
    | 0x030 => r64 c.e.disp.toNat
    | 0x038 => r64 c.e.stalls.toNat
    | 0x040 => r32 c.numFlags.toNat
    | 0x200 => r32 (2 * b2n c.mx.cgDis + b2n c.mx.ckEn)
    | 0x208 => r32 (c.mx.ckErr.toNat * 256 + c.busyArrays)
    | 0x250 => r32 ((List.range 16).foldl (fun n t => n + (lk Tile.reset c.mx.acc t).tag % 4 * 4 ^ t) 0)
    | 0x300 => r32 (b2n c.vec.starter)
    | 0x308 => r32 (256 * b2n c.vec.parErr + c.vec.mode)
    | 0x310 => r32 (c.vec.vtype.toNat * 65536 + c.vec.vl)
    | 0x318 => r32 c.vec.parCnt.toNat
    | 0x480 => r64 c.cnt.lsPort.toNat
    | 0x488 => r64 c.cnt.slcCont.toNat
    | 0x490 => r32 c.fgw.length
    | 0x498 => r64 c.cnt.fgStall.toNat
    | 0x4A0 => r64 c.cnt.fgFull.toNat
    | 0x4A8 => r32 (c.cnt.slcCe.toNat * 65536 + c.cnt.lsCe.toNat)
    | _ => none

/-- The register that begins at an offset of the register space. -/
def Dev.regAt (d : Dev) (x : Nat) : Option RegVal :=
  match regBlock x with
  | none => none
  | some (b, i, o) =>
    match b with
    | 0 => d.regId o
    | 1 => d.regClk o
    | 2 => d.regTurn o
    | 3 => d.regCrm o
    | 4 => d.regFab o
    | 5 => d.regSrv o
    | 6 => d.regWt o
    | 7 => d.regNet o
    | 8 => d.regArb i o
    | 9 => d.regErr o
    | 10 => d.regPart i o
    | 11 => d.regPort i o
    | _ => (d.core i).reg o

/-- The 4 B at an offset that is a multiple of 4: a 32-bit register or a half of a 64-bit one; 0 where the block holds no
register; none in a reserved range (R411, R412). -/
def Dev.word32 (d : Dev) (x : Nat) : Option Nat :=
  if (regBlock x).isNone then none
  else
    match d.regAt x with
    | some r => some (r.val % 2 ^ 32)
    | none =>
      match (if x % 8 = 4 then d.regAt (x - 4) else none) with
      | some r => some (if r.width = 8 then r.val / 2 ^ 32 else 0)
      | none => some 0

/-- A naturally aligned read of 4 or 8 B. -/
def Dev.regRead (d : Dev) (x size : Nat) : Option Nat :=
  if size = 4 then d.word32 x
  else
    match d.word32 x, d.word32 (x + 4) with
    | some a, some b => some (a + b * 2 ^ 32)
    | _, _ => none

/-! ### Writing -/

/-- Bit n of a W1C field stays unless the write has a 1 there. -/
def keepUnless (old : Bool) (v n : Nat) : Bool := old && !bit v n

/-- May the writer write a register that only firmware and not a function may write (R413)? -/
def fwOnly (who : Option FnId) : Bool := who.isNone

/-- A write to the registers of clocks and power. THERM_CFG: WARN_C is judged against the STEP_C of the same write, and a STEP_C lowered below
a kept WARN_C leaves WARN_C as it is (log entry 147). -/
def Dev.wrClk (d : Dev) (who : Option FnId) (o v w : Nat) : Dev :=
  let c := d.clk
  let p := d.pwr
  match o with
  | 0x000 =>
    { d with clk := { c with refLoss := keepUnless c.refLoss w 11, xslip := keepUnless c.xslip w 10,
                             refused := keepUnless c.refused w 9 } }
  | 0x008 => d.fstepWrite v
  | 0x010 => { d with clk := { c with stretch := BitVec.ofNat 64 v } }
  | 0x100 => { d with pwr := { p with sag := keepUnless p.sag w 6 } }
  | 0x118 => if v % 65536 ≤ 0x2AF8 then { d with pwr := { p with limit := BitVec.ofNat 16 v } } else d
  | 0x128 =>
    if !fwOnly who then d
    else
      let s := if bits v 15 8 ≤ 103 then BitVec.ofNat 8 (v / 256) else p.stepC
      { d with pwr := { p with stepC := s, warnC := if v % 256 ≤ s.toNat then BitVec.ofNat 8 v else p.warnC } }
  | _ => d

/-- TURN_PRIO changes the rank of the own device (R222). -/
def Dev.setPrio (d : Dev) (v : Nat) : Dev := ({ d with turn := { d.turn with prio := BitVec.ofNat 8 v } }).chooseParent

def Dev.wrTurn (d : Dev) (who : Option FnId) (o v w : Nat) : Dev :=
  match o with
  | 0x08 => { d with turn := { d.turn with syncLost := keepUnless d.turn.syncLost w 9 } }
  | 0x18 => if fwOnly who then d.setPrio v else d
  | 0x20 => if fwOnly who then { d with turn := { d.turn with epoch := BitVec.ofNat 64 v } } else d
  | _ => d

def Dev.wrCrm (d : Dev) (o v : Nat) : Dev :=
  match o with
  | 0x08 => { d with crm := { d.crm with recover := bit v 0 } }
  | 0x20 => { d with crm := { d.crm with mgmtDrop := BitVec.ofNat 32 v } }
  | _ => d

def Dev.wrFab (d : Dev) (o v w : Nat) : Dev :=
  if o < 0x80 then
    match d.mouldLow (o / 8) with
    | some m => d.updMould m.pmask (fun m =>
        { m with pairLost := keepUnless m.pairLost w 5, failoverRan := keepUnless m.failoverRan w 4 })
    | none => d
  else if 0x200 ≤ o && o < 0x218 then { d with fabDrop := up d.fabDrop ((o - 0x200) / 4) (BitVec.ofNat 32 v) }
  else d

def Dev.wrSrv (d : Dev) (o w : Nat) : Dev :=
  match d.mouldLow (o / 8) with
  | some m => d.updMould m.pmask (fun m =>
      { m with serve := m.serve.map (fun s => { s with logGap := keepUnless s.logGap w 35 }) })
  | none => d

def Dev.wrWt (d : Dev) (o v : Nat) : Dev :=
  match o with
  | 0x418 => { d with flash := { d.flash with rdBytes := BitVec.ofNat 64 v } }
  | 0x420 => { d with flash := { d.flash with pgBytes := BitVec.ofNat 64 v } }
  | _ => d

def Dev.wrArb (d : Dev) (who : Option FnId) (a o v w : Nat) : Dev :=
  let x := d.arb a
  match o with
  | 0x58 => d.setArb a { x with longLock := keepUnless x.longLock w 6 }
  | 0x60 => d.setArb a { x with preempt := BitVec.ofNat 64 v }
  | 0x40 =>
    if fwOnly who then
      d.setArb a { x with repro := bit v 20, seedPt := BitVec.ofNat 4 (bits v 19 16), quantum := BitVec.ofNat 16 v }
    else d
  | 0x48 => if fwOnly who then d.setArb a { x with seedk := BitVec.ofNat 32 v } else d
  | _ =>
    if fwOnly who && decide (o < 0x40) && decide (o / 4 < arbListed a) then
      d.setArb a { x with tkt := up x.tkt (o / 4) (BitVec.ofNat 9 v) }
    else d

def Dev.wrErr (d : Dev) (who : Option FnId) (o v : Nat) : Dev :=
  let f := (o - 0x10) / 8
  if 0x10 ≤ o && o < 0x30 && who.all (fun g => g.val == f) then
    { d with errs := { d.errs with irqVec := up d.errs.irqVec f (BitVec.ofNat 6 (v / 256)),
                                   irqEn := up d.errs.irqEn f (BitVec.ofNat 4 v) } }
  else d

/-- A DL_TGT image after a write: a core number above 767 leaves CORE as it was (R6, R231). -/
def dlTgtNext (old v : Nat) : Nat :=
  let c := if bits v 56 47 < 768 then bits v 56 47 else bits old 56 47
  bits v 57 57 * 2 ^ 57 + c * 2 ^ 47 + bits v 46 0

/-- A write to DL_CFGn (R231). -/
def Dev.dlCfgWrite (d : Dev) (p n v : Nat) : Dev :=
  d.updPart p (fun t => { t with dlCfg := up t.dlCfg n (BitVec.ofNat 64 (dlCfgNext (t.cfg n) v)) })

def Dev.wrPart (d : Dev) (who : Option FnId) (p o v w : Nat) : Dev :=
  let n := (o - 0x100) / 32
  if 0x100 ≤ o && o < 0x900 then
    match o % 32 with
    | 0x00 => if fwOnly who then d.dlCfgWrite p n v else d
    | 0x08 =>
      if fwOnly who && !bit ((d.part p).cfg n) 63 then
        d.updPart p (fun t => { t with dlTgt := up t.dlTgt n (BitVec.ofNat 64 (dlTgtNext (t.tgt n) v)) })
      else d
    | 0x10 =>
      d.updPart p (fun t => { t with dlLast := up t.dlLast n (BitVec.ofNat 64 (bits v 63 48 * 2 ^ 48 + (t.last n).toNat % 2 ^ 48)) })
    | _ => d
  else
    match o with
    | 0x18 => d.breakWrite who p (BitVec.ofNat 64 v)
    | 0x20 => d.updPart p (fun t => { t with breakHit := keepUnless t.breakHit w 3, lsDiv := keepUnless t.lsDiv w 2 })
    | 0x28 => d.updPart p (fun t => { t with holdTicks := BitVec.ofNat 64 v })
    | 0x40 => d.updPart p (fun t => { t with dlMiss := t.dlMiss &&& ~~~(BitVec.ofNat 64 w) })
    | _ => d

/-- LNK_CTRL.DISABLE (R269): 1 holds the port down, 0 releases it. -/
def Dev.lnkDisable (d : Dev) (u : Nat) (v : Bool) : Dev :=
  let d := d.updPort u (fun x => { x with disable := v, lost := x.lost && v == x.disable })
  if v && (d.port u).st != .down then d.portDown u else d
/-- LNK_CTRL.RETRAIN (R269, R273): training restarts at step 1; a port held down stays so. -/
def Dev.lnkRetrain (d : Dev) (u : Nat) : Dev :=
  if d.heldDown u then d else (d.updPort u (fun x => { x with lost := false })).trainFrom1 u

def Dev.wrPort (d : Dev) (who : Option FnId) (u o v w : Nat) : Dev :=
  let x := d.port u
  match o with
  | 0x00 =>
    d.setPort u { x with retryExh := keepUnless x.retryExh w 19, rttFail := keepUnless x.rttFail w 18,
                         vmism := keepUnless x.vmism w 17, nmism := keepUnless x.nmism w 16 }
  | 0x08 =>
    if fwOnly who then
      let d := d.setPort u { x with fpd := BitVec.ofNat 3 (v / 16) }
      let d := if bit v 1 ≠ x.disable then d.lnkDisable u (bit v 1) else d
      if bit w 0 then d.lnkRetrain u else d
    else d
  | 0x20 => d.setPort u { x with fecUncorr := BitVec.ofNat 32 (v / 2 ^ 32), fecCorr := BitVec.ofNat 32 v }
  | 0x28 => d.setPort u { x with crcCnt := BitVec.ofNat 64 v }
  | 0x30 => d.setPort u { x with retryCnt := BitVec.ofNat 64 v }
  | 0x60 => d.setPort u { x with dropCnt := BitVec.ofNat 32 v }
  | 0x68 =>
    if fwOnly who && 7 ≤ u && x.st == .down then
      d.setPort u { x with encap := BitVec.ofNat 64 (v / 2 ^ 48 * 2 ^ 48 + v % 4096) }
    else d
  | _ => if 0x40 ≤ o && o < 0x60 then d.setPort u { x with xoffTicks := up x.xoffTicks ((o - 0x40) / 8) (BitVec.ofNat 64 v) } else d

/-- A write to a register of a core block; `v` is the whole new value, `w` only the bits written. -/
def Core.wr (c : Core) (fw : Bool) (o v w : Nat) : Core :=
  if 0x100 ≤ o && o < 0x180 then
    if fw then { c with syn := up c.syn ((o - 0x100) / 4) (BitVec.ofNat 32 v) } else c
  else if 0x210 ≤ o && o < 0x250 then { c with mx := { c.mx with freeze := up c.mx.freeze ((o - 0x210) / 8) (BitVec.ofNat 64 v) } }
  else if 0x400 ≤ o && o < 0x480 then
    { c with cnt := { c.cnt with lsConf := up c.cnt.lsConf ((o - 0x400) / 8) (BitVec.ofNat 64 v) } }
  else
    match o with
    | 0x008 =>
      { c with psWdrop := keepUnless c.psWdrop w 18, rtnOver := keepUnless c.rtnOver w 17, wdog := keepUnless c.wdog w 16 }
    | 0x010 =>
      if fw && c.quiet then
        { c with wdogExp := if bits v 12 8 < 10 then c.wdogExp else BitVec.ofNat 5 (v / 256), dqdir := BitVec.ofNat 8 v }
      else c
    | 0x020 => { c with a := { c.a with disp := BitVec.ofNat 64 v } }
    | 0x028 => { c with a := { c.a with stalls := BitVec.ofNat 64 v } }
    | 0x030 => { c with e := { c.e with disp := BitVec.ofNat 64 v } }
    | 0x038 => { c with e := { c.e with stalls := BitVec.ofNat 64 v } }
    | 0x040 => { c with numFlags := c.numFlags &&& ~~~(BitVec.ofNat 32 w) }
    | 0x200 => if fw && c.quiet then { c with mx := { c.mx with cgDis := bit v 1, ckEn := bit v 0 } } else c
    | 0x208 => { c with mx := { c.mx with ckErr := c.mx.ckErr &&& ~~~(BitVec.ofNat 8 (w / 256)) } }
    | 0x300 => if fw then c.starterWrite (bit v 0) else c
    | 0x308 => { c with vec := { c.vec with parErr := keepUnless c.vec.parErr w 8 } }
    | 0x318 => { c with vec := { c.vec with parCnt := BitVec.ofNat 32 v } }
    | 0x480 => { c with cnt := { c.cnt with lsPort := BitVec.ofNat 64 v } }
    | 0x488 => { c with cnt := { c.cnt with slcCont := BitVec.ofNat 64 v } }
    | 0x498 => { c with cnt := { c.cnt with fgStall := BitVec.ofNat 64 v } }
    | 0x4A0 => { c with cnt := { c.cnt with fgFull := BitVec.ofNat 64 v } }
    | 0x4A8 => { c with cnt := { c.cnt with slcCe := BitVec.ofNat 16 (v / 65536), lsCe := BitVec.ofNat 16 v } }
    | _ => c

/-- Write a register at its own offset: `v` its whole new value, `w` the bits written with 0 elsewhere (W1C and WO fields
take these). -/
def Dev.regSet (d : Dev) (who : Option FnId) (x v w : Nat) : Dev :=
  match regBlock x with
  | none => d
  | some (b, i, o) =>
    match b with
    | 1 => d.wrClk who o v w
    | 2 => d.wrTurn who o v w
    | 3 => d.wrCrm o v
    | 4 => d.wrFab o v w
    | 5 => d.wrSrv o w
    | 6 => d.wrWt o v
    | 7 => if 0x100 ≤ o && o < 0x140 then { d with net := { d.net with drop := up d.net.drop ((o - 0x100) / 4) (BitVec.ofNat 32 v) } } else d
    | 8 => d.wrArb who i o v w
    | 9 => d.wrErr who o v
    | 10 => d.wrPart who i o v w
    | 11 => d.wrPort who i o v w
    | 12 =>
      if o = 0 then d.coreCtrl who i (bit w 0) (bit w 1)
      else if ((d.core i).reg o).isSome then d.updCore i (fun c => c.wr (fwOnly who) o v w)
      else d
    | _ => d

/-- A write of 4 B: a 32-bit register, or half of a 64-bit one (R412). -/
def Dev.wrWord (d : Dev) (who : Option FnId) (x v : Nat) : Dev :=
  match d.regAt x with
  | some r => if r.width = 8 then d.regSet who x (r.val / 2 ^ 32 * 2 ^ 32 + v) v else d.regSet who x v v
  | none =>
    match (if x % 8 = 4 then d.regAt (x - 4) else none) with
    | some r => if r.width = 8 then d.regSet who (x - 4) (v * 2 ^ 32 + r.val % 2 ^ 32) (v * 2 ^ 32) else d
    | none => d

/-- A naturally aligned write of 4 or 8 B (R412); 8 B at a 32-bit register write it and what follows it. -/
def Dev.regWrite (d : Dev) (who : Option FnId) (x size v : Nat) : Dev :=
  if size = 4 then d.wrWord who x (v % 2 ^ 32)
  else
    match d.regAt x with
    | some r =>
      if r.width = 8 then d.regSet who x (v % 2 ^ 64) (v % 2 ^ 64)
      else (d.wrWord who x (v % 2 ^ 32)).wrWord who (x + 4) (v / 2 ^ 32 % 2 ^ 32)
    | none => (d.wrWord who x (v % 2 ^ 32)).wrWord who (x + 4) (v / 2 ^ 32 % 2 ^ 32)

/-- A naturally aligned access of 4 or 8 B (R334, R412). -/
def regAligned (x size : Nat) : Bool := (size == 4 && x % 4 == 0) || (size == 8 && x % 8 == 0)

/-- REGISTER_WRITE (R5, R6, R335, R407, R412, R413): by function `who`, or by firmware; `off` is the register-space offset. -/
def execRegisterWrite (who : Option FnId) (off size : Nat) (v : BitVec 64) (s : State) : Host.Outcome State Fault Refusal :=
  lift (fun d => if d.rst || !regAligned off size then d else d.regWrite who off size v.toNat) s

end Sys2Proof.Machine
end

