-- ==== Sys2Proof/Machine/Board.lean ====
section
/-! DEFINITION. The management target and the test access port (R381, R415, R416, R423 to R426). -/

namespace Sys2Proof.Machine

/-- The registers the target reads, by register-space offset, but for the identity block (R415). -/
def shadowRegs : List Nat :=
  [0x1000, 0x1008, 0x1010, 0x1100, 0x1108, 0x1110, 0x1118, 0x1120, 0x1128, 0x3000, 0x3008, 0x3010, 0x3018, 0x3020, 0x10040,
   0x10080, 0x10088, 0x10090, 0x10098, 0x100A0, 0x100A8, 0x100B0, 0x100B8]

/-- SHADOW_REFRESH (R425): firmware copies each register whole. -/
def execShadowRefresh (s : State) : Host.Outcome State Fault Refusal :=
  lift (fun d =>
    if d.rst || d.crm.phase ≠ .firmware then d
    else
      { d with shadows := shadowRegs.foldl (fun (m : SMap (BitVec 64)) x =>
          up m x (BitVec.ofNat 64 ((d.regAt x).elim 0 (fun r => r.val)))) d.shadows }) s

/-- 4 B the target returns: the identity registers and PWR_STATUS are current, the others shadows. -/
def Dev.shadowWord (d : Dev) (x : Nat) : Nat :=
  if x < 0x1000 || x = 0x1100 then (d.word32 x).getD 0
  else
    let b := x / 8 * 8
    if x % 8 = 0 then (lk (0 : BitVec 64) d.shadows x).toNat % 2 ^ 32
    else if (d.regAt b).any (fun r => r.width == 8) then (lk (0 : BitVec 64) d.shadows b).toNat / 2 ^ 32 else 0

/-- Does a range stay in the registers of R415? -/
def mgmtRange (off n : Nat) : Bool :=
  off + n ≤ 0x2000 || (0x3000 ≤ off && off + n ≤ 0x4000) || (off == 0x10040 && n == 4) || (0x10080 ≤ off && off + n ≤ 0x100C0)

/-- MGMT_READ (R415, R423 to R425): the status byte and the bytes. In OFF nothing answers. -/
def execMgmtRead (off count : Nat) (s : State) : Host.Outcome State Fault Refusal :=
  lift (fun d =>
    if d.pwr.st = .off then d
    else if off % 4 ≠ 0 || count % 4 ≠ 0 || count < 4 || 64 < count || !mgmtRange off count then d.emit (.mgmtAnswer 1 [])
    else
      d.emit (.mgmtAnswer 0 ((List.range (count / 4)).flatMap (fun i =>
        (natLe (d.shadowWord (off + 4 * i)) 4).map (fun b => b.toNat))))) s

/-- MGMT_ALERT_N (R423): low at or above WARN_C, while PWR_STATUS.INHIBIT or CLK_STATUS.HOLDOVER is 1. -/
def Dev.alertLow (d : Dev) : Bool :=
  decide (16 * (d.pwr.warnC.toNat : Int) ≤ d.pwr.tmax) || d.pwr.inhibit || d.clk.holdover

/-- MGMT_WRITE_BOARD (R416, R424): a change makes every port send its identity again. -/
def execMgmtWriteBoard (v : BitVec 64) (s : State) : Host.Outcome State Fault Refusal :=
  lift (fun d =>
    if d.pwr.st = .off || d.board = v then d
    else
      let d := { d with board := v }
      if d.rst then d else d.identityChanged) s

/-- The IDCODE (R426). -/
def idcode : Nat := 0xA0960BE7

/-- JTAG_INSTRUCTION (R426): EXTEST outside device reset acts as BYPASS; every other instruction is Feylrad's and not described. -/
def execJtagInstruction (i : JtagOp) (s : State) : Host.Outcome State Fault Refusal :=
  liftO (fun _ _ d =>
    match i with
    | .other => .refuse .reservedTest
    | .known j =>
      if !d.pwr.enable then .ok d []
      else
        match j with
        | .idcode => .ok (({ d with jtag := .idcode }).emit (.jtagBits idcode)) []
        | .extest => .ok { d with jtag := if d.rst then .extest else .bypass } []
        | _ => .ok { d with jtag := j } []) s

end Sys2Proof.Machine
end

