-- ==== Sys2Proof/Machine/Control.lean ====
section
/-! DEFINITION. Control: counted loops, resident routines, the end of a step, branches, the watchdog
(R50 to R53, R59, R160 to R163). -/

namespace Sys2Proof.Machine

/-- The count operand of LP and SY words: COUNT when M = 0, s(A)[31:0] when M = 1 (R156, R160). -/
def countOf (x : Seq) (w reg : Nat) : Nat := if bit w 55 then (x.get reg).toNat % 2 ^ 32 else bits w 31 0

/-- LOOP (R50, R51, R160): a count of 0 acts as if the end word had just run with this loop finishing. -/
def execLoop (k : CoreId) (q : SeqId) (s : State) : Host.Outcome State Fault Refusal :=
  seqOp k q 0x01 (fun _ d w =>
    let x := d.seq k q
    let n := countOf x w (wA w)
    let last := bits w 44 32
    if x.loops.length ≥ 4 then .refuse (.undefinedWord 0x01)
    else if n = 0 then
      let (t, ls) := loopNext last x.loops
      .ok (d.setSeq k q { x.count with pc := BitVec.ofNat 13 t, loops := ls }) []
    else
      let l : LoopLv := ⟨x.pc.toNat + 1, last, n⟩
      .ok (d.setSeq k q { x.count with pc := x.pc + 1, loops := l :: x.loops }) []) s

/-- The routine-table entry of a routine, in the sequencer's own library window (R42, Table 03-3). -/
def routineEntry (m : Memory) (k : Nat) (q : SeqId) (i : Nat) : Nat := fetch m k q (BitVec.ofNat 13 (6144 + i))

/-- May this stream call the routine (Table 03-3 STREAM)? -/
def streamOk (e : Nat) : SeqId → Bool
  | .A => bit e 50
  | .E => bit e 51

/-- CALL (R52, R53, R161). -/
def execCall (k : CoreId) (q : SeqId) (s : State) : Host.Outcome State Fault Refusal :=
  seqOp k q 0x02 (fun m d w =>
    let x := d.seq k q
    let e := routineEntry m k q (routineIndex w)
    if x.rtn.isSome || !streamOk e q || decide (4 < x.loops.length + bits e 49 48) then .refuse (.undefinedWord 0x02)
    else
      let r : Routine := ⟨x.pc, bits e 47 16, 0, x.loops.length, false, false⟩
      let y := x.count
      .ok (d.setSeq k q { y with st := .inRoutine, rtn := some r, pc := BitVec.ofNat 13 (6144 + bits e 10 0) }) []) s

/-- Return to the word after the CALL, with the caller's loop levels (R52). -/
def Seq.ret (x : Seq) (r : Routine) : Seq :=
  let ls := x.loops.drop (x.loops.length - r.depth)
  let (n, ls) := loopNext r.ret.toNat ls
  { x with rtn := none, st := .run, stallRun := 0, pc := BitVec.ofNat 13 n, loops := ls }

/-- RET (R52, R53, R162): before the routine counter reaches CYCLES the return waits; a counter that has reached CYCLES before the
return sets RTN_OVER. -/
def execRet (k : CoreId) (q : SeqId) (s : State) : Host.Outcome State Fault Refusal :=
  seqOp k q 0x04 (fun _ d _ =>
    let c := d.core k
    let x := c.seq q
    match x.rtn with
    | none => .refuse (.undefinedWord 0x04)
    | some r =>
      let y := x.count
      if r.expired || decide (r.cycles ≤ r.count) then .ok (d.setCore k ({ c with rtnOver := true }.setSeq q (y.ret r))) []
      else .ok (d.setSeq k q { y with rtn := some { r with done := true } }) []) s

/-- The routine counter reaches CYCLES (R52, R53): a return that waits is taken; a routine still running sets RTN_OVER. A HALTED
sequencer dispatches nothing (R60): its routine goes on after it is resumed. -/
def execRoutineCounterExpire (k : CoreId) (q : SeqId) (s : State) : Host.Outcome State Fault Refusal :=
  lift (fun d =>
    let c := d.core k
    let x := c.seq q
    match x.rtn with
    | none => d
    | some r =>
      if r.expired || decide (r.count < r.cycles) || x.st == .halted then d
      else if r.done then d.setSeq k q (x.ret r)
      else d.setCore k ({ c with rtnOver := true }.setSeq q { x with rtn := some { r with expired := true } })) s

/-- STEPEND (R163): into STEP_WAIT, to resume at the next word or at word 0. -/
def execStepend (k : CoreId) (q : SeqId) (s : State) : Host.Outcome State Fault Refusal :=
  seqOp k q 0x03 (fun _ d w =>
    let x := d.seq k q
    if bit w 55 && !x.loops.isEmpty then .refuse (.undefinedWord 0x03)
    else
      let y := x.advance
      let y := { y with st := .stepWait, ended := true, pc := if bit w 55 then 0 else y.pc }
      .ok ((d.setSeq k q y).afterStepEnd k) []) s

/-- A branch of routine code (R162): taken, the next word is the branch's plus OFS. -/
def branchOp (k : Nat) (q : SeqId) (op : Nat) (cond : Word → Word → Bool) (s : State) :
    Host.Outcome State Fault Refusal :=
  seqOp k q op (fun _ d w =>
    let x := d.seq k q
    let y := if cond (x.get (wA w)) (x.get (wB w)) then
        x.jump (((x.pc.toNat : Int) + sext (bits w 13 0) 14) % 8192).toNat
      else x.advance
    .ok (d.setSeq k q y) []) s

def execBeq (k : CoreId) (q : SeqId) (s : State) : Host.Outcome State Fault Refusal := branchOp k q 0x08 (fun a b => a == b) s
def execBne (k : CoreId) (q : SeqId) (s : State) : Host.Outcome State Fault Refusal := branchOp k q 0x09 (fun a b => a != b) s
def execBlt (k : CoreId) (q : SeqId) (s : State) : Host.Outcome State Fault Refusal := branchOp k q 0x0A (fun a b => a.slt b) s
def execBge (k : CoreId) (q : SeqId) (s : State) : Host.Outcome State Fault Refusal := branchOp k q 0x0B (fun a b => b.sle a) s
def execBltu (k : CoreId) (q : SeqId) (s : State) : Host.Outcome State Fault Refusal := branchOp k q 0x0C (fun a b => a.ult b) s
def execBgeu (k : CoreId) (q : SeqId) (s : State) : Host.Outcome State Fault Refusal := branchOp k q 0x0D (fun a b => b.ule a) s
/-- J always branches (R162). -/
def execJ (k : CoreId) (q : SeqId) (s : State) : Host.Outcome State Fault Refusal := branchOp k q 0x0E (fun _ _ => true) s

/-- WATCHDOG (R59): the count of consecutive stalled cycles has passed 2^WDOG_EXP. The record names the sequencer and
its state code; both sequencers enter HALTED; class PARTITION (Table 23-4). -/
def execWatchdog (k : CoreId) (q : SeqId) (s : State) : Host.Outcome State Fault Refusal :=
  lift (fun d =>
    let c := d.core k
    let x := c.seq q
    if x.st.stalled && decide (2 ^ c.wdogExp.toNat < x.stallRun) then
      let p := d.partOf k
      (d.setCore k { c.halt .error with wdog := true }).raise
        { code := 0x15, cls := 2, source := 0, core := k, pmask := pmaskOf p, fpid := d.fpidOf p,
          detail := [match q with | .A => 0 | .E => 1, x.st.code] }
    else d) s

end Sys2Proof.Machine
end

