-- ==== Sys2Proof/Machine/Ports.lean ====
section
/-! DEFINITION. Board links and training: retry, control flits, the steps of Table 14-8 (R260 to R264, R269 to R273). -/

namespace Sys2Proof.Machine

/-! ### Retry (Table 14-5) -/

/-- Does a port exchange flits: past step 2 (Table 14-8, Table 22-2)? -/
def Port.talks (x : Port) : Bool := x.syncs
/-- Does it carry more than SYNC, IDENTITY and REFUSE (R273)? -/
def Port.carries (x : Port) : Bool := x.talks && x.st != .quarantined

/-- SEQ of a held flit, and of the n-th one; with none held the next to be sent. -/
def heldSeq (e : BitVec 2048 × Nat) : BitVec 12 := BitVec.ofNat 12 (flitNum e.1 2 2)
def Port.seqAt (x : Port) (n : Nat) : BitVec 12 := (x.replay[n]?).elim x.nextSeq heldSeq

/-- Free the flits of the replay buffer up to ACK (R262). -/
def Port.acked (x : Port) (ack : Nat) : Port :=
  let l := x.replay.dropWhile (fun e => decide ((BitVec.ofNat 12 ack - heldSeq e).toNat < 2048))
  { x with replay := l, replayRuns := if l.length = x.replay.length then x.replayRuns else 0 }

/-- The port trains again after the 16th replay (R264): it keeps its buffer and what it was before. -/
def Dev.beginRetrain (d : Dev) (u : Nat) : Dev :=
  let x := d.port u
  (d.portDown u).updPort u (fun y => { y with
    st := .training, step := 1, retryExh := true, prior := x.st, before := x.peer, retrain := some d.turn.now.toNat })

/-- Resend from the n-th held flit; the 16th replay in a row from one SEQ ends in retraining (Table 14-5). -/
def Dev.replayFrom (d : Dev) (u n : Nat) : Dev :=
  let x := d.port u
  let seq := x.seqAt n
  let runs := if x.replayRuns ≠ 0 ∧ x.replaySeq = seq then x.replayRuns + 1 else 1
  let d := d.setPort u { x with replayRuns := if runs = 16 then 0 else runs, replaySeq := seq, retryCnt := x.retryCnt + 1 }
  if runs = 16 then d.beginRetrain u else d.resend u n

/-- Ask the peer of a board link for a flit again; a quarantined port does not (R262, R273). -/
def Dev.nak (d : Dev) (u : Nat) : Dev :=
  let x := d.port u
  if x.carries then d.sendCtrl u none 3 x.expect.toNat 0 [] else d

/-- NAK_RECEIVE (R262): resend from SEQ on; the flits before it have arrived. -/
def execNakReceive (u : PortId) (seq : BitVec 12) (s : State) : Host.Outcome State Fault Refusal :=
  lift (fun d =>
    let x := d.port u
    let n := (x.replay.takeWhile (fun e => heldSeq e ≠ seq && decide ((seq - heldSeq e).toNat < 2048))).length
    if 7 ≤ u.val || !x.carries || x.retrain.isSome || x.replay.length ≤ n then d else d.replayFrom u n) s

/-- REPLAY_TIMEOUT (R262): with flits unacknowledged the sender resends from the oldest, and a receiver in RETRY sends its NAK
again. -/
def execReplayTimeout (u : PortId) (s : State) : Host.Outcome State Fault Refusal :=
  lift (fun d =>
    let x := d.port u
    if 7 ≤ u.val || !x.carries || x.retrain.isSome then d
    else
      let d := if x.rxRetry then d.nak u else d
      if x.replay.isEmpty then d else d.replayFrom u 0) s

/-- Bring a retraining to its end (R264): restored in time to the state before with the same identity block (all but its STATE)
the port resumes its replay, else the buffer is lost, with what is left of a packet stopped in its middle, and the port stays DOWN
until LNK_CTRL asks for it. -/
def Dev.retrainEnd (d : Dev) (u : Nat) (good : Bool) : Dev :=
  let x := d.port u
  let seq := (x.seqAt 0).toNat
  let peer := (x.before.map (fun b => b.serial)).getD 0
  if good then
    ((d.exhausted u seq peer none).updPort u (fun x => { x with retrain := none, before := none })).resend u 0
  else
    let d := d.exhausted u seq peer (some (x.replay.map (fun e => e.2)))
    let cut := x.sent.filterMap (fun e => x.sendQ.find? (fun k => k.cls == e.1))
    (d.updPort u (fun x => { x with replay := [], rx := [], rxUsed := [], nextSeq := 0, expect := 0, before := none, retrain := none,
                                    lost := true, sent := [], sendQ := cut.foldl (fun q k => q.erase k) x.sendQ })).portDown u

/-- After a step of training or admission: has a retraining reached the state before? -/
def Dev.retrainCheck (d : Dev) (u : Nat) : Dev :=
  let x := d.port u
  match x.retrain with
  | none => d.portSend u
  | some t =>
    if x.st ≠ x.prior ∨ x.step ≠ 0 then d
    else
      let same : Bool := match x.peer, x.before with
        | some a, some b => decide ({ a with state := 0 } = { b with state := 0 })
        | a, b => a.isNone && b.isNone
      if same && decide (d.turn.now.toNat ≤ t + 6250) then (d.retrainEnd u true).portSend u else d.retrainEnd u false

/-! ### Receiving (R260, R262, R265) -/

/-- Are the bytes of a packet acted on as they arrive (R260)? Those of a SCHED or LOAD packet for this device are; a packet to be relayed
or mirrored, a press partial and a message wait until they are whole. -/
def Dev.inPieces (d : Dev) (k : Packet) : Bool :=
  match d.mouldFp k.fpid with
  | none => false
  | some m => (k.cls == 0 || k.cls == 2) && k.amount.isNone && k.dst == m.self && !((m.tab k.epoch).rec_ m.self).mirror

/-- n bytes of a packet, from the first that waits on, as what stands in `done`. -/
def RxPkt.out (r : RxPkt) (n nfl : Nat) : List Packet :=
  let total := if r.hdr.amount.isSome then 0 else r.bytes
  if r.ok then [{ r.hdr with addr := r.hdr.addr + r.gone, data := r.got.take n, off := r.gone, total := total, nfl := nfl }] else []

/-- Take the payload of a flit into the packet of its class: a whole packet, or the whole 64 B of one that is acted on as it arrives, come
out if it was let in. -/
def takePayload (rx : SMap (Option RxPkt)) (c : Nat) (r : RxPkt) (bs : List Byte) : SMap (Option RxPkt) × List Packet :=
  let r := { r with got := r.got ++ bs, flits := r.flits + 1 }
  let n := r.got.length / 64 * 64
  if r.hdr.amount.isSome || decide (r.bytes ≤ r.gone + r.got.length) then (up rx c none, r.out r.got.length r.flits)
  else if r.piece && n != 0 then
    let left := b2n (decide (n < r.got.length))
    (up rx c (some { r with got := r.got.drop n, gone := r.gone + n, flits := left }), r.out n (r.flits - left))
  else (up rx c (some r), [])
def Port.payload (x : Port) (c : Nat) (r : RxPkt) (bs : List Byte) : Port :=
  let (rx, l) := takePayload x.rx c r bs
  { x with rx := rx, done := x.done ++ l }

/-- Deliver a HEAD or CONT flit of a board link. Before admission a HEAD is refused and its packet dropped, but for class LOAD
while an offer lasts (R269, R273). -/
def Dev.deliver (d : Dev) (u : Nat) (f : BitVec 2048) : Dev :=
  let x := d.port u
  let c := flitNum f 0 1 / 16 % 4
  let len := flitNum f 6 1
  if flitNum f 0 1 % 16 = 1 then
    let k := headPacket f x.rev
    let ok : Bool := x.st == .admitted || (x.offer && c == 2)
    let r : RxPkt := { hdr := k, bytes := flitNum f 0x16 2, got := [], ok := ok, piece := d.inPieces k, gone := 0, flits := 0 }
    let x := { x with rxUsed := if ok then up x.rxUsed c (lk 0 x.rxUsed c + 1) else x.rxUsed,
                      dropCnt := if ok then x.dropCnt else satAdd x.dropCnt 1 }
    let d := d.setPort u (x.payload c r (flitBytes f 0x3C len))
    if ok then d else d.sendCtrl u none 4 (flitNum f 2 2 % 4096) (if x.st = .quarantined then 2 else 1) []
  else
    match lk none x.rx c with
    | none => d
    | some r =>
      let x := { x with rxUsed := if r.ok then up x.rxUsed c (lk 0 x.rxUsed c + 1) else x.rxUsed }
      d.setPort u (x.payload c r (flitBytes f 0x0C len))

/-- FLIT_RECEIVE (R258, R262, R265): CRC, the XOFF and ACK fields, then Table 14-5; what may go goes, and the peer hears of the ACK and
XOFF. A CTRL flit's body has a row of its own. -/
def execFlitReceive (u : PortId) (flit : BitVec 2048) (s : State) : Host.Outcome State Fault Refusal :=
  lift (fun d =>
    let x := d.port u
    let typ := flitNum flit 0 1 % 16
    if 7 ≤ u.val || !x.talks then d
    else if (crc32c (natLe flit.toNat 252)).toNat ≠ flitNum flit 0xFC 4 then
      let e := d.setPort u { x with crcCnt := x.crcCnt + 1, rxRetry := x.rxRetry || typ != 3 }
      if typ ≠ 3 ∧ !x.rxRetry then e.nak u else e
    else
      let x := { x with xoffRx := BitVec.ofNat 4 (flitNum flit 1 1) }
      let x := if bit (flitNum flit 4 2) 15 then x.acked (flitNum flit 4 2 % 4096) else x
      let e := d.setPort u x
      let ahead := (BitVec.ofNat 12 (flitNum flit 2 2) - x.expect).toNat
      let data : Bool := typ == 1 || typ == 2
      let e :=
        if !data then e
        else if ahead = 0 then (e.setPort u { x with expect := x.expect + 1, rxRetry := false }).deliver u flit
        else if x.rxRetry || decide (2048 ≤ ahead) then e
        else (e.setPort u { x with rxRetry := true }).nak u
      (e.portSend u).settled d u (data && decide (2048 ≤ ahead))) s

/-! ### Training (Table 14-8) -/

/-- LINK_TRAIN_RETRY: a DOWN port tries electrical training again, but not one whose retraining failed (R264). -/
def execLinkTrainRetry (u : PortId) (s : State) : Host.Outcome State Fault Refusal :=
  lift (fun d =>
    if d.rst || (d.port u).st != .down || (d.port u).lost || d.heldDown u then d
    else d.updPort u (fun x => { x with st := .training, step := 1 })) s

/-- PCS_ALIGNMENT_FEC_LOCK: steps 1 and 2 done, the port goes on to step 3, and to step 4 once firmware has written the identity
block (R394). -/
def execPcsAlignmentFecLock (u : PortId) (s : State) : Host.Outcome State Fault Refusal :=
  lift (fun d =>
    let x := d.port u
    if d.rst || x.st != .training || decide (2 < x.step) then d
    else if d.crm.phase = .firmware then (d.setPort u ({ x with step := 4 }.reXoff (decide (7 ≤ u.val)))).sendIdentity u
    else d.setPort u ({ x with step := 3 }.reXoff (decide (7 ≤ u.val)))) s

/-- LINK_LOSS (R269): back to step 1; a port that loses lock in step 1 or 2 has failed it, as one whose lanes are crossed always does
(R256), and is DOWN until it tries again. -/
def execLinkLoss (u : PortId) (s : State) : Host.Outcome State Fault Refusal :=
  lift (fun d =>
    let x := d.port u
    if x.st = .down then d
    else if x.st = .training ∧ x.step ≤ 2 then d.portDown u
    else d.trainFrom1 u) s

/-- LNK_RETRAIN (R269, R273). -/
def execLnkRetrain (u : PortId) (s : State) : Host.Outcome State Fault Refusal := lift (fun d => d.lnkRetrain u) s

/-- LNK_DISABLE (R269). -/
def execLnkDisable (u : PortId) (v : Bool) (s : State) : Host.Outcome State Fault Refusal := lift (fun d => d.lnkDisable u v) s

/-- The sequence of a peer's oldest unacknowledged flit. -/
def SegPeer.oldest (p : SegPeer) : BitVec 32 := (p.unacked.head?).elim p.next (fun e => e.seq)

/-- RETRAIN_WINDOW_EXPIRE (R264, R268): 1 ms after LINK_RETRY_EXHAUSTED the buffer of a port, or of a peer of an Ethernet port, is
lost. -/
def execRetrainWindowExpire (u : PortId) (s : State) : Host.Outcome State Fault Refusal :=
  lift (fun d =>
    let x := d.port u
    let now := d.turn.now.toNat
    if u.val < 7 then
      (match x.retrain with
       | some t => if t + 6250 ≤ now then d.retrainEnd u false else d
       | none => d)
    else
      match x.peers.find? (fun p => p.refused.any (fun t => decide (t + 6250 ≤ now)) && !p.unacked.isEmpty) with
      | none => d
      | some p =>
        (d.setPort u (x.setSeg { p with unacked := [], rx := [] })).exhausted u
          (p.oldest).toNat p.peer (some (p.unacked.map (fun e => e.fpid)))) s

/-- The revision a port runs with a peer (R271). -/
def Dev.revision (d : Dev) (u : Nat) (b : Identity) : Option Nat :=
  [1, 2].find? (fun r => decide (b.revMin ≤ r ∧ r ≤ b.revMax ∧ r ≤ d.revMax u ∧ d.rindMin ≤ r))

/-- The address of the peer with this identity block behind an Ethernet port; none on a board link. -/
def Dev.onlyPeer (d : Dev) (u : Nat) (b : Identity) : Option Nat := if u < 7 then none else some ((d.ipsOf b.serial).headD 0)

/-- Steps 5 and 6 with the identity block just received: the revision, then eight RTT probes. An Ethernet port goes through them with
each peer (R269). -/
def Dev.negotiate (d : Dev) (u : Nat) (b : Identity) : Dev :=
  match d.revision u b with
  | none =>
    (d.updPort u (fun x => { x with st := .quarantined, step := 0, rev := 0, vmism := true })).raisePort u 0x42
      [256 + d.revMax u, b.revMin * 256 + b.revMax]
  | some r =>
    let d := d.updPort u (fun x => { x with
      rev := r, step := if x.st = .training then 6 else x.step, probes := if u < 7 then [] else x.probes,
      negs := if u < 7 then [] else x.negs.filter (fun (n : Neg) => n.id.serial ≠ b.serial) ++ [⟨b, r, []⟩] })
    (List.range 8).foldl (fun d _ =>
      d.sendCtrl u (d.onlyPeer u b) 5 0 0 (natLe d.turn.now.toNat 8 ++ natLe d.turn.frac.toNat 2)) d

/-- Resent flits in datagrams, each of one frame, in sequence, and of up to `per` flits. -/
def regroup (u rev per : Nat) (last : BitVec 32) : Nat → List SegFlit → List Out
  | 0, _ => []
  | n + 1, l =>
    match l with
    | [] => []
    | e :: _ =>
      let g := (l.take per).zipIdx.takeWhile (fun x => x.1.frame == e.frame && x.1.seq == e.seq + BitVec.ofNat 32 x.2)
      .datagram u e.frame (segHdr rev true false e.seq last g.length) (g.map (fun x => x.1.flit)) ::
        regroup u rev per last n (l.drop g.length)

/-- Send flits to a peer again, in order, up to the first whose class a PFC frame holds (R266). -/
def Dev.segAgain (d : Dev) (u : Nat) (p : SegPeer) (l : List SegFlit) : Dev :=
  let x := d.port u
  let l := l.takeWhile (fun e => !bit x.xoffRx.toNat (flitNum e.flit 0 1 / 16 % 4))
  d.emits (regroup u p.rev (x.fpd.toNat + 1) (p.expect - 1) l.length l)

/-- The peers whose traffic an Ethernet port refuses (R268) and whose identity exchange is repeated: the same block within 1 ms
resumes the replay from the oldest flit, the others stay refused. -/
def Dev.segRestored (d : Dev) (u : Nat) (b : Identity) : Dev :=
  let x := d.port u
  let ips := d.ipsOf b.serial
  let same : Bool := x.ids.any (fun (i : Identity) => decide ({ i with state := 0 } = { b with state := 0 }))
  x.peers.foldl (fun d p =>
    match p.refused with
    | none => d
    | some t =>
      if !ips.contains p.peer then d
      else if same && decide (d.turn.now.toNat ≤ t + 6250) then
        let p' := { p with refused := none, resends := 0 }
        ((d.exhausted u (p.oldest).toNat p.peer none).updPort u (fun x => x.setSeg p')).segAgain u p' p'.unacked
      else if p.unacked.isEmpty then d.updPort u (fun x => x.setSeg { p with refused := none, resends := 0, expect := 0, next := 0 })
      else d) d

/-- What an identity block leads to at a port past step 3 that has taken it: steps 5 and 6 for a board link in step 4, for a peer an
Ethernet port does not know yet and for a peer whose offered range has changed (R269, R271); else the neighbour is checked again (R272).
A quarantined port leaves quarantine by training again only (R273). -/
def Dev.identityTaken (d : Dev) (u : Nat) (b : Identity) (known moved : Bool) : Dev :=
  let x := d.port u
  match x.st with
  | .down | .quarantined => d
  | .training => if x.step = 4 || (7 ≤ u && !x.negs.any (fun n => n.id.serial == b.serial)) then d.negotiate u b else d
  | .notAdmitted | .admitted =>
    if 7 ≤ u then (if known && !moved then (d.letIn u).retrainCheck u else d.negotiate u b)
    else if moved then (d.updPort u (fun x => { x with st := .training, step := 4, rev := 0, probes := [] })).negotiate u b
    else (d.letIn u).retrainCheck u

/-- IDENTITY_RECEIVE (R261, R271, R272): acknowledge it with the own block, unless it is itself the acknowledgement. -/
def execIdentityReceive (u : PortId) (b : Identity) (s : State) : Host.Outcome State Fault Refusal :=
  lift (fun d =>
    let x := d.port u
    if !x.identified then d
    else
      let e := if x.idSent.isNone then d.emits (d.identityOuts u (d.onlyPeer u b)) else d
      let old : Option Identity := if u.val < 7 then x.peer else x.ids.find? (fun (i : Identity) => i.serial == b.serial)
      let moved : Bool := old.any (fun (i : Identity) => i.revMin != b.revMin || i.revMax != b.revMax)
      let e := if 7 ≤ u.val then e.segRestored u b else e
      let e := e.updPort u (fun x => { x with idSent := none, peer := some b, peerSerial := BitVec.ofNat 64 b.serial })
      (e.identityTaken u b old.isSome moved).settled d u false) s

/-- IDENTITY_RESEND (R261): no acknowledgement 1 ms after sending. -/
def execIdentityResend (u : PortId) (s : State) : Host.Outcome State Fault Refusal :=
  lift (fun d =>
    match (d.port u).idSent with
    | some t => if (d.port u).identified && decide (t + 6250 ≤ d.turn.now.toNat) then d.sendIdentity u else d
    | none => d) s

/-- RTT_PROBE_RECEIVE: answered with an RTT reply that carries its time stamp; a quarantined port does not answer (R273). -/
def execRttProbeReceive (u : PortId) (stamp : Nat) (s : State) : Host.Outcome State Fault Refusal :=
  lift (fun d =>
    let x := d.port u
    if x.identified && x.st != .quarantined then d.sendCtrl u (if u.val < 7 then none else x.peer.bind (d.onlyPeer u)) 6 0 0 (natLe stamp 10)
    else d) s

/-- The mean of eight times; which way a part of a unit is rounded is free (log entry 23). -/
def meanOf (l : List Nat) (up_ : Bool) : Nat := (l.foldl (fun a b => a + b) 0 + 7 * b2n up_) / 8

/-- RTT_REPLY_RECEIVE (Table 14-8, step 6): after the eighth reply LNK_RTT is the mean; a board link over 600 ns, 245,760 units of
1/65,536 tick, fails. On an Ethernet port a reply belongs to the peer whose probes went out first (log entry 155). -/
def execRttReplyReceive (u : PortId) (rtt : Nat) (s : State) : Host.Outcome State Fault Refusal :=
  lift (fun d =>
    let x := d.port u
    if u.val < 7 then
      if x.st != .training || x.step != 6 then d
      else
        let l := x.probes ++ [rtt]
        if l.length < 8 then d.setPort u { x with probes := l }
        else
          let mean := meanOf l ((Config.freeValue d.free).getLsbD 0)
          let e := ({ d with free := d.free + 1 } : Dev).setPort u { x with probes := l, rtt := BitVec.ofNat 32 mean }
          if 245760 < mean then
            ((e.updPort u (fun x => { x with rttFail := true })).raisePort u 0x43 [mean]).portDown u
          else ((e.letIn u).retrainCheck u).settled d u false
    else
      match x.negs with
      | [] => d
      | n :: r =>
        let l := n.probes ++ [rtt]
        if l.length < 8 then d.setPort u { x with negs := { n with probes := l } :: r }
        else
          let mean := meanOf l ((Config.freeValue d.free).getLsbD 0)
          let e := ({ d with free := d.free + 1 } : Dev).setPort u
            { x with negs := r, rev := n.rev, peer := some n.id, rtt := BitVec.ofNat 32 mean }
          ((e.letIn u).retrainCheck u).settled d u false) s

/-- REFUSE_RECEIVE (R260, R273, R397): the peer has refused a packet; an offer made on the port stands refused. -/
def execRefuseReceive (u : PortId) (_seq _reason : Nat) (s : State) : Host.Outcome State Fault Refusal :=
  lift (fun d => { d with offers := d.offers.map (fun (o : Offer) => if o.port = u.val + 4 ∧ !o.taken then { o with refused := true } else o) }) s

end Sys2Proof.Machine
end

