-- ==== Sys2Proof/Machine/Segments.lean ====
section
/-! DEFINITION. Ethernet ports: datagrams, segment retry, priority flow control (R266 to R268). -/

namespace Sys2Proof.Machine

/-- Bytes a flit takes in a receive buffer of an Ethernet port. -/
def ethFlit : Nat := 256

/-- PFC of the two lossless classes after the fill of a buffer has changed: 0xFFFF below 1 MiB free of 2 MiB, 0 again at
1.5 MiB (R266). -/
def Dev.pfcUpdate (d : Dev) (u : Nat) : Dev :=
  (List.range 2).foldl (fun d c =>
    let x := d.port u
    let free := 2 ^ 21 - lk 0 x.rxUsed c
    if !bit x.pfc.toNat c && decide (free < 2 ^ 20) then
      (d.setPort u { x with pfc := x.pfc ||| BitVec.ofNat 2 (2 ^ c) }).emit (.pfc u (x.pcp c) 0xFFFF)
    else if bit x.pfc.toNat c && decide (3 * 2 ^ 19 ≤ free) then
      (d.setPort u { x with pfc := x.pfc &&& ~~~(BitVec.ofNat 2 (2 ^ c)) }).emit (.pfc u (x.pcp c) 0)
    else d) d

/-- Free the segments up to ACK. -/
def SegPeer.acked (p : SegPeer) (ack : BitVec 32) : SegPeer :=
  let l := p.unacked.dropWhile (fun e => decide ((ack - e.seq).toNat < 2 ^ 31))
  { p with unacked := l, resends := if l.length = p.unacked.length then p.resends else 0 }

/-- An ACK-only or NAK datagram to a peer (Table 14-7). -/
def Dev.segAnswer (d : Dev) (u peer : Nat) (nak : Bool) : Dev :=
  let p := (d.port u).seg peer
  d.emits (((d.ctrlFrames u).filter (fun f => f.dst == peer)).map (fun f =>
    .datagram u f (segHdr p.rev true nak p.next (p.expect - 1) 0) []))

/-- Resend to a peer from its n-th unacknowledged flit; at the 16th resend in a row from one sequence its traffic is refused
and the identity exchange with it repeated (R268). -/
def Dev.segResend (d : Dev) (u peer n : Nat) : Dev :=
  let x := d.port u
  let p := x.seg peer
  let seq := (p.unacked[n]?).elim p.next (fun e => e.seq)
  let runs := if p.resends ≠ 0 ∧ p.from_ = seq then p.resends + 1 else 1
  let x := { x with retryCnt := x.retryCnt + 1 }
  if runs = 16 then
    (d.setPort u (({ x with retryExh := true }).setSeg { p with resends := 0, refused := some d.turn.now.toNat })).sendIdentity u
  else
    let p := { p with resends := runs, from_ := seq }
    (d.setPort u (x.setSeg p)).segAgain u p (p.unacked.drop n)

/-- Take the flits of a datagram in order: the expected one is delivered, one behind is dropped, one ahead or damaged asks for a
NAK, which is the last component. Control flits are not sequenced (R261); what they say has rows of its own. -/
def Dev.segFlits (d : Dev) (u peer : Nat) : BitVec 32 → List (BitVec 2048) → Bool → Dev × Bool
  | _, [], nak => (d, nak)
  | seq, f :: r, nak =>
    let x := d.port u
    let p := x.seg peer
    let ahead := (seq - p.expect).toNat
    if (flitNum f 0 1 % 16 == 0 || flitNum f 0 1 % 16 == 3) && (crc32c (natLe f.toNat 252)).toNat == flitNum f 0xFC 4 then
      Dev.segFlits d u peer seq r nak
    else if 2 ^ 31 ≤ ahead then Dev.segFlits d u peer (seq + 1) r nak
    else if (crc32c (natLe f.toNat 252)).toNat ≠ flitNum f 0xFC 4 then
      Dev.segFlits (d.setPort u { x with crcCnt := x.crcCnt + 1 }) u peer (seq + 1) r true
    else if ahead ≠ 0 then Dev.segFlits d u peer (seq + 1) r true
    else
      let c := flitNum f 0 1 / 16 % 4
      let p := { p with expect := p.expect + 1 }
      let len := flitNum f 6 1
      let head : Bool := flitNum f 0 1 % 16 == 1
      let ok : Bool := if head then x.st == .admitted else (lk none p.rx c).any (fun r => r.ok)
      let r0 : Option RxPkt :=
        if head then
          let k := headPacket f p.rev
          some { hdr := k, bytes := flitNum f 0x16 2, got := [], ok := ok, piece := d.inPieces k, gone := 0, flits := 0 }
        else lk none p.rx c
      let d :=
        match r0 with
        | none => d.setPort u (x.setSeg p)
        | some k =>
          let (rx, l) := takePayload p.rx c k (flitBytes f (if head then 0x3C else 0x0C) len)
          d.setPort u (({ x with done := x.done ++ l, rxUsed := if ok then up x.rxUsed c (lk 0 x.rxUsed c + ethFlit) else x.rxUsed,
                                 dropCnt := if head && !ok then satAdd x.dropCnt 1 else x.dropCnt }).setSeg { p with rx := rx })
      let d := if head && !ok then d.sendCtrl u (some peer) 4 0 (if x.st = .quarantined then 2 else 1) [] else d
      Dev.segFlits d u peer (seq + 1) r nak

/-- DATAGRAM_RECEIVE (R266 to R268). A frame of a lossy class that finds its buffer full is dropped whole. -/
def execDatagramReceive (u : PortId) (peer : Nat) (sumOk : Bool) (seg : BitVec 128) (flits : List (BitVec 2048)) (s : State) :
    Host.Outcome State Fault Refusal :=
  liftO (fun _ _ d =>
    let x := d.port u
    let v := seg.toNat
    if u.val < 7 || !x.identified then .ok d []
    else if !sumOk then .ok (d.setPort u { x with crcCnt := x.crcCnt + 1 }) []
    else if 8 < flits.length ∨ flits.length ≠ v / 2 ^ 96 % 256 then .fault .illFormed
    else if v % 2 ^ 16 ≠ 0x5253 ∨ (x.seg peer).refused.isSome then .ok d []
    else
      let p := x.seg peer
      let p := if bit v 24 || bit v 25 then p.acked (BitVec.ofNat 32 (v / 2 ^ 64)) else p
      let d := d.setPort u (x.setSeg p)
      let d := if bit v 25 && !p.unacked.isEmpty && x.carries then d.segResend u peer 0 else d
      let c := (flits.head?.map (fun f => flitNum f 0 1 / 16 % 4)).getD 0
      if flits.isEmpty then .ok (d.portSend u) []
      else if 2 ≤ c ∧ 2 ^ 18 < lk 0 (d.port u).rxUsed c + ethFlit * flits.length then
        .ok ((d.updPort u (fun x => { x with dropCnt := satAdd x.dropCnt 1 })).portSend u) []
      else
        let (d, nak) := d.segFlits u peer (BitVec.ofNat 32 (v / 2 ^ 32)) flits false
        let d := d.pfcUpdate u
        .ok ((if (d.port u).carries then d.segAnswer u peer nak else d).portSend u) []) s

/-- SEGMENT_TIMEOUT (R268): resend to the peer from the oldest unacknowledged flit. -/
def execSegmentTimeout (u : PortId) (peer : Nat) (s : State) : Host.Outcome State Fault Refusal :=
  lift (fun d =>
    let p := (d.port u).seg peer
    if u.val < 7 || !(d.port u).identified || !(d.port u).carries || p.refused.isSome || p.unacked.isEmpty then d
    else d.segResend u peer 0) s

/-- PFC_FRAME_RECEIVE (R266): pauses or resumes a lossless priority. -/
def execPfcFrameReceive (u : PortId) (prio quanta : Nat) (s : State) : Host.Outcome State Fault Refusal :=
  lift (fun d =>
    let x := d.port u
    if u.val < 7 || !x.talks then d
    else
      let m := (List.range 2).foldl (fun (a : BitVec 4) (c : Nat) =>
        if x.pcp c = prio then
          (if quanta = 0 then a &&& ~~~(BitVec.ofNat 4 (2 ^ c)) else a ||| BitVec.ofNat 4 (2 ^ c)) else a) x.xoffRx
      (d.setPort u { x with xoffRx := m }).portSend u) s

/-- PFC_REPEAT (R266): the frame is repeated while the buffer stays low. -/
def execPfcRepeat (u : PortId) (cls : Fin 2) (s : State) : Host.Outcome State Fault Refusal :=
  lift (fun d =>
    let x := d.port u
    if u.val < 7 || !x.talks || !bit x.pfc.toNat cls || decide (2 ^ 20 ≤ 2 ^ 21 - lk 0 x.rxUsed cls) then d
    else d.emit (.pfc u (x.pcp cls) 0xFFFF)) s

end Sys2Proof.Machine
end

