-- ==== Sys2Proof/Machine/Fabric.lean ====
section
/-! DEFINITION. Packets between devices (R276 to R281, R284, Table 15-1). -/

namespace Sys2Proof.Machine

/-! ### Taking a packet off the die -/

/-- Does flit g belong to the same message as f? -/
def Flit.mate (f g : Flit) : Bool := f.src == g.src && f.hdr == g.hdr && f.fab == g.fab

/-- The flits of the first message that stands whole at a port unit, in order, with the flits left over. -/
def gather (q : List Flit) : List Flit → Option (List Flit × List Flit)
  | [] => none
  | f :: r =>
    if f.idx ≠ 0 then gather q r
    else
      let n := if f.amount.isSome then 1 else f.flits
      let got := (List.range n).filterMap (fun i => q.find? (fun g => f.mate g && g.idx == i && g.amount == f.amount))
      if got.length = n then some (got, got.foldl (fun l g => l.erase g) q) else gather q r

/-- FAB_DROP_CNTr. -/
def Dev.fabCount (d : Dev) (r : Nat) : Dev := { d with fabDrop := up d.fabDrop r (satAdd (lk (0 : BitVec 32) d.fabDrop r) 1) }

/-- FABRIC_UNROUTABLE at a port unit (R278, R279). -/
def Dev.unroutable (d : Dev) (u src : Nat) (m : Mould) (detail : List Nat) : Dev :=
  d.raise { code := 0x50, cls := 1, source := u + 4, core := src, pmask := m.pmask, fpid := m.fpid, detail := detail }

/-- A free value for what the manual does not give of a packet (log entry 30), below `n`. -/
def Dev.freeNat (d : Dev) (n : Nat) : Nat × Dev := ((Config.freeValue d.free).toNat % n, { d with free := d.free + 1 })

/-- The packet of a message at a port unit. A press partial that leaves the die has no board address, and an FSEND of class
PRESS no tree and no format, in the manual: those are free (log entry 30). A ladle message makes no packet (R259). -/
def Dev.mkPacket (d : Dev) (m : Mould) (f : Flit) (data : List Byte) : Option (Packet × Dev) :=
  match f.fab with
  | some p =>
    let (t, d) := if p.cls = 1 then d.freeNat 256 else (0, d)
    let (fm, d) := if p.cls = 1 then d.freeNat 2 else (0, d)
    some ({ cls := p.cls, addr := p.addr, epoch := m.epoch, fmt := fm, fpid := m.fpid, syn := p.syn, src := m.self, dst := 0,
            tree := t, data := data, amount := f.amount }, d)
  | none =>
    if f.kind ≠ 2 then none
    else
      let (a, d) := d.freeNat (2 ^ 31)
      let exa := d.net.trees.any (fun e => e.tree == f.tree && e.press && e.exa)
      some ({ cls := 1, addr := 64 * a, epoch := m.epoch, fmt := b2n exa, fpid := m.fpid, syn := f.syn, src := m.self,
              dst := 0, tree := f.tree, data := data, amount := f.amount }, d)

/-- PORT_UNIT_TAKE (R278, R279, R281, R284). -/
def execPortUnitTake (u : PortId) (s : State) : Host.Outcome State Fault Refusal :=
  lift (fun d =>
    let q := lk [] d.net.unitIn (u + 4)
    match gather q q with
    | none => d
    | some (fs, rest) =>
      let d := { d with net := { d.net with unitIn := up d.net.unitIn (u + 4) rest } }
      match fs with
      | [] => d
      | f :: _ =>
        match d.mouldOf f.ptag with
        | none => d
        | some m =>
          let data := if f.amount.isSome then [] else fs.flatMap (fun g => natLe g.data.toNat 64)
          match d.mkPacket m f data with
          | none => d
          | some (k, d) =>
            let t := m.tab m.epoch
            if (t.rec_ m.self).muted && decide (k.cls < 2) then d.fabCount 5
            else
              match m.destOf t u k.addr with
              | none => d.unroutable u f.src m [0xFFFF]
              | some x => (d.stampV m m.epoch).enqueue u { k with dst := x }) s

/-! ### Arriving packets -/

/-- A dropped packet (R277): counted for reason r and at the port, and recorded; once for a packet that arrives in pieces. -/
def Dev.fabReject (d : Dev) (u r cls pm : Nat) (k : Packet) (what : Nat) : Dev :=
  if k.off ≠ 0 then d
  else ((d.fabCount r).updPort u (fun x => { x with dropCnt := satAdd x.dropCnt 1 })).raise
    { code := 0x20, cls := cls, source := u + 4, core := 0xFFFF, pmask := pm, fpid := k.fpid, detail := [what, k.src, r] }

/-- Take a packet, or a piece of one, out of a port's receive buffer. -/
def Dev.takeDone (d : Dev) (u : Nat) (k : Packet) : Dev :=
  let x := d.port u
  let n := if u < 7 then k.nfl else ethFlit * k.nfl
  let x := { x with done := x.done.erase k, rxUsed := up x.rxUsed k.cls (lk 0 x.rxUsed k.cls - n) }
  if u < 7 then (d.setPort u x).settled d u false else (d.setPort u x).pfcUpdate u

/-- Is a partition one of the Mould's? -/
def Mould.has (m : Mould) (p : Nat) : Bool := decide (p < 16) && bit m.pmask p

/-- Check 2 of Table 15-1: the slice (left) or the core (right) the rest of the payload lies in. -/
def Dev.fabTarget (d : Dev) (m : Mould) (k : Packet) : Option (Nat ⊕ Nat) :=
  let a := k.addr % 2 ^ 34
  let z := a + max 1 (k.total - k.off) - 1
  if k.addr / 2 ^ 34 ≠ d.slot.toNat then none
  else if z < 0x180000000 then
    if a / 0x800000 = z / 0x800000 ∧ m.has (lk 16 d.net.slcOwner (a / 0x800000)) then some (.inl (a / 0x800000)) else none
  else if 0x180000000 ≤ a ∧ z < 0x1B0000000 then
    let c := (a - 0x180000000) / 0x100000
    if c = (z - 0x180000000) / 0x100000 ∧ m.has (d.partOf c) then some (.inr c) else none
  else none

/-- Check 3: an object of a core of the Mould, or an edge object granted to it (Table 13-4). -/
def Dev.fabSyn (d : Dev) (m : Mould) (o : Nat) : Bool :=
  if o < 24576 then m.has (d.partOf (o / 32))
  else m.syncs.any (fun e => e.kind == 1 && decide (e.obj ≤ o ∧ o < e.obj + e.count))

/-- Check 4: the attach point of port u, lowest position first, at which the tree has bit P in IN_MASK. -/
def Dev.fabTree (d : Dev) (m : Mould) (u tree : Nat) : Option Nat :=
  (List.range 832).find? (fun pos => inSegment (u + 4) pos &&
    d.net.trees.any (fun e => e.pos == pos && e.tree == tree && e.press && bit e.inMask.toNat 5 && m.has e.ptag))

/-- Flits of an accepted packet, put into input P of the router at `pos` (R23, R277). -/
def Dev.fromPort (d : Dev) (pos : Nat) (hdr : BitVec 64) (data : List Byte) : Dev :=
  let fs := (List.range (cdiv data.length 64)).map (fun i =>
    ({ hdr := hdr, idx := i, data := BitVec.ofNat 512 (leNat ((data.drop (64 * i)).take 64)), src := 0xFFFF, credit := true,
       amount := none, fab := none } : Flit))
  { d with net := d.net.fromUnit pos fs }

/-- A copy to the partner of a mirroring member (R284). -/
def Dev.mirror (d : Dev) (m : Mould) (k : Packet) : Dev :=
  let own := (m.tab k.epoch).rec_ m.self
  if !own.mirror || 2 ≤ k.cls || own.partner = 0xFFFF then d
  else
    match m.linkTo own.partner with
    | none => d
    | some v => d.enqueue v { k with dst := own.partner, total := 0, nfl := 0 }

/-- A packet, or a piece of one, for this device that passed Table 15-1: its bytes go over the memory network into a slice or over the
mesh into a local store, 64 B credited at a time (R260), or into its press tree; a header-only packet credits its count. -/
def Dev.accept (d : Dev) (m : Mould) (k : Packet) (u : Nat) (tgt : Nat ⊕ Nat) : Dev × List MemOp :=
  let d := d.mirror m k
  let a := k.addr % 2 ^ 34
  let src := 0x20000 + (u + 4)
  match k.amount with
  | some n => (d.creditIf (n ≠ 0) k.syn n src, [])
  | none =>
    let n := cdiv k.data.length 64
    if k.cls = 1 then
      match d.fabTree m u k.tree with
      | none => (d, [])
      | some pos =>
        let tag := (d.net.trees.find? (fun e => e.pos == pos && e.tree == k.tree)).elim 0 (fun e => e.ptag)
        (d.fromPort pos (mkHdr tag 0 2 pos 0 k.tree k.syn (a % 2 ^ 20 / 64) (n - 1)) k.data, [])
    else
      match tgt with
      | .inl _ =>
        let d := (d.winTouch a k.data.length true).eccWrite (wholeBytes a k.data) 0xFFFF
        ((List.range n).foldl (fun d _ => d.credit k.syn 64 src) d, wrBytes a k.data)
      | .inr c =>
        let vc := if k.cls = 0 then 0 else 1
        let hdr := mkHdr (d.partOf c) vc (if k.cls = 0 then 0 else 3) (d.posOf c) 0 0 k.syn (a % 2 ^ 20 / 64) (n - 1)
        (d.fromPort (entryPoint (u + 4) (d.posOf c)) hdr k.data, [])

/-- FABRIC_PACKET_ARRIVE (R260, R277, R279, R282, R284): the checks in their order, a relay to a member in another slot of the
board, or acceptance. Bytes of class LOAD under an offer belong to the Mould that arrives (R273); a packet of class MGMT that passes goes
to the Creamery, and what its message says has a row of its own. A slice at retention takes no bytes yet (R153). -/
def execFabricPacketArrive (u : PortId) (pk : Packet) (s : State) : Host.Outcome State Fault Refusal :=
  liftW (fun _ _ d =>
    if (d.port u).done.find? (fun k => k.cls == pk.cls) ≠ some pk then (d, [])
    else
      let e := d.takeDone u pk
      let e := match d.mouldFp pk.fpid with
        | some m => e.stampV m pk.epoch
        | none => e
      if (d.port u).st ≠ .admitted ∧ (d.port u).offer ∧ pk.cls = 2 then (e, [])
      else
        match d.mouldFp pk.fpid with
        | none => (e.fabReject u 0 0 0 pk pk.fpid, [])
        | some m =>
          let own := (m.tab pk.epoch).valid
          if !d.portAdmits u pk.fpid pk.src then (e.fabReject u 0 2 m.pmask pk pk.fpid, [])
          else if !own then ((e.fabCount 4).unroutable u 0xFFFF m [pk.dst, 4], [])
          else if pk.dst ≠ m.self then
            (match (if m.boardOf pk.dst = m.boardOf m.self then m.linkTo pk.dst else none) with
             | some v => (e.enqueue v { pk with total := 0, nfl := 0 }, [])
             | none => ((e.fabCount 4).unroutable u 0xFFFF m [pk.dst, 4], []))
          else
            match d.fabTarget m pk with
            | none => (e.fabReject u 1 2 m.pmask pk pk.addr, [])
            | some tgt =>
              if !d.fabSyn m pk.syn then (e.fabReject u 2 2 m.pmask pk pk.syn, [])
              else if pk.cls = 1 ∧ (d.fabTree m u pk.tree).isNone then (e.fabReject u 3 2 m.pmask pk pk.tree, [])
              else if pk.cls = 3 then (e, [])
              else
                match tgt with
                | .inl j => if d.atRetention j then (d, []) else e.accept m pk u tgt
                | .inr _ => e.accept m pk u tgt) s

end Sys2Proof.Machine
end

