-- ==== Sys2Proof/Machine/Edge.lean ====
section
/-! DEFINITION. The edge units that serve Cave and host request records (R174 to R177). -/

namespace Sys2Proof.Machine

/-- A little-endian field of a record. -/
def ReqRec.fld (r : ReqRec) (off n : Nat) : Nat := leNat ((r.data.drop off).take n)

/-- OFFSET, SYN and LENGTH lie alike in Tables 09-8 and 09-9. -/
def ReqRec.offset (r : ReqRec) : Nat := r.fld 0x00 8
def ReqRec.synRaw (r : ReqRec) : Nat := r.fld 0x0E 2
def ReqRec.length (r : ReqRec) : Nat := r.fld 0x10 4
/-- Is SYN one of the 32 objects of the issuing core (R175, R177)? -/
def ReqRec.synOk (r : ReqRec) : Bool := decide (r.synRaw < 2 ^ 15) && r.synRaw / 32 == r.core

/-- Table 09-8. -/
def ReqRec.dest (r : ReqRec) : Nat := r.fld 0x08 5
def ReqRec.range (r : ReqRec) : Nat := r.fld 0x0D 1
/-- Table 09-9. -/
def ReqRec.local_ (r : ReqRec) : Nat := r.fld 0x08 4
def ReqRec.chan (r : ReqRec) : Nat := r.fld 0x0C 2
def ReqRec.toHost (r : ReqRec) : Bool := !bit (r.fld 0x14 1) 0

/-- The allocation ranges of partition p, in order (Table 13-5). -/
def Dev.rangesOf (d : Dev) (p : Nat) : List Range :=
  ((d.mouldOf p).elim [] (fun m => m.ranges)).filter (fun r => r.part == p)

/-- The Cave range a record names, if it grants R and holds the bytes: OFFSET counts from the range's first byte
(Table 09-8; log entry 20). -/
def Dev.caveRange (d : Dev) (r : ReqRec) : Option Range :=
  match (d.rangesOf r.part)[r.range]? with
  | some g =>
    if g.kind = 3 ∧ g.r ∧ r.offset + r.length ≤ g.last + 1 - g.first ∧ g.first + r.offset + r.length ≤ g.last + 1 then
      some g else none
  | none => none

/-- Does [lo, lo + n - 1] lie in one SLICE range with W? -/
def Dev.sliceRange (d : Dev) (p lo n : Nat) : Bool :=
  (d.rangesOf p).any (fun g => g.kind == 2 && g.w && decide (g.first ≤ lo ∧ lo + n ≤ g.last + 1))

/-- The checks of R175. -/
def Dev.caveRecOk (d : Dev) (r : ReqRec) : Bool :=
  (d.caveRange r).isSome && d.sliceRange r.part r.dest r.length && r.synOk &&
  r.offset % 512 == 0 && r.dest % 128 == 0 && r.length % 512 == 0 && decide (512 ≤ r.length ∧ r.length ≤ 67108864) &&
  r.fld 0x14 4 == 0 && r.fld 0x1C 4 == 0

/-- DESC_RANGE of a refused record (R175, R177): class STEP, from the edge unit. -/
def Dev.recRange (d : Dev) (r : ReqRec) (check : Nat) : Dev :=
  d.raise { code := 0x11, cls := 1, source := 3, core := r.core, pmask := pmaskOf r.part, fpid := d.fpidOf r.part,
            detail := [r.off, check] }

/-- CAVE_RECORD_TAKE (R175): the head record of queue n, once the record before it is served. -/
def execCaveRecordTake (n : Fin 16) (s : State) : Host.Outcome State Fault Refusal :=
  lift (fun d =>
    match lk none d.caveSrv n, lk [] d.caveQ n with
    | none, r :: q =>
      let ok := d.caveRecOk r
      let d := { d with caveQ := up d.caveQ n q, caveSrv := up d.caveSrv n (some ⟨r, if ok then 1 else 2⟩) }
      if ok then d else d.recRange r 19
    | _, _ => d) s

/-- The end of a record, whatever its outcome: STATUS is written into it, then SYN is credited with LENGTH (R175). `unit` is
the Cave controller (3) or the PCIe controller (1). -/
def Dev.recordEnd (d : Dev) (unit : Nat) (r : ReqRec) : Dev := if r.synOk && r.length ≠ 0 then d.credit r.synRaw r.length (0x20000 + unit) else d
/-- The STATUS write. -/
def statusBytes (r : ReqRec) (st : Nat) : List MByte := wholeBytes (lsBase r.core + (r.off + 0x18) % 2 ^ 20) (natLe st 4)

/-- The accesses of an edge unit's slice writes, for the lock-step digest (R235). -/
def accessItems (bs : List MByte) : List (Nat × List Byte) :=
  (accessRuns (fun (b : MByte) => b.addr) bs).map (fun e => accItem e.2)

/-- CAVE_RECORD_COMPLETE (R175): the bytes lie in the slices, STATUS in the record, SYN is credited. Requests are held
until the Cave is ready (R396); slices at retention make the writes wait (R153). -/
def execCaveRecordComplete (n : Fin 16) (mediaError : Bool) (s : State) : Host.Outcome State Fault Refusal :=
  liftW (fun m cv d =>
    match lk none d.caveSrv n with
    | none => (d, [])
    | some v =>
      let r := v.rec_
      if !d.clocked r.core then (d, [])
      else
        let d0 := { d with caveSrv := up d.caveSrv n none }
        match (if v.status = 1 then d.caveRange r else none) with
        | none =>
          let b := statusBytes r v.status
          ((d0.eccWrite b r.core).recordEnd 3 r, storeBytes m b)
        | some g =>
          if !d.flash.ready || (List.range (r.length / 0x800000 + 2)).any (fun i =>
              let j := r.dest / 0x800000 + i
              decide (0x800000 * j < r.dest + r.length) && d.atRetention j) then (d, [])
          else
            let bytes := wholeBytes r.dest (cv.bytes (g.first + r.offset) r.length)
            let st := statusBytes r (if mediaError then 3 else 1)
            let d1 := { d0 with flash := { d0.flash with rdBytes := d0.flash.rdBytes + BitVec.ofNat 64 r.length } }
            let d1 := (d1.digestAdd r.core (accessItems bytes)).eccWrite bytes r.core
            let d1 := if mediaError then
                d1.raise { code := 0x02, cls := 1, source := 3, core := r.core, pmask := pmaskOf r.part,
                           fpid := d1.fpidOf r.part, detail := [4, g.first + r.offset] }
              else d1
            ((d1.eccWrite st r.core).recordEnd 3 r, storeBytes m bytes ++ storeBytes m st)) s

/-- The open channel a record names. -/
def Dev.chanOf (d : Dev) (r : ReqRec) : Option Chan := d.chans.find? (fun c => c.part == r.part && c.chan == r.chan)

/-- The checks of R177; a field that breaks its rule is refused in the same way (log entry 21). -/
def Dev.hostRecOk (d : Dev) (r : ReqRec) : Bool :=
  match d.chanOf r with
  | none => false
  | some c =>
    r.synOk && decide (r.offset + r.length ≤ c.len) && decide (r.local_ + r.length ≤ 2 ^ 20) &&
    (if r.toHost then c.w else c.r) && r.local_ % 64 == 0 && decide (1 ≤ r.length ∧ r.length ≤ 1048576) &&
    decide (r.fld 0x14 1 < 2) && r.fld 0x15 3 == 0 && r.fld 0x1C 4 == 0

/-- HOST_RECORD_TAKE (R177): a good record of an open channel starts its DMA; a channel that has gone down completes it
with STATUS 3. -/
def execHostRecordTake (n : Fin 16) (s : State) : Host.Outcome State Fault Refusal :=
  lift (fun d =>
    match lk none d.hostSrv n, lk [] d.hostQ n with
    | none, r :: q =>
      let ok := d.hostRecOk r
      let down := (d.chanOf r).elim false (fun c => c.down)
      let st := if !ok then 2 else if down then 3 else 1
      let d := { d with hostQ := up d.hostQ n q, hostSrv := up d.hostSrv n (some ⟨r, st⟩) }
      if !ok then d.recRange r 19
      else if down || r.toHost then d
      else match d.chanOf r with
        | some c => d.emit (.hostRead c.fn (c.addr + r.offset) r.length)
        | none => d
    | _, _ => d) s

/-- The pieces of a transfer to a host for the lock-step digest (R235): 128 B from its start, at logical channel ×
2^48 + OFFSET. -/
def hostItems (c : Chan) (r : ReqRec) (bs : List Byte) : List (Nat × List Byte) :=
  (List.range (cdiv bs.length 128)).map (fun i => (c.logical * 2 ^ 48 + r.offset + 128 * i, (bs.drop (128 * i)).take 128))

/-- HOST_RECORD_COMPLETE (R177): `data` is what the host's memory returned for DIR = 1, none for a completion error. -/
def execHostRecordComplete (n : Fin 16) (data : Option (List Byte)) (s : State) : Host.Outcome State Fault Refusal :=
  liftW (fun m _ d =>
    match lk none d.hostSrv n with
    | none => (d, [])
    | some v =>
      let r := v.rec_
      let fin (d : Dev) (st : Nat) (ops : List MemOp) : Dev × List MemOp :=
        let b := statusBytes r st
        ((({ d with hostSrv := up d.hostSrv n none }).eccWrite b r.core).recordEnd 1 r, ops ++ storeBytes m b)
      if !d.clocked r.core then (d, [])
      else if v.status ≠ 1 then fin d v.status []
      else
        match d.chanOf r with
        | none => fin d 3 []
        | some c =>
          if c.down then fin d 3 []
          else
            let a := lsBase r.core + r.local_
            if r.toHost then
              let bs := m.bytes a r.length
              let d := (d.eccRead (wordsOf a r.length) r.core [] []).digestAdd r.core (hostItems c r bs)
              fin (d.emit (.hostWrite c.fn (c.addr + r.offset) bs)) 1 []
            else
              match data with
              | none => fin d 4 []
              | some bs =>
                if bs.length ≠ r.length then (d, [])
                else
                  let b := wholeBytes a bs
                  fin (d.eccWrite b r.core) 1 (storeBytes m b)) s

end Sys2Proof.Machine
end

