-- ==== Sys2Proof/Machine/HostIf.lean ====
section
/-! DEFINITION. BAR0, doorbells, BAR2 and the harts' window (R138, R276, R333 to R338, R340, R342, R343, R358, R366). -/

namespace Sys2Proof.Machine

/-! ### Doorbells (R340, R342, R343) -/

/-- An index at or beyond the entry count is ignored and sets DB_ERR. -/
def Dev.dbErr (d : Dev) (f : Nat) : Dev := d.updFunc f (fun x => { x with dbErr := true })

def Dev.dbSq (d : Dev) (f v : Nat) : Dev :=
  if v < (d.func f).sqEntries then d.updFunc f (fun x => { x with sqTail := v }) else d.dbErr f
def Dev.dbCq (d : Dev) (f v : Nat) : Dev :=
  if v < (d.func f).cqEntries then (d.updFunc f (fun x => { x with cqHead := v })).flushHeld f else d.dbErr f
/-- A context that is not open has no ring entry. -/
def Dev.dbCtx (d : Dev) (f c v : Nat) : Dev :=
  match d.ctx f c with
  | some x => if v < ringEntries x.qSize then d.setCtx f c { x with qTail := v } else d.dbErr f
  | none => d.dbErr f
/-- Room in a token ring: records that waited are written (R325). -/
def Dev.dbRing (d : Dev) (f c v : Nat) : Dev :=
  match d.ctx f c with
  | some x => if v < x.ents then (d.setCtx f c { x with rHead := v }).ring f c [] else d.dbErr f
  | none => d.dbErr f
/-- Only the function that opened the log may move its head; a GAP entry that is due follows (R330, R342). -/
def Dev.dbLog (d : Dev) (f p v : Nat) : Dev :=
  match (d.mouldLow p) with
  | none => d.dbErr f
  | some m =>
    match m.serve.bind (fun s => s.log) with
    | none => d.dbErr f
    | some l =>
      if l.fn ≠ f || l.ents ≤ v then d.dbErr f
      else
        let d := d.updMould m.pmask (fun m => { m with serve := m.serve.map (fun s => { s with log := some { l with head := v } }) })
        match d.mouldLow p with
        | some m => d.logGapDue m
        | none => d

/-- Does the device serve this function's BAR accesses: its link up, firmware ready for it, not departed (R345, R348)? -/
def Dev.serves (d : Dev) (f : Nat) : Bool :=
  let x := d.func f
  !d.rst && x.linkUp && x.ready && x.left.isNone && !x.wedged

/-- DB_CMD_SQ_TAIL (R343). -/
def execDbCmdSqTail (f : FnId) (v : BitVec 32) (s : State) : Host.Outcome State Fault Refusal :=
  lift (fun d => if d.serves f then d.dbSq f v.toNat else d) s
/-- DB_CMD_CQ_HEAD (R340). -/
def execDbCmdCqHead (f : FnId) (v : BitVec 32) (s : State) : Host.Outcome State Fault Refusal :=
  lift (fun d => if d.serves f then d.dbCq f v.toNat else d) s
/-- DB_CTX_SQ_TAIL (R342). -/
def execDbCtxSqTail (f : FnId) (c : Fin 16) (v : BitVec 32) (s : State) : Host.Outcome State Fault Refusal :=
  lift (fun d => if d.serves f then d.dbCtx f c v.toNat else d) s
/-- DB_TOKEN_RING_HEAD (R325). -/
def execDbTokenRingHead (f : FnId) (c : Fin 16) (v : BitVec 32) (s : State) : Host.Outcome State Fault Refusal :=
  lift (fun d => if d.serves f then d.dbRing f c v.toNat else d) s
/-- DB_LOG_RING_HEAD (R342). -/
def execDbLogRingHead (f : FnId) (c : Fin 16) (v : BitVec 32) (s : State) : Host.Outcome State Fault Refusal :=
  lift (fun d => if d.serves f then d.dbLog f c v.toNat else d) s

/-- HIF_CTRL_EN (R338). -/
def Dev.ctrlEn (d : Dev) (f v : Nat) : Dev := d.updFunc f (fun x => { x with en := bit v 0 })
def execHifCtrlEn (f : FnId) (v : BitVec 32) (s : State) : Host.Outcome State Fault Refusal :=
  lift (fun d => if d.serves f then d.ctrlEn f v.toNat else d) s

/-! ### Function registers, MSI-X -/

/-- The function register that begins at an offset below 0x1000. -/
def Dev.hifReg (d : Dev) (f o : Nat) : Option RegVal :=
  let x := d.func f
  if 0x100 ≤ o && o < 0x180 && o % 8 == 0 then r64 (lk (0 : BitVec 32) x.logTail ((o - 0x100) / 8)).toNat
  else
    match o with
    | 0x00 => r64 x.sq.toNat
    | 0x08 => r64 x.cq.toNat
    | 0x10 => r32 (b2n x.en)
    | 0x18 => r32 0
    | 0x20 => r32 (4 * b2n x.dbErr + 2 * b2n (!x.held.isEmpty) + b2n x.ready)
    | _ => none

/-- HIF_CMD_SQ and HIF_CMD_CQ after a write: a SIZE of 13 to 15 leaves SIZE as it was (R6); `low` are the low bits kept. -/
def ringRegNext (old v : Nat) (vec : Bool) : Nat :=
  v / 4096 * 4096 + (if vec then bits v 9 4 * 16 else 0) + (if bits v 3 0 < 13 then bits v 3 0 else bits old 3 0)

/-- Unmask a vector whose message is pending: it is sent (MSI-X, R333). -/
def Dev.msixUnmask (d : Dev) (f n : Nat) : Dev :=
  let x := d.func f
  if bit x.pba.toNat n && !bit (lk (0 : BitVec 128) x.msix n).toNat 96 then
    (d.setFunc f { x with pba := x.pba &&& ~~~(BitVec.ofNat 64 (2 ^ n)) }).emit (.msix f n)
  else d

/-- Replace the `size` bytes at byte `o` of a number. -/
def patch (old o size v : Nat) : Nat :=
  old % 2 ^ (8 * o) + v % 2 ^ (8 * size) * 2 ^ (8 * o) + old / 2 ^ (8 * (o + size)) * 2 ^ (8 * (o + size))

/-- A BAR0 address that holds something (Table 18-3). -/
def bar0Known (off : Nat) : Bool :=
  off < 0x1100 || (0x2000 ≤ off && off < 0x2408) ||
    (0x1000000 ≤ off && off < 0x4000000 && (regBlock (off - 0x1000000)).isSome)

/-- 4 B of the function's own range, at a multiple of 4. -/
def Dev.hifWord (d : Dev) (f o : Nat) : Nat :=
  if o < 0x1000 then
    match d.hifReg f o with
    | some r => r.val % 2 ^ 32
    | none => if o % 8 = 4 then (d.hifReg f (o - 4)).elim 0 (fun r => if r.width = 8 then r.val / 2 ^ 32 else 0) else 0
  else if o < 0x2000 then 0
  else if o < 0x2400 then (lk (0 : BitVec 128) (d.func f).msix ((o - 0x2000) / 16)).toNat / 2 ^ (8 * (o % 16)) % 2 ^ 32
  else (d.func f).pba.toNat / 2 ^ (8 * (o % 8)) % 2 ^ 32

/-- A read of BAR0. -/
def Dev.bar0Read (d : Dev) (f off size : Nat) : Nat :=
  if 0x1000000 ≤ off then (d.regRead (off - 0x1000000) size).getD 0
  else d.hifWord f off + (if size = 8 then d.hifWord f (off + 4) * 2 ^ 32 else 0)

/-- A doorbell write (R342): other numbers are reserved. -/
def Dev.doorbell (d : Dev) (f n v : Nat) : Dev :=
  if n = 0 then d.dbSq f v
  else if n = 1 then d.dbCq f v
  else if n < 16 then d
  else if n < 32 then d.dbCtx f (n - 16) v
  else if n < 48 then d.dbRing f (n - 32) v
  else if n < 64 then d.dbLog f (n - 48) v
  else d

/-- A table entry of MSI-X: bits [127:97] are reserved (R6). -/
def msixEntry (old o v : Nat) : BitVec 128 := BitVec.ofNat 128 (patch old (o % 16) 4 v % 2 ^ 97)

/-- 4 B written into the function's own range. "Writes are ignored while HIF_CTRL.EN = 1" stands at SIZE; the whole register keeps its
value then, BASE and VEC too (log entry 146). -/
def Dev.hifWrWord (d : Dev) (f o v : Nat) : Dev :=
  let x := d.func f
  if o < 0x1000 then
    match o / 8 * 8 with
    | 0x00 =>
      if x.en then d
      else d.setFunc f { x with sq := BitVec.ofNat 64 (ringRegNext x.sq.toNat (patch x.sq.toNat (o % 8) 4 v) false) }
    | 0x08 =>
      if x.en then d
      else d.setFunc f { x with cq := BitVec.ofNat 64 (ringRegNext x.cq.toNat (patch x.cq.toNat (o % 8) 4 v) true) }
    | 0x10 => if o = 0x10 then d.ctrlEn f v else d
    | 0x18 => if o = 0x18 && v == 0x4D525354 then d.fullReset 3 else d
    | 0x20 => if o = 0x20 then d.setFunc f { x with dbErr := keepUnless x.dbErr v 2 } else d
    | _ => d
  else if o < 0x2000 then d.doorbell f ((o - 0x1000) / 4) v
  else if o < 0x2400 then
    let n := (o - 0x2000) / 16
    (d.setFunc f { x with msix := up x.msix n (msixEntry (lk (0 : BitVec 128) x.msix n).toNat o v) }).msixUnmask f n
  else d

/-- A write of BAR0. -/
def Dev.bar0Write (d : Dev) (f : FnId) (off size v : Nat) : Dev :=
  if 0x1000000 ≤ off then d.regWrite (some f) (off - 0x1000000) size v
  else
    let d := d.hifWrWord f off (v % 2 ^ 32)
    if size = 8 then d.hifWrWord f (off + 4) (v / 2 ^ 32 % 2 ^ 32) else d

/-- 4 B of the recovery registers (R366). -/
def Dev.recWord (d : Dev) (o : Nat) : Nat :=
  let c := d.crm
  match o with
  | 0x00 => c.recReason * 256 + c.recOwner * 16 + c.recState
  | 0x08 => c.recAddr.toNat % 2 ^ 32
  | 0x0C => c.recAddr.toNat / 2 ^ 32
  | 0x10 => c.recLen.toNat
  | _ => 0
/-- 4 B written there. REC_CTRL.GO is the row REC_GO, which brings the image. -/
def Dev.recWrWord (d : Dev) (o v : Nat) : Dev :=
  let c := d.crm
  match o with
  | 0x08 => { d with crm := { c with recAddr := BitVec.ofNat 64 (patch c.recAddr.toNat 0 4 v / 4096 * 4096) } }
  | 0x0C => { d with crm := { c with recAddr := BitVec.ofNat 64 (patch c.recAddr.toNat 4 4 v) } }
  | 0x10 => if 4112 ≤ v && v ≤ 1576960 then { d with crm := { c with recLen := BitVec.ofNat 32 v } } else d
  | _ => d

/-- BAR0_ACCESS (R334, R335, R366, R410): a wrong size or a reserved range is an Unsupported Request. -/
def execBar0Access (f : FnId) (off size : Nat) (write : Bool) (v : BitVec 64) (s : State) :
    Host.Outcome State Fault Refusal :=
  lift (fun d =>
    let rec_ : Bool := d.crm.phase == .recovery
    if d.rst || !(if rec_ then (d.func f).linkUp else d.serves f) then d
    else if !regAligned off size then d.emit (.unsupported f)
    else if rec_ then
      if 0x20 ≤ off then d.emit (.unsupported f)
      else if write then
        let d := d.recWrWord off (v.toNat % 2 ^ 32)
        if size = 8 then d.recWrWord (off + 4) (v.toNat / 2 ^ 32) else d
      else d.emit (.readData f (d.recWord off + (if size = 8 then d.recWord (off + 4) * 2 ^ 32 else 0)))
    else if !bar0Known off then d.emit (.unsupported f)
    else if write then d.bar0Write f off size v.toNat
    else d.emit (.readData f (d.bar0Read f off size))) s

/-! ### BAR2 (R276, R336, R337) -/

/-- Does [lo, lo + n - 1] of the device window lie wholly in a slice or a local store of the Mould's partitions, within one
RANGES entry that grants the access? -/
def Dev.bar2Ok (d : Dev) (m : Mould) (lo n : Nat) (write : Bool) : Bool :=
  let grants := fun (g : Range) => if write then g.w else g.r
  if n = 0 then false
  else if lo + n ≤ 0x180000000 then
    lo / 0x800000 == (lo + n - 1) / 0x800000 &&
    (let p := lk 16 d.net.slcOwner (lo / 0x800000)
     bit m.pmask p && m.ranges.any (fun g => g.part == p && g.kind == 2 && grants g && decide (g.first ≤ lo ∧ lo + n ≤ g.last + 1)))
  else if 0x180000000 ≤ lo && lo + n ≤ 0x1B0000000 then
    let k := (lo - 0x180000000) / 0x100000
    let o := lo - lsBase k
    let p := d.partOf k
    decide (o + n ≤ 0x100000) && bit m.pmask p &&
      m.ranges.any (fun g => g.part == p && g.kind == 1 && grants g && decide (g.first ≤ o ∧ o + n ≤ g.last + 1))
  else false

/-- BAR2_ACCESS (R276, R337). A target in another slot is carried there on class MGMT: its address in ARG as far as that goes, and whole,
with the length and the bytes of a write, behind the header (log entry 153). -/
def execBar2Access (f : FnId) (addr len : Nat) (write : Bool) (data : List Byte) (s : State) :
    Host.Outcome State Fault Refusal :=
  liftW (fun mem _ d =>
    if !d.serves f then (d, [])
    else
      let slot := bits addr 36 34
      let lo := addr % 2 ^ 34
      let mine := d.moulds.filter (fun m => m.owner == some f.val)
      if 2 ^ 37 ≤ addr || (write && data.length ≠ len) then (d.emit (.unsupported f), [])
      else if slot = d.slot.toNat then
        if !mine.any (fun m => d.bar2Ok m lo len write) then (d.emit (.unsupported f), [])
        else d.winAccess mem ⟨.func f, lo, len, write, data⟩
      else
        match mine.findSome? (fun m => (m.members.zipIdx.find? (fun e => e.1.slot == slot && e.1.board == d.board.toNat)).map
            (fun e => (m, e.2))) with
        | none => (d.emit (.unsupported f), [])
        | some (m, i) =>
          let d := d.sendMgmtWith m.fpid i 22 (addr % 2 ^ 32) (natLe addr 8 ++ natLe len 4 ++ natLe (b2n write) 4 ++ data)
            (.fwd i m.fpid addr len write data)
          let w : Bar2Wait := ⟨f, m.fpid * 2 ^ 32 + lk 0 d.crm.mgmtOut m.fpid, d.turn.now.toNat, write⟩
          ({ d with bar2 := d.bar2 ++ [w] }, [])) s

/-- BAR2_FORWARD_TIMEOUT (R337): each read that stands 10 ms without an answer completes with Completer Abort; a write that has none
is merely forgotten. -/
def execBar2ForwardTimeout (f : FnId) (s : State) : Host.Outcome State Fault Refusal :=
  lift (fun d =>
    let late := fun (b : Bar2Wait) => b.fn == f.val && decide (b.tick + 62500 ≤ d.turn.now.toNat)
    (d.bar2.filter (fun b => late b && !b.write)).foldl (fun d _ => d.emit (.aborted f))
      { d with bar2 := d.bar2.filter (fun b => !late b) }) s

/-! ### Harts (R138, R358) -/

/-- The core and sequencer of a program-store address. -/
def progAt (a : Nat) : Nat × SeqId :=
  ((a - 0x1C0000000) / 0x20000, if (a - 0x1C0000000) % 0x20000 < 0x10000 then .A else .E)

/-- A load or store access-fault exception on a hart (R358), taken at machine level as the RISC-V privileged specification has it
(log entry 9): mepc holds the pc, mcause 5 for a load and 7 for a store, mtval the hart's address, mstatus MPP and MPIE what
the level and MIE were, MIE is 0, and the pc is mtvec's base. -/
def Hart.fault (h : Hart) (write : Bool) (a : Nat) : Hart :=
  let keep := h.mstatus &&& ~~~(0x1888 : BitVec 64)
  { h with
    pc := h.mtvec &&& ~~~(3 : BitVec 64), mepc := h.pc, mcause := if write then 7 else 5, mtval := BitVec.ofNat 64 a, priv := 3,
    mstatus := keep ||| (h.priv.setWidth 64 <<< 11) ||| (if h.mstatus.getLsbD 3 then 0x80 else 0) }

/-- An access of the device window that faults on a hart (R357, R358); the window stands at 0x4_0000_0000 of the harts' map. -/
def Dev.hartFault (d : Dev) (h : Fin 4) (write : Bool) (addr : Nat) : Dev :=
  { d with crm := { d.crm with harts := up d.crm.harts h.val ((lk Hart.reset d.crm.harts h.val).fault write (0x400000000 + addr)) } }.emit
    (.hartFault h)

/-- HART_WINDOW_ACCESS (R358): `addr` is a device-window address. A program store is written under R43. A slice that no partition owns
drops the access (R146): it carries no tag that a counter could name (log entry 158). -/
def execHartWindowAccess (hart : Fin 4) (addr size : Nat) (write : Bool) (v : BitVec 64) (preempted : Bool) (s : State) :
    Host.Outcome State Fault Refusal :=
  liftW (fun mem _ d =>
    if d.rst || d.crm.phase = .reset || (hart.val ≠ 0 && !d.crm.hartsUp) then (d, [])
    else if preempted then (d.emit (.hartRestart hart), [])
    else if !(size == 1 || size == 2 || size == 4 || size == 8) || addr % size ≠ 0 then (d.hartFault hart write addr, [])
    else if addr < 0x180000000 ∧ 16 ≤ lk 16 d.net.slcOwner (addr / 0x800000) then
      (d.raise { code := 0x20, cls := 2, source := 14, core := 0xFFFF, pmask := 0, fpid := 0xFFFF,
                 detail := [0xFFFF, 0xFFFF, d.posOf (addr / 0x800000)] }, [])
    else if addr < 0x1B0000000 then d.winAccess mem ⟨.hart hart, addr, size, write, natLe v.toNat size⟩
    else if 0x1C0000000 ≤ addr && addr < 0x1C6000000 then
      let k := (progAt addr).1
      if !write then (d.emit (.hartData hart (mem.num addr size)), [])
      else if (d.core k).quiet then (d, wrBytes addr (natLe v.toNat size))
      else (d.updCore k (fun c => { c with psWdrop := true }), [])
    else if 0x300000000 ≤ addr && addr < 0x303000000 then
      let x := addr - 0x300000000
      if !regAligned x size || (d.regRead x size).isNone then (d.hartFault hart write addr, [])
      else if write then (d.regWrite none x size v.toNat, [])
      else (d.emit (.hartData hart ((d.regRead x size).getD 0)), [])
    else (d.hartFault hart write addr, [])) s

end Sys2Proof.Machine
end

