-- ==== Sys2Proof/Machine/Failover.lean ====
section
/-! DEFINITION. Messages among members: steps in lock (R286), failover (R287, R401, R402), holds (R288), epoch switches
(R283), state copies (R289), forwarded host accesses (R337). -/

namespace Sys2Proof.Machine

/-- Is a message listed in Table 20-4 taken (R361): its FPID loaded or loading here, its SEQ above the last one of its sender? An
ANSWER carries the SEQ of the message it answers. A message that is not taken is counted. -/
def Dev.mgmtIn (d : Dev) (h : MHdr) (offer : Bool) : Bool × Dev :=
  if !d.crm.fwReady then (false, d)
  else
    let key := h.fpid * 65536 + h.src
    let known : Bool := d.moulds.any (fun m => m.fpid == h.fpid) || d.loads.any (fun l => l.fpid == h.fpid)
    if !(known || offer) || (!h.answer && decide (h.seq ≤ lk 0 d.crm.mgmtSeq key)) then
      (false, { d with crm := { d.crm with mgmtDrop := satAdd d.crm.mgmtDrop 1 } })
    else if h.answer then (true, d)
    else (true, { d with crm := { d.crm with mgmtSeq := up d.crm.mgmtSeq key h.seq } })

/-- Act on a message for a loaded Mould. -/
def Dev.onMsg (d : Dev) (h : MHdr) (body : Dev → Mould → Dev × List MemOp) : Dev × List MemOp :=
  match d.mgmtIn h false with
  | (false, d) => (d, [])
  | (true, d) =>
    match d.mouldFp h.fpid with
    | none => (d, [])
    | some m => body d m

/-- A message that changes no memory. -/
def onMsg1 (h : MHdr) (body : Dev → Mould → Dev) (s : State) : Host.Outcome State Fault Refusal :=
  liftW (fun _ _ d => d.onMsg h (fun d m => (body d m, []))) s

/-- LOAD_TIMEOUT of a Mould in ticks (Table 13-6). -/
def Mould.timeout (m : Mould) : Nat :=
  6250 * ((m.timing.find? (fun t => t.part == lowPart m.pmask)).elim 2000 (fun t => t.loadTimeout))
def Mould.period (m : Mould) : Nat := (m.timing.find? (fun t => t.part == lowPart m.pmask)).elim 0 (fun t => t.period)

/-- MSG_STEPDONE (R286): member 0 collects. -/
def execMsgStepdone (h : MHdr) (st : Nat) (s : State) : Host.Outcome State Fault Refusal :=
  onMsg1 h (fun d m => if m.self = 0 ∧ m.replica then d.stepDoneIn m h.src st else d) s

/-- MSG_GO (R286): boundary st + 1 may be taken. -/
def execMsgGo (h : MHdr) (st : Nat) (s : State) : Host.Outcome State Fault Refusal :=
  onMsg1 h (fun d m => d.updMould m.pmask (fun m => { m with go := max m.go (st + 1) })) s

/-! ### Editing the fabric tables -/

def FabTab.setRec (t : FabTab) (i : Nat) (f : FabRec → FabRec) : FabTab :=
  { t with recs := t.recs.zipIdx.map (fun (e : FabRec × Nat) => if e.2 = i then f e.1 else e.1) }
/-- Edit a member's record in both versions. -/
def Mould.setRec (m : Mould) (i : Nat) (f : FabRec → FabRec) : Mould :=
  { m with tabA := m.tabA.setRec i f, tabB := m.tabB.setRec i f }
/-- A member's live partner (R287). -/
def Mould.livePartner (m : Mould) (x : Nat) : Option Nat :=
  let y := ((m.tab m.epoch).rec_ x).partner
  if y ≠ 0xFFFF ∧ m.alive y then some y else none
/-- The lowest member in service coordinates. -/
def Mould.coordinator (m : Mould) : Nat := ((List.range m.devices).find? (fun i => m.alive i)).getD 0

/-! ### Failover (R287) -/

/-- Initial counts of a core's objects (Table 13-4, R58). -/
def Mould.initSyn (m : Mould) (k : Nat) : SMap (BitVec 32) :=
  m.syncs.foldl (fun (a : SMap (BitVec 32)) (e : SyncEnt) =>
    if e.kind = 0 ∧ e.obj / 32 = k ∧ e.obj < 24576 then up a (e.obj % 32) (BitVec.ofNat 32 e.count) else a) []

def Seq.afterLoad (x : Seq) : Seq :=
  { x with regs := [], pc := 0, st := .idle, haltBy := .nothing, saved := .idle, loops := [], rtn := none, ended := false,
           stallRun := 0 }

/-- The state of R58, R87, R125 and R137; registers outside it and the local store stay. -/
def Core.afterLoad (c : Core) (syn : SMap (BitVec 32)) : Core :=
  { c with
    a := c.a.afterLoad, e := c.e.afterLoad, syn := syn, dq := [], mq := [], vq := [], tq := [], desc := [], creates := [],
    jobs := [], fgw := [], fgr := [], lsq := [], slcWant := [], nextEnt := 0, digest := 0
    mx := { c.mx with acc := [], statActive := [], statShadow := [], cellActive := [], cellShadow := [], due := [] }
    vec := { c.vec with vl := 0, vtype := 0 } }

/-- Put every core of a Mould into that state, and its edge objects to their initial counts (R58). -/
def Dev.coresToStart (d : Dev) (m : Mould) : Dev :=
  let edge := m.syncs.foldl (fun (a : SMap (BitVec 32)) (e : SyncEnt) =>
    if e.kind = 1 then a.map (fun (o : Nat × BitVec 32) => if e.obj ≤ o.1 ∧ o.1 < e.obj + e.count then (o.1, 0) else o) else a) d.edge
  let edge := m.syncs.foldl (fun (a : SMap (BitVec 32)) (e : SyncEnt) =>
    if e.kind = 0 ∧ 24576 ≤ e.obj then up a e.obj (BitVec.ofNat 32 e.count) else a) edge
  { d with edge := edge
           cores := d.cores.map (fun (e : Nat × Core) => (e.1, if m.has (d.partOf e.1) then e.2.afterLoad (m.initSyn e.1) else e.2)) }

/-- Packets of an FPID that begin in a list of held flits. -/
def headsOf (fp : Nat) (l : List (BitVec 2048 × Nat)) : Nat :=
  (l.filter (fun e => e.2 == fp && flitNum e.1 0 1 % 16 == 1)).length

/-- Discard what waits at the port units to become packets of an FPID, counting each with r = 5 (R287). -/
def Dev.discardUnits (d : Dev) (fp : Nat) : Dev :=
  let n := (d.net.unitIn.flatMap (fun (e : Nat × List Flit) => e.2.filter (fun f => d.leavesAs fp f && f.idx == 0))).length
  (List.range n).foldl (fun d _ => d.fabCount 5)
    { d with net := { d.net with unitIn := d.net.unitIn.map (fun (e : Nat × List Flit) =>
        (e.1, e.2.filter (fun f => !d.leavesAs fp f))) } }

/-- Discard every packet of an FPID in the port and replay buffers, counting each with r = 5 (R287). -/
def Dev.discardFp (d : Dev) (fp : Nat) : Dev :=
  (List.range 9).foldl (fun d u =>
    let x := d.port u
    let gone := x.done.filter (fun k => k.fpid == fp)
    let part := x.rx.filter (fun r => r.2.any (fun k => k.hdr.fpid == fp && k.ok))
    let n := (x.sendQ.filter (fun k => k.fpid == fp)).length + gone.length + part.length + headsOf fp x.replay +
      (x.peers.foldl (fun a p => a + headsOf fp (p.unacked.map (fun e => (e.flit, e.fpid))) +
        (p.rx.filter (fun r => r.2.any (fun k => k.hdr.fpid == fp && k.ok))).length) 0)
    let shut := fun (r : Nat × Option RxPkt) => (r.1, r.2.map (fun k => if k.hdr.fpid = fp then { k with ok := false } else k))
    let d := gone.foldl (fun d k => d.takeDone u k) d
    let d := d.updPort u (fun (x : Port) =>
      { x with sendQ := x.sendQ.filter (fun (k : Packet) => k.fpid ≠ fp)
               replay := x.replay.filter (fun (e : BitVec 2048 × Nat) => e.2 ≠ fp)
               rx := x.rx.map shut
               peers := x.peers.map (fun (p : SegPeer) =>
                 { p with unacked := p.unacked.filter (fun (e : SegFlit) => e.fpid ≠ fp), rx := p.rx.map shut }) })
    (List.range n).foldl (fun d _ => d.fabCount 5) d) (d.discardUnits fp)

/-- Boundary S is taken anew at tick T: the grid becomes T + (S′ − S)·STEP_PERIOD (R287, R288, R401). -/
def Dev.regrid (d : Dev) (m : Mould) (st t : Nat) (again : Bool) : Dev :=
  (partsOf m.pmask).foldl (fun d p =>
    let x := d.part p
    if x.dead then d
    else
      let x := { x with t0 := BitVec.ofNat 64 t - BitVec.ofNat 64 (st * x.period.toNat), next := st, restartAt := some (st, t), earliest := 0 }
      d.setPart p (if again then
        { x with
          credits := lk x.credits x.snaps st
          missed := x.missed.filter (fun (e : Nat × Nat) => e.2 < st)
          late := x.late.filter (fun (e : LateMon) => e.step < st)
          lock := x.lock.map (fun (l : LockStep) =>
            { l with own := l.own.filter (fun (e : Nat × Nat × List Nat) => e.1 < st)
                     theirs := l.theirs.filter (fun (e : Nat × List Nat) => e.1 < st)
                     compared := l.compared.filter (fun (e : Nat) => e < st) }) }
        else x)) d

/-- RESTART(S, T) taken (R287): on member 0 the plan of S is sent again as it was (R330). -/
def Dev.restart (d : Dev) (m : Mould) (st t : Nat) : Dev × List MemOp :=
  let req := m.failover.bind (fun f => f.req)
  let again : Bool := m.failover.any (fun f => f.rewind)
  let d := (d.regrid m st t true).updMould m.pmask (fun m =>
    { m with failover := none, early := [], stepDone := [], rerun := if again then some st else m.rerun })
  let d := d.completeOpt req stOk 0
  if m.self ≠ 0 then (d, [])
  else
    match m.serve.bind (fun v => v.plans.find? (fun k => k.step == st)) with
    | none => (d, [])
    | some k => d.sendPlan m st k.rows

/-- The coordinator holds READY of a member, also one that comes before its own failover begins; with all survivors' it sends RESTART. T is at least 64 ticks ahead, how far is free (log
entry 32). -/
def Dev.readyIn (d : Dev) (m : Mould) (i st : Nat) : Dev × List MemOp :=
  match m.failover with
  | none => (d.updMould m.pmask (fun m => { m with early := (i, st) :: m.early.filter (fun (e : Nat × Nat) => e.1 ≠ i) }), [])
  | some f =>
    let l := (i, st) :: f.ready.filter (fun (e : Nat × Nat) => e.1 ≠ i)
    let d := d.updMould m.pmask (fun m => { m with failover := some { f with ready := l } })
    if ((List.range m.devices).filter (fun j => m.alive j)).all (fun j => l.any (fun e => e.1 == j)) then
      let (x, d) := d.freeNat (2 ^ 32)
      let t := d.turn.now.toNat + 64 + x
      let s0 := l.foldl (fun a e => min a e.2) st
      let d := d.sendAllWith m 15 s0 (natLe t 8) (fun j => .changes j m.fpid t [(0, 0, s0)])
      d.restart m s0 t
    else (d, [])

/-- Has partition p an error of class PARTITION of this device's own: not a missed deadline, a divergence, or a lost link whose peer is the
lost member (R264, R287, R402)? -/
def Dev.ownError (d : Dev) (p : Nat) : Bool :=
  (d.part p).dead && d.errs.ring.any (fun r => r.cls == 2 && r.code != 0x30 && r.code != 0x32 && r.code != 0x40 && bit r.pmask.toNat p)

/-- Steps 2 and 3 on a survivor: halt, discard, cores to their start, READY with PT_STEP to the coordinator (R287, R401). -/
def Dev.standBy (d : Dev) (m : Mould) (lost : List Nat) (req : Option (Nat × Nat)) (rewind : Bool) : Dev × List MemOp :=
  let old := m.failover
  let f : Failover := { lost := lost, ready := (old.elim m.early (fun f => f.ready)).filter (fun (e : Nat × Nat) => m.alive e.1),
                        since := d.turn.now.toNat, req := (old.bind (fun f => f.req)).or req,
                        rewind := rewind || old.any (fun f => f.rewind) }
  let d := ((d.discardFp m.fpid).coresToStart m).updMould m.pmask (fun m => { m with failover := some f })
  let d := (partsOf m.pmask).foldl (fun d p => if d.ownError p then d else d.updPart p (fun t => { t with dead := false })) d
  let d := { d with errs := { d.errs with stepErrs := d.errs.stepErrs.filter (fun (e : Nat × Nat) => !m.has e.1) } }
  let st := (d.part (lowPart m.pmask)).step.toNat
  if m.coordinator = m.self then
    match d.mouldFp m.fpid with
    | some m => d.readyIn m m.self st
    | none => (d, [])
  else (d.sendMgmt m.fpid m.coordinator 14 st, [])

/-- Every context of a partition ends (R305). -/
def Dev.endContexts (d : Dev) (low : Nat) : Dev :=
  { d with funcs := d.funcs.map (fun (e : Nat × Func) =>
      (e.1, { e.2 with ctxs := e.2.ctxs.filter (fun (c : Nat × Ctx) => c.2.part ≠ low) })) }

/-- A member x is lost (R287). With no live partner the Mould's partitions stop here. The lost member itself only notes it: on member 0
every context ends (R305). -/
def Dev.loseMember (d : Dev) (m : Mould) (x : Nat) (req : Option (Nat × Nat)) : Dev × List MemOp :=
  if !m.alive x then (d, [])
  else
    match m.livePartner x with
    | none =>
      let d := d.updMould m.pmask (fun m => { m with pairLost := true })
      ((d.raise { code := 0x50, cls := 2, source := 17, core := 0xFFFF, pmask := m.pmask, fpid := m.fpid,
                  detail := [x, 0, 1] }).completeOpt req stRefused 0, [])
    | some y =>
      let edit := fun (m : Mould) =>
        let n := m.setRec x (fun (r : FabRec) => { r with aliasTo := y, mirror := false })
        let n := n.setRec y (fun (r : FabRec) => { r with muted := false, mirror := false })
        { n with failoverRan := true }
      let d := d.updMould m.pmask edit
      if x = m.self then (if x = 0 then d.endContexts (lowPart m.pmask) else d, []) else
      let d := d.switchCheck (edit m)
      d.standBy (edit m) (x :: (m.failover.elim [] (fun f => f.lost))) req false

/-- Has this device recorded an error of class PARTITION that makes it a lost member (R402)? -/
def Dev.ownLoss (d : Dev) (m : Mould) : Bool :=
  (partsOf m.pmask).any (fun p => d.ownError p)

/-- MEMBER_LOST (R287, R402): the peer of a board link that went DOWN after its retries, or this member itself after an error of
class PARTITION. LOST(x) goes to every member. -/
def execMemberLost (p : PartId) (x : Nat) (s : State) : Host.Outcome State Fault Refusal :=
  liftW (fun _ _ d =>
    match d.mouldLow p with
    | none => (d, [])
    | some m =>
      let gone : Bool :=
        if x = m.self then d.ownLoss m && (m.livePartner x).isSome
        else (m.linkTo x).any (fun u => (d.port u).st == .down && (d.port u).lost)
      if !m.replica || m.phase ≠ 6 || !gone || !m.alive x || m.devices ≤ x then (d, [])
      else (d.sendAll m 13 x).loseMember m x none) s

/-- MSG_LOST (R287): ARG 0xFFFF asks for a rewind that edits no table (R401, log entry 33). -/
def execMsgLost (h : MHdr) (x : Nat) (s : State) : Host.Outcome State Fault Refusal :=
  liftW (fun _ _ d => d.onMsg h (fun d m =>
    if x = 0xFFFF then d.standBy m (m.failover.elim [] (fun f => f.lost)) none true else d.loseMember m x none)) s

/-- MSG_READY (R287). -/
def execMsgReady (h : MHdr) (st : Nat) (s : State) : Host.Outcome State Fault Refusal :=
  liftW (fun _ _ d => d.onMsg h (fun d m => if m.coordinator = m.self then d.readyIn m h.src st else (d, []))) s

/-- MSG_RESTART (R287). -/
def execMsgRestart (h : MHdr) (st t : Nat) (s : State) : Host.Outcome State Fault Refusal :=
  liftW (fun _ _ d => d.onMsg h (fun d m => if m.failover.isSome then d.restart m st t else (d, []))) s

/-- SURVIVOR_TIMEOUT (R287): the coordinator misses READY of a survivor LOAD_TIMEOUT after the failover began. -/
def execSurvivorTimeout (p : PartId) (x : Nat) (s : State) : Host.Outcome State Fault Refusal :=
  liftW (fun _ _ d =>
    match d.mouldLow p with
    | none => (d, [])
    | some m =>
      match m.failover with
      | none => (d, [])
      | some f =>
        if m.coordinator ≠ m.self ∨ m.devices ≤ x ∨ !m.alive x ∨ x = m.self ∨ f.ready.any (fun e => e.1 == x) ∨
            d.turn.now.toNat < f.since + m.timeout then (d, [])
        else (d.sendAll m 13 x).loseMember m x none) s

/-! ### Holds (R288) -/

/-- MSG_HOLD (R288): stop before boundary S; pass it on. -/
def execMsgHold (h : MHdr) (st : Nat) (s : State) : Host.Outcome State Fault Refusal :=
  onMsg1 h (fun d m =>
    if m.hold.isSome then d
    else
      let x : Hold := { step := st, changes := [], fn := 0, cid := 0, host := false, held := [], since := d.turn.now.toNat }
      (d.updMould m.pmask (fun m => { m with hold := some x })).passOn m 16 st) s

/-- A substitution: member i is now the device with serial n, wherever MEMBERS or a NEIGHBOURS entry is read (R288). -/
def Mould.substitute (m : Mould) (i n : Nat) : Mould :=
  let old := (m.members[i]?).map (fun x => x.serial)
  { m with
    members := m.members.zipIdx.map (fun (e : Member × Nat) => if e.2 = i then { e.1 with serial := n } else e.1)
    nbrs := m.nbrs.map (fun (e : Nbr) => if some e.serial = old ∧ e.mode ≠ 0 then { e with serial := n } else e)
    nbrAll := m.nbrAll.map (fun (e : Nbr) => if some e.serial = old ∧ e.mode ≠ 0 then { e with serial := n } else e)
    subs := (i, n) :: m.subs.filter (fun (e : Nat × Nat) => e.1 ≠ i) }

/-- Every byte of the slices and local stores of a Mould that is not 0, and a name for the rest: all other bytes are 0. -/
def Dev.ownBytes (d : Dev) (m : Mould) (mem : Memory) : List Host.Cell :=
  mem.filter (fun (c : Host.Cell) =>
    if c.1 < 0x180000000 then m.has (lk 16 d.net.slcOwner (c.1 / 0x800000))
    else decide (c.1 < 0x1B0000000) && m.has (d.partOf ((c.1 - 0x180000000) / 0x100000)))

/-- A substitution takes effect (R288, R289): the links whose expected neighbour it changes retrain before they are admitted. -/
def Dev.substituted (d : Dev) (m : Mould) (i n : Nat) : Dev :=
  let us := (List.range 9).filter (fun u => m.nbrs[u]?.map (fun e => e.serial) != (m.substitute i n).nbrs[u]?.map (fun e => e.serial))
  let e := d.updMould m.pmask (fun m => m.substitute i n)
  (us.foldl (fun (x : Dev) u => if (x.port u).st = .down || x.heldDown u then x else x.trainFrom1 u) e).recheckPorts d.rindMin d.revMax

/-- One change of a hold's list (R288, Table 18-7): substitution, record edits, state copy by its source. -/
def Dev.applyChange (d : Dev) (m : Mould) (mem : Memory) (c : Nat × Nat × Nat) : Dev :=
  let (kind, i, v) := c
  match kind with
  | 1 => d.substituted m i v
  | 2 =>
    d.updMould m.pmask (fun m => m.setRec i (fun (r : FabRec) =>
      { r with partner := bits v 15 0, aliasTo := bits v 31 16, muted := bit v 32, mirror := bit v 33 }))
  | 3 =>
    if v % 65536 = m.self then
      let cells := d.ownBytes m mem
      d.sendMgmtWith m.fpid i 23 0 (cells.flatMap (fun (c : Host.Cell) => natLe c.1 5 ++ [c.2])) (.copyAll i m.fpid cells)
    else d
  | _ => d

/-- After an abandoned hold a partition whose boundary is overdue takes it at the next point of its nominal grid (R288). -/
def Dev.abandoned (d : Dev) (m : Mould) : Dev :=
  (partsOf m.pmask).foldl (fun d p =>
    d.updPart p (fun t =>
      let now := d.turn.now.toNat
      let per := t.period.toNat
      if per = 0 ∨ now < t.nominal t.next then t
      else { t with earliest := t.nominal t.next + per * ((now - t.nominal t.next) / per + 1) })) d

/-- Every member takes boundary S at T (R288); a member that joins leaves phase MEMBERS by it (Table 15-4). -/
def Dev.resume (d : Dev) (m : Mould) (t : Nat) : Dev :=
  match m.hold with
  | none => d
  | some h =>
    let d := d.updMould m.pmask (fun m =>
      { m with hold := none, heldFlag := false, quiet := false, go := max m.go h.step, phase := max 5 m.phase,
               t0 := if m.t0 = 0 then t else m.t0 })
    if t = 0 then d.abandoned m else d.regrid m h.step t false

/-- Ticks a state copy of a full 7,247,757,312 B takes at 88.9 GB/s (R289). -/
def copyTicks : Nat := 509544

/-- Member 0 holds HELD of a member; with all of them it applies the changes everywhere and sends RESUME (log entry 32). -/
def Dev.heldIn (d : Dev) (m : Mould) (i : Nat) (mem : Memory) : Dev :=
  match m.hold with
  | none => d
  | some h =>
    let l := if h.held.contains i then h.held else i :: h.held
    let d := d.updMould m.pmask (fun m => { m with hold := some { h with held := l } })
    if ((List.range m.devices).filter (fun j => m.alive j)).all (fun j => l.contains j) then
      let (x, d) := d.freeNat (2 ^ 32)
      let t := d.turn.now.toNat + 64 + (if h.changes.any (fun c => c.1 == 3) then copyTicks else 0) + x
      let d := d.sendAllWith m 18 0 (natLe t 8 ++ h.changes.flatMap (fun c => natLe c.1 2 ++ natLe c.2.1 2 ++ natLe 0 4 ++ natLe c.2.2 8))
        (fun j => .changes j m.fpid t h.changes)
      let d := h.changes.foldl (fun d c => d.applyChange m mem c) d
      let d := d.resume m t
      if h.host then d.complete h.fn h.cid stOk 0 else d
    else d

/-- HOLD_QUIET (R288): the partitions stand before boundary S and no packet of the FPID is in the port units; HELD goes to
member 0. -/
def execHoldQuiet (p : PartId) (s : State) : Host.Outcome State Fault Refusal :=
  liftR (fun mem _ d =>
    match d.mouldLow p with
    | none => d
    | some m =>
      match m.hold with
      | none => d
      | some h =>
        if m.quiet || !d.fpQuiet m.fpid || !(partsOf m.pmask).all (fun q => (d.part q).st == .stopped && (d.part q).next == h.step) then d
        else
          let d := d.updMould m.pmask (fun m => { m with quiet := true })
          if m.self = 0 then
            match d.mouldLow p with
            | some m => d.heldIn m 0 mem
            | none => d
          else d.sendMgmt m.fpid 0 17 h.step) s

/-- MSG_HELD (R288). -/
def execMsgHeld (h : MHdr) (s : State) : Host.Outcome State Fault Refusal :=
  liftW (fun mem _ d => d.onMsg h (fun d m => (if m.self = 0 then d.heldIn m h.src mem else d, []))) s

/-- MSG_RESUME (R288): the changes, then boundary S at T; T = 0 says the hold is abandoned (log entry 33). -/
def execMsgResume (h : MHdr) (t : Nat) (changes : List (Nat × Nat × Nat)) (s : State) : Host.Outcome State Fault Refusal :=
  liftW (fun mem _ d => d.onMsg h (fun d m =>
    if m.hold.isNone then (d, [])
    else ((changes.foldl (fun d c => d.applyChange m mem c) d).resume m t, []))) s

/-- HOLD_TIMEOUT (R288): a member is not HELD within LOAD_TIMEOUT of boundary S's nominal tick (log entry 34). -/
def execHoldTimeout (p : PartId) (s : State) : Host.Outcome State Fault Refusal :=
  lift (fun d =>
    match d.mouldLow p with
    | none => d
    | some m =>
      match m.hold with
      | none => d
      | some h =>
        if m.self ≠ 0 ∨ d.turn.now.toNat < max h.since ((d.part p).nominal h.step) + m.timeout then d
        else
          let d := (d.sendAll m 18 0).resume m 0
          if h.host then d.complete h.fn h.cid stHoldTimeout 0 else d) s

/-- MSG_SWITCH (R283): the epoch changes at boundary S, or at the next one when it is past. To member 0 it is a member's report of the
boundary at which it changed (log entry 123). -/
def execMsgSwitch (h : MHdr) (st : Nat) (s : State) : Host.Outcome State Fault Refusal :=
  onMsg1 h (fun d m =>
    if m.self = 0 then d.switchedIn m h.src st
    else (d.updMould m.pmask (fun m => { m with switchAt := some st })).passOn m 19 st) s

/-- Do len bytes at a window address lie in slices or local stores of the Mould's partitions? -/
def Dev.inMould (d : Dev) (m : Mould) (a len : Nat) : Bool :=
  let z := a + len - 1
  if z < 0x180000000 then
    (List.range (z / 0x800000 + 1 - a / 0x800000)).all (fun i => m.has (lk 16 d.net.slcOwner (a / 0x800000 + i)))
  else
    decide (0x180000000 ≤ a ∧ z < 0x1B0000000) &&
    (List.range ((z - 0x180000000) / 0x100000 + 1 - (a - 0x180000000) / 0x100000)).all (fun i =>
      m.has (d.partOf ((a - 0x180000000) / 0x100000 + i)))

/-- MSG_STATE_COPY (R289): bytes of the partner's state are written during a hold, until its boundary S is taken at T. -/
def execMsgStateCopy (h : MHdr) (addr : Nat) (data : List Byte) (s : State) : Host.Outcome State Fault Refusal :=
  liftW (fun _ _ d => d.onMsg h (fun d m =>
    if (m.hold.isSome || (d.part (lowPart m.pmask)).restartAt.isSome) && !data.isEmpty && d.inMould m addr data.length then
      d.winWrite addr data
    else (d, []))) s

/-- MSG_BAR2_ACCESS (R337): a forwarded access under the same range test, answered. An ANSWER completes the host's read or settles its
write; it brings no data, or `len` 0, where the other device refused. -/
def execMsgBar2Access (h : MHdr) (addr len : Nat) (write : Bool) (data : List Byte) (s : State) :
    Host.Outcome State Fault Refusal :=
  liftW (fun mem _ d => d.onMsg h (fun d m =>
    if h.answer then
      match d.bar2.find? (fun b => b.key == h.fpid * 2 ^ 32 + h.seq) with
      | none => (d, [])
      | some b =>
        let d := { d with bar2 := d.bar2.filter (fun (c : Bar2Wait) => c ≠ b) }
        if b.write then (if len = 0 then d.emit (.unsupported b.fn) else d, [])
        else (d.emit (if data.isEmpty then .unsupported b.fn else .readData b.fn (leNat data)), [])
    else
      let lo := addr % 2 ^ 34
      if !d.bar2Ok m lo len write || (write && data.length ≠ len) then (d.fwdReply m.fpid h.src h.seq false [], [])
      else d.winAccess mem ⟨.member h.src m.fpid h.seq, lo, len, write, data⟩)) s

end Sys2Proof.Machine
end

