-- ==== Sys2Proof/Machine/MouldImage.lean ====
section
/-! DEFINITION. The Mould image: header, directory, sections, and what firmware reads from them (R240 to R245, R280, R306,
Tables 13-1 to 13-6). -/

namespace Sys2Proof.Machine

/-- The first `n`-byte records of a list of bytes. -/
def chunks (n : Nat) (bs : List Byte) : List (List Byte) :=
  (List.range (bs.length / n)).map (fun i => (bs.drop (n * i)).take n)

/-! ### Header (Table 13-1) -/

def imFlags (b : List Byte) : Nat := fld b 0x06 2
def imDevices (b : List Byte) : Nat := fld b 0x08 2
def imPmask (b : List Byte) : Nat := fld b 0x0A 2
def imFpid (b : List Byte) : Nat := fld b 0x0C 2 % 4096
def imNsect (b : List Byte) : Nat := fld b 0x0F 1
def imBody (b : List Byte) : Nat := fld b 0x10 4
def imLength (b : List Byte) : Nat := fld b 0x14 4
def imCompat (b : List Byte) : Bool := bit (imFlags b) 0
def imWeights (b : List Byte) : Bool := bit (imFlags b) 1
def imSigned (b : List Byte) : Bool := bit (imFlags b) 2

/-- A directory entry (R244). -/
structure DirEnt where
  typ : Nat
  member : Nat
  off : Nat
  len : Nat
  spare : Nat
  deriving DecidableEq, Repr

def imDir (b : List Byte) : List DirEnt :=
  (List.range (imNsect b)).map (fun i =>
    let e := (b.drop (0x40 + 16 * i)).take 16
    ⟨fld e 0 2, fld e 2 2, fld e 4 4, fld e 8 4, fld e 12 4⟩)

/-- The directory index of the section of a type that this device uses: its own in place of the common one (R244). -/
def imSectIdx (b : List Byte) (self typ : Nat) : Option Nat :=
  let l := (imDir b).zipIdx
  match l.find? (fun e => e.1.typ == typ && e.1.member == self) with
  | some e => some e.2
  | none => (l.find? (fun e => e.1.typ == typ && e.1.member == 0xFFFF)).map (fun e => e.2)
/-- Its bytes; empty where it has none. -/
def imSect (b : List Byte) (self typ : Nat) : List Byte :=
  match (imSectIdx b self typ).bind (fun i => (imDir b)[i]?) with
  | some e => (b.drop e.off).take e.len
  | none => []

/-! ### Sections (Table 13-2) -/

def readMembers (bs : List Byte) : List Member := (chunks 32 bs).map (fun e => ⟨fld e 0 8, fld e 8 8, fld e 16 1⟩)
def readNbrs (bs : List Byte) : List Nbr :=
  (chunks 32 bs).map (fun e => ⟨fld e 0 1, fld e 1 1, fld e 2 1, fld e 3 1, fld e 8 8, fld e 0x10 8⟩)
def readRanges (bs : List Byte) : List Range :=
  (chunks 24 bs).map (fun e => ⟨fld e 0 1, fld e 1 1, bit (fld e 2 1) 0, bit (fld e 2 1) 1, fld e 8 8, fld e 0x10 8⟩)
def readClock (bs : List Byte) : List ClockEnt :=
  (chunks 16 bs).map (fun e => ⟨fld e 0 1, fld e 1 1, fld e 2 1, fld e 3 1, fld e 4 4, fld e 8 4⟩)
/-- TIMING with its defaults: LAG 2, LS_WAIT 8·STEP_PERIOD, LOAD_TIMEOUT 2,000 ms. -/
def readTiming (bs : List Byte) : List Timing :=
  (chunks 64 bs).map (fun e =>
    let per := fld e 0xC 4
    { part := fld e 0 1, lockstep := bit (fld e 1 1) 0, lag := if fld e 2 1 = 0 then 2 else fld e 2 1, lsLink := fld e 3 1,
      lsPartner := fld e 4 2, cycles := fld e 8 4, period := per, lsWait := if fld e 0x10 4 = 0 then 8 * per else fld e 0x10 4,
      loadTimeout := if fld e 0x14 4 = 0 then 2000 else fld e 0x14 4 })
def readSync (bs : List Byte) : List SyncEnt :=
  (chunks 8 bs).map (fun e =>
    let v := fld e 0 8
    ⟨bits v 63 62, bits v 61 58, bits v 57 43, bits v 35 32, bits v 31 0⟩)
def readDist (bs : List Byte) : List (Nat × Nat) := (chunks 8 bs).map (fun e => (fld e 0 2, fld e 2 1))
/-- A fabric section (Tables 15-2 and 15-3). The 16 bytes of an IP address are read as a little-endian number, like every field (R3, R241);
that they are not in the network's order instead is a choice (log entry 145). -/
def readFabric (bs : List Byte) : FabTab :=
  { ipver := fld bs 2 1, replica := bit (fld bs 3 1) 0, hoplim := fld bs 4 1,
    recs := (chunks 32 (bs.drop 16)).map (fun e =>
      ⟨fld e 0 16, fld e 0x10 2, fld e 0x12 2, fld e 0x14 2, fld e 0x16 2, bit (fld e 0x18 1) 0, bit (fld e 0x18 1) 1⟩),
    valid := !bs.isEmpty }
def readTree (v : Nat) : TreeEntry :=
  { tree := bits v 63 56, press := bit v 55, exa := bit v 54, inMask := BitVec.ofNat 6 (bits v 53 48),
    outMask := BitVec.ofNat 6 (bits v 47 42), ptag := bits v 41 38, pos := 32 * bits v 32 28 + bits v 37 33 }
def readTrees (bs : List Byte) : List TreeEntry := (chunks 8 bs).map (fun e => readTree (fld e 0 8))
def readRoutes (bs : List Byte) : List Route :=
  (chunks 8 bs).map (fun e => ⟨bits (fld e 0 8) 63 60, bits (fld e 0 8) 59 56, bits (fld e 0 8) 55 46⟩)
/-- The GOOD fields of member i's repair map (Table 02-1), by column. -/
def readRepair (bs : List Byte) (i : Nat) : List Nat := (chunks 4 ((bs.drop (128 * i)).take 128)).map (fun e => fld e 0 4)

/-- A PROGRAM record: core, stream (0 access, 1 execute), words. -/
structure ProgRec where
  core : Nat
  stream : Nat
  spare : Nat
  words : List Nat
  deriving DecidableEq, Repr

/-- PROGRAM records; none where the section is not made of whole records. -/
def readProgs : Nat → List Byte → Option (List ProgRec)
  | 0, bs => if bs.isEmpty then some [] else none
  | n + 1, bs =>
    if bs.isEmpty then some []
    else
      let w := fld bs 4 4
      if bs.length < 8 + 8 * w ∨ w = 0 then none
      else (readProgs n (bs.drop (8 + 8 * w))).map (fun l =>
        ⟨fld bs 0 2, fld bs 2 1, fld bs 3 1, (chunks 8 ((bs.drop 8).take (8 * w))).map (fun e => fld e 0 8)⟩ :: l)

/-- LOCAL records: core, offset, bytes; a record is padded with zeros to a multiple of 16. -/
def readLocals : Nat → List Byte → Option (List (Nat × Nat × List Byte))
  | 0, bs => if bs.isEmpty then some [] else none
  | n + 1, bs =>
    if bs.isEmpty then some []
    else
      let l := fld bs 8 4
      let z := 16 + 16 * cdiv l 16
      if bs.length < z then none
      else (readLocals n (bs.drop z)).map (fun r => (fld bs 0 2, fld bs 4 4, (bs.drop 16).take l) :: r)

/-- Are the reserved fields of LOCAL records and their padding 0? -/
def localsZero : Nat → List Byte → Bool
  | 0, _ => true
  | n + 1, bs =>
    let l := fld bs 8 4
    let z := 16 + 16 * cdiv l 16
    if bs.length < z then true
    else zeroFld bs 2 2 && zeroFld bs 12 4 && zeroFld bs (16 + l) (z - 16 - l) && localsZero n (bs.drop z)

/-! ### What a member reads from an image -/

/-- The member index of a device serial. -/
def selfIn (ms : List Member) (serial : Nat) : Option Nat :=
  (ms.zipIdx.find? (fun e => e.1.serial == serial)).map (fun e => e.2)
def imMembers (b : List Byte) : List Member := readMembers (imSect b 0xFFFF 1)
def imDist (b : List Byte) : List (Nat × Nat) := readDist (imSect b 0xFFFF 20)
def imTiming (b : List Byte) : List Timing := readTiming (imSect b 0xFFFF 18)
/-- LOAD_TIMEOUT in ticks. -/
def imTimeout (b : List Byte) : Nat :=
  6250 * (((imTiming b).find? (fun t => t.part == lowPart (imPmask b))).elim 2000 (fun t => t.loadTimeout))

/-- The region owners and slice owners an image gives: keys and partitions, without the unclaimed ones. -/
def imRegions (b : List Byte) : List (Nat × Nat) :=
  (((imSect b 0xFFFF 2).take 52).zipIdx.filter (fun e => e.1 ≠ 0xFF)).map (fun e => (e.2, e.1.toNat))
def imSlices (b : List Byte) : List (Nat × Nat) :=
  ((imSect b 0xFFFF 3).zipIdx.filter (fun e => e.1 ≠ 0xFF)).map (fun e => (e.2, e.1.toNat))

/-- The bytes at the start of core k's local store as LOCAL records give them. -/
def localBytes (ls : List (Nat × Nat × List Byte)) (k n : Nat) : List Byte :=
  let m := memAll [] (ls.flatMap (fun e => if e.1 = k then wrBytes e.2.1 e.2.2 else []))
  m.bytes 0 n

/-- The serving header, if MAGIC is there (Table 17-1). -/
def readServe (h : List Byte) : Option ServeHdr :=
  if fld h 0 4 ≠ 0x56524553 then none
  else some { rows := fld h 4 2, genMax := fld h 6 2, vocab := fld h 8 4, kvBlocks := fld h 0xC 4, kvBt := fld h 0x10 2,
              vslots := fld h 0x12 2, nvar := fld h 0x14 2, planAddr := fld h 0x18 8, outAddr := fld h 0x20 8,
              seqAddr := fld h 0x28 8, kvmapAddr := fld h 0x30 8 }
/-- Its ranges (Table 17-1). -/
def serveOk (h : List Byte) : Bool :=
  match readServe h with
  | none => true
  | some v =>
    v.rows % 16 == 0 && decide (16 ≤ v.rows ∧ v.rows ≤ 8192) && v.genMax % 16 == 0 &&
    decide (16 ≤ v.genMax ∧ v.genMax ≤ v.rows ∧ v.genMax ≤ 4096) && decide (2 ≤ v.vocab ∧ v.vocab ≤ 262144) &&
    decide (1 ≤ v.kvBlocks ∧ v.kvBlocks ≤ 2 ^ 24) && [16, 32, 64, 128, 256, 512, 1024].contains v.kvBt &&
    decide (v.vslots ≤ 511) && decide (v.nvar ≤ 256) && zeroFld h 0x16 2 && zeroFld h 0x38 8
/-- A serving partition that has just been loaded. -/
def Serve.fresh (h : ServeHdr) : Serve :=
  { hdr := h, active := [], prefixes := [], vslots := [], waiting := [], draining := none, drainSince := false, log := none,
    logGap := false, rr := 63, planned := 0, planIn := 0, recorded := 0, plans := [], admitted := 0, given := [], pfxCounts := [] }

/-- The Mould that an image describes, for member `self`. -/
def imMould (b : List Byte) (self : Nat) (ls : List (Nat × Nat × List Byte)) (low : Nat) : Mould :=
  let tabs := imSect b self 7
  let none_ : FabTab := { ipver := 6, replica := false, hoplim := 1, recs := [], valid := false }
  { pmask := imPmask b, fpid := imFpid b, compat := imCompat b, weights := imWeights b, devices := imDevices b,
    rindMin := fld b 0x0E 1, digest := fld b 0x20 32, keydig := if imSigned b then fld b (imBody b) 32 else 0, phase := 3,
    self := self, owner := none, fromNbr := false, members := imMembers b,
    nbrs := ((readNbrs (imSect b self 9)).drop (9 * self)).take 9, nbrAll := readNbrs (imSect b self 9), ranges := readRanges (imSect b self 12),
    clock := readClock (imSect b self 10), timing := imTiming b, syncs := readSync (imSect b self 11), dist := imDist b,
    tabA := if tabs.isEmpty then none_ else readFabric tabs,
    tabB := if (imSect b self 8).isEmpty then none_ else readFabric (imSect b self 8),
    epoch := 0, vlast := [], switchAt := none, switching := none, early := [], pairLost := false, failoverRan := false, heldFlag := false, quiet := false,
    hold := none, failover := none, t0 := 0, replay := false, results := [], lastByte := 0, req := none, go := 0, stepDone := [], rerun := none,
    serve := (readServe (localBytes ls low 64)).map Serve.fresh, wload := none, base := 0, baseKey := 0,
    variants := [], coming := [], newVers := [], subs := [], images := [], image := b }

end Sys2Proof.Machine
end

