-- ==== Sys2Proof/Machine/CtxCmd.lean ====
section
/-! DEFINITION. Commands about contexts, requests, prefixes and the admission log, whose effect beyond the queue comes at a
sampling point (R305 to R307, R317, R325 to R330, R341 to R344). -/

namespace Sys2Proof.Machine

/-! ### Contexts (R307) -/

/-- A command that waits for the sampling point of a Mould. -/
def Dev.waitSample (d : Dev) (m : Mould) (w : Waiting) : Dev :=
  d.updMould m.pmask (fun m => { m with serve := m.serve.map (fun v => { v with waiting := v.waiting ++ [w] }) })

/-- Are the fields of a context descriptor in range (Table 17-2)? -/
def ctxDescOk (bs : List Byte) (ctx : Nat) : Bool :=
  let n := fld bs 4 4
  bs.length == 64 && fld bs 0 1 == ctx && decide (ctx ≤ 15) && decide (fld bs 2 2 ≤ 63) &&
  (List.range 13).any (fun i => n == 2 ^ (8 + i)) && fld bs 8 8 % 4096 == 0 && zeroFld bs 0x14 44

/-- A context as its descriptor opens it. -/
def newCtx (bs : List Byte) (base size : Nat) : Ctx :=
  { part := fld bs 1 1, vec := fld bs 2 2, ents := fld bs 4 4, addr := fld bs 8 8, moderate := fld bs 0x10 4, since := none,
    rHead := 0, rTail := 0, phase := true, qBase := base, qSize := size, queue := [], qHead := 0, qTail := 0, backlog := [] }

/-- OPEN_CTX (R305, R307): `data` is what host memory returned of the descriptor. -/
def execOpenCtx (f : FnId) (e : BitVec 512) (data : Option (List Byte)) (s : State) : Host.Outcome State Fault Refusal :=
  hostCmd f 0x01 e (fun d =>
    let no := fun st => d.complete f (cCid e) st 0
    match data with
    | none => no stHostError
    | some bs =>
      match d.mouldLow (fld bs 1 1) with
      | none => no stInvalid
      | some m =>
        if m.self ≠ 0 then no stNotFront
        else if m.serve.isNone || !m.alive 0 || !ctxDescOk bs (cCtx e) || 12 < cArg1 e || (d.ctx f (cCtx e)).isSome then no stInvalid
        else (d.setCtx f (cCtx e) (newCtx bs (cArg0 e) (cArg1 e))).complete f (cCid e) stOk 0) s

/-- CLOSE_CTX (R307, R327): a cancel of all its requests at the sampling point; at once where none is to come. -/
def execCloseCtx (f : FnId) (e : BitVec 512) (s : State) : Host.Outcome State Fault Refusal :=
  hostCmd f 0x02 e (fun d =>
    match d.ctx f (cCtx e) with
    | none => d.complete f (cCid e) stNotFound 0
    | some x =>
      match d.ctxMould x with
      | none => (d.delCtx f (cCtx e)).complete f (cCid e) stOk 0
      | some m => d.waitSample m ⟨f, cCid e, .closeCtx (cCtx e)⟩) s

/-- CANCEL (R326). -/
def execCancel (f : FnId) (e : BitVec 512) (s : State) : Host.Outcome State Fault Refusal :=
  hostCmd f 0x03 e (fun d =>
    match d.ctx f (cCtx e) with
    | none => d.complete f (cCid e) stNotFound 0
    | some x =>
      match d.ctxMould x with
      | none => d.complete f (cCid e) stNotFound 0
      | some m => d.waitSample m ⟨f, cCid e, .cancel (cCtx e) (cArg0 e)⟩) s

/-! ### Prefix handles (R316, R317) -/

/-- The 64-bit handle. -/
def Pfx.handle (p : Pfx) : Nat := p.count * 4096 + p.idx
/-- Release one reference; a handle without one is gone with its blocks. -/
def Serve.deref (v : Serve) (i c : Nat) (unreg : Bool) : Serve :=
  { v with prefixes := (v.prefixes.map (fun (p : Pfx) =>
      if p.idx = i ∧ p.count = c then { p with refs := p.refs - 1, live := p.live && !unreg } else p)).filter (fun p => p.refs ≠ 0) }
/-- PREFIX_RELEASE applied: the handle that was released, if it was registered. -/
def Serve.release (v : Serve) (h : Nat) : Option Serve :=
  match v.prefixes.find? (fun p => p.live && p.handle == h) with
  | none => none
  | some p => some (v.deref p.idx p.count true)

/-- PREFIX_RELEASE (R317). -/
def execPrefixRelease (f : FnId) (e : BitVec 512) (s : State) : Host.Outcome State Fault Refusal :=
  liftW (fun _ _ d => d.takeCmd f 0x04 e (fun d => d.onMould f e true false (fun d m =>
    match m.serve with
    | none => (d.complete f (cCid e) stInvalid 0, [])
    | some v =>
      if d.willSample m then (d.waitSample m ⟨f, cCid e, .prefixRelease (cArg0 e)⟩, [])
      else
        match v.release (cArg0 e) with
        | none => (d.complete f (cCid e) stNotFound 0, [])
        | some v => ((d.updMould m.pmask (fun m => { m with serve := some v })).complete f (cCid e) stOk 0, [])))) s

/-! ### Drain (R329) -/

/-- DRAIN: it waits for its sampling point, but where none has come before a start and so no request is active; a second one while the
first runs is answered ALREADY. -/
def execDrain (f : FnId) (e : BitVec 512) (s : State) : Host.Outcome State Fault Refusal :=
  liftW (fun _ _ d => d.takeCmd f 0x05 e (fun d =>
    if 2 ≤ cFlags e then (d.complete f (cCid e) stInvalid 0, [])
    else d.onMould f e true true (fun d m =>
      match m.serve with
      | none => (d.complete f (cCid e) stInvalid 0, [])
      | some v =>
        if v.draining.isSome then (d.complete f (cCid e) stAlready 0, [])
        else if d.willSample m ∧ (m.phase = 6 ∨ 0 < v.planned) then (d.waitSample m ⟨f, cCid e, .drain (bit (cFlags e) 0)⟩, [])
        else
          ((d.updMould m.pmask (fun m => { m with serve := m.serve.map (fun v => { v with drainSince := true }) })).complete f
            (cCid e) stOk 0, [])))) s

/-! ### The admission log (R330, R342) -/

/-- OPEN_LOG. In a replay the ring holds the log of the run that is replayed, which the device reads from it: `q.log` is what host memory
returned (R239, log entry 108). -/
def execOpenLog (f : FnId) (q : OpenLogCmd) (s : State) : Host.Outcome State Fault Refusal :=
  let e := q.entry
  liftW (fun _ _ d => d.takeCmd f 0x06 e (fun d =>
    if 12 < cArg0 e then (d.complete f (cCid e) stInvalid 0, [])
    else d.onMould f e true true (fun d m =>
      match m.serve with
      | none => (d.complete f (cCid e) stInvalid 0, [])
      | some v =>
        if v.log.isSome then (d.complete f (cCid e) stAlready 0, [])
        else if m.replay then
          let g := q.log.map (fun x => (⟨x.1, x.2⟩ : GivenReq))
          ((d.updMould m.pmask (fun m => { m with serve := m.serve.map (fun v => { v with given := g }) })).complete f (cCid e) stOk 0, [])
        else
          let l : LogRing := { fn := f.val, addr := cAddr e, ents := ringEntries (cArg0 e), head := 0, tail := 0, dropped := 0 }
          let d := d.updMould m.pmask (fun m => { m with serve := m.serve.map (fun v => { v with log := some l }) })
          ((d.updFunc f (fun x => { x with logTail := up x.logTail (lowPart m.pmask) 0 })).complete f (cCid e) stOk 0, [])))) s

/-- CLOSE_LOG. -/
def execCloseLog (f : FnId) (e : BitVec 512) (s : State) : Host.Outcome State Fault Refusal :=
  liftW (fun _ _ d => d.takeCmd f 0x07 e (fun d => d.onMould f e true true (fun d m =>
    if (m.serve.bind (fun v => v.log)).isNone then (d.complete f (cCid e) stNotFound 0, [])
    else
      ((d.updMould m.pmask (fun m => { m with serve := m.serve.map (fun v => { v with log := none }) })).complete f
        (cCid e) stOk 0, [])))) s

/-! ### Context queues (R308, R316, R342) -/

/-- The host places an entry in context c's queue, with the record and the prompt its memory holds there; the doorbell announces it. A
queue holds at most its entry count minus 1 (R343). -/
def Dev.placeEntry (d : Dev) (f c : Nat) (x : SubEntry) : Dev :=
  match d.ctx f c with
  | none => d
  | some k =>
    if ringEntries k.qSize ≤ k.queue.length + 1 then d else d.setCtx f c { k with queue := k.queue ++ [x] }

/-- SUBMIT (R308, R342). -/
def execSubmit (f : FnId) (c : Fin 16) (e : BitVec 512) (record : Option (List Byte)) (prompt : Option (List Nat)) (s : State) :
    Host.Outcome State Fault Refusal :=
  lift (fun d => if cOpc e = 0x41 then d else d.placeEntry f c ⟨e, record, prompt⟩) s

/-- SUBMIT_PREFIX (R316, R342). -/
def execSubmitPrefix (f : FnId) (c : Fin 16) (e : BitVec 512) (record : Option (List Byte)) (prompt : Option (List Nat))
    (s : State) : Host.Outcome State Fault Refusal :=
  lift (fun d => if cOpc e ≠ 0x41 then d else d.placeEntry f c ⟨e, record, prompt⟩) s

/-- MODERATE_EXPIRE (R324): MODERATE ticks after the oldest record not yet announced. -/
def execModerateExpire (f : FnId) (c : Fin 16) (s : State) : Host.Outcome State Fault Refusal :=
  lift (fun d =>
    match d.ctx f c with
    | none => d
    | some x =>
      if x.since.any (fun t => decide (t + x.moderate ≤ d.turn.now.toNat)) then
        (d.setCtx f c { x with since := none }).msix f x.vec
      else d) s

end Sys2Proof.Machine
end

