-- ==== Sys2Proof/Machine/Descriptors.lean ====
section
/-! DEFINITION. Creating and retiring descriptors (R87 to R92, R166). -/

namespace Sys2Proof.Machine

/-- Step 1 of R88: does the operation wait? While an entry in TQ names the handle, or its create still runs. -/
def Core.descBusy (c : Core) (h : Nat) : Bool :=
  c.tq.any (fun e => e.caps.any (fun p => p.h == h)) || c.creating [h]

/-- Step 2 of R88: GEN incremented, VALID cleared; the fields stay (R87). -/
def Core.descStep2 (c : Core) (h : Nat) : Core :=
  let e := lk DescEntry.reset c.desc h
  { c with desc := up c.desc h { e with valid := false, gen := e.gen + 1 } }

/-- Is COMPAT_S420 set in the Mould of the core's partition (R13, R105)? -/
def Dev.compat (d : Dev) (k : Nat) : Bool := (d.mouldOf (d.partOf k)).elim false (fun m => m.compat)

/-- DCREATE (R88, R166): a register or offset that breaks its rule raises DESC_RANGE at once and reads no image; else the image
read is asked for as soon as the fill guard allows it (R89). -/
def execDcreate (k : CoreId) (s : State) : Host.Outcome State Fault Refusal :=
  seqOp k .A 0x50 (fun _ d w =>
    let c := d.core k
    let h := bits w 55 50
    if c.descBusy h then .ok (d.setSeq k .A (c.a.stall .stallOperand)) []
    else
      let v := (c.a.get (bits w 49 45)).toNat
      let c' := { c.descStep2 h with a := c.a.advance }
      if v ≥ 2 ^ 20 ∨ v % (if d.compat k then 16 else 64) ≠ 0 then
        .ok ((d.setCore k c').raiseStep k 0x11 [h, 0]) []
      else
        let x : Create := ⟨h, lsBase k + v, if d.compat k then 48 else 64, c'.newJob, false, 0, []⟩
        .ok (d.setCore k ({ c' with creates := c'.creates ++ [x] }.askCreates k)) []) s

/-- The bytes of an image whose lines are in; a byte past the end of the local store is a free value (log entry 139). -/
def Create.image (x : Create) (k n : Nat) : List Byte :=
  (List.range x.len).map (fun j =>
    let a := x.addr + j
    if a < lsBase k + 2 ^ 20 then (lk (0 : BitVec 512) x.got (a / 64)).extractLsb' (8 * (a % 64)) 8
    else (Config.freeValue (n + j)).extractLsb' 0 8)

/-- DCREATE_COMPLETE (R88, R89, R102, R166): the oldest create's image has arrived; what stands past the end of the store is a free value
(log entry 139). -/
def execDcreateComplete (k : CoreId) (s : State) : Host.Outcome State Fault Refusal :=
  lift (fun d =>
    let c := d.core k
    match c.creates with
    | [] => d
    | cr :: rest =>
      if !cr.asked || cr.left ≠ 0 then d
      else
        let bs := cr.image k d.free
        let d := if cr.addr + cr.len ≤ lsBase k + 2 ^ 20 then d else { d with free := d.free + cr.len }
        let f := parseDesc bs (d.compat k)
        let p := d.partOf k
        let c' := { c with creates := rest }
        match validate bs f ((d.mouldOf p).elim [] (fun m => m.ranges)) p k with
        | none =>
          let e := lk DescEntry.reset c.desc cr.h
          d.setCore k { c' with desc := up c.desc cr.h { e with valid := true, f := f, img := some cr.addr } }
        | some .format => (d.setCore k c').raiseStep k 0x10 [0x50, cr.h, 0]
        | some (.range n) => (d.setCore k c').raiseStep k 0x11 [cr.h, n]
        | some (.alias_ i) => (d.setCore k c').raiseStep k 0x12 [cr.h, i]) s

/-- DRETIRE (R88, R166). -/
def execDretire (k : CoreId) (s : State) : Host.Outcome State Fault Refusal :=
  seqOp k .A 0x51 (fun _ d w =>
    let c := d.core k
    let h := bits w 55 50
    if c.descBusy h then .ok (d.setSeq k .A (c.a.stall .stallOperand)) []
    else .ok (d.setCore k { c.descStep2 h with a := c.a.advance }) []) s

end Sys2Proof.Machine
end

