-- ==== Sys2Proof/Machine/MouldProg.lean ====
section
/-! DEFINITION. The loader's check of programs and of the library (R44, R45, R49, R155, R160 to R163, R285). Words are given as
lists of numbers; word numbers are those of the program store. -/

namespace Sys2Proof.Machine

/-- A counted-loop body: its first word and its end word (R50). -/
abbrev Body := Nat × Nat

/-- The LOOP bodies of words that begin at word `base`. -/
def bodiesOf (base : Nat) (ws : List Nat) : List Body :=
  (ws.zipIdx.filter (fun e => wOp e.1 == 0x01)).map (fun e => (base + e.2 + 1, bits e.1 44 32))

/-- The bodies a word lies in. -/
def inside (bs : List Body) (n : Nat) : List Body := bs.filter (fun b => decide (b.1 ≤ n ∧ n ≤ b.2))

/-- Do two bodies cross: one begins inside another and ends beyond that body's end word (R45)? A LOOP that stands on the end
word of another loop is taken to cross it (log entry 35). -/
def cross (a b : Body) : Bool := decide (a.1 ≤ b.1 - 1 ∧ b.1 - 1 ≤ a.2 ∧ a.2 < b.2)
def noCross (bs : List Body) : Bool := bs.all (fun a => !bs.any (cross a))

/-! ### The library window (R42, R44, R162) -/

/-- The fields of a routine-table entry (Table 03-3); ENTRY as a word number. -/
structure RtnEnt where
  stream : Nat
  depth : Nat
  cycles : Nat
  entry : Nat
  deriving DecidableEq, Repr

def rtnEnt (w : Nat) : RtnEnt := ⟨bits w 51 50, bits w 49 48, bits w 47 16, 6144 + bits w 10 0⟩
/-- Does an entry keep Table 03-3 and R44? -/
def rtnOk (w : Nat) : Bool :=
  let e := rtnEnt w
  bits w 63 52 == 0 && bits w 15 11 == 0 && (e.stream == 0 || (decide (e.depth ≤ 2) && decide (2 ≤ e.cycles) && decide (6400 ≤ e.entry)))

/-- The defined routines of a library. -/
def routines (lib : List Nat) : List RtnEnt := ((lib.take 256).map rtnEnt).filter (fun e => e.stream ≠ 0)
/-- The last of the own words of the routine that begins at `entry` (R162). -/
def ownLast (rs : List RtnEnt) (entry : Nat) : Nat :=
  rs.foldl (fun a e => if entry < e.entry then min a (e.entry - 1) else a) 8191
def libWord (lib : List Nat) (n : Nat) : Nat := lib.getD (n - 6144) 0

/-- Is a library word defined in sequencer q, with each queue directed as it needs (R45)? The direction itself is checked for the
core that calls. -/
def libWordOk (q : SeqId) (n w : Nat) : Bool := wordOk q n 0 w || wordOk q n 255 w
/-- A branch's target (R162). -/
def target (n w : Nat) : Int := (n : Int) + sext (bits w 13 0) 14
def isBranch (w : Nat) : Bool := decide (0x08 ≤ wOp w ∧ wOp w ≤ 0x0E)

/-- The words that may follow word n: fall-through and loop exit, a branch's target, the word after a LOOP's end (R45). -/
def follows (lib : List Nat) (n : Nat) : List Int :=
  let w := libWord lib n
  let op := wOp w
  if op = 0x04 then []
  else if op = 0x0E then [target n w]
  else if isBranch w then [(n : Int) + 1, target n w]
  else if op = 0x01 then [(n : Int) + 1, (bits w 44 32 : Int) + 1]
  else [(n : Int) + 1]

/-- Every path from the words of `todo` stays in [lo, hi] (R45); `fuel` bounds the words visited. -/
def pathsIn (lib : List Nat) (lo hi : Nat) : Nat → List Int → List Int → Bool
  | 0, todo, _ => todo.isEmpty
  | _ + 1, [], _ => true
  | f + 1, n :: todo, seen =>
    if seen.contains n then pathsIn lib lo hi f todo seen
    else if n < (lo : Int) ∨ (hi : Int) < n then false
    else pathsIn lib lo hi f (follows lib n.toNat ++ todo) (n :: seen)

/-- A routine against its own words: streams, loops within them and no deeper than DEPTH, branches (R162), paths (R45). -/
def routineOk (lib : List Nat) (rs : List RtnEnt) (e : RtnEnt) : Bool :=
  let hi := ownLast rs e.entry
  let own := (List.range (hi + 1 - e.entry)).map (fun i => e.entry + i)
  let bs := bodiesOf e.entry (own.map (libWord lib))
  let inOwn := fun (n : Int) => decide ((e.entry : Int) ≤ n ∧ n ≤ (hi : Int))
  noCross bs && bs.all (fun b => decide (b.2 ≤ hi)) &&
  own.all (fun n =>
    let w := libWord lib n
    (!bit e.stream 0 || libWordOk .A n w) && (!bit e.stream 1 || libWordOk .E n w) &&
    decide ((inside bs n).length ≤ e.depth) &&
    (!isBranch w || (inOwn (target n w) && inside bs (target n w).toNat == inside bs n))) &&
  pathsIn lib e.entry hi 10000 [(e.entry : Int)] []

/-- The library image (R45): 2,048 words, the table's entries, every code word defined in one stream at least, which excludes CALL and
STEPEND, and every routine. -/
def libraryOk (lib : List Nat) : Bool :=
  let rs := routines lib
  lib.length == 2048 && (lib.take 256).all rtnOk &&
  ((lib.drop 256).zipIdx.all (fun e =>
    let n := 6400 + e.2
    libWordOk .A n e.1 || libWordOk .E n e.1)) &&
  rs.all (routineOk lib rs)

/-! ### A program (R45) -/

/-- A CALL at loop depth k: a defined routine of this stream with DEPTH at most 4 − k, whose words keep this core's queue
directions (R45, R49). -/
def callOk (q : SeqId) (dqdir : Nat) (lib : List Nat) (k w : Nat) : Bool :=
  let rs := routines lib
  let e := rtnEnt (libWord lib (6144 + routineIndex w))
  bit e.stream (match q with | .A => 0 | .E => 1) && decide (e.depth + k ≤ 4) &&
  (List.range (ownLast rs e.entry + 1 - e.entry)).all (fun i =>
    let n := e.entry + i
    wordOk q n dqdir (libWord lib n))

/-- A program image (R45, R163): every word defined in its stream, bodies that nest at most 4 deep at any word (the deepest nesting
begins with some body) and do not cross, calls, a
STEPEND with WRAP = 1 at depth 0 that closes the path before word 6,144; with REPLICA no other STEPEND (R285). -/
def programOk (q : SeqId) (dqdir : Nat) (replica : Bool) (lib ws : List Nat) : Bool :=
  let bs := bodiesOf 0 ws
  noCross bs && bs.all (fun b => decide ((inside bs b.1).length ≤ 4)) &&
  ws.zipIdx.all (fun e =>
    let w := e.1
    let k := (inside bs e.2).length
    wordOk q e.2 dqdir w && (wOp w != 0x02 || callOk q dqdir lib k w) &&
    (wOp w != 0x03 || (if bit w 55 then k == 0 else !replica))) &&
  ws.any (fun w => wOp w == 0x03 && bit w 55)

end Sys2Proof.Machine
end

