-- ==== Sys2Proof/Machine/MouldCheck.lean ====
section
/-! DEFINITION. The checks of a Mould in the order of R248, with the load status and the section of the first failure
(R13 to R17, R30, R36, R219, R235, R240 to R249, R270, R280, R306, R314, R389, Tables 13-1 to 13-8). -/

namespace Sys2Proof.Machine

/-! ### Load status codes (Table 13-8) -/

def ldNone : Nat := 0
def ldOk : Nat := 1
def ldFormat : Nat := 2
def ldTooLarge : Nat := 3
def ldDigest : Nat := 4
def ldSignature : Nat := 5
def ldNotMember : Nat := 6
def ldDeviceCount : Nat := 7
def ldRepair : Nat := 8
def ldProgram : Nat := 9
def ldTable : Nat := 10
def ldBusy : Nat := 11
def ldCompat : Nat := 12
def ldT0Late : Nat := 13
def ldSource : Nat := 14
def ldMemberRefused : Nat := 15
def ldMemberTimeout : Nat := 16
def ldStartLate : Nat := 17
def ldCancelled : Nat := 18

/-- No two elements are equal. -/
def noRepeats : List Nat → Bool
  | [] => true
  | x :: r => !r.contains x && noRepeats r

/-- Are two lists the same up to order, both without repeats? -/
def sameSet (a b : List Nat) : Bool := noRepeats a && a.length == b.length && a.all (fun x => b.contains x)

/-! ### FORMAT_BAD (R241, R244) -/

/-- The sections that Table 13-2 lets appear per member. -/
def perMember (typ : Nat) : Bool := [11, 13, 14, 16, 17].contains typ
/-- The required ones. -/
def requiredTypes (devices : Nat) : List Nat :=
  [1, 2, 3, 4, 9, 10, 12, 13, 14, 15, 18, 20] ++ (if 1 < devices then [7, 8] else [])

/-- Reserved fields of a section, where Table 13-2 gives their breach no status of its own. -/
def reservedOk (typ : Nat) (bs : List Byte) : Bool :=
  match typ with
  | 1 => (chunks 32 bs).all (fun e => zeroFld e 17 15)
  | 4 => (chunks 4 bs).all (fun e => bits (fld e 0 4) 31 26 == 0)
  | 6 => (chunks 8 bs).all (fun e => bits (fld e 0 8) 27 0 == 0)
  | 9 => (chunks 32 bs).all (fun e => zeroFld e 4 4 && zeroFld e 0x18 8)
  | 10 => (chunks 16 bs).all (fun e => zeroFld e 12 4)
  | 11 => (chunks 8 bs).all (fun e => bits (fld e 0 8) 42 36 == 0)
  | 12 => (chunks 24 bs).all (fun e => zeroFld e 3 5 && decide (fld e 2 1 < 4))
  | 14 => (readProgs bs.length bs).all (fun l => l.all (fun r => r.spare == 0))
  | 16 => localsZero bs.length bs
  | 19 => (chunks 24 bs).all (fun e => zeroFld e 2 6)
  | 18 => (chunks 64 bs).all (fun e => zeroFld e 6 2 && zeroFld e 0x18 40 && decide (fld e 1 1 < 2))
  | 20 => (chunks 8 bs).all (fun e => zeroFld e 3 5)
  | _ => true

/-- What R244 asks of the i-th directory entry and its section. -/
def entryOk244 (b : List Byte) (l : List DirEnt) (i : Nat) (e : DirEnt) : Bool :=
  let key := fun (e : DirEnt) => e.typ * 65536 + e.member
  e.off % 64 == 0 && decide (0x40 + 16 * imNsect b ≤ e.off) && decide (e.off + e.len ≤ imBody b) && e.spare == 0 &&
  decide (1 ≤ e.typ ∧ e.typ ≤ 20) && (e.member == 0xFFFF || (perMember e.typ && decide (e.member < imDevices b))) &&
  (i == 0 || (l[i - 1]?).all (fun f => decide (key f < key e))) &&
  (l.take i).all (fun f => e.len == 0 || f.len == 0 || decide (e.off + e.len ≤ f.off ∨ f.off + f.len ≤ e.off)) &&
  reservedOk e.typ ((b.drop e.off).take e.len)

/-- The first directory entry that breaks R244, none when all are right: PT_LOAD.SECTION. -/
def dirBad (b : List Byte) : Option Nat :=
  (((imDir b).zipIdx).find? (fun e => !entryOk244 b (imDir b) e.2 e.1)).map (fun e => e.2)

/-- What R244 asks of the directory as a whole. -/
def dirOk (b : List Byte) (self : Nat) : Bool :=
  let l := imDir b
  let low := 0x40 + 16 * imNsect b
  (requiredTypes (imDevices b)).all (fun t => (imSectIdx b self t).isSome) &&
  (b.take (imBody b)).zipIdx.all (fun x =>
    decide (x.2 < low) || x.1 == 0 || l.any (fun e => decide (e.off ≤ x.2 ∧ x.2 < e.off + e.len)))

/-- The header (R248, step 2). -/
def headerOk (b : List Byte) : Bool :=
  fld b 0 4 == 0x444C4F4D && fld b 4 2 == 1 && bits (imFlags b) 15 3 == 0 &&
  decide (fld b 0x0C 2 < 4096) && zeroFld b 0x18 8 && imPmask b != 0 && decide (1 ≤ imNsect b ∧ imNsect b ≤ 64) &&
  imLength b == imBody b + (if imSigned b then 2852 else 0) && b.length == imLength b

/-! ### Steps 4, 6 and 8 -/

/-- The Mould digest (R242). -/
def imDigest (b : List Byte) : Nat := shake256 (b.take 0x20 ++ (b.take (imBody b)).drop 0x40)

/-- The signature (R243). -/
def Dev.sigOk (d : Dev) (b : List Byte) : Bool :=
  !imSigned b ||
  d.crm.keys.any (fun e => e.2.digest == fld b (imBody b) 32 &&
    xmssVerify e.2.key (imDigest b) ((b.drop (imBody b + 32)).take 2820))

/-- Does the Mould claim a region, slice, queue or edge object that another one holds, or a partition that is not in phase 0
(R248, step 6)? -/
def Dev.imBusy (d : Dev) (b : List Byte) (self : Nat) : Bool :=
  let pm := imPmask b
  let syncs := readSync (imSect b self 11)
  (partsOf pm).any (fun p => d.moulds.any (fun m => bit m.pmask p) || d.loads.any (fun l => l.pmask ≠ pm && bit l.pmask p)) ||
  (imRegions b).any (fun e => lk 16 d.net.regOwner e.1 ≠ 16) || (imSlices b).any (fun e => lk 16 d.net.slcOwner e.1 ≠ 16) ||
  d.moulds.any (fun m => m.syncs.any (fun x => syncs.any (fun y =>
    (2 ≤ x.kind && x.kind == y.kind && x.queue == y.queue) ||
    (x.kind == 1 && y.kind == 1 && decide (x.obj < y.obj + y.count ∧ y.obj < x.obj + x.count)))))

/-- The repair map (R14, R17). -/
def Dev.repairOk (d : Dev) (b : List Byte) (self : Nat) : Bool :=
  let bs := imSect b self 4
  let g := readRepair bs self
  !d.net.routerFail && bs.length == 128 * imDevices b && g.length == 32 &&
  g.zipIdx.all (fun e =>
    popLow e.1 26 == 24 && (List.range 26).all (fun py => !bit e.1 py || d.goodPos (32 * py + e.2)) &&
    (d.moulds.isEmpty || d.good e.2 == e.1))

/-! ### Where the image puts things -/

/-- The position of logical core k under the image's repair map, and the partition of a position and of a core; 0xFF for none. -/
def imPosOf (b : List Byte) (self k : Nat) : Nat := 32 * nthBit ((readRepair (imSect b self 4) self).getD (k % 32) 0) (k / 32) 0 26 + k % 32
def imPartAt (b : List Byte) (pos : Nat) : Nat := fld (imSect b 0xFFFF 2) (regionOf pos) 1
def imPartOf (b : List Byte) (self k : Nat) : Nat := imPartAt b (imPosOf b self k)
def imHas (b : List Byte) (p : Nat) : Bool := decide (p < 16) && bit (imPmask b) p
/-- The lowest core of partition p. -/
def imLowCore (b : List Byte) (self p : Nat) : Nat := ((List.range 768).find? (fun k => imPartOf b self k == p)).getD 768

/-! ### TABLE_INVALID (Table 13-2) -/

/-- Do the regions of partition p form a rectangle of the 4 × 13 grid, and is there one (R36)? -/
def rectOk (bs : List Byte) (p : Nat) : Bool :=
  let rs := (List.range 52).filter (fun r => fld bs r 1 == p)
  match rs with
  | [] => false
  | f :: _ =>
    let xs := rs.map (fun r => r % 4)
    let x0 := xs.foldl min (f % 4)
    let x1 := xs.foldl max (f % 4)
    let y0 := f / 4
    let y1 := (rs.map (fun r => r / 4)).foldl max y0
    rs == (List.range 52).filter (fun r => decide (x0 ≤ r % 4 ∧ r % 4 ≤ x1 ∧ y0 ≤ r / 4 ∧ r / 4 ≤ y1))

def membersOk (b bs : List Byte) : Bool :=
  bs.length == 32 * imDevices b && (readMembers bs).all (fun m => decide (m.slot ≤ 7))
def partitionOk (b bs : List Byte) : Bool :=
  bs.length == 64 && zeroFld bs 52 12 && (List.range 52).all (fun r => fld bs r 1 == 0xFF || imHas b (fld bs r 1)) && (partsOf (imPmask b)).all (rectOk bs)
def slicesOk (b bs : List Byte) : Bool := bs.length == 768 && bs.all (fun x => x.toNat == 0xFF || imHas b x.toNat)
def routesOk (b bs : List Byte) : Bool :=
  bs.length % 8 == 0 && (chunks 8 bs).all (fun e => bits (fld e 0 8) 45 0 == 0) && (readRoutes bs).all (fun t => imHas b t.part && inSegment t.unit t.attach)

/-- The routers partition p may use: its rectangle and its declared routes (R37). -/
def imRouters (b : List Byte) (routes : List Route) (p : Nat) : List Nat :=
  let rect := (List.range 832).filter (fun c => imPartAt b c == p)
  rect ++ (routes.filter (fun t => t.part == p)).flatMap (fun t =>
    rect.flatMap (fun c =>
      t.attach :: (dorPath c t.attach 60).map (fun e => e.1) ++
        (entryPoint t.unit c :: (dorPath (entryPoint t.unit c) c 60).map (fun e => e.1))))

/-- The routers behind an entry, with the input a flit that came in by input i takes there. -/
def treeNext (es : List TreeEntry) (pos i : Nat) : List (Nat × Nat) :=
  match es.find? (fun e => e.pos == pos) with
  | none => []
  | some e =>
    ((maskOuts e.outMask.toNat).filter (fun o => e.press || o ≠ i)).filterMap (fun o =>
      (neighbour pos o).map (fun n => (n, inputAt o)))

/-- Is (router, input) reached from the places of `todo`? -/
def treeReaches (es : List TreeEntry) (goal : Nat × Nat) : Nat → List (Nat × Nat) → List (Nat × Nat) → Bool
  | 0, _, _ => false
  | _ + 1, [], _ => false
  | f + 1, x :: todo, seen =>
    if x = goal then true
    else if seen.contains x then treeReaches es goal f todo seen
    else treeReaches es goal f (treeNext es x.1 x.2 ++ todo) (x :: seen)

/-- Do a tree's entries form a cycle (R30): does a flit come back to an input it has passed? -/
def treeCycle (es : List TreeEntry) : Bool :=
  es.any (fun e => (List.range 6).any (fun i => treeReaches es (e.pos, i) 40000 (treeNext es e.pos i) []))

/-- R30 with Table 02-4. `old` are the entries of other loaded Moulds. -/
def treesOk (b bs : List Byte) (old : List TreeEntry) (routes : List Route) : Bool :=
  let es := readTrees bs
  let rs := (partsOf (imPmask b)).map (fun p => (p, imRouters b routes p))
  bs.length % 8 == 0 &&
  es.all (fun e =>
    imHas b e.ptag && decide (e.pos < 832) &&
    (if e.press then (maskOuts e.outMask.toNat).length == 1 else !e.exa && e.inMask == 0) &&
    (!(bit e.outMask.toNat 5 || bit e.inMask.toNat 5) || isAttach e.pos) &&
    (lk [] rs e.ptag).contains e.pos) &&
  noRepeats ((old ++ es).map (fun e => e.tree * 1024 + e.pos)) &&
  (List.range 256).all (fun t => !treeCycle (es.filter (fun e => e.tree == t)))

/-- The records of one version of the fabric table (R280, Tables 15-2 and 15-3). -/
def fabricOk (ms : List Member) (bs : List Byte) : Bool :=
  let n := ms.length
  let t := readFabric bs
  let board := fun i => (ms[i]?).map (fun m => m.board)
  bs.length == 16 + 32 * n && fld bs 0 2 == n && (t.ipver == 4 || t.ipver == 6) && decide (fld bs 3 1 < 2) &&
  decide (1 ≤ t.hoplim) && zeroFld bs 5 11 &&
  (chunks 32 (bs.drop 16)).all (fun e => decide (fld e 0x18 1 < 4) && zeroFld e 0x19 7) &&
  t.recs.zipIdx.all (fun e =>
    let r := e.1
    let i := e.2
    let other := fun x => x == 0xFFFF || (decide (x < n) && board x != board i)
    other r.remote0 && other r.remote1 &&
    (r.partner == 0xFFFF ||
      (decide (r.partner < n ∧ r.partner ≠ i) && board r.partner == board i && (t.rec_ r.partner).partner == i &&
       !(r.muted && (t.rec_ r.partner).muted) && !(r.mirror && (t.rec_ r.partner).mirror))) &&
    (r.aliasTo == 0xFFFF || (decide (r.aliasTo < n) && (t.rec_ r.aliasTo).aliasTo == 0xFFFF)))
/-- The headers of the two versions agree in IPVER and REPLICA (R280). -/
def headersAgree (a c : FabTab) : Bool := a.ipver == c.ipver && a.replica == c.replica

def nbrsOk (b bs : List Byte) : Bool :=
  bs.length == 288 * imDevices b &&
  (readNbrs bs).zipIdx.all (fun e => decide (e.1.mode ≤ 2) && (e.1.mode != 2 || decide (7 ≤ e.2 % 9)))

/-- CLOCK with the wake times of Tables 21-5 and 21-6 (R389). -/
def clockOk (b bs : List Byte) : Bool :=
  let l := readClock bs
  bs.length % 16 == 0 && sameSet (l.map (fun c => c.part)) (partsOf (imPmask b)) &&
  l.all (fun c =>
    decide (c.fmin ≤ 6 ∧ c.fmax ≤ c.fmin ∧ c.sleep ≤ 2) &&
    (c.sleep == 0 || decide ((if c.sleep = 1 then 2 else wakeTicks c.fmin) ≤ c.wakeLead)))

/-- SYNC (Table 13-4). -/
def syncOk (b bs : List Byte) (self : Nat) : Bool :=
  let l := readSync bs
  let edges := l.filter (fun e => e.kind == 1)
  bs.length % 8 == 0 &&
  l.all (fun e =>
    imHas b e.part &&
    (match e.kind with
     | 0 =>
       e.queue == 0 &&
       (if e.obj < 24576 then imPartOf b self (e.obj / 32) == e.part
        else edges.any (fun g => g.part == e.part && decide (g.obj ≤ e.obj ∧ e.obj < g.obj + g.count)))
     | 1 =>
       e.queue == 0 && decide (24576 ≤ e.obj ∧ e.obj + e.count ≤ 32768) &&
       edges.all (fun g => g.part == e.part || decide (g.obj + g.count ≤ e.obj ∨ e.obj + e.count ≤ g.obj))
     | _ => e.obj == 0 && e.count == 0 && l.all (fun g => g.kind != e.kind || g.queue != e.queue || g.part == e.part)))

/-- RANGES (Table 13-5); `old` are the ranges of other loaded Moulds, with whose CAVE ranges this one's may overlap only where neither
grants W. -/
def rangesOk (b bs : List Byte) (old : List Range) : Bool :=
  let l := readRanges bs
  let own := imSect b 0xFFFF 3
  bs.length % 24 == 0 &&
  (partsOf (imPmask b)).all (fun p => decide ((l.filter (fun g => g.part == p)).length ≤ 256)) &&
  l.all (fun g =>
    imHas b g.part && (g.r || g.w) && decide (g.first ≤ g.last) &&
    (match g.kind with
     | 1 => decide (g.last ≤ 0xFFFFF)
     | 2 => decide (g.last < 0x180000000) &&
       (List.range (g.last / 0x800000 + 1 - g.first / 0x800000)).all (fun i => fld own (g.first / 0x800000 + i) 1 == g.part)
     | 3 => decide (g.last < 768000000000) &&
       (l ++ old).all (fun h => h.kind != 3 || h.part == g.part || decide (h.last < g.first ∨ g.last < h.first) || !(g.w || h.w))
     | _ => false))

/-- CONFIG: CORE_CFG and MX_CFG of every core. -/
def configOk (b bs : List Byte) (self : Nat) : Bool :=
  bs.length == 6144 &&
  (chunks 8 bs).zipIdx.all (fun e =>
    let c := fld e.1 0 4
    let x := fld e.1 4 4
    if imHas b (imPartOf b self e.2) then bits c 31 13 == 0 && decide (10 ≤ bits c 12 8) && decide (x < 4)
    else c == 0 && x == 0)

/-- The records of LOCAL. -/
def imLocals (b : List Byte) (self : Nat) : Option (List (Nat × Nat × List Byte)) :=
  let bs := imSect b self 16
  readLocals bs.length bs
def localsOk (b : List Byte) (self : Nat) : Bool :=
  match imLocals b self with
  | none => false
  | some l => l.all (fun r => decide (r.1 < 768 ∧ r.2.1 + r.2.2.length ≤ 0x100000) && imHas b (imPartOf b self r.1))

/-- Do n bytes from a lie in slices a partition owns? -/
def inOwned (own : List Byte) (p a n : Nat) : Bool :=
  decide (a + n ≤ 0x180000000) &&
  (List.range ((a + n - 1) / 0x800000 + 1 - a / 0x800000)).all (fun i => fld own (a / 0x800000 + i) 1 == p)

/-- The serving header: its ranges (R306), and the plan and output buffers in slices of the partition (R314). -/
def servingOk (b : List Byte) (self : Nat) : Bool :=
  let low := lowPart (imPmask b)
  let h := localBytes ((imLocals b self).getD []) (imLowCore b self low) 64
  serveOk h &&
  (match readServe h with
   | none => true
   | some v =>
     let own := imSect b 0xFFFF 3
     inOwned own low v.planAddr (2 * up128 (64 + 8 * v.rows)) &&
     (self != 0 || inOwned own low v.outAddr (2 * up128 (64 + 16 * v.rows))))

/-- The lock-step partner of this member: LS_PARTNER, and on that member itself the member it expects behind LS_LINK
(R235, log entry 36). -/
def lsPartner (ms : List Member) (nbrs : List Nbr) (self : Nat) (t : Timing) : Option Nat :=
  if t.lsPartner ≠ self then some t.lsPartner
  else (nbrs[9 * self + t.lsLink]?).bind (fun n => selfIn ms n.serial)

/-- TIMING (Table 13-6). The partner's board is asked for where the comparison is on: the common section serves members of every
board (log entry 36). -/
def timingOk (b bs : List Byte) (self : Nat) : Bool :=
  let l := readTiming bs
  let ms := imMembers b
  bs.length % 64 == 0 && sameSet (l.map (fun t => t.part)) (partsOf (imPmask b)) &&
  l.all (fun t =>
    decide (t.lag ≤ 8 ∧ t.lsLink ≤ 6 ∧ t.lsPartner < ms.length) &&
    (!t.lockstep ||
      ((match lsPartner ms (readNbrs (imSect b self 9)) self t with
        | none => false
        | some x => decide (x < ms.length ∧ x ≠ self) && (ms[x]?).map (fun m => m.board) == (ms[self]?).map (fun m => m.board)))))

/-- DEADLINES: every image, whatever its EN bit. -/
def deadlinesOk (b bs : List Byte) : Bool :=
  bs.length % 24 == 0 &&
  (chunks 24 bs).all (fun e =>
    let c := fld e 8 8
    let t := fld e 16 8
    imHas b (fld e 0 1) && decide (fld e 1 1 < 64) && zeroFld e 2 6 && bits c 61 60 != 3 && bits c 59 52 != 0 &&
    decide (bits c 51 44 < bits c 59 52) && bits c 31 0 != 0 && bits c 43 32 == 0 && bits t 63 58 == 0 &&
    (bits c 61 60 != 1 || decide (bits t 56 47 < 768)))

def distOk (b bs : List Byte) : Bool :=
  let n := imDevices b
  let l := readDist bs
  bs.length == 8 * n && sameSet (l.map (fun e => e.1)) (List.range n) &&
  l.zipIdx.all (fun e => if e.2 + 1 = n then e.1.2 == 0 else decide (4 ≤ e.1.2 ∧ e.1.2 ≤ 12))

/-! ### PROGRAM_INVALID -/

/-- Library words as numbers. -/
def imLib (b : List Byte) : List Nat := (chunks 8 (imSect b 0xFFFF 15)).map (fun e => fld e 0 8)
def imProgs (b : List Byte) (self : Nat) : Option (List ProgRec) :=
  let bs := imSect b self 14
  readProgs bs.length bs
/-- CORE_CFG.DQDIR and the like, as CONFIG gives them. -/
def imCfg (b : List Byte) (self k : Nat) : Nat × Nat := (fld (imSect b self 13) (8 * k) 4, fld (imSect b self 13) (8 * k + 4) 4)

def progsOk (b : List Byte) (self : Nat) : Bool :=
  let lib := imLib b
  let rep := (readFabric (imSect b 0xFFFF 7)).replica
  match imProgs b self with
  | none => false
  | some l => l.all (fun r =>
    decide (r.core < 768 ∧ r.stream ≤ 1 ∧ r.words.length ≤ 6144) && imHas b (imPartOf b self r.core) &&
    programOk (if r.stream = 0 then .A else .E) ((imCfg b self r.core).1 % 256) rep lib r.words)

/-- A relocation entry (Table 11-6). -/
structure Reloc where
  core : Nat
  kind : Nat
  off : Nat
  arg : Nat
  spare : Nat
  deriving DecidableEq, Repr
def readReloc (bs : List Byte) : List Reloc :=
  (chunks 16 bs).map (fun e => ⟨fld e 0 2, fld e 2 1, fld e 4 4, fld e 8 4, fld e 3 1 + fld e 12 4⟩)
/-- Bytes of the patched field. -/
def Reloc.size (r : Reloc) : Nat := if r.kind = 1 then 5 else 2

/-- The channel that firmware opened for a logical channel of a partition (R176, R214). -/
def Dev.logicalChan (d : Dev) (p n : Nat) : Option Chan := d.chans.find? (fun c => c.part == p && c.logical == n && !c.down)

/-- R215. -/
def Dev.relocOk (d : Dev) (b : List Byte) (self : Nat) : Bool :=
  let bs := imSect b self 17
  let ms := imMembers b
  bs.length % 16 == 0 &&
  (readReloc bs).all (fun r =>
    decide (1 ≤ r.kind ∧ r.kind ≤ 3) && r.spare == 0 && decide (r.core < 768) && imHas b (imPartOf b self r.core) &&
    decide (r.off + r.size ≤ 0x100000) &&
    (match r.kind with
     | 1 => decide (r.arg < ms.length) && (ms[r.arg]?).map (fun m => m.board) == (ms[self]?).map (fun m => m.board)
     | 2 => r.arg == 0
     | _ => (d.logicalChan (imPartOf b self r.core) r.arg).isSome))

/-- Cycles of a tick at each step code (Table 12-1). -/
def cyclesPerTick (code : Nat) : Nat := [176, 160, 144, 128, 112, 88, 44].getD code 176
/-- R219 at FMIN. -/
def periodOk (b : List Byte) : Bool :=
  let cs := readClock (imSect b 0xFFFF 10)
  (imTiming b).all (fun t => decide (t.cycles ≤ t.period * cyclesPerTick ((cs.find? (fun c => c.part == t.part)).elim 0 (fun c => c.fmin))))

/-! ### The whole check (R248) -/

/-- A failed check: the load status and the directory index of the section, 0xFF for none (PT_LOAD.SECTION). -/
abbrev LoadFail := Nat × Nat

/-- The first failed check of a list of (passes, failure). -/
def firstFail : List (Bool × LoadFail) → Option LoadFail
  | [] => none
  | (ok, f) :: r => if ok then firstFail r else some f

/-- This device's index: its serial in MEMBERS, or the index a substitution gave it (R245, R288, R289). -/
def Dev.imSelf (d : Dev) (b : List Byte) : Option Nat := (selfIn (imMembers b) d.serial.toNat).or d.joinAs

/-- Steps 1 to 3. -/
def Dev.imEarly (d : Dev) (b : List Byte) : Option LoadFail :=
  firstFail [
    (decide (imLength b ≤ 536870912), (ldTooLarge, 0xFF)),
    (headerOk b, (ldFormat, 0xFF)),
    ((dirBad b).isNone, (ldFormat, (dirBad b).getD 0xFF)),
    (dirOk b ((d.imSelf b).getD 0xFFFF), (ldFormat, 0xFF)),
    (decide (1 ≤ imDevices b ∧ imDevices b ≤ 4096), (ldDeviceCount, 0xFF))]

/-- Steps 4 to 10. `host` says that the image came from the host or the Cave to this device. -/
def Dev.imLate (d : Dev) (b : List Byte) (host : Bool) : Option LoadFail :=
  let self? := d.imSelf b
  let self := self?.getD 0xFFFF
  let at_ := fun t => (imSectIdx b self t).getD 0xFF
  let s := fun t => imSect b self t
  let table := fun (t : Nat) (f : List Byte → Bool) => ((s t).isEmpty && (imSectIdx b self t).isNone || f (s t), (ldTable, at_ t))
  firstFail [
    (fld b 0x20 32 == imDigest b, (ldDigest, 0xFF)),
    (d.sigOk b, (ldSignature, 0xFF)),
    (self?.isSome, (ldNotMember, at_ 1)),
    (!d.imBusy b self, (ldBusy, 0xFF)),
    (d.moulds.all (fun m => m.compat == imCompat b), (ldCompat, 0xFF)),
    (d.repairOk b self, (ldRepair, at_ 4)),
    (!imCompat b || decide (fld b 0x0E 1 ≤ 1), (ldTable, 0xFF)),
    table 1 (membersOk b), table 2 (partitionOk b), table 3 (slicesOk b), table 5 (routesOk b),
    table 6 (fun x => treesOk b x d.net.trees (readRoutes (s 5))),
    table 7 (fabricOk (imMembers b)),
    table 8 (fun x => fabricOk (imMembers b) x && ((s 7).isEmpty || headersAgree (readFabric (s 7)) (readFabric x))),
    table 9 (nbrsOk b), table 10 (clockOk b), table 11 (fun x => syncOk b x self), table 12 (fun x => rangesOk b x (d.moulds.flatMap (fun m => m.ranges))),
    table 13 (fun x => configOk b x self),
    (localsOk b self && servingOk b self, (ldTable, at_ 16)),
    table 18 (fun x => timingOk b x self), table 19 (deadlinesOk b), table 20 (distOk b),
    (!host || ((imDist b)[0]?).any (fun e => e.1 == self), (ldTable, at_ 20)),
    (progsOk b self, (ldProgram, at_ 14)),
    (libraryOk (imLib b), (ldProgram, at_ 15)),
    (d.relocOk b self, (ldProgram, at_ 17)),
    (periodOk b, (ldProgram, at_ 18))]

end Sys2Proof.Machine
end

