-- ==== Sys2Proof/Machine/Unload.lean ====
section
/-! DEFINITION. PT_LOAD, admission masks, and the end of a Mould or of a load (R37, R247, R249, R253). -/

namespace Sys2Proof.Machine

/-! ### PT_LOAD (Table 13-7, Table 13-8) -/

/-- PT_LOAD from its fields. -/
def loadReg (member sect status phase : Nat) : BitVec 64 :=
  BitVec.ofNat 64 (member * 2 ^ 48 + sect * 2 ^ 40 + status * 256 + phase)
/-- Set the phase of the partitions of a PMASK; the last status stays. -/
def Dev.setPhase (d : Dev) (pm phase : Nat) : Dev :=
  (partsOf pm).foldl (fun d p => d.updPart p (fun t => { t with load := BitVec.ofNat 64 (t.load.toNat / 8 * 8 + phase) })) d
/-- Set everything. -/
def Dev.setLoad (d : Dev) (pm member sect status phase : Nat) : Dev :=
  (partsOf pm).foldl (fun d p => d.updPart p (fun t => { t with load := loadReg member sect status phase })) d

/-! ### Admission masks (R37) -/

/-- Add tag p to the mask of one input. -/
def addTag (p : Nat) (m : SMap (BitVec 16)) (e : Nat × Nat) : SMap (BitVec 16) :=
  let k := 6 * e.1 + e.2
  up m k (lk (0 : BitVec 16) m k ||| BitVec.ofNat 16 (2 ^ p))

/-- The boundary inputs of a position (R37). -/
def boundaryInputs (pos : Nat) : List (Nat × Nat) :=
  ([1, 2, 3, 4].filter (fun i => (neighbour pos i).any (fun n => crosses n pos))).map (fun i => (pos, i))

/-- The masks that the partition map and the declared routes give: an input admits the tag of its own region and that of every
partition with a route through it. -/
def Dev.rebuildMasks (d : Dev) : Dev :=
  let own := (List.range 832).foldl (fun (m : SMap (BitVec 16)) pos =>
    let p := d.partPos pos
    if p < 16 then (boundaryInputs pos).foldl (addTag p) m else m) []
  let all := d.net.routes.foldl (fun (m : SMap (BitVec 16)) t =>
    (routeInputs (positionsOf (d.regionsOf t.part)) t).foldl (addTag t.part) m) own
  { d with net := { d.net with masks := all } }

/-! ### Addresses and positions (R139) -/

/-- Window bytes of slice j. -/
def slcBase (j : Nat) : Nat := 0x800000 * j
/-- Where the model keeps the bytes of a position that no address reaches. -/
def spareBase (pos : Nat) : Nat := 2 ^ 35 + 2 ^ 24 * pos

/-- The ranges of a position under the map in force: slice, local store, program stores, as (first address, length). -/
def Dev.homes (d : Dev) (pos : Nat) : List (Nat × Nat) :=
  match d.coreAt pos with
  | some k => [(slcBase k, 0x800000), (lsBase k, 0x100000), (progBase k .A, 0x20000)]
  | none => [(spareBase pos, 0x800000), (spareBase pos + 0x800000, 0x100000), (spareBase pos + 0x900000, 0x20000)]

/-- The ranges that take other addresses when the map in force goes from that of `d0` to that of `d`: bytes stay where they are. -/
def Dev.moves (d0 d : Dev) : List (Nat × Nat × Nat) :=
  if (List.range 32).all (fun x => d0.good x == d.good x) then []
  else
    (List.range 832).flatMap (fun pos =>
      ((d0.homes pos).zip (d.homes pos)).filterMap (fun e =>
        if e.1.1 = e.2.1 then none else some (e.1.1, e.1.1 + e.1.2 - 1, e.2.1)))

/-- The memory change of those moves. -/
def moveOps (l : List (Nat × Nat × Nat)) : List MemOp := if l.isEmpty then [] else [.move l]

/-- The map in force is now that of `d`, after that of `d0`: words with check errors move with their bytes. -/
def Dev.remapped (d d0 : Dev) : Dev × List MemOp :=
  let l := d0.moves d
  ({ d with net := { d.net with ce := d.net.ce.map (movedTo l), ue := d.net.ue.map (movedTo l) } }, moveOps l)

/-! ### The end of a load in progress -/

/-- A port that carried an offer holds class LOAD again unless it is admitted (R273). -/
def Dev.endOffer (d : Dev) (port : Option Nat) : Dev :=
  match port with
  | none => d
  | some u => (d.updPort u (fun x => { x with offer := false })).settled d u false

/-- The load of a PMASK ends with a status: its partitions return to phase 0, its requester is told. -/
def Dev.endLoad (d : Dev) (l : Load) (member sect status : Nat) : Dev :=
  let d := { d with loads := d.loads.filter (fun (x : Load) => x.pmask ≠ l.pmask)
                    offers := d.offers.filter (fun (o : Offer) => o.pmask ≠ l.pmask) }
  ((d.setLoad l.pmask member sect status 0).endOffer l.port).completeOpt l.req (stLoad status) 0

/-! ### Unloading (R253) -/

/-- Local stores of the cores and slices of a Mould: the ranges that are cleared. -/
def Dev.ownRanges (d : Dev) (m : Mould) : List (Nat × Nat) :=
  ((List.range 768).filter (fun k => m.has (d.partOf k))).map (fun k => (lsBase k, lsBase k + 0xFFFFF)) ++
    ((List.range 768).filter (fun j => m.has (lk 16 d.net.slcOwner j))).map (fun j => (slcBase j, slcBase j + 0x7FFFFF))

/-- Is an address in one of the ranges? -/
def inRanges (l : List (Nat × Nat)) (a : Nat) : Bool := l.any (fun r => decide (r.1 ≤ a ∧ a ≤ r.2))

/-- Commands that wait for an event of a Mould that goes away. -/
def Dev.endWaiting (d : Dev) (m : Mould) : Dev :=
  let d := d.completeOpt (m.switching.map (fun r => (r.fn, r.cid))) stRefused 0
  let d := match m.hold with
    | some h => if h.host then d.complete h.fn h.cid stRefused 0 else d
    | none => d
  let d := d.completeOpt (m.failover.bind (fun f => f.req)) stRefused 0
  d.completeOpt (m.wload.bind (fun w => w.req)) (stWeight 9) 0

/-- Take a partition's flits off both sides of every router and unit: the tables they were routed by go (R39, R253). -/
def Net.flush (n : Net) (gone : Flit → Bool) : Net :=
  let cut := fun (m : SMap (List Flit)) => m.map (fun (e : Nat × List Flit) => (e.1, e.2.filter (fun (f : Flit) => !gone f)))
  let lost := (n.inj ++ n.injM ++ n.injP ++ n.bufs).flatMap (fun (e : Nat × List Flit) => e.2.filter gone)
  lost.foldl Net.recGone
    { n with bufs := cut n.bufs, inj := cut n.inj, injM := cut n.injM, injP := cut n.injP, eject := cut n.eject, unitIn := cut n.unitIn }

/-- Unload a Mould with a last load status, none when it stays. Its sequencers stop and stand IDLE, its routes, trees, masks and
queues go, its local stores and slices are written with 0, its partitions return to phase 0. -/
def Dev.unloadMould (d : Dev) (m : Mould) (status : Option (Nat × Nat)) : Dev × List MemOp :=
  let min0 := d.rindMin
  let max0 := d.revMax
  let rs := d.ownRanges m
  let inPm := fun p => m.has p
  let kill := fun k => m.has (d.partOf k)
  let d0 := d
  let d := (d.failRequests (lowPart m.pmask)).endWaiting m
  let d := d.completeOpt m.req (stLoad ((status.map (fun s => s.1)).getD 18)) 0
  let n := d.net.flush (fun f => inPm f.ptag)
  let wt := (m.wload.filter (fun w => w.state ≠ 4)).map (fun w => BitVec.ofNat 64 (w.repairs.toNat * 65536 + 9 * 256 + 5))
  let d := { d with
    cores := d.cores.map (fun (e : Nat × Core) => (e.1, if kill e.1 then e.2.afterLoad [] else e.2))
    moulds := d.moulds.filter (fun (x : Mould) => x.pmask ≠ m.pmask)
    offers := d.offers.filter (fun (o : Offer) => o.pmask ≠ m.pmask)
    caveQ := d.caveQ.map (fun (e : Nat × List ReqRec) => (e.1, e.2.filter (fun (r : ReqRec) => !inPm r.part)))
    hostQ := d.hostQ.map (fun (e : Nat × List ReqRec) => (e.1, e.2.filter (fun (r : ReqRec) => !inPm r.part)))
    caveSrv := d.caveSrv.filter (fun (e : Nat × Option Serving) => !e.2.any (fun (x : Serving) => inPm x.rec_.part))
    hostSrv := d.hostSrv.filter (fun (e : Nat × Option Serving) => !e.2.any (fun (x : Serving) => inPm x.rec_.part))
    errs := { d.errs with stepErrs := d.errs.stepErrs.filter (fun (e : Nat × Nat) => !inPm e.1) }
    wtLast := match wt with
      | some v => up d.wtLast (lowPart m.pmask) v
      | none => del d.wtLast (lowPart m.pmask)
    clk := { d.clk with sleep := d.clk.sleep.filter (fun (e : Nat × Sleep) => !inPm (lk 16 n.regOwner e.1))
                        wakeBegan := d.clk.wakeBegan.filter (fun (e : Nat × Nat) => !inPm e.1)
                        wakeStep := d.clk.wakeStep.filter (fun (e : Nat × Nat) => !inPm e.1) }
    net := { n with
      trees := n.trees.filter (fun (e : TreeEntry) => !inPm e.ptag)
      nodes := n.nodes.filter (fun (x : PressNode) => !n.trees.any (fun e => e.pos == x.pos && e.tree == x.tree && inPm e.ptag))
      routes := n.routes.filter (fun (t : Route) => !inPm t.part)
      regOwner := n.regOwner.filter (fun (e : Nat × Nat) => !inPm e.2)
      slcOwner := n.slcOwner.filter (fun (e : Nat × Nat) => !inPm e.2)
      slcQ := n.slcQ.map (fun (e : Nat × List SlcAcc) => (e.1, e.2.filter (fun (x : SlcAcc) => !inPm x.ptag)))
      repair := if d.moulds.all (fun x => x.pmask == m.pmask) then [] else n.repair
      ce := n.ce.filter (fun w => !inRanges rs w)
      ue := n.ue.filter (fun w => !inRanges rs w) } }
  let d := (partsOf m.pmask).foldl (fun d p => d.updPart p (fun t =>
    { t with st := .idle, mdig := [], next := 0, missed := [], late := [], credits := [], snaps := [], lock := none,
             atBreak := false, stepEnd := false, dead := false, dlHalt := none, restartAt := none })) d
  let d := match status with
    | some (st, mem) => d.setLoad m.pmask mem 0xFF st 0
    | none => d.setPhase m.pmask 0
  let r := d.remapped d0
  ((r.1.rebuildMasks.recheckPorts min0 max0).teardownIdle, rs.map (fun r => MemOp.clr r.1 r.2) ++ r.2)

end Sys2Proof.Machine
end

