-- ==== Sys2Proof/Machine/MouldLoad.lean ====
section
/-! DEFINITION. Loading, starting and unloading a Mould (R213, R214, R231, R239, R246 to R254, R273, R289, R396 to R398). -/

namespace Sys2Proof.Machine

/-! ### Requests (R246, R252) -/

/-- Is T0 late (R219)? 0 defers the start. -/
def Dev.t0Late (d : Dev) (t0 : Nat) : Bool := t0 != 0 && decide (t0 < d.turn.now.toNat + 64)
/-- Is a partition of a PMASK not in phase 0 (R252)? -/
def Dev.notFree (d : Dev) (pm : Nat) : Bool :=
  (partsOf pm).any (fun p => d.moulds.any (fun m => bit m.pmask p) || d.loads.any (fun l => bit l.pmask p))

/-- The Cave's user capacity (R300). -/
def caveSize : Nat := 768000000000

/-- A load request with the header of its image: none when the load begins, or the status of its refusal and whether that is recorded
in PT_LOAD: a failed check of the header is, a request turned away is not. -/
def Dev.askLoad (d : Dev) (hd : List Byte) (len : Nat) : Option (Nat × Bool) :=
  if 536870912 < imLength hd then some (ldTooLarge, true)
  else if imPmask hd = 0 ∨ imLength hd ≠ len then some (ldFormat, true)
  else if d.notFree (imPmask hd) then some (ldBusy, false)
  else none

/-- Phase 1 begins (Table 13-7). -/
def Dev.beginLoad (d : Dev) (l : Load) : Dev :=
  ({ d with loads := d.loads ++ [l], offers := d.offers.filter (fun (o : Offer) => o.pmask ≠ l.pmask) }).setPhase l.pmask 1

/-- A refusal by the header alone: the status of a failed check goes into PT_LOAD of the partitions that are free. -/
def Dev.headerRefused (d : Dev) (hd : List Byte) (st : Nat) (kept : Bool) : Dev :=
  if kept then ((partsOf (imPmask hd)).filter (fun p => !d.notFree (2 ^ p))).foldl (fun d p => d.setLoad (2 ^ p) 0xFFFF 0xFF st 0) d
  else d

/-- LOAD_MOULD for an entry whose turn has come; `data` is what host memory returned of the image's header. -/
def Dev.loadMould (d : Dev) (cave : Memory) (f : Nat) (e : BitVec 512) (data : Option (List Byte)) : Dev :=
  let no := fun (d : Dev) st => d.complete f (cCid e) st 0
  let fromCave := bit (cFlags e) 0
  if 4 ≤ cFlags e ∨ (fromCave ∧ caveSize < cAddr e + cLen e) then no d stInvalid
  else
    match (if fromCave then some (cave.bytes (cAddr e) 64) else data) with
    | none => no d stHostError
    | some hd =>
      match d.askLoad hd (cLen e) with
      | some (st, kept) => no (d.headerRefused hd st kept) (stLoad st)
      | none =>
        d.beginLoad { pmask := imPmask hd, fpid := imFpid hd, len := cLen e, t0 := cArg0 e, replay := bit (cFlags e) 1, port := none,
                      req := some (f, cCid e), caveOff := if fromCave then some (cAddr e) else none, image := none,
                      lastByte := 0, results := [] }

/-- Hold a command until the Cave or the key table is ready (Table 22-2). -/
def Dev.holdCmd (d : Dev) (f : Nat) (e : BitVec 512) (data : Option (List Byte)) : Dev :=
  { d with crm := { d.crm with waitCmds := d.crm.waitCmds ++ [(f, e, data)] } }

/-- Is a load request held? Load, start and unload requests that come after it wait their turn behind it (R246). -/
def Dev.loadHeld (d : Dev) : Bool := d.crm.waitCmds.any (fun (c : Nat × BitVec 512 × Option (List Byte)) => cOpc c.2.1 == 0x10)

/-- LOAD_MOULD (R246, R252, R396): T0 is checked as the request arrives; from the Cave it waits until the Cave is ready. -/
def execLoadMould (f : FnId) (e : BitVec 512) (data : Option (List Byte)) (s : State) : Host.Outcome State Fault Refusal :=
  liftW (fun _ cave d => d.takeCmd f 0x10 e (fun d =>
    if cFlags e < 4 ∧ d.t0Late (cArg0 e) then (d.complete f (cCid e) (stLoad ldT0Late) 0, [])
    else if bit (cFlags e) 0 && !d.flash.ready || d.loadHeld then (d.holdCmd f e data, [])
    else (d.loadMould cave f e data, []))) s

/-! ### Installation (R213, R214, R248) -/

/-- The bytes a relocation entry writes over a local-store image held in `m` (R214). -/
def Dev.relocOps (d : Dev) (b : List Byte) (self : Nat) (m : Memory) (r : Reloc) : List MemOp :=
  let a := lsBase r.core + r.off
  let old := m.num a r.size
  let new :=
    match r.kind with
    | 1 => old % 2 ^ 34 + ((imMembers b)[r.arg]?).elim 0 (fun x => x.slot) % 8 * 2 ^ 34 + old / 2 ^ 37 * 2 ^ 37
    | 2 => old / 2 ^ 12 * 2 ^ 12 + imFpid b
    | _ => (d.logicalChan (imPartOf b self r.core) r.arg).elim old (fun c => c.chan)
  wrBytes a (natLe new r.size)

/-- The memory changes of R213 for the cores of the image's partitions: program stores with the library, local images, relocations. -/
def Dev.installOps (d : Dev) (b : List Byte) (self : Nat) : List MemOp :=
  let ks := (List.range 768).filter (fun k => imHas b (imPartOf b self k))
  let lib := imSect b 0xFFFF 15
  let progs := (imProgs b self).getD []
  let ws := fun k (q : SeqId) => wrBytes (progBase k q)
    ((progs.filter (fun r => r.core == k && (r.stream == 0) == decide (q = .A))).getLast?.elim (natLe 0x0380000000000000 8)
      (fun r => r.words.flatMap (fun w => natLe w 8)))
  let stores := ks.flatMap (fun k => [SeqId.A, SeqId.E].flatMap (fun q =>
    .clr (progBase k q) (progBase k q + 0xFFFF) :: (ws k q ++ wrBytes (progBase k q + 8 * 6144) lib)))
  let locals := (ks.map (fun k => MemOp.clr (lsBase k) (lsBase k + 0xFFFFF))) ++
    ((imLocals b self).getD []).flatMap (fun r => wrBytes (lsBase r.1 + r.2.1) r.2.2)
  let m := memAll [] locals
  let rel := (readReloc (imSect b self 17)).foldl (fun (a : Memory × List MemOp) r =>
    let o := d.relocOps b self a.1 r
    (memAll a.1 o, a.2 ++ o)) (m, [])
  stores ++ locals ++ rel.2

/-- CORE_CFG and MX_CFG as CONFIG gives them, the state of R58, R87, R125 and R137, and the quarters of R135 at 0. -/
def Core.install (c : Core) (cfg mx : Nat) (syn : SMap (BitVec 32)) : Core :=
  let x := c.afterLoad syn
  { x with wdogExp := BitVec.ofNat 5 (bits cfg 12 8), dqdir := BitVec.ofNat 8 (bits cfg 7 0)
           mx := { x.mx with ckEn := bit mx 0, cgDis := bit mx 1 }
           vec := { x.vec with tb := [] } }

/-- The DL_CFG and DL_TGT images of a partition (R231); with REPLAY every POLICY is REPORT (R239). -/
def deadlineImages (bs : List Byte) (p : Nat) (replay : Bool) : SMap (BitVec 64) × SMap (BitVec 64) :=
  (chunks 24 bs).foldl (fun (a : SMap (BitVec 64) × SMap (BitVec 64)) e =>
    if fld e 0 1 ≠ p then a
    else
      let c := fld e 8 8
      let c := if replay ∧ bit c 62 then c - 2 ^ 62 else c
      (up a.1 (fld e 1 1) (BitVec.ofNat 64 c), up a.2 (fld e 1 1) (BitVec.ofNat 64 (fld e 16 8)))) ([], [])

/-- The time block of partition p of a Mould that has just been installed (R219, R231, R235, R239). PT_BREAK, PT_HOLD_TICKS and the
sticky bits stay. -/
def PartTime.install (t : PartTime) (m : Mould) (b : List Byte) (p : Nat) : PartTime :=
  let e := m.timing.find? (fun x => x.part == p)
  let dl := deadlineImages (imSect b 0xFFFF 19) p m.replay
  { t with step := 0, t0 := BitVec.ofNat 64 m.t0, period := BitVec.ofNat 32 (e.elim 0 (fun x => x.period)),
           cycles := BitVec.ofNat 32 (e.elim 0 (fun x => x.cycles)), st := .idle,
           mdig := (List.range 4).map (fun n => (n, BitVec.ofNat 64 (m.digest / 2 ^ (64 * n)))), dlCfg := dl.1, dlTgt := dl.2,
           next := 0, missed := [], late := [], credits := [], snaps := [], atBreak := false, stepEnd := false, dead := false,
           dlHalt := none, restartAt := none, earliest := 0,
           lock := e.bind (fun x =>
             if x.lockstep ∧ !m.replay then
               (lsPartner m.members (readNbrs (imSect b m.self 9)) m.self x).map (fun q =>
                 { partner := q, port := x.lsLink + 4, lag := x.lag, wait := x.lsWait, own := [], theirs := [], compared := [],
                   diverged := false })
             else none) }

/-- Install the Mould of a load that passed every check; phase 3 begins. -/
def Dev.install (d : Dev) (l : Load) (b : List Byte) (self : Nat) : Dev × List MemOp :=
  let m := imMould b self ((imLocals b self).getD []) (imLowCore b self (lowPart (imPmask b)))
  let m := { m with owner := l.req.map (fun (r : Nat × Nat) => r.1), fromNbr := l.port.isSome, t0 := l.t0, replay := l.replay, results := l.results, lastByte := l.lastByte,
                    req := l.req, members := m.members.zipIdx.map (fun (e : Member × Nat) =>
                      if e.2 = self then { e.1 with serial := d.serial.toNat } else e.1) }
  let n := d.net
  let ops := d.installOps b self
  let d0 := d
  let d := { d with
    loads := d.loads.filter (fun (x : Load) => x.pmask ≠ l.pmask)
    moulds := d.moulds ++ [m]
    joinAs := none
    net := { n with
      routes := n.routes ++ readRoutes (imSect b 0xFFFF 5)
      trees := n.trees ++ readTrees (imSect b 0xFFFF 6)
      regOwner := (imRegions b).foldl (fun (a : SMap Nat) (e : Nat × Nat) => up a e.1 e.2) n.regOwner
      slcOwner := (imSlices b).foldl (fun (a : SMap Nat) (e : Nat × Nat) => up a e.1 e.2) n.slcOwner
      repair := (readRepair (imSect b self 4) self).zipIdx.map (fun (e : Nat × Nat) => (e.2, BitVec.ofNat 26 e.1)) } }
  let (d, moved) := d.remapped d0
  let ks := (List.range 768).filter (fun k => m.has (d.partOf k))
  let d := ks.foldl (fun d k =>
    let c := imCfg b self k
    d.updCore k (fun x => x.install c.1 c.2 (m.initSyn k))) d
  let d := (partsOf m.pmask).foldl (fun d p => d.updPart p (fun t => t.install m b p)) d
  let rs := ks.map (fun k => (lsBase k, lsBase k + 0xFFFFF))
  let d := { d with net := { d.net with ce := d.net.ce.filter (fun w => !inRanges rs w), ue := d.net.ue.filter (fun w => !inRanges rs w) } }
  (((d.coresToStart m).rebuildMasks.setPhase m.pmask 3).endOffer l.port, moved ++ ops)

/-! ### Results and commit (R249) -/

/-- COMMIT taken: the next phase, the ports' rules, the copy of a Mould with REPLICA (R273, R289). The load of one that needs no
weights is complete at READY. -/
def Dev.commitMould (d : Dev) (m : Mould) : Dev :=
  let min0 := d.rindMin
  let max0 := d.revMax
  let ph := if m.weights then 4 else 5
  let d := d.updMould m.pmask (fun m => { m with phase := ph, results := [], req := if ph = 5 then none else m.req })
  let d := if ph = 5 then d.setLoad m.pmask 0xFFFF 0xFF ldOk 5 else d.setPhase m.pmask 4
  let d := d.passOn m 3 0
  let d := (d.recheckPorts min0 max0)
  let d := (List.range 9).foldl (fun d u => d.portSend u) d
  let d := if m.replica then d.nvAsk needCave (.mouldCopy m.digest m.image 0) else d
  if ph = 5 then d.completeOpt m.req (stLoad ldOk) 0 else d

/-- End a load that waits or is installed and not started, without a result of its own. -/
def Dev.abandonFp (d : Dev) (fp status member : Nat) : Dev × List MemOp :=
  match d.loads.find? (fun l => l.fpid == fp) with
  | some l => (d.endLoad l member 0xFF status, [])
  | none =>
    match d.mouldFp fp with
    | some m => if m.phase < 6 then d.unloadMould m (some (status, member)) else (d, [])
    | none => (d, [])

/-- Members of a Mould or a load, for the messages that go to all. -/
def Dev.tellAll (d : Dev) (fp n self mtype arg : Nat) : Dev :=
  ((List.range n).filter (fun i => i ≠ self)).foldl (fun d i => d.sendMgmt fp i mtype arg) d

/-- Member 0 holds a member's acceptance; with all of them it commits. -/
def Dev.accepted (d : Dev) (m : Mould) (i : Nat) : Dev :=
  let l := if m.results.contains i then m.results else i :: m.results
  let d := d.updMould m.pmask (fun m => { m with results := l })
  if (List.range m.devices).all (fun j => l.contains j) then d.commitMould m else d

/-- The result of this member's own checks: to itself as member 0, or to member 0. -/
def Dev.ownAccept (d : Dev) (m : Mould) : Dev :=
  if m.self = 0 then d.accepted m 0 else d.sendMgmt m.fpid 0 2 ldOk

/-- A failed check: the load ends here with its own status, its bytes are passed on all the same (R249); member 0 abandons it everywhere,
another member tells member 0. -/
def Dev.refuseLoad (d : Dev) (l : Load) (b : List Byte) (r : LoadFail) : Dev :=
  let d := { d.endLoad l 0xFFFF r.2 r.1 with offers := d.offers }
  match d.imSelf b with
  | some 0 => d.tellAll l.fpid (min 4096 (imDevices b)) 0 4 0
  | some _ => d.sendMgmt l.fpid 0 2 r.1
  | none => d.sendMgmt l.fpid 0 2 r.1

/-- Check a load whose image is whole, as far as start-up allows (R398), and install it when every check passes. -/
def Dev.checkLoad (d : Dev) (l : Load) : Dev × List MemOp :=
  match l.image with
  | none => (d, [])
  | some b =>
    match d.imEarly b with
    | some r => (d.refuseLoad l b r, [])
    | none =>
      if !d.crm.keysLoaded || !d.crm.bistDone then (d, [])
      else
        match d.imLate b l.port.isNone, d.imSelf b with
        | some r, _ => (d.refuseLoad l b r, [])
        | none, none => (d, [])
        | none, some self =>
          let (d, w) := d.install l b self
          match d.moulds.find? (fun m => m.pmask == l.pmask) with
          | some m => (d.ownAccept m, w)
          | none => (d, w)

/-- The offer to the next member in distribution order, made whatever the own checks find (R249, R250). -/
def Dev.offerOn (d : Dev) (l : Load) (b : List Byte) : Dev :=
  match d.imSelf b with
  | none => d
  | some self =>
    match (imDist b).dropWhile (fun e => e.1 ≠ self) with
    | (_, u) :: (n, _) :: _ =>
      if u < 4 ∨ 12 < u then d
      else
        let now := d.turn.now.toNat
        let o : Offer := { pmask := l.pmask, fpid := l.fpid, port := u, to_ := n, refused := false, taken := false, tick := now,
                           began := now, t0 := l.t0, replay := l.replay, image := b }
        ({ d with offers := d.offers ++ [o] }).sendOffer o
    | _ => d

/-- MOULD_LAST_BYTE (R248 to R250): the load whose lowest partition is p holds its whole image; none says that the source failed. A
Cave source is read here. -/
def execMouldLastByte (p : PartId) (image : Option (List Byte)) (s : State) : Host.Outcome State Fault Refusal :=
  liftW (fun _ cave d =>
    match d.loads.find? (fun l => lowPart l.pmask == p.val && l.image.isNone) with
    | none => (d, [])
    | some l =>
      match image with
      | none => (d.refuseLoad l [] (ldSource, 0xFF), [])
      | some im =>
        let b := l.caveOff.elim im (fun o => cave.bytes o l.len)
        let l := { l with image := some b, lastByte := d.turn.now.toNat }
        let d := { d with loads := d.loads.map (fun (x : Load) => if x.pmask = l.pmask then l else x) }
        ((d.setPhase l.pmask 2).offerOn l b).checkLoad l) s

/-! ### Offers (R249, R250, R273, R396, R397) -/

/-- The header of a load request that a neighbour offers: `header` begins like the image. -/
def Dev.takeOffer (d : Dev) (u : Nat) (header : List Byte) (t0 : Nat) (replay : Bool) : Dev :=
  let l : Load := { pmask := imPmask header, fpid := imFpid header, len := imLength header, t0 := t0, replay := replay,
                    port := some u, req := none, caveOff := none, image := none, lastByte := 0, results := [] }
  ((d.beginLoad l).updPort u (fun x => { x with offer := true })).settled d u false

/-- The bytes of a verified shard, from the own slices or the own Cave. -/
def Dev.shardBytes (d : Dev) (mem cave : Memory) (x : Shard) : Dev × List Byte :=
  if x.cave then
    ({ d with flash := { d.flash with rdBytes := d.flash.rdBytes + BitVec.ofNat 64 x.len } }, cave.bytes x.target x.len)
  else d.winRead mem x.target x.len

/-- The image is flowing to a device that joins: the weights of the member whose place it takes follow (Table 15-4, step 4), each manifest
as shard 0xFFFFFFFF before its shards. -/
def Dev.sendShards (d : Dev) (mem cave : Memory) (m : Mould) (u : Nat) : Dev :=
  match (List.range m.devices).find? (fun i => m.linkTo i == some u) with
  | none => d
  | some i =>
    m.images.foldl (fun d w =>
      (w.shards.filter (fun x => x.ok && (x.member == i || x.alt == i))).foldl (fun d x =>
        let r := d.shardBytes mem cave x
        (r.1.emit (.shard i m.fpid x.id r.2)).sendBytes m.fpid i r.2) ((d.emit (.shard i m.fpid 0xFFFFFFFF w.mani)).sendBytes m.fpid i w.mani)) d

/-- MSG_MOULD_OFFER (R246, R249, R250, R252, R273, R396). An offer before FW_READY, behind a load request that is held, or through a port
that is not past the identity exchange is refused with NOT_ADMITTED; an ANSWER carries the status in `t0`: OK lets the bytes flow, any
other status but NOT_ADMITTED ends the passing on. -/
def execMsgMouldOffer (u : PortId) (h : MHdr) (header : List Byte) (t0 : Nat) (replay : Bool) (s : State) :
    Host.Outcome State Fault Refusal :=
  liftR (fun mem cave d =>
    let x := d.port u
    if h.answer then
      match d.offers.find? (fun o => o.fpid == h.fpid && o.port == u.val + 4) with
      | none => d
      | some o =>
        if o.taken then d else
        let rest := d.offers.filter (fun (y : Offer) => y ≠ o)
        if t0 = ldOk then
          let d := ({ d with offers := { o with refused := false, taken := true } :: rest }).emit (.loadByte u o.image.length)
          let d := d.transfer o.fpid 0 ((d.imSelf o.image).getD 0xFFFF) u o.to_ 2 o.image
          match d.mouldFp o.fpid with
          | some m => if m.phase = 6 then d.sendShards mem cave m u else d
          | none => d
        else if t0 = 0 then { d with offers := { o with refused := true } :: rest }
        else { d with offers := rest }
    else
      let say := fun (d : Dev) st => d.emit (.mgmt h.src 1 h.fpid h.seq st true)
      if !d.crm.fwReady || d.loadHeld || !(x.st == .notAdmitted || x.st == .admitted) then d.sendCtrl u none 4 0 1 []
      else
        match d.mgmtIn h true with
        | (false, d) => d
        | (true, d) =>
          match (if d.t0Late t0 then some (ldT0Late, false) else d.askLoad header (imLength header)) with
          | some (st, kept) => (say (d.headerRefused header st kept) st).sendMgmt h.fpid 0 2 st
          | none => say (d.takeOffer u header t0 replay) ldOk) s

/-- LOAD_TIMEOUT of a load or Mould on this device. -/
def Dev.timeoutOf (d : Dev) (pm : Nat) : Nat :=
  match d.moulds.find? (fun m => m.pmask == pm) with
  | some m => m.timeout
  | none =>
    ((d.loads.find? (fun l => l.pmask == pm)).bind (fun l => l.image)).elim
      ((d.offers.find? (fun o => o.pmask == pm)).elim 12500000 (fun o => imTimeout o.image)) imTimeout

/-- MOULD_OFFER_RETRY (R397): a refused offer is made again 10 ms after the last one, until LOAD_TIMEOUT passes. -/
def execMouldOfferRetry (p : PartId) (s : State) : Host.Outcome State Fault Refusal :=
  lift (fun d =>
    let now := d.turn.now.toNat
    match d.offers.find? (fun o => lowPart o.pmask == p.val && o.refused) with
    | none => d
    | some o =>
      if now < o.tick + 62500 ∨ o.began + d.timeoutOf o.pmask ≤ now then d
      else
        ({ d with offers := d.offers.map (fun (y : Offer) => if y = o then { y with refused := false, tick := now } else y) }).sendOffer o) s

/-! ### Messages of a load (R249, R251, R253) -/

/-- Is this device member 0 of a load or a Mould with this FPID, and how many members has it? -/
def Dev.leads (d : Dev) (fp : Nat) : Option Nat :=
  match d.loads.find? (fun l => l.fpid == fp) with
  | some l => l.image.bind (fun b => if d.imSelf b = some 0 then some (imDevices b) else none)
  | none => (d.mouldFp fp).bind (fun m => if m.self = 0 then some m.devices else none)

/-- End a load on every member, from this one. -/
def Dev.abandonAll (d : Dev) (fp n arg status member : Nat) : Dev × List MemOp :=
  let self := (d.mouldFp fp).elim 0 (fun m => m.self)
  (d.tellAll fp n self 4 arg).abandonFp fp status member

/-- MSG_LOAD_RESULT (R249, R251): member 0 collects. T0_LATE from a member in READY abandons the start. -/
def execMsgLoadResult (h : MHdr) (status : Nat) (s : State) : Host.Outcome State Fault Refusal :=
  liftW (fun _ _ d =>
    match d.mgmtIn h false with
    | (false, d) => (d, [])
    | (true, d) =>
      match d.loads.find? (fun l => l.fpid == h.fpid), d.mouldFp h.fpid with
      | some l, _ =>
        if status = ldOk then
          ({ d with loads := d.loads.map (fun (x : Load) =>
              if x.pmask = l.pmask ∧ !x.results.contains h.src then { x with results := h.src :: x.results } else x) }, [])
        else
          match d.leads h.fpid with
          | some n => d.abandonAll h.fpid n h.src ldMemberRefused h.src
          | none => (d.endLoad l h.src 0xFF ldMemberRefused, [])
      | none, some m =>
        if m.self ≠ 0 then (d, [])
        else if m.phase = 3 then
          if status = ldOk then (d.accepted m h.src, []) else d.abandonAll h.fpid m.devices h.src ldMemberRefused h.src
        else if m.phase = 5 ∧ status = ldT0Late then
          let d := (d.updMould m.pmask (fun m => { m with t0 := 0 })).tellAll m.fpid m.devices 0 6 0
          ((partsOf m.pmask).foldl (fun d p => d.updPart p (fun t => { t with t0 := 0 })) d, [])
        else (d, [])
      | none, none => (d, [])) s

/-- MSG_COMMIT (R249). -/
def execMsgCommit (h : MHdr) (s : State) : Host.Outcome State Fault Refusal :=
  onMsg1 h (fun d m => if m.phase = 3 then d.commitMould m else d) s

/-- The status an ABANDON carries (log entry 33). -/
def abandonCode (member : Nat) : Nat × Nat :=
  if member = 0xFFFF then (ldMemberTimeout, 0xFFFF) else if member = 0xFFFE then (ldStartLate, 0xFFFF) else (ldMemberRefused, member)

/-- MSG_ABANDON (R249): every member but the refusing one. -/
def execMsgAbandon (h : MHdr) (member : Nat) (s : State) : Host.Outcome State Fault Refusal :=
  liftW (fun _ _ d =>
    match d.mgmtIn h false with
    | (false, d) => (d, [])
    | (true, d) => d.abandonFp h.fpid (abandonCode member).1 (abandonCode member).2) s

/-- MSG_CANCELLED (R253): member 0 spreads it. -/
def execMsgCancelled (h : MHdr) (s : State) : Host.Outcome State Fault Refusal :=
  liftW (fun _ _ d =>
    match d.mgmtIn h false with
    | (false, d) => (d, [])
    | (true, d) =>
      if (d.mouldFp h.fpid).any (fun m => 5 ≤ m.phase) then (d, [])
      else
        let d := match d.leads h.fpid with
          | some n => d.tellAll h.fpid n 0 5 0
          | none => d
        d.abandonFp h.fpid ldCancelled 0xFFFF) s

/-- Boundary 0 is nominal at T0 (R251). -/
def Dev.setT0 (d : Dev) (m : Mould) (t0 : Nat) : Dev :=
  (partsOf m.pmask).foldl (fun d p => d.updPart p (fun t => { t with t0 := BitVec.ofNat 64 t0 }))
    (d.updMould m.pmask (fun m => { m with t0 := t0 }))

/-- MSG_START (R251): T0 = 0 says that the start is abandoned. -/
def execMsgStart (h : MHdr) (t0 : Nat) (s : State) : Host.Outcome State Fault Refusal :=
  onMsg1 h (fun d m =>
    if m.phase ≠ 5 then d
    else if t0 = 0 then d.setT0 m 0
    else if m.t0 ≠ 0 then d
    else if d.t0Late t0 then d.sendMgmt m.fpid 0 2 ldT0Late
    else (d.setT0 m t0).passOn m 6 t0) s

/-- START for an entry whose turn has come. -/
def Dev.startCmd (d : Dev) (f : Nat) (e : BitVec 512) : Dev × List MemOp :=
  d.onMould f e true true (fun d m =>
    if m.phase ≠ 5 ∨ m.t0 ≠ 0 then (d.complete f (cCid e) stInvalid 0, [])
    else if cArg0 e < d.turn.now.toNat + 64 then (d.complete f (cCid e) (stLoad ldT0Late) 0, [])
    else (((d.setT0 m (cArg0 e)).passOn m 6 (cArg0 e)).complete f (cCid e) stOk 0, []))

/-- START (R246, R251). -/
def execStart (f : FnId) (e : BitVec 512) (s : State) : Host.Outcome State Fault Refusal :=
  liftW (fun _ _ d => d.takeCmd f 0x11 e (fun d =>
    if d.loadHeld then (d.holdCmd f e none, []) else d.startCmd f e)) s

/-- MOULD_LOAD_TIMEOUT (R249, R250): at member 0 a result is missing LOAD_TIMEOUT after its last byte, or an offer stands refused that
long. -/
def execMouldLoadTimeout (p : PartId) (s : State) : Host.Outcome State Fault Refusal :=
  liftW (fun _ _ d =>
    let now := d.turn.now.toNat
    let stuck := d.offers.find? (fun o => lowPart o.pmask == p.val && o.refused && decide (o.began + d.timeoutOf o.pmask ≤ now))
    match d.loads.find? (fun l => lowPart l.pmask == p.val), d.mouldLow p with
    | some l, _ =>
      match l.image with
      | none => (d, [])
      | some b =>
        if stuck.isSome || (d.imSelf b == some 0 && decide (l.lastByte + imTimeout b ≤ now)) then
          d.abandonAll l.fpid (min 4096 (imDevices b)) 0xFFFF ldMemberTimeout 0xFFFF
        else (d, [])
    | none, some m =>
      if m.phase = 3 ∧ (stuck.isSome ∨ (m.self = 0 ∧ m.lastByte + m.timeout ≤ now)) then
        d.abandonAll m.fpid m.devices 0xFFFF ldMemberTimeout 0xFFFF
      else (d, [])
    | none, none => ({ d with offers := d.offers.filter (fun (o : Offer) => some o ≠ stuck) }, [])) s

/-- START_LATE (R251, R299): at tick T0 − 64 the load has not reached READY on this member. -/
def execStartLate (p : PartId) (s : State) : Host.Outcome State Fault Refusal :=
  liftW (fun _ _ d =>
    let now := d.turn.now.toNat
    match d.loads.find? (fun l => lowPart l.pmask == p.val), d.mouldLow p with
    | some l, _ =>
      if l.t0 = 0 ∨ now + 64 < l.t0 then (d, [])
      else
        let n := l.image.elim 1 (fun b => min 4096 (imDevices b))
        d.abandonAll l.fpid n 0xFFFE ldStartLate 0xFFFF
    | none, some m =>
      if m.t0 = 0 ∨ 5 ≤ m.phase ∨ now + 64 < m.t0 then (d, [])
      else d.abandonAll m.fpid m.devices 0xFFFE ldStartLate 0xFFFF
    | none, none => (d, [])) s

/-- A cancelled load is spread by member 0 (R253). -/
def Dev.spreadCancel (d : Dev) (fp : Nat) : Dev :=
  match d.leads fp with
  | some n => d.tellAll fp n 0 5 0
  | none => d.sendMgmt fp 0 5 0

/-- UNLOAD (R253) for an entry whose turn has come: of a loaded Mould, or of a load in progress. -/
def Dev.unloadCmd (d : Dev) (f : Nat) (e : BitVec 512) : Dev × List MemOp :=
  match d.loads.find? (fun l => lowPart l.pmask == cPtag e) with
  | some l => (((d.spreadCancel l.fpid).endLoad l 0xFFFF 0xFF ldCancelled).complete f (cCid e) stOk 0, [])
  | none => d.onMould f e false true (fun d m =>
      let d := if m.phase < 5 then d.spreadCancel m.fpid else d
      let (d, w) := d.unloadMould m (if m.phase < 5 then some (ldCancelled, 0xFFFF) else none)
      (d.complete f (cCid e) stOk 0, w))

/-- UNLOAD (R246, R253). -/
def execUnload (f : FnId) (e : BitVec 512) (s : State) : Host.Outcome State Fault Refusal :=
  liftW (fun _ _ d => d.takeCmd f 0x12 e (fun d =>
    if d.loadHeld then (d.holdCmd f e none, []) else d.unloadCmd f e)) s

end Sys2Proof.Machine
end

