-- ==== Sys2Proof/Machine/DevCmd.lean ====
section
/-! DEFINITION. Commands on the device itself: keys, retirement, the distance table, the Cave, TURN_PRIO, host channels (R19, R40, R176,
R222, R294, R295, R300, R302, R341). -/

namespace Sys2Proof.Machine

/-- A data-free completion. -/
def Dev.answer (d : Dev) (f : Nat) (e : BitVec 512) (st : Nat) : Dev := d.complete f (cCid e) st 0

/-! ### Publisher keys (R294, R295) -/

/-- The OID of XMSS-SHAKE256_20_256 (PRESUMED: SP 800-208). -/
def xmssOid : List Byte := [0x00, 0x00, 0x00, 0x12]
/-- Is a digest in the key table? -/
def Crm.hasKey (c : Crm) (g : Nat) : Bool := c.keys.any (fun e => e.2.digest == g)
/-- The free entries. -/
def Crm.freeKeys (c : Crm) : List Nat := (List.range 16).filter (fun i => !c.keys.any (fun e => e.1 == i))
/-- Put a key in a free entry; which one is not given (log entry 69). -/
def Dev.addKey (d : Dev) (k : KeyEnt) : Dev :=
  match pickOne d.free d.crm.freeKeys with
  | some i => { d with crm := { d.crm with keys := up d.crm.keys i k }, free := d.free + 1 }
  | none => d
/-- Installations whose commit is still to come: they hold an entry. -/
def Dev.keyWrites (d : Dev) : Nat :=
  (d.pwr.nv.filter (fun x => match x.kind with
    | .keyInstall _ _ _ => true
    | _ => false)).length

/-- KEY_INSTALL for an entry taken. -/
def Dev.keyInstall (d : Dev) (f : Nat) (e : BitVec 512) (data : Option (List Byte)) : Dev :=
  match data with
  | none => d.answer f e stHostError
  | some key =>
    let k : KeyEnt := { key := key, digest := shake256 key, persist := bit (cFlags e) 0 }
    if key.length ≠ 68 ∨ 2 ≤ cFlags e then d.answer f e stInvalid
    else if key.take 4 ≠ xmssOid then d.answer f e stKeyInvalid
    else if d.crm.hasKey k.digest then d.answer f e stOk
    else if 16 ≤ d.crm.keys.length + d.keyWrites then d.answer f e stKeyFull
    else if k.persist then d.nvAsk needCave (.keyInstall f (cCid e) k)
    else (d.addKey k).answer f e stOk

/-- KEY_INSTALL (R294, R295, R396). -/
def execKeyInstall (f : FnId) (e : BitVec 512) (data : Option (List Byte)) (s : State) : Host.Outcome State Fault Refusal :=
  hostCmd f 0x20 e (fun d =>
    if bit (cFlags e) 0 && !d.crm.keysLoaded then d.holdCmd f e data else d.keyInstall f e data) s

/-- KEY_REMOVE (R294, R295): a persisted entry goes with its commit. -/
def execKeyRemove (f : FnId) (e : BitVec 512) (data : Option (List Byte)) (s : State) : Host.Outcome State Fault Refusal :=
  hostCmd f 0x21 e (fun d =>
    match data with
    | none => d.answer f e stHostError
    | some bs =>
      match d.crm.keys.find? (fun k => k.2.digest == leNat bs) with
      | none => d.answer f e (if bs.length = 32 then stNotFound else stInvalid)
      | some k =>
        if bs.length ≠ 32 then d.answer f e stInvalid
        else if k.2.persist then d.nvAsk needCave (.keyRemove f (cCid e) k.2.digest)
        else ({ d with crm := { d.crm with keys := del d.crm.keys k.1 } }).answer f e stOk) s

/-! ### Retirement and the distance table (R19, R40) -/

/-- The rows of a column whose retirement is being written. -/
def Dev.retiring (d : Dev) (x : Nat) : List Nat :=
  d.pwr.nv.filterMap (fun n => match n.kind with
    | .retire _ _ pos => if pos % 32 = x then some (pos / 32) else none
    | _ => none)

/-- RETIRE (R19): refused where the column would keep fewer than 24 good positions, with those being retired counted as gone. -/
def execRetire (f : FnId) (e : BitVec 512) (s : State) : Host.Outcome State Fault Refusal :=
  hostCmd f 0x23 e (fun d =>
    let pos := cArg0 e
    if 832 ≤ pos then d.answer f e stInvalid
    else if ((d.goodRows (pos % 32)).filter (fun py => py ≠ pos / 32 && !(d.retiring (pos % 32)).contains py)).length < 24 then d.answer f e stRefused
    else d.nvAsk needSpi (.retire f (cCid e) pos)) s

/-- The GOOD bits of a column of the default repair map (R18). -/
def Dev.defGood (d : Dev) (x : Nat) : Nat := (lk (BitVec.ofNat 26 0xFFFFFF) d.net.defMap x).toNat
/-- The position of logical core k under the default map. -/
def Dev.defPos (d : Dev) (k : Nat) : Nat := 32 * nthBit (d.defGood (k % 32)) (k / 32) 0 26 + k % 32
/-- Manhattan distance (R34). -/
def manhattan (a b : Nat) : Nat :=
  ((pxOf a : Int) - pxOf b).natAbs + ((pyOf a : Int) - pyOf b).natAbs

/-- PORT[u] of a position (Table 02-5). -/
def portLatency (pos u : Nat) : Nat :=
  if inSegment u pos then 2
  else ((List.range 832).filter (inSegment u)).foldl (fun n a => min n (meshLatency pos a 1)) 0xFF

/-- A row of the distance table (Table 02-5). -/
def Dev.distanceRow (d : Dev) (k : Nat) : List Byte :=
  let p := d.defPos k
  let qs := (List.range 768).map d.defPos
  let us := (List.range 12).map (fun i => i + 1)
  qs.flatMap (fun q => natLe (meshLatency p q 1) 1) ++ qs.flatMap (fun q => natLe (20 + manhattan p q) 1) ++
    us.flatMap (fun u => natLe (portLatency p u) 1) ++ [0xFF, 0xFF, 0xFF, 0xFF] ++
    natLe (pxOf p) 1 ++ natLe (pyOf p) 1 ++ natLe (regionOf p) 1 ++ [0] ++
    natLe (us.foldl (fun n u => n + (if inSegment u p then 2 ^ (u - 1) else 0)) 0) 2 ++ natLe 0 10

/-- The distance table (R40). -/
def Dev.distanceTable (d : Dev) : List Byte :=
  let map := (List.range 32).flatMap (fun x => natLe (d.defGood x) 4)
  natLe 0x54445346 4 ++ natLe 1 2 ++ natLe 1568 2 ++ natLe (shake256 map) 32 ++ natLe 0 24 ++
    (List.range 768).flatMap d.distanceRow

/-- DISTANCE (R40, R341). -/
def execDistance (f : FnId) (e : BitVec 512) (s : State) : Host.Outcome State Fault Refusal :=
  hostCmd f 0x24 e (fun d =>
    if cLen e < 1204288 then d.answer f e stInvalid
    else (d.emit (.hostWrite f (cAddr e) d.distanceTable)).answer f e stOk) s

/-! ### The Cave (R300 to R303) -/

/-- Are LEN and the Cave offset in range (R341)? -/
def caveCmdOk (e : BitVec 512) : Bool :=
  cLen e % 512 == 0 && cArg0 e % 512 == 0 && decide (cArg0 e + cLen e ≤ caveSize)

/-- CAVE_READ for an entry taken. -/
def Dev.caveRead (d : Dev) (cave : Memory) (f : Nat) (e : BitVec 512) : Dev :=
  if !caveCmdOk e then d.answer f e stInvalid
  else
    let d := { d with flash := { d.flash with rdBytes := d.flash.rdBytes + BitVec.ofNat 64 (cLen e) } }
    (d.emit (.hostWrite f (cAddr e) (cave.bytes (cArg0 e) (cLen e)))).answer f e stOk

/-- CAVE_READ (R300, R396). -/
def execCaveRead (f : FnId) (e : BitVec 512) (s : State) : Host.Outcome State Fault Refusal :=
  liftW (fun _ cave d => d.takeCmd f 0x25 e (fun d =>
    (if d.flash.ready then d.caveRead cave f e else d.holdCmd f e none, []))) s

/-- Does a range overlap the target of a Cave shard that is committed or loading (R302)? -/
def Dev.pinned (d : Dev) (off len : Nat) : Bool :=
  let hit := fun (a n : Nat) => decide (a < off + len ∧ off < a + n)
  d.moulds.any (fun m =>
    m.images.any (fun w => w.shards.any (fun x => x.cave && hit x.target x.len)) ||
    (match m.wload with
     | none => false
     | some w => decide (1 ≤ w.state ∧ w.state ≤ 3) && w.shards.any (fun x => x.cave && hit x.target x.len)))

/-- CAVE_WRITE for an entry taken: the first commit is asked for; a worn Cave refuses it (R303). -/
def Dev.caveWrite (d : Dev) (f : Nat) (e : BitVec 512) (data : Option (List Byte)) : Dev :=
  if !caveCmdOk e then d.answer f e stInvalid
  else
    match data with
    | none => d.answer f e stHostError
    | some bs =>
      if bs.length ≠ cLen e then d.answer f e stHostError
      else if d.pinned (cArg0 e) (cLen e) then d.answer f e stCavePinned
      else if d.flash.worn then d.answer f e stRefused
      else if cLen e = 0 then d.answer f e stOk
      else d.nvAsk needCave (.caveWrite f (cCid e) (cArg0 e) bs)

/-- CAVE_WRITE (R300, R302, R303, R396). -/
def execCaveWrite (f : FnId) (e : BitVec 512) (data : Option (List Byte)) (s : State) : Host.Outcome State Fault Refusal :=
  hostCmd f 0x26 e (fun d => if d.flash.ready then d.caveWrite f e data else d.holdCmd f e data) s

/-! ### The Turn's priority, host channels -/

/-- TURN_PRIO (R222). -/
def execTurnPrio (f : FnId) (e : BitVec 512) (s : State) : Host.Outcome State Fault Refusal :=
  hostCmd f 0x27 e (fun d => if 256 ≤ cArg0 e then d.answer f e stInvalid else (d.setPrio (cArg0 e)).answer f e stOk) s

/-- A channel of a partition that no open channel has; which one is not given (log entry 90). -/
def Dev.freeChan (d : Dev) (p : Nat) : Option Nat :=
  pickOne d.free ((List.range 256).filter (fun n => !d.chans.any (fun c => c.part == p && c.chan == n && !c.down)))

/-- OPEN_CHAN (R176, R341). -/
def execOpenChan (f : FnId) (e : BitVec 512) (s : State) : Host.Outcome State Fault Refusal :=
  hostCmd f 0x30 e (fun d =>
    if 4 ≤ cFlags e ∨ 16 ≤ cPtag e ∨ 256 ≤ cArg0 e ∨ cAddr e % 4096 ≠ 0 ∨ cLen e % 4096 ≠ 0 then d.answer f e stInvalid
    else if (d.logicalChan (cPtag e) (cArg0 e)).isSome then d.answer f e stAlready
    else
      match d.freeChan (cPtag e) with
      | none => d.answer f e stRefused
      | some n =>
        let c : Chan := { part := cPtag e, logical := cArg0 e, chan := n, fn := f.val, addr := cAddr e, len := cLen e,
                          r := bit (cFlags e) 0, w := bit (cFlags e) 1, down := false }
        let l := d.chans.filter (fun (x : Chan) => !(x.part == c.part && x.chan == n))
        ({ d with chans := l ++ [c], free := d.free + 1 }).complete f (cCid e) stOk n) s

/-- CLOSE_CHAN (R341). -/
def execCloseChan (f : FnId) (e : BitVec 512) (s : State) : Host.Outcome State Fault Refusal :=
  hostCmd f 0x31 e (fun d =>
    let mine := fun (c : Chan) => c.part == cPtag e && c.chan == cArg0 e && c.fn == f.val && !c.down
    if d.chans.any mine then ({ d with chans := d.chans.filter (fun (c : Chan) => !mine c) }).answer f e stOk
    else d.answer f e stNotFound) s

end Sys2Proof.Machine
end

