-- ==== Sys2Proof/Machine/FabCmd.lean ====
section
/-! DEFINITION. Fabric-wide commands on a loaded Mould: SWITCH, HOLD, SUBSTITUTE, FAILOVER, WRITE_FABRIC, DUMP (R239, R282, R283, R287
to R289, R341). -/

namespace Sys2Proof.Machine

/-- Does step S lie at least 64 ticks ahead: a boundary this device has not taken (R283, R288)? -/
def Dev.stepAhead (d : Dev) (m : Mould) (st : Nat) : Bool :=
  let t := d.part (lowPart m.pmask)
  decide (t.next ≤ st ∧ d.turn.now.toNat + 64 ≤ t.nominal st)

/-- SWITCH (R283): complete once every member has switched. A version that is not valid cannot be switched to, and a Mould without a grid
has no step to switch at. -/
def execSwitch (f : FnId) (e : BitVec 512) (s : State) : Host.Outcome State Fault Refusal :=
  liftW (fun _ _ d => d.takeCmd f 0x14 e (fun d => d.onMould f e true true (fun d m =>
    if m.t0 = 0 ∨ m.phase < 5 ∨ !(m.tab (1 - m.epoch)).valid ∨ m.switching.isSome then (d.complete f (cCid e) stInvalid 0, [])
    else if !d.stepAhead m (cArg0 e) then (d.complete f (cCid e) (stLoad ldT0Late) 0, [])
    else
      ((d.updMould m.pmask (fun m => { m with switchAt := some (cArg0 e), switching := some ⟨cArg0 e, f, cCid e, [], false⟩ })).passOn m 19 (cArg0 e), [])))) s

/-- A change list (R341): (kind, member, argument). -/
def changeList (bs : List Byte) : List (Nat × Nat × Nat) := (chunks 16 bs).map (fun c => (fld c 0 1, fld c 2 2, fld c 8 8))
/-- Are its entries in range? -/
def changesOk (bs : List Byte) (n devices : Nat) : Bool :=
  bs.length == 16 * n &&
  (chunks 16 bs).all (fun c =>
    decide (1 ≤ fld c 0 1 ∧ fld c 0 1 ≤ 3 ∧ fld c 2 2 < devices) && zeroFld c 1 1 && zeroFld c 4 4)

/-- HOLD (R288): `data` is what host memory returned of the change list. -/
def execHold (f : FnId) (e : BitVec 512) (data : Option (List Byte)) (s : State) : Host.Outcome State Fault Refusal :=
  liftW (fun _ _ d => d.takeCmd f 0x15 e (fun d => d.onMould f e true true (fun d m =>
    let no := fun st => (d.complete f (cCid e) st 0, ([] : List MemOp))
    match (if cArg1 e = 0 then some [] else data) with
    | none => no stHostError
    | some bs =>
      if !changesOk bs (cArg1 e) m.devices ∨ m.hold.isSome ∨ m.t0 = 0 ∨ m.phase < 5 then no stInvalid
      else if !d.stepAhead m (cArg0 e) then no (stLoad ldT0Late)
      else
        let h : Hold := { step := cArg0 e, changes := changeList bs, fn := f.val, cid := cCid e, host := true, held := [],
                          since := d.turn.now.toNat }
        ((d.updMould m.pmask (fun m => { m with hold := some h })).passOn m 16 (cArg0 e), [])))) s

/-- The partner of a substituted member offers it the Mould from its Cave copy (Table 15-4, step 3). -/
def Dev.offerJoin (d : Dev) (m : Mould) (i : Nat) : Dev :=
  if ((m.tab m.epoch).rec_ i).partner ≠ m.self then d
  else
    match m.linkTo i with
    | none => d
    | some u =>
      let now := d.turn.now.toNat
      let o : Offer := { pmask := m.pmask, fpid := m.fpid, port := u + 4, to_ := i, refused := false, taken := false, tick := now,
                         began := now, t0 := 0, replay := false, image := m.image }
      ({ d with offers := d.offers ++ [o] }).sendOffer o

/-- SUBSTITUTE (R288, R289): applied without a hold to a member that has an ALIAS, refused for another. On the device that takes the
member's place, which holds no Mould there yet, it gives the member index. -/
def execSubstitute (f : FnId) (e : BitVec 512) (s : State) : Host.Outcome State Fault Refusal :=
  liftW (fun _ _ d => d.takeCmd f 0x16 e (fun d =>
    if (d.mouldLow (cPtag e)).isNone && cArg1 e == d.serial.toNat && decide (cArg0 e < 4096) then
      (({ d with joinAs := some (cArg0 e) }).complete f (cCid e) stOk 0, [])
    else d.onMould f e false true (fun d m =>
      if m.devices ≤ cArg0 e then (d.complete f (cCid e) stInvalid 0, [])
      else if m.alive (cArg0 e) then (d.complete f (cCid e) stRefused 0, [])
      else
        let d := d.substituted m (cArg0 e) (cArg1 e)
        ((d.offerJoin m (cArg0 e)).complete f (cCid e) stOk 0, [])))) s

/-- FAILOVER (R287): the host reports a member gone. -/
def execFailover (f : FnId) (e : BitVec 512) (s : State) : Host.Outcome State Fault Refusal :=
  liftW (fun _ _ d => d.takeCmd f 0x17 e (fun d => d.onMould f e true true (fun d m =>
    if !m.replica ∨ m.phase ≠ 6 ∨ cArg0 e = m.self ∨ m.devices ≤ cArg0 e then (d.complete f (cCid e) stInvalid 0, [])
    else if !m.alive (cArg0 e) then (d.complete f (cCid e) stAlready 0, [])
    else (d.sendAll m 13 (cArg0 e)).loseMember m (cArg0 e) (some (f.val, cCid e))))) s

/-- May version v be rewritten (R282)? -/
def Dev.versionBusy (d : Dev) (m : Mould) (v : Nat) : Bool :=
  v == m.epoch ||
    (m.vlast.find? (fun x => x.1 == v)).any (fun x => decide (d.turn.now.toNat < x.2.toNat + 2 * m.period))

/-- WRITE_FABRIC (R282, R283): a rewrite that fails a check of R280, or changes what a live rewrite may not, leaves the old content. -/
def execWriteFabric (f : FnId) (e : BitVec 512) (data : Option (List Byte)) (s : State) : Host.Outcome State Fault Refusal :=
  liftW (fun _ _ d => d.takeCmd f 0x18 e (fun d => d.onMould f e false true (fun d m =>
    let no := fun st => (d.complete f (cCid e) st 0, ([] : List MemOp))
    if 2 ≤ cArg0 e then no stInvalid
    else
      match data with
      | none => no stHostError
      | some bs =>
        let new := readFabric bs
        let old := m.tab (cArg0 e)
        if d.versionBusy m (cArg0 e) then no stVersionBusy
        else if bs.length ≠ cLen e ∨ !fabricOk m.members bs ∨ !headersAgree new (m.tab (1 - cArg0 e)) ∨
            (old.valid ∧ (new.recs.map (fun r => r.partner)) ≠ (old.recs.map (fun r => r.partner))) then no (stLoad ldTable)
        else ((d.updMould m.pmask (fun m => m.setTab (cArg0 e) new)).complete f (cCid e) stOk 0, [])))) s

/-- The bytes of a tensor in presented order (R170), as a queue load streams them. -/
def dumpBytes (rd : Nat → Byte) (t : DescF) : List Byte :=
  let (v, n) := packBits ((streamOf t 0 (t.psizes.getD (t.pdim - 1) 0)).map (fun x => (srcVal rd x.1 x.2.1 x.2.2, x.2.2)))
  natLe v (cdiv n 8)

/-- Does a slice of the tensor whose image is `data` sleep (R153)? The command waits for it before it is taken. -/
def Dev.dumpAsleep (d : Dev) (data : Option (List Byte)) : Bool :=
  data.any (fun bs => [true, false].any (fun c =>
    let t := parseDesc bs c
    bs.length == (if c then 48 else 64) && d.winAsleep (t.span).1 ((t.span).2 + 1 - (t.span).1)))

/-- DUMP (R239): firmware reads a tensor by descriptor image and writes its bytes to the host. The command waits while a slice of the
tensor is at retention (R153). -/
def execDump (f : FnId) (e : BitVec 512) (data : Option (List Byte)) (s : State) : Host.Outcome State Fault Refusal :=
  liftW (fun mem _ d =>
    if d.dumpAsleep data then (d, [])
    else d.takeCmd f 0x19 e (fun d => d.onMould f e false true (fun d m =>
    let no := fun st => (d.complete f (cCid e) st 0, ([] : List MemOp))
    let k := cArg0 e
    if 768 ≤ k ∨ !m.has (d.partOf k) then no stInvalid
    else
      match data with
      | none => no stHostError
      | some bs =>
        let t := parseDesc bs m.compat
        let out := dumpBytes mem.rd t
        if bs.length ≠ (if m.compat then 48 else 64) ∨ (validate bs t m.ranges (d.partOf k) k).isSome ∨ cLen e < out.length then
          no stInvalid
        else
          let d := (d.winTouch (t.span).1 ((t.span).2 + 1 - (t.span).1) false).eccRead
            (wordsOf (t.span).1 ((t.span).2 + 1 - (t.span).1)) 0xFFFF [] []
          ((d.emit (.hostWrite f (cAddr e) out)).complete f (cCid e) stOk 0, [])))) s

end Sys2Proof.Machine
end

