-- ==== Sys2Proof/Machine/Weights.lean ====
section
/-! DEFINITION. Weight images: requests, manifests, shards, the repair ladder, commit (R291 to R298, R318, R319, R398,
Tables 16-1 to 16-4). -/

namespace Sys2Proof.Machine

/-! ### The manifest (Tables 16-1 and 16-2) -/

def wmKind (b : List Byte) : Nat := fld b 6 1
def wmCount (b : List Byte) : Nat := fld b 0xC 4
def wmVariant (b : List Byte) : Nat := fld b 0x18 2
/-- Bytes up to the end of SHARDS, and of the whole manifest. -/
def wmBody (b : List Byte) : Nat := 64 + 64 * wmCount b
def wmSize (b : List Byte) : Nat := wmBody b + 2852
/-- The manifest digest (R291). -/
def wmDigest (b : List Byte) : Nat := shake256 (b.take (wmBody b))
def wmKeydig (b : List Byte) : Nat := fld b (wmBody b) 32

/-- A shard entry. -/
def readShard (e : List Byte) : Shard :=
  { id := fld e 0 4, member := fld e 4 2, alt := fld e 6 2, target := fld e 8 8, len := fld e 0x10 4,
    cave := bit (fld e 0x15 1) 0, source := fld e 0x18 8, digest := fld e 0x20 32, arrived := false, ok := false, attempt := 0,
    since := 0 }
def wmEntries (b : List Byte) : List (List Byte) := chunks 64 ((b.take (wmBody b)).drop 64)
def wmShards (b : List Byte) : List Shard := (wmEntries b).map readShard
/-- The shards this member keeps (R296). -/
def wmKept (b : List Byte) (self : Nat) : List Shard := (wmShards b).filter (fun x => x.member == self || x.alt == self)

/-! ### Weight status codes (Table 16-4) -/

def wtOk : Nat := 1
def wtFormat : Nat := 2
def wtMismatch : Nat := 3
def wtKeyUnknown : Nat := 4
def wtSignature : Nat := 5
def wtTarget : Nat := 6
def wtShardFailed : Nat := 7
def wtBusy : Nat := 8

/-! ### The checks (R292, R293) -/

/-- Step 1. -/
def wmFormatOk (b : List Byte) : Bool :=
  let ids := (wmShards b).map (fun x => x.id)
  b.length == wmSize b && fld b 0 4 == 0x54534E4D && fld b 4 2 == 1 && decide (wmKind b ≤ 1) && zeroFld b 7 1 &&
  decide (fld b 8 2 < 4096) && zeroFld b 0x1A 6 && decide (1 ≤ wmCount b ∧ wmCount b ≤ 1048576) &&
  (if wmKind b = 0 then wmVariant b == 0 else decide (wmVariant b ≤ 255)) &&
  (wmEntries b).all (fun e => decide (fld e 0x15 1 < 2) && zeroFld e 0x16 2) &&
  (ids.zip (ids.drop 1)).all (fun p => decide (p.1 < p.2))

/-- Does this device join a running Mould in the place of another (R289)? -/
def Mould.joins (m : Mould) : Bool :=
  (m.members[m.self]?).map (fun x => x.serial) != ((imMembers m.image)[m.self]?).map (fun x => x.serial)

/-- Step 2; a BASE image also needs phase LOADING and a VARIANT image a serving Mould that is STARTED (R293). -/
def wmMatches (m : Mould) (b : List Byte) : Bool :=
  fld b 8 2 == m.fpid && fld b 0xA 2 == m.devices && fld b 0x20 32 == m.digest &&
  (m.joins || (if wmKind b = 0 then m.phase == 4 else m.phase == 6 && m.serve.isSome))

/-- Step 3. -/
def Crm.weightKey (c : Crm) (b : List Byte) : Option Nat :=
  match c.keys.find? (fun e => e.2.digest == wmKeydig b) with
  | none => some wtKeyUnknown
  | some e => if xmssVerify e.2.key (wmDigest b) ((b.drop (wmBody b + 32)).take 2820) then none else some wtSignature

/-- Step 4 for one entry. -/
def Dev.targetOk (d : Dev) (m : Mould) (x : Shard) : Bool :=
  (if x.cave then
     x.target % 512 == 0 &&
     m.ranges.any (fun g => g.kind == 3 && decide (g.first ≤ x.target ∧ x.target + x.len ≤ g.last + 1))
   else
     x.target % 128 == 0 && oneSlice (x.target, x.target + max 1 x.len - 1) && m.has (lk 16 d.net.slcOwner (x.target / 0x800000))) &&
  (x.alt == 0xFFFF || ((m.tab m.epoch).rec_ x.member).partner == x.alt)
/-- Do two kept shards overlap? -/
def Shard.meets (x y : Shard) : Bool :=
  x.cave == y.cave && decide (x.target < y.target + y.len ∧ y.target < x.target + x.len)
/-- Step 4. -/
def Dev.targetsOk (d : Dev) (m : Mould) (b : List Byte) : Bool :=
  let l := wmKept b m.self
  l.all (fun x => d.targetOk m x && l.all (fun y => x.id == y.id || !x.meets y))

/-! ### The state of a load -/

/-- A load that has just been asked for. -/
def WLoad.fresh (now : Nat) : WLoad :=
  { state := 1, status := 0, kind := 0, variant := 0, vslot := 0x1FF, digest := 0, keydig := 0, shards := [], repairs := 0,
    ended := false, oks := [], req := none, lastByte := now, asked := [], mani := [], waits := false, src := none }
/-- Does a load run or wait for a slot (R293, R319)? -/
def WLoad.busy (w : WLoad) : Bool := decide (1 ≤ w.state ∧ w.state ≤ 3) || (w.state == 0 && !w.mani.isEmpty)
/-- Does it take shards? -/
def WLoad.taking (w : WLoad) : Bool := (w.state == 1 || w.state == 2) && !w.mani.isEmpty

/-- The Mould with a PMASK and its weight load. -/
def Dev.wl (d : Dev) (pm : Nat) : Option (Mould × WLoad) :=
  (d.moulds.find? (fun m => m.pmask == pm)).bind (fun m => m.wload.map (fun w => (m, w)))
def Dev.setWl (d : Dev) (pm : Nat) (w : WLoad) : Dev := d.updMould pm (fun m => { m with wload := some w })
/-- Change one shard. -/
def WLoad.setShard (w : WLoad) (x : Shard) : WLoad :=
  { w with shards := w.shards.map (fun (y : Shard) => if y.id = x.id then x else y) }
def WLoad.shard (w : WLoad) (id : Nat) : Option Shard := w.shards.find? (fun x => x.id == id)

/-- The OUT_PORT of this member's own entry, while another member follows it (R296). -/
def Mould.outPort (m : Mould) : Option Nat :=
  match m.dist.dropWhile (fun e => e.1 ≠ m.self) with
  | (_, u) :: _ :: _ => if 4 ≤ u ∧ u ≤ 12 then some (u - 4) else none
  | _ => none
/-- Pass on bytes of an image, in packets of class LOAD to the next member. -/
def Dev.passBytes (d : Dev) (m : Mould) (bs : List Byte) : Dev :=
  match m.outPort, m.nextMember with
  | some u, some n => ((d.stampV m m.epoch).transfer m.fpid m.epoch m.self u n 2 bs).emit (.loadByte u bs.length)
  | _, _ => d
/-- The pipeline predecessor. -/
def Mould.before (m : Mould) : Nat :=
  ((m.dist.takeWhile (fun e => e.1 ≠ m.self)).getLast?).elim 0 (fun e => e.1)

/-! ### End of a load (R298) -/

/-- The load fails here: a variant slot it was given is free again. -/
def Dev.failLocal (d : Dev) (pm status : Nat) : Dev :=
  match d.wl pm with
  | none => d
  | some (_, w) =>
    let d := d.setWl pm { w with state := 5, status := if w.state = 5 then w.status else status, req := none, waits := false }
    d.updMould pm (fun m => { m with serve := m.serve.map (fun v =>
      { v with vslots := v.vslots.filter (fun x => x.current || x.slot ≠ w.vslot) }) })

/-- Member 0 abandons the load on every member. -/
def Dev.abandonWeights (d : Dev) (pm status : Nat) : Dev :=
  match d.wl pm with
  | none => d
  | some (m, w) => ((d.sendAll m 10 1).failLocal pm status).completeOpt w.req (stWeight status) 0

/-- A refusal or a shard that is lost: member 0 abandons, another member reports it (ARG: the shard, or 0xFFFFFFFF for a refused
manifest). -/
def Dev.weightFails (d : Dev) (pm status arg : Nat) : Dev :=
  match d.wl pm with
  | none => d
  | some (m, _) => if m.self = 0 then d.abandonWeights pm status else (d.failLocal pm status).sendMgmt m.fpid 0 9 arg

/-- COMMIT taken: a BASE image takes the partition to READY, its cores as the load left them; a VARIANT image is used from the next
boundary. -/
def Dev.commitLocal (d : Dev) (pm : Nat) : Dev :=
  match d.wl pm with
  | none => d
  | some (m, w) =>
    let v := { w with state := 4, status := wtOk, req := none }
    let d := (d.setWl pm v).updMould pm (fun m => { m with images := m.images ++ [v] })
    let d := d.updMould pm (fun m =>
      if w.kind = 1 then
        { m with coming := m.coming.filter (fun x => x.slot ≠ w.vslot) ++ [⟨w.variant, w.vslot, w.digest, w.keydig⟩]
                 newVers := m.newVers ++ [(w.variant, w.vslot)] }
      else { m with base := w.digest, baseKey := w.keydig })
    let d := d.completeOpt w.req (stWeight wtOk) 0
    if w.kind = 1 ∨ m.phase ≠ 4 then d
    else
      let d := d.updMould pm (fun m => { m with phase := 5, req := none })
      let d := (partsOf pm).foldl (fun d p => d.updPart p (fun t => { t with st := .idle, dead := false, dlHalt := none })) (d.coresToStart m)
      (d.setLoad pm 0xFFFF 0xFF ldOk 5).completeOpt m.req (stLoad ldOk) 0

/-- Member 0 holds WEIGHTS_OK of a member; with those of all DEVICES members it commits (R298, log entry 96). -/
def Dev.okIn (d : Dev) (pm i : Nat) : Dev :=
  match d.wl pm with
  | none => d
  | some (m, w) =>
    let l := if w.oks.contains i then w.oks else i :: w.oks
    let d := d.setWl pm { w with oks := l }
    if w.state = 3 && (List.range m.devices).all (fun j => l.contains j) then (d.passOn m 10 0).commitLocal pm
    else d

/-- Every kept shard is verified: WEIGHTS_OK. A device that joins a running Mould uses what it has verified. -/
def Dev.verifyDone (d : Dev) (pm : Nat) : Dev :=
  match d.wl pm with
  | none => d
  | some (m, w) =>
    if !w.taking || w.waits || !w.shards.all (fun x => x.ok) then d
    else
      let d := d.setWl pm { w with state := 3 }
      if m.self = 0 then d.okIn pm 0
      else
        let d := d.sendMgmt m.fpid 0 8 0
        if m.joins then d.commitLocal pm else d

/-! ### The repair ladder (R297, Table 16-3) -/

/-- Ask for a shard: attempts 1 to 3 of the predecessor, 4 and 5 of member 0; member 0 itself reads its source again. -/
def Dev.askShard (d : Dev) (m : Mould) (w : WLoad) (x : Shard) : Dev :=
  if m.self = 0 then
    match w.src with
    | some (false, fn, addr, _) => d.emit (.hostRead fn (addr + wmSize w.mani + x.source) x.len)
    | _ => d
  else d.sendMgmt m.fpid (if x.attempt ≤ 3 then m.before else 0) 7 x.id

/-- A shard has failed (code SHARD_DIGEST 0x60 or SHARD_MISSING 0x61): the record, and the next attempt or the end of the ladder. -/
def Dev.shardFails (d : Dev) (pm id code : Nat) : Dev :=
  match d.wl pm with
  | none => d
  | some (m, w) =>
    match w.shard id with
    | none => d
    | some x =>
      let last : Bool := decide (5 ≤ x.attempt)
      let r : Err := { code := code, cls := if last then 2 else 0, source := 17, core := 0xFFFF, pmask := pm, fpid := m.fpid,
                       detail := [id, x.attempt] }
      let y := { x with attempt := x.attempt + 1, since := d.turn.now.toNat, arrived := false }
      if last then ((d.raise r).setWl pm (w.setShard y)).weightFails pm wtShardFailed id
      else
        let w := { w.setShard y with state := 2, repairs := satAdd w.repairs 1 }
        ((d.raise r).setWl pm w).askShard m w y

/-- The shard is verified. -/
def Dev.shardOk (d : Dev) (pm id : Nat) : Dev :=
  match d.wl pm with
  | none => d
  | some (_, w) =>
    match w.shard id with
    | none => d
    | some x => (d.setWl pm (w.setShard { x with arrived := true, ok := true })).verifyDone pm

/-- Digest a Cave shard from the own Cave. -/
def Dev.digestCave (d : Dev) (cave : Memory) (pm id : Nat) : Dev :=
  match (d.wl pm).bind (fun e => e.2.shard id) with
  | none => d
  | some x =>
    let d := { d with flash := { d.flash with rdBytes := d.flash.rdBytes + BitVec.ofNat 64 x.len } }
    if shake256 (cave.bytes x.target x.len) = x.digest then d.shardOk pm id else d.shardFails pm id 0x60

/-- After END, once the Cave is ready: every Cave shard not yet digested (R296). -/
def Dev.digestCaves (d : Dev) (cave : Memory) (pm : Nat) : Dev :=
  match d.wl pm with
  | none => d
  | some (_, w) =>
    if !d.flash.ready || !w.ended || !w.taking then d
    else
      (w.shards.filter (fun x => x.cave && !x.ok && x.attempt == 0)).foldl (fun d x => d.digestCave cave pm x.id) d

/-! ### Requests and manifests -/

/-- LOAD_WEIGHTS for an entry taken. -/
def Dev.loadWeights (d : Dev) (f : Nat) (e : BitVec 512) : Dev × List MemOp :=
  let cave := bit (cFlags e) 0
  if 2 ≤ cFlags e ∨ (cave ∧ caveSize < cAddr e + cLen e) then (d.answer f e stInvalid, [])
  else d.onMould f e true true (fun d m =>
    if m.phase ≠ 4 ∧ m.phase ≠ 6 then (d.answer f e stInvalid, [])
    else if m.wload.any (fun w => w.busy) then (d.answer f e (stWeight wtBusy), [])
    else
      (d.setWl m.pmask { WLoad.fresh d.turn.now.toNat with req := some (f, cCid e), src := some (cave, f, cAddr e, cLen e) }, []))

/-- LOAD_WEIGHTS (R293, R396). -/
def execLoadWeights (f : FnId) (e : BitVec 512) (s : State) : Host.Outcome State Fault Refusal :=
  liftW (fun _ _ d => d.takeCmd f 0x13 e (fun d =>
    if bit (cFlags e) 0 && !d.flash.ready then (d.holdCmd f e none, []) else d.loadWeights f e)) s

/-- The slot of a variant image: on member 0 a free one, which is not given (R318); what another member calls it no message says (log
entry 93). How many KV blocks its learned prefix takes, and which, is not given either (log entry 100). -/
def Dev.giveSlot (d : Dev) (m : Mould) (b : List Byte) : Option (Dev × Nat) :=
  if wmKind b = 0 then some (d, 0x1FF)
  else if m.self ≠ 0 then some ({ d with free := d.free + 1 }, (Config.freeValue d.free).toNat % 512)
  else
    match m.serve.bind (fun v => pickOne d.free v.freeVslots) with
    | none => none
    | some n =>
      let k := (Config.freeValue (d.free + 1)).toNat % ((m.serve.elim 0 (fun v => v.kvFree)) + 1)
      let d' := ({ d with free := d.free + 2 + k } : Dev).updMould m.pmask (fun m => { m with serve := m.serve.map (fun (v : Serve) =>
        let x : VSlot := { slot := n, variant := wmVariant b, current := false, blocks := pickMany (d.free + 2) k v.freeBlocks,
                           len := k * v.hdr.kvBt }
        { v with vslots := v.vslots ++ [x] }) })
      some (d', n)

/-- A manifest for a load that waits for one: its checks in order, its variant slot, its shards (R292, R318, R319, R398). -/
def Dev.takeManifest (d : Dev) (pm : Nat) (b : List Byte) : Dev :=
  match d.wl pm with
  | none => d
  | some (m, w) =>
    let w := { w with state := 1, mani := b, lastByte := d.turn.now.toNat, kind := wmKind b, variant := wmVariant b,
                      digest := wmDigest b, keydig := wmKeydig b }
    let waits := !d.crm.keysLoaded
    let bad := if !wmFormatOk b then some wtFormat
      else if !wmMatches m b then some wtMismatch
      else if waits then none
      else (d.crm.weightKey b).or (if d.targetsOk m b then none else some wtTarget)
    match bad with
    | some st => ((d.setWl pm w).passBytes m b).weightFails pm st 0xFFFFFFFF
    | none =>
      match d.giveSlot m b with
      | none => (d.setWl pm { w with state := 0, req := none }).completeOpt w.req stPending 0
      | some (d, n) =>
        let kept := if d.targetsOk m b then wmKept b m.self else []
        ((d.setWl pm { w with vslot := n, shards := kept, waits := waits }).passBytes m b).verifyDone pm

/-- WEIGHT_MANIFEST_ARRIVE (R292, R296): on member 0 it answers a request, a Cave source is read here; on another member it begins the
load. -/
def execWeightManifestArrive (p : PartId) (manifest : List Byte) (s : State) : Host.Outcome State Fault Refusal :=
  liftW (fun _ cave d =>
    match d.mouldLow p with
    | none => (d, [])
    | some m =>
      if m.self = 0 then
        match m.wload with
        | none => (d, [])
        | some w =>
          if w.state ≠ 1 ∨ !w.mani.isEmpty then (d, [])
          else
            let b := match w.src with
              | some (true, _, off, len) => cave.bytes off (min len (2916 + 64 * cave.num (off + 0xC) 4))
              | _ => manifest
            (d.takeManifest m.pmask b, [])
      else if !(m.phase == 4 || m.phase == 6 || (m.phase == 3 && m.joins)) || m.wload.any (fun w => w.busy) then (d, [])
      else ((d.setWl m.pmask (WLoad.fresh d.turn.now.toNat)).takeManifest m.pmask manifest, [])) s

/-- A key check that waited for KEYS_LOADED (R398). -/
def Dev.checkManifest (d : Dev) (pm : Nat) : Dev :=
  match d.wl pm with
  | none => d
  | some (m, w) =>
    if !w.waits then d
    else
      match (d.crm.weightKey w.mani).or (if d.targetsOk m w.mani then none else some wtTarget) with
      | some st => d.weightFails pm st 0xFFFFFFFF
      | none => (d.setWl pm { w with waits := false }).verifyDone pm

/-- A load that waited for a variant slot starts when one is free (R319). -/
def Dev.startPending (d : Dev) (pm : Nat) : Dev :=
  match d.wl pm with
  | none => d
  | some (m, w) =>
    if w.state = 0 && !w.mani.isEmpty && m.serve.any (fun v => !v.freeVslots.isEmpty) then d.takeManifest pm w.mani else d

/-! ### Shards -/

/-- The bytes of a shard that the stream brings: a Cave source is read here. -/
def WLoad.payload (w : WLoad) (cave : Memory) (x : Shard) (data : List Byte) : List Byte :=
  match w.src with
  | some (true, _, off, _) => cave.bytes (off + wmSize w.mani + x.source) x.len
  | _ => data

/-- Bytes of the image's stream, kept here or not, are passed on whatever the own checks found, and renew the tick of the last byte
(R296, R297). -/
def Dev.streamed (d : Dev) (cave : Memory) (m : Mould) (w : WLoad) (id : Nat) (data : List Byte) : Dev × WLoad :=
  match (wmShards w.mani).find? (fun x => x.id == id) with
  | none => (d, w)
  | some x =>
    if w.ended || w.state = 0 || w.state = 4 || x.cave || (w.shard id).any (fun y => y.arrived || y.attempt != 0) then (d, w)
    else
      let w := { w with lastByte := d.turn.now.toNat }
      ((d.setWl m.pmask w).passBytes m (w.payload cave x data), w)

/-- Member 0 reads a shard from the host afresh for a member that asked for it, and sends it there (Table 16-3). -/
def Dev.serveAsked (d : Dev) (m : Mould) (w : WLoad) (id : Nat) (data : List Byte) : Dev :=
  if data.isEmpty then d
  else
    let us := w.asked.filter (fun e => e.2 == id)
    let d := us.foldl (fun d e => (d.sendBytes m.fpid e.1 data).emit (.shard e.1 m.fpid id data)) d
    d.updMould m.pmask (fun m => { m with wload := m.wload.map (fun w =>
      { w with asked := w.asked.filter (fun e => e.2 ≠ id) }) })

/-- SHARD_COMPLETE (R296, R297): the bytes lie at the target and their digest is checked. A Cave shard comes only by the ladder, or to a
device that joins, and is programmed first. Bytes for a slice at retention wait in the memory
network (R153). -/
def execShardComplete (p : PartId) (id : Nat) (data : List Byte) (s : State) : Host.Outcome State Fault Refusal :=
  liftW (fun _ cave d =>
    match (d.mouldLow p).bind (fun m => m.wload.map (fun w => (m, w))) with
    | none => (d, [])
    | some (m, w) =>
      let (d, w) := d.streamed cave m w id data
      let d := d.serveAsked m w id data
      match w.shard id with
      | none => (d, [])
      | some x =>
        if !w.taking || x.ok then (d, [])
        else if x.cave then
          if (x.attempt = 0 ∧ !m.joins) ∨ data.isEmpty then (d, [])
          else (d.nvAsk needCave (.caveShard (lowPart m.pmask) id x.target (data.take x.len)), [])
        else
          let bs := w.payload cave x data
          let (d, ops) := d.winWrite x.target (bs.take x.len)
          let d := d.updMould m.pmask (fun m => { m with wload := m.wload.map (fun w =>
            ({ w with lastByte := d.turn.now.toNat }).setShard { x with arrived := true }) })
          (if bs.length = x.len ∧ shake256 bs = x.digest then d.shardOk m.pmask id else d.shardFails m.pmask id 0x60, ops)) s

/-- WEIGHT_END_MARKER (R296, R297): passed on; Cave shards are digested, slice shards that have not arrived are missing. -/
def execWeightEndMarker (p : PartId) (s : State) : Host.Outcome State Fault Refusal :=
  liftW (fun _ cave d =>
    match (d.mouldLow p).bind (fun m => m.wload.map (fun w => (m, w))) with
    | none => (d, [])
    | some (m, w) =>
      if w.ended || w.mani.isEmpty || w.state = 0 then (d, [])
      else
        let d := match m.outPort with
          | some u => d.emit (.loadEnd u)
          | none => d
        let d := d.setWl m.pmask { w with ended := true, lastByte := d.turn.now.toNat }
        if !w.taking then (d, [])
        else
          let gone := w.shards.filter (fun x => !x.cave && !x.arrived && x.attempt == 0)
          ((gone.foldl (fun d x => d.shardFails m.pmask x.id 0x61) d).digestCaves cave m.pmask, [])) s

/-- WEIGHT_LOAD_TIMEOUT (R297): no byte of the image for LOAD_TIMEOUT; every kept shard that has not arrived is missing. -/
def execWeightLoadTimeout (p : PartId) (s : State) : Host.Outcome State Fault Refusal :=
  lift (fun d =>
    match (d.mouldLow p).bind (fun m => m.wload.map (fun w => (m, w))) with
    | none => d
    | some (m, w) =>
      if !w.taking || d.turn.now.toNat < w.lastByte + m.timeout then d
      else
        (w.shards.filter (fun x => !x.arrived && !x.ok && x.attempt == 0)).foldl (fun d x => d.shardFails m.pmask x.id 0x61) d) s

/-- SHARD_ATTEMPT_TIMEOUT (R297): an attempt brings no last byte within LOAD_TIMEOUT. -/
def execShardAttemptTimeout (p : PartId) (id : Nat) (s : State) : Host.Outcome State Fault Refusal :=
  lift (fun d =>
    match (d.mouldLow p).bind (fun m => m.wload.map (fun w => (m, w))) with
    | none => d
    | some (m, w) =>
      match w.shard id with
      | none => d
      | some x =>
        if !w.taking || x.ok || x.attempt = 0 || 6 ≤ x.attempt || d.turn.now.toNat < x.since + m.timeout then d
        else d.shardFails m.pmask id 0x61) s

/-! ### Messages (R297, R298) -/

/-- Member 0 serves a shard from the image source: its own Cave, or the host's memory, whose bytes SHARD_COMPLETE brings and which go
on to the member. -/
def Dev.fromSource (d : Dev) (cave : Memory) (m : Mould) (w : WLoad) (dst id : Nat) : Dev :=
  match (wmShards w.mani).find? (fun x => x.id == id), w.src with
  | some x, some (true, _, off, _) =>
    if x.cave then d
    else
      let bs := cave.bytes (off + wmSize w.mani + x.source) x.len
      (d.sendBytes m.fpid dst bs).emit (.shard dst m.fpid id bs)
  | some x, some (false, fn, addr, _) =>
    (d.setWl m.pmask { w with asked := w.asked ++ [(dst, id)] }).emit (.hostRead fn (addr + wmSize w.mani + x.source) x.len)
  | _, _ => d

/-- MSG_SHARD_REQUEST (R297): a device that keeps a verified copy answers attempts 1 to 3, another relays the request with its SRC and
SEQ to its own predecessor; member 0 serves from the source, attempts 4 and 5 always so. What an answer brings is SHARD_COMPLETE's. -/
def execMsgShardRequest (h : MHdr) (id attempt : Nat) (s : State) : Host.Outcome State Fault Refusal :=
  liftW (fun mem cave d => d.onMsg h (fun d m =>
    match m.wload with
    | none => (d, [])
    | some w =>
      if h.answer then (d, [])
      else
        match (w.shard id).filter (fun x => x.ok && decide (attempt ≤ 3)) with
        | some x =>
          let r := d.shardBytes mem cave x
          ((r.1.sendBytes m.fpid h.src r.2).emit (.shard h.src m.fpid id r.2), [])
        | none =>
          if m.self = 0 then (d.fromSource cave m w h.src id, [])
          else (d.relay m.fpid m.before 7 h id, []))) s

/-- MSG_WEIGHTS_OK (R298). -/
def execMsgWeightsOk (h : MHdr) (s : State) : Host.Outcome State Fault Refusal :=
  onMsg1 h (fun d m => if m.self = 0 ∧ m.wload.any (fun w => w.busy) then d.okIn m.pmask h.src else d) s

/-- MSG_SHARD_FAILED (R298): member 0 abandons the load. -/
def execMsgShardFailed (h : MHdr) (_id : Nat) (s : State) : Host.Outcome State Fault Refusal :=
  onMsg1 h (fun d m =>
    if m.self = 0 ∧ m.wload.any (fun w => w.busy) then d.abandonWeights m.pmask wtShardFailed else d) s

/-- MSG_WEIGHT_COMMIT (R298), passed on. -/
def execMsgWeightCommit (h : MHdr) (s : State) : Host.Outcome State Fault Refusal :=
  onMsg1 h (fun d m =>
    if m.wload.any (fun w => w.state == 3) then (d.passOn m 10 0).commitLocal m.pmask else d) s

/-- MSG_WEIGHT_ABANDON (R298). -/
def execMsgWeightAbandon (h : MHdr) (s : State) : Host.Outcome State Fault Refusal :=
  onMsg1 h (fun d m => if m.wload.any (fun w => w.busy || w.state == 5) then d.failLocal m.pmask wtShardFailed else d) s

end Sys2Proof.Machine
end

