-- ==== Sys2Proof/Machine/Requests.lean ====
section
/-! DEFINITION. Requests of a serving partition: their records and checks, admission, plans, output buffers (R306 to R317, R322 to R325,
R330). -/

namespace Sys2Proof.Machine

/-- Records for token rings: function, context, bytes. -/
abbrev Recs := List (Nat × Nat × List Byte)

/-! ### The request record (Table 17-3) -/

def rqVariant (r : List Byte) : Nat := fld r 0x00A 2
def rqPlen (r : List Byte) : Nat := fld r 0x00C 4
def rqPrefix (r : List Byte) : Nat := fld r 0x010 8
def rqMaxNew (r : List Byte) : Nat := fld r 0x028 4

/-- An FP32 encoding is finite, and its order as a signed number: sign and magnitude. -/
def fpFinite (x : Nat) : Bool := bits x 30 23 != 255
def fpNonNeg (x : Nat) : Bool := fpFinite x && (!bit x 31 || bits x 30 0 == 0)
def fpPositive (x : Nat) : Bool := fpFinite x && !bit x 31 && bits x 30 0 != 0

/-- The sampling and stop fields, which a PREFIX_REGISTER ignores (R308). -/
def samplingOk (r : List Byte) (vocab : Nat) : Bool :=
  let nt := fld r 0x036 1
  let ns := fld r 0x037 1
  fpNonNeg (fld r 0x02C 4) && fpPositive (fld r 0x030 4) && decide (fld r 0x030 4 ≤ 0x3F800000) &&
  decide (fld r 0x034 2 ≤ 256 ∧ nt ≤ 8 ∧ ns ≤ 4) && fpPositive (fld r 0x038 4) && fpFinite (fld r 0x03C 4) &&
  fpFinite (fld r 0x040 4) &&
  (List.range nt).all (fun i => decide (fld r (0x050 + 4 * i) 4 < vocab)) &&
  (List.range 4).all (fun q =>
    let l := fld r (0x070 + q) 1
    if q < ns then
      decide (1 ≤ l ∧ l ≤ 16) && (List.range l).all (fun i => decide (fld r (0x080 + 64 * q + 4 * i) 4 < vocab))
    else l == 0)

/-- Registrations admitted and not yet done: each will take a handle (R316). -/
def Serve.registering (v : Serve) : Nat := (v.active.filter (fun a => a.register)).length

/-- Check 1 of R309, with R316 for a PREFIX_REGISTER; PREFIX_FULL, which R316 names as its detail, has no field in the END record
(Table 17-7). -/
def Serve.fieldsOk (v : Serve) (r : List Byte) (reg : Bool) : Bool :=
  decide (fld r 0x008 1 < 2) && zeroFld r 0x009 1 && zeroFld r 0x044 12 && zeroFld r 0x074 12 && zeroFld r 0x180 128 &&
  (decide (rqVariant r ≤ 255) || rqVariant r == 0xFFFF) && decide (1 ≤ rqPlen r ∧ rqPlen r ≤ 131072) && fld r 0x020 8 % 4 == 0 &&
  (if reg then
     rqMaxNew r == 0 && rqPrefix r == 0 && rqPlen r % v.hdr.kvBt == 0 && decide (v.handles + v.registering < 4096)
   else decide (1 ≤ rqMaxNew r ∧ rqMaxNew r ≤ 131072) && samplingOk r v.hdr.vocab)

/-- The handle a record names, while it is registered. -/
def Serve.pfxOf (v : Serve) (h : Nat) : Option Pfx := v.prefixes.find? (fun p => p.live && p.handle == h)
/-- The slot a record pins (R319): with a handle the handle's, else the variant's current version; none for the base model. -/
def Serve.pinOf (v : Serve) (r : List Byte) : Option VSlot :=
  match v.pfxOf (rqPrefix r) with
  | some p => v.vslots.find? (fun x => x.slot == p.vslot)
  | none => v.vslots.find? (fun x => x.current && x.variant == rqVariant r)
/-- PL of R309. -/
def Serve.plOf (v : Serve) (r : List Byte) : Nat :=
  (v.pfxOf (rqPrefix r)).elim 0 (fun p => p.len) + (if rqVariant r = 0xFFFF then 0 else (v.pinOf r).elim 0 (fun x => x.len))
/-- N of R310. -/
def Serve.limitOf (v : Serve) (r : List Byte) : Nat := min (rqMaxNew r) (131072 - v.plOf r - rqPlen r)
/-- The KV blocks of R310. -/
def Serve.needOf (v : Serve) (r : List Byte) : Nat := cdiv (rqPlen r + v.limitOf r) v.hdr.kvBt

/-- The first failed check of R309: its reason, 0 for none. -/
def Serve.checkReq (v : Serve) (f c : Nat) (r : List Byte) (prompt : Option (List Nat)) (reg : Bool) : Nat :=
  if !v.fieldsOk r reg then 1
  else if v.active.any (fun a => a.fn == f && a.ctx == c && a.tag == recTag r) then 2
  else if rqVariant r ≠ 0xFFFF ∧
      (v.hdr.nvar ≤ rqVariant r ∨ !v.vslots.any (fun x => x.current && x.variant == rqVariant r)) then 3
  else if rqPrefix r ≠ 0 ∧ (v.pfxOf (rqPrefix r)).isNone then 4
  else if (v.pfxOf (rqPrefix r)).any (fun p => p.variant != rqVariant r) then 5
  else if 131072 < v.plOf r + rqPlen r + 1 then 6
  else if v.hdr.kvBlocks < v.needOf r then 7
  else
    match prompt with
    | none => 8
    | some l => if l.length ≠ rqPlen r ∨ l.any (fun t => decide (v.hdr.vocab ≤ t)) then 8 else 0

/-! ### Slots and their memory (R315) -/

/-- The free slots. -/
def Serve.freeSlots (v : Serve) : List Nat := (List.range v.hdr.genMax).filter (fun s => !v.active.any (fun a => a.slot == s))

/-- The blocks of a request in context order: the learned prefix's, the handle's, its own. -/
def Serve.blockList (v : Serve) (a : Active) : List Nat :=
  (if a.vslot = 0x1FF then [] else (v.vslots.find? (fun x => x.slot == a.vslot)).elim [] (fun x => x.blocks)) ++
    (a.pfx.bind (fun h => v.prefixes.find? (fun p => p.handle == h))).elim [] (fun p => p.blocks) ++ a.blocks

/-- Entries of a KV map row. -/
def ServeHdr.mapLen (h : ServeHdr) : Nat := cdiv 131072 h.kvBt
/-- The KV map entry of a slot: its address and bytes. -/
def Serve.kvRow (v : Serve) (a : Active) : Nat × List Byte :=
  let n := v.hdr.mapLen
  (v.hdr.kvmapAddr + 4 * n * a.slot,
   (((v.blockList a) ++ List.replicate n 0xFFFFFFFF).take n).flatMap (fun b => natLe b 4))
/-- The slot state table entry: the record, the sampler's state 0, the count table empty; the count of an empty entry is a free
value. -/
def Serve.seqRow (v : Serve) (a : Active) (open_ : Nat) : Nat × List Byte :=
  (v.hdr.seqAddr + 0x10400 * a.slot,
   a.record ++ List.replicate 512 0 ++ (List.replicate 8192 (natLe 0xFFFFFFFF 4 ++ natLe open_ 4)).flatten)

/-! ### Taking a head entry (R308 to R310, R316, R342) -/

/-- Entries of a context's queue that a doorbell has announced. -/
def Ctx.announced (x : Ctx) : Nat :=
  min x.queue.length ((x.qTail + ringEntries x.qSize - x.qHead) % ringEntries x.qSize)
/-- The queue without its i-th entry. -/
def Ctx.dropEntry (x : Ctx) (i : Nat) : Ctx :=
  { x with queue := x.queue.eraseIdx i, qHead := (x.qHead + 1) % ringEntries x.qSize }

/-- What becomes of a head entry: it stays, it ends with a reason, or it is admitted. -/
inductive Head where
  | stays
  | ends (tag reason : Nat)
  | admits (a : Active)
  deriving DecidableEq, Repr

/-- The head entry of a context, judged. A record that cannot be read has no TAG. Which free slot and KV blocks a request gets is not
given: the free values from the `open_`-th on choose them (log entry 103). -/
def Serve.judge (v : Serve) (open_ f c : Nat) (e : SubEntry) : Head :=
  let opc := cOpc e.entry
  let all := 2 ^ 64 - 1
  if opc ≠ 0x40 ∧ opc ≠ 0x41 then .ends all 1
  else
    match e.record with
    | none => .ends all 8
    | some r =>
      let reg := opc == 0x41
      let why := v.checkReq f c r e.prompt reg
      if !cReserved e.entry ∨ r.length ≠ 512 then .ends (recTag r) 1
      else if why ≠ 0 then .ends (recTag r) why
      else
        match pickOne open_ v.freeSlots with
        | none => .stays
        | some s =>
          if v.kvFree < v.needOf r then .stays
          else
            .admits { slot := s, fn := f, ctx := c, tag := recTag r, record := r, prompt := e.prompt.getD [], fed := 0,
                      gen := false, made := 0, limit := v.limitOf r, blocks := pickMany (open_ + 1) (v.needOf r) v.freeBlocks,
                      pfx := (v.pfxOf (rqPrefix r)).map (fun p => p.handle), variant := rqVariant r,
                      vslot := if rqVariant r = 0xFFFF then 0x1FF else (v.pinOf r).elim 0x1FF (fun x => x.slot),
                      register := reg, countsFull := false, order := v.admitted, closing := false }

/-- Admit: the slot, the blocks, the reference to the handle. -/
def Serve.letIn (v : Serve) (a : Active) : Serve :=
  { v with active := v.active ++ [a], admitted := v.admitted + 1, rr := 16 * a.fn + a.ctx,
           prefixes := v.prefixes.map (fun (p : Pfx) => if a.pfx = some p.handle then { p with refs := p.refs + 1 } else p) }

/-! ### Plans (R313, Table 17-6) -/

/-- A plan row. -/
def planRow (slot kind vslot pos token : Nat) : BitVec 64 :=
  BitVec.ofNat 64 (slot % 4096 * 2 ^ 52 + kind % 4 * 2 ^ 50 + vslot % 512 * 2 ^ 41 + pos % 2 ^ 17 * 2 ^ 24 + token % 2 ^ 18)
/-- A PAD row; what SLOT, VSLOT and POS hold there is a free value. -/
def padRow (open_ : Nat) : BitVec 64 := planRow (bits open_ 63 52) 0 (bits open_ 49 41) (bits open_ 40 24) 0

/-- Where a request's own tokens begin in its context. -/
def Serve.baseOf (v : Serve) (a : Active) : Nat :=
  (a.pfx.bind (fun h => v.prefixes.find? (fun p => p.handle == h))).elim 0 (fun p => p.len) +
    (if a.vslot = 0x1FF then 0 else (v.vslots.find? (fun x => x.slot == a.vslot)).elim 0 (fun x => x.len))

/-- The row of a generating sequence. -/
def Serve.genRow (v : Serve) (a : Active) : BitVec 64 :=
  planRow a.slot 1 a.vslot (v.baseOf a + a.prompt.length + a.made - 1) 0
/-- The next n prompt rows of a sequence. -/
def Serve.promptRows (v : Serve) (a : Active) (n : Nat) : List (BitVec 64) :=
  ((a.prompt.drop a.fed).take n).zipIdx.map (fun e =>
    planRow a.slot (if a.fed + e.2 + 1 = a.prompt.length then 3 else 2) a.vslot (v.baseOf a + a.fed + e.2) e.1)

/-- Prompt rows in admission order for as long as rows remain. -/
def Serve.fillRows (v : Serve) : List Active → Nat → List (BitVec 64)
  | [], _ => []
  | a :: r, n =>
    let l := v.promptRows a n
    l ++ v.fillRows r (n - l.length)

/-- The rows of the next plan. -/
def Serve.planRows (v : Serve) (open_ : Nat) : List (BitVec 64) :=
  let gens := (sortBy (fun a => a.slot) (v.active.filter (fun a => a.gen))).map v.genRow
  let g := 16 * cdiv gens.length 16
  let pad := List.replicate (g - gens.length) (padRow open_)
  let pre := v.fillRows (sortBy (fun a => a.order) (v.active.filter (fun a => !a.gen))) (v.hdr.rows - g)
  gens ++ pad ++ pre ++ List.replicate (v.hdr.rows - g - pre.length) (padRow open_)

def rowSlot (r : BitVec 64) : Nat := bits r.toNat 63 52
def rowKind (r : BitVec 64) : Nat := bits r.toNat 51 50

/-- The sequences once a plan is built: prompts have moved on, and one whose last prompt row it carries is GENERATING. -/
def Active.planned (a : Active) (rows : List (BitVec 64)) : Active :=
  if a.gen then a
  else
    let n := (rows.filter (fun r => rowSlot r == a.slot && 2 ≤ rowKind r)).length
    { a with fed := a.fed + n, gen := decide (a.prompt.length ≤ a.fed + n) }

/-! ### Output buffers (R314, Table 17-11) -/

structure OutEnt where
  cond : Nat
  token : Nat
  index : Nat
  full : Bool
  deriving DecidableEq, Repr

/-- The entry of row i of a step. -/
def ServeHdr.outAt (h : ServeHdr) (mem : Memory) (step i : Nat) : OutEnt :=
  let b := mem.bytes (h.outBuf step + 64 + 16 * i) 16
  ⟨fld b 3 1, fld b 4 4, fld b 8 4, bit (fld b 0xC 1) 0⟩
/-- STEP of an output buffer. -/
def ServeHdr.outStep (h : ServeHdr) (mem : Memory) (step : Nat) : Nat := mem.num (h.outBuf step) 8

/-- The output entry of a sequence in a step whose plan has these rows: that of its GEN or PROMPT_LAST row. -/
def ServeHdr.outOf (h : ServeHdr) (mem : Memory) (step : Nat) (rows : List (BitVec 64)) (a : Active) : Option OutEnt :=
  (rows.zipIdx.find? (fun e => rowSlot e.1 == a.slot && (rowKind e.1 == 1 || rowKind e.1 == 3))).map (fun e => h.outAt mem step e.2)

/-- Did one of a sequence's rows in a step set COUNTS_FULL (R322)? -/
def ServeHdr.fullOf (h : ServeHdr) (mem : Memory) (step : Nat) (rows : List (BitVec 64)) (a : Active) : Bool :=
  rows.zipIdx.any (fun e => rowSlot e.1 == a.slot && rowKind e.1 ≠ 0 && (h.outAt mem step e.2).full)

/-- What becomes of a sequence at a sampling point: its record, whether it is DONE, whether a prefix is registered. -/
structure Fate where
  rec_ : Option (List Byte)
  done : Bool
  regs : Bool
  full : Bool
  token : Bool
  deriving DecidableEq, Repr

/-- The fate of a sequence at the sampling point of boundary n, with the output of step n − 1 (R311, R314, R316, R326, R327). `fault`
says that a STEP-class error marks the step (R401), `set` that one of its rows set COUNTS_FULL (R322). -/
def fate (n : Nat) (fault had set : Bool) (out : Option OutEnt) (a : Active) : Fate :=
  let full := a.countsFull || set
  let fl := 2 * b2n full
  let gone := fun st why => ringRec a.tag 0xFFFFFFFF 0 n 2 st fl why a.made
  if fault && had then ⟨some (gone 4 11), true, false, full, false⟩
  else
    match out with
    | some o =>
      if a.register then ⟨none, true, true, full, false⟩
      else
        let rec_ := fun kind st flags total => some (ringRec a.tag o.token o.index (n - 1) kind st flags 0 total)
        if o.cond = 1 ∨ o.cond = 2 then ⟨rec_ 1 1 (fl + b2n a.closing) (a.made + 1), true, false, full, true⟩
        else if o.cond = 3 then ⟨rec_ 1 2 (fl + b2n a.closing) (a.made + 1), true, false, full, true⟩
        else if a.closing then ⟨rec_ 1 3 fl (a.made + 1), true, false, full, true⟩
        else ⟨rec_ 0 0 fl 0, false, false, full, true⟩
    | none =>
      if a.closing then ⟨some (gone 3 0), true, false, full, false⟩ else ⟨none, false, false, full, false⟩

end Sys2Proof.Machine
end

