-- ==== Sys2Proof/Machine/Sampling.lean ====
section
/-! DEFINITION. The sampling point of a serving partition and the arrival of a plan (R305, R310 to R319, R324 to R330, R345, R401). -/

namespace Sys2Proof.Machine

/-- What a sampling point carries along: the device, the partition's serving state, the records for the token rings, newest first, and
the memory changes. `was` lists the requests that were active before the sequences of the step before retired. `pm` names the Mould,
`n` is the boundary. -/
structure Samp where
  d : Dev
  v : Serve
  recs : Recs
  ops : List MemOp
  was : List Active

def Samp.ring (a : Samp) (f c : Nat) (r : List Byte) : Samp := { a with recs := (f, c, r) :: a.recs }
def Samp.done (a : Samp) (w : Waiting) (st : Nat) : Samp := { a with d := a.d.complete w.fn w.cid st 0 }

/-- The Mould's serving state is written back into the device before a log entry and read from it after. -/
def Samp.put (a : Samp) (pm : Nat) : Dev := a.d.updMould pm (fun m => { m with serve := some a.v })
def Samp.log (a : Samp) (pm : Nat) (bs : List Byte) : Samp :=
  let d := (a.put pm).log pm bs
  { a with d := d, v := ((d.moulds.find? (fun m => m.pmask == pm)).bind (fun m => m.serve)).getD a.v }

/-! ### Commands (R317, R326, R327, R329) -/

/-- The active requests that a sampled command cancels, as long as no drain runs: those of a context that closes, the one a cancel names,
all under an aborting drain. -/
def Waiting.hits (w : Waiting) (drains : Bool) (x : Active) : Bool :=
  match w.kind with
  | .closeCtx c => x.fn == w.fn && x.ctx == c
  | .cancel c tag => x.fn == w.fn && x.ctx == c && x.tag == tag
  | .prefixRelease _ => false
  | .drain abort => abort && drains

/-- The cancels sampled here mark their requests before the sequences of step n − 1 are judged (R326, R327); a departed function's
requests are cancelled too (R345). Only the first of several drains counts. -/
def Serve.marked (v : Serve) (d : Dev) (ws : List Waiting) : List Active :=
  let first := ws.find? (fun w => match w.kind with | .drain _ => true | _ => false)
  v.active.map (fun (x : Active) =>
    if ws.any (fun w => w.hits (v.draining.isNone && first == some w) x) || (d.func x.fn).left.isSome then { x with closing := true } else x)

/-- A request that a command has cancelled at this sampling point. -/
def Samp.mark (a : Samp) (p : Active → Bool) : Samp :=
  { a with was := a.was.map (fun (x : Active) => if p x then { x with closing := true } else x) }
/-- The log entries of the requests that a command cancels (R330). -/
def Samp.logCancels (pm n : Nat) (a : Samp) (p : Active → Bool) : Samp :=
  (a.was.filter (fun x => p x && !x.closing)).foldl (fun (b : Samp) x => b.log pm (logBytes n 2 x.fn x.ctx x.slot x.tag 0 0)) a

/-- The announced entries of a context that a cancel would end: their places and tags. -/
def Ctx.queued (x : Ctx) : List (Nat × Nat) :=
  ((x.queue.take x.announced).zipIdx).map (fun e => (e.2, recTag (e.1.record.getD [])))

/-- Every queued request of a context ends CANCELLED. -/
def Samp.cancelQueue (a : Samp) (f c n : Nat) : Samp :=
  match a.d.ctx f c with
  | none => a
  | some x =>
    let b := x.queued.foldl (fun (b : Samp) e => b.ring f c (endRec e.2 n 3 0 0)) a
    { b with d := b.d.setCtx f c { x with queue := [], qHead := x.qTail } }

/-- One sampled command. CLOSE_CTX goes on waiting until its records are written. -/
def Samp.command (pm n : Nat) (a : Samp) (w : Waiting) : Samp :=
  let keep := fun (a : Samp) => { a with v := { a.v with waiting := a.v.waiting ++ [w] } }
  match w.kind with
  | .closeCtx c =>
    let mine := fun (x : Active) => x.fn == w.fn && x.ctx == c
    keep (((a.logCancels pm n mine).mark mine).cancelQueue w.fn c n)
  | .cancel c tag =>
    let mine := fun (x : Active) => x.fn == w.fn && x.ctx == c && x.tag == tag
    match a.was.find? mine, a.d.ctx w.fn c with
    | some x, _ =>
      if x.closing then a.done w stAlready
      else ((a.mark mine).log pm (logBytes n 2 w.fn c x.slot tag 0 0)).done w stOk
    | none, some x =>
      (match x.queued.find? (fun e => e.2 == tag) with
       | none => a.done w stNotFound
       | some e =>
         let b := { a with d := a.d.setCtx w.fn c (x.dropEntry e.1) }
         ((b.ring w.fn c (endRec tag n 3 0 0)).log pm (logBytes n 2 w.fn c 0xFFFF tag 0 0)).done w stOk)
    | none, none => a.done w stNotFound
  | .prefixRelease h =>
    match a.v.release h with
    | none => a.done w stNotFound
    | some v => (({ a with v := v } : Samp).log pm (logBytes n 4 w.fn 0 0xFFFF h 0 0)).done w stOk
  | .drain abort =>
    if a.v.draining.isSome then a.done w stAlready
    else
      let b := { a with v := { a.v with drainSince := true, draining := some (w.fn, w.cid) } }
      let b := b.log pm (logBytes n 6 w.fn 0 0xFFFF 0 0 0)
      if abort then (b.logCancels pm n (fun _ => true)).mark (fun _ => true) else b

/-! ### Retirement (R311, R314, R316, R317, R401) -/

/-- Slot, blocks and references of a request that is DONE are free; a registered prefix keeps its blocks. -/
def Samp.retire (a : Samp) (x : Active) : Samp :=
  let v := { a.v with active := a.v.active.filter (fun (y : Active) => y.slot ≠ x.slot) }
  match x.pfx with
  | none => { a with v := v }
  | some h => { a with v := v.deref (h % 4096) (h / 4096) false }

/-- The handle that a new prefix gets: a free index, which is not given (log entry 103), and the index's next count; in a replay the logged
one, which the logged requests name (R239). -/
def Samp.newHandle (n : Nat) (a : Samp) (x : Active) : Nat × Nat :=
  match a.v.given.find? (fun g => fld g.entry 0 8 == n && fld g.entry 8 1 == 3 && fld g.entry 0xC 2 == x.slot) with
  | some g => (fld g.entry 0x10 8 % 4096, fld g.entry 0x10 8 / 4096)
  | none =>
    let i := (pickOne a.d.free ((List.range 4096).filter (fun i => !a.v.prefixes.any (fun p => p.live && p.idx == i)))).getD 4095
    (i, lk 0 a.v.pfxCounts i + 1)

/-- A prefix is registered: its handle in the END record (R316). -/
def Samp.register (pm n : Nat) (a : Samp) (x : Active) : Samp :=
  let v := a.v
  let (i, c) := a.newHandle n x
  let p : Pfx := { idx := i, count := c, live := true, refs := 1, blocks := x.blocks, len := x.prompt.length, variant := x.variant,
                   vslot := x.vslot }
  let h := p.handle
  let r := ringRec x.tag (h % 2 ^ 32) (h / 2 ^ 32) n 2 2 (b2n x.closing) 0 x.made
  (({ a with d := { a.d with free := a.d.free + 1 }, v := { v with prefixes := v.prefixes ++ [p], pfxCounts := up v.pfxCounts i c } } : Samp).ring
    x.fn x.ctx r).log pm
    (logBytes n 3 x.fn x.ctx x.slot h 0 0)

/-- One sequence at the sampling point, in slot order. -/
def Samp.finish (pm n : Nat) (mem : Memory) (fault : Bool) (rows : List (BitVec 64)) (a : Samp) (x : Active) : Samp :=
  let had := rows.any (fun r => rowSlot r == x.slot && rowKind r ≠ 0)
  let t := fate n fault had (a.v.hdr.fullOf mem (n - 1) rows x) (a.v.hdr.outOf mem (n - 1) rows x) x
  let a := match t.rec_ with
    | some r => a.ring x.fn x.ctx r
    | none => a
  let a := if t.regs then a.register pm n x else a
  if t.done then a.retire x
  else
    { a with v := { a.v with active := a.v.active.map (fun (y : Active) =>
        if y.slot = x.slot then { y with made := y.made + b2n t.token, countsFull := t.full } else y) } }

/-! ### Variants (R319) -/

/-- Is a version still pinned? -/
def Serve.pinned (v : Serve) (slot : Nat) : Bool :=
  v.active.any (fun a => a.vslot == slot) || v.prefixes.any (fun p => p.vslot == slot)

/-- Versions committed since the last sampling point become current; versions that are neither current, pinned nor loading give their slots back. -/
def Samp.variants (pm n : Nat) (m : Mould) (a : Samp) : Samp :=
  let a := m.newVers.foldl (fun (a : Samp) e =>
    let l := a.v.vslots.map (fun (x : VSlot) =>
      if x.slot = e.2 then { x with current := true } else if x.variant = e.1 then { x with current := false } else x)
    ({ a with v := { a.v with vslots := l } } : Samp).log pm (logBytes n 5 (m.owner.getD 0) 0 0xFFFF 0 (e.1 + e.2 * 65536) 0)) a
  let loading := fun (s : Nat) => m.wload.any (fun w => w.busy && w.kind == 1 && w.vslot == s)
  let free := (a.v.vslots.filter (fun x => !x.current && !a.v.pinned x.slot && !loading x.slot)).map (fun x => x.slot)
  let gone := fun (m : Mould) =>
    { m with newVers := [], variants := m.variants.filter (fun (x : VarVer) => !free.contains x.slot)
             images := m.images.filter (fun (w : WLoad) => !(w.kind == 1 && free.contains w.vslot)) }
  { a with d := a.d.updMould pm gone
           v := { a.v with vslots := a.v.vslots.filter (fun (x : VSlot) => !free.contains x.slot) } }

/-! ### Admission (R309, R310, R325, R330) -/

/-- The submission queues of the partition's contexts, by 16·function + context, from the one after `rr` on. -/
def Dev.queuesFrom (d : Dev) (low rr : Nat) : List Nat :=
  ((List.range 64).map (fun i => (rr + 1 + i) % 64)).filter (fun q =>
    (d.func (q / 16)).left.isNone && (d.ctx (q / 16) (q % 16)).any (fun x => x.part == low))

/-- Admit a request: its memory, its log entry with the record. The other members' KV maps are written over class MGMT (log entry 153). -/
def Samp.letIn (pm n : Nat) (m : Mould) (a : Samp) (x : Active) : Samp :=
  let v := a.v.letIn x
  let free := (Config.freeValue a.d.free).toNat % 2 ^ 32
  let s := v.seqRow x free
  let k := v.kvRow x
  let d := ({ a.d with free := a.d.free + 1 } : Dev).sendAllWith m 22 (k.1 % 2 ^ 32)
    (natLe k.1 8 ++ natLe k.2.length 4 ++ natLe 1 4 ++ k.2) (fun i => .fwd i m.fpid k.1 k.2.length true k.2)
  let w1 := d.winWrite s.1 s.2
  let w2 := w1.1.winWrite k.1 k.2
  let dig := shake256 (x.prompt.flatMap (fun t => natLe t 4))
  ({ a with d := w2.1, v := v, ops := a.ops ++ w1.2 ++ w2.2 } : Samp).log pm
    (logBytes n 1 x.fn x.ctx x.slot x.tag 0 dig ++ x.record)

/-- Visit one queue: its head is taken when it fits or fails; true when it was taken. -/
def Samp.visit (pm n : Nat) (m : Mould) (a : Samp) (q : Nat) : Bool × Samp :=
  let f := q / 16
  let c := q % 16
  match a.d.ctx f c with
  | none => (false, a)
  | some x =>
    match x.queue with
    | [] => (false, a)
    | e :: _ =>
      let mine := (a.v.active.filter (fun y => y.fn == f && y.ctx == c)).length
      if x.announced = 0 ∨ x.room < 2 * mine then (false, a)
      else
        let b := { a with d := a.d.setCtx f c (x.dropEntry 0) }
        match a.v.judge a.d.free f c e with
        | .stays => (false, a)
        | .ends tag why => (true, b.ring f c (endRec tag n 4 why 0))
        | .admits y => (true, ({ b with d := { b.d with free := b.d.free + 1 + y.blocks.length } } : Samp).letIn pm n m y)

/-- Go round the queues until none gives up its head. `k` bounds the rounds. -/
def Samp.rounds (pm n : Nat) (m : Mould) : Nat → List Nat → Samp → Samp
  | 0, _, a => a
  | k + 1, qs, a =>
    let r := qs.foldl (fun (r : Bool × Samp) q =>
      let t := r.2.visit pm n m q
      (r.1 || t.1, t.2)) (false, a)
    if r.1 then Samp.rounds pm n m k qs r.2 else r.2

/-- Admit a logged request at its step (R239, R330), in its slot where that is free. Its checks are those of R309, and the prompt must
have the logged digest (reason 9). -/
def Samp.readmit (pm n : Nat) (m : Mould) (a : Samp) (g : GivenReq) : Samp :=
  let b := g.entry
  let f := fld b 9 1
  let c := fld b 0xA 1
  let r := (b.drop 64).take 512
  let reg := rqMaxNew r == 0
  let e : SubEntry := { entry := BitVec.ofNat 512 (if reg then 0x41 else 0x40), record := some r, prompt := g.prompt }
  match a.v.judge a.d.free f c e with
  | .stays => a
  | .ends tag why => a.ring f c (endRec tag n 4 why 0)
  | .admits y =>
    if shake256 (y.prompt.flatMap (fun t => natLe t 4)) ≠ fld b 0x20 32 then a.ring f c (endRec y.tag n 4 9 0)
    else
      let s := if a.v.freeSlots.contains (fld b 0xC 2) then fld b 0xC 2 else y.slot
      ({ a with d := { a.d with free := a.d.free + 1 + y.blocks.length } } : Samp).letIn pm n m { y with slot := s }

/-- Admission. A replay takes nothing from the submission queues: it admits what the supplied log admitted at this step (R239). -/
def Samp.admission (pm n : Nat) (m : Mould) (a : Samp) : Samp :=
  if a.v.drainSince then a
  else if m.replay then
    (a.v.given.filter (fun g => fld g.entry 0 8 == n && fld g.entry 8 1 == 1)).foldl (Samp.readmit pm n m) a
  else
    let qs := a.d.queuesFrom (lowPart pm) a.v.rr
    let k := (qs.map (fun q => ((a.d.ctx (q / 16) (q % 16)).elim 0 (fun x => x.queue.length)))).sum
    Samp.rounds pm n m (k + 1) qs a

/-! ### The plan, the records, the end of commands -/

/-- Build PLAN(n) and put it in place (R312, R313); the last 16 are kept (R330). -/
def Samp.plan (pm n : Nat) (a : Samp) : Dev × List MemOp :=
  let rows := a.v.planRows (Config.freeValue a.d.free).toNat
  let v := { a.v with active := a.v.active.map (fun (x : Active) => x.planned rows), planned := n + 1, recorded := n,
                      plans := (⟨n, rows⟩ :: a.v.plans).take 16 }
  let d := ({ a with d := { a.d with free := a.d.free + 1 }, v := v } : Samp).put pm
  match d.moulds.find? (fun m => m.pmask == pm) with
  | none => (d, a.ops)
  | some m =>
    let r := d.sendPlan m n rows
    (r.1, a.ops ++ r.2)

/-- Write the records, context by context, those of the step before n before those of boundary n (R324); none go to a function that has
left. -/
def Dev.writeRecs (d : Dev) (n : Nat) (recs : Recs) : Dev :=
  (List.range 64).foldl (fun d q =>
    let l := (recs.filter (fun r => r.1 == q / 16 && r.2.1 == q % 16)).map (fun r => r.2.2)
    let l := l.filter (fun b => fld b 0x10 8 < n) ++ l.filter (fun b => n ≤ fld b 0x10 8)
    if l.isEmpty || (d.func (q / 16)).left.isSome then d else d.ring (q / 16) (q % 16) l) d

/-- Closes complete once their records are written; a drain completes when no request is active. -/
def Dev.endCommands (d : Dev) (pm : Nat) : Dev :=
  match (d.moulds.find? (fun m => m.pmask == pm)).bind (fun m => m.serve) with
  | none => d
  | some v =>
    let d := d.updMould pm (fun m => { m with serve := some { v with waiting := [] } })
    let d := v.waiting.foldl (fun d w =>
      let keep := fun (d : Dev) => d.updMould pm (fun m => { m with serve := m.serve.map (fun v => { v with waiting := v.waiting ++ [w] }) })
      match w.kind with
      | .closeCtx c =>
        if (d.ctx w.fn c).any (fun x => !x.backlog.isEmpty) then keep d else (d.delCtx w.fn c).complete w.fn w.cid stOk 0
      | _ => keep d) d
    if v.active.isEmpty ∧ v.draining.isSome then
      (d.updMould pm (fun m => { m with serve := m.serve.map (fun v => { v with draining := none }) })).completeOpt v.draining stOk 0
    else d

/-- The contexts of departed functions on this partition close, as a cancel sampled here; then their teardown (R345). -/
def Samp.leave (pm n : Nat) (a : Samp) : Samp :=
  (List.range 4).foldl (fun (a : Samp) f =>
    if (a.d.func f).left.isNone then a
    else
      let mine := fun (x : Active) => x.fn == f
      let b := (a.logCancels pm n mine).mark mine
      { b with d := b.d.updFunc f (fun x => { x with ctxs := x.ctxs.filter (fun (e : Nat × Ctx) => e.2.part ≠ lowPart pm) }) }) a
def Dev.leaveAll (d : Dev) : Dev := (List.range 4).foldl (fun d f => d.tryTeardown f) d

/-- Member 0's work at the sampling point of boundary n, in the order of R312. -/
def Dev.sample (d : Dev) (mem : Memory) (m : Mould) (v : Serve) (n : Nat) : Dev × List MemOp :=
  let pm := m.pmask
  let rows := ((v.plans.find? (fun k => k.step + 1 == n)).map (fun k => k.rows)).getD []
  let fault : Bool := decide (0 < n) && (d.errs.stepErrs.any (fun e => bit pm e.1) || v.hdr.outStep mem (n - 1) != n - 1)
  let d := { d with errs := { d.errs with stepErrs := d.errs.stepErrs.filter (fun (e : Nat × Nat) => !bit pm e.1) } }
  let d := if n = 0 then d else
    d.eccRead (wordsOf (v.hdr.outBuf (n - 1)) (64 + 16 * v.hdr.rows)) 0xFFFF [] []
  let a : Samp := { d := d, v := { v with waiting := [], active := v.marked d v.waiting }, recs := [], ops := [], was := v.active }
  let a := (sortBy (fun x => x.slot) a.v.active).foldl (Samp.finish pm n mem fault rows) a
  let a := a.leave pm n
  let a := v.waiting.foldl (Samp.command pm n) a
  let a := a.variants pm n m
  let d := (a.put pm).startPending pm
  let v := ((d.moulds.find? (fun (m : Mould) => m.pmask == pm)).bind (fun m => m.serve)).getD a.v
  let a : Samp := { a with d := d, v := v }
  let a := a.admission pm n m
  let r := a.plan pm n
  (((r.1.writeRecs n a.recs.reverse).endCommands pm).leaveAll, r.2)

/-- A STEP-class error of a REPLICA partition (R401): every member rewinds to the boundary and reruns the step; a second one in the rerun
is recorded again, escalated to class PARTITION. A second output buffer of another step (R314) has no record to repeat: its code is a free
value. -/
def Dev.rewind (d : Dev) (m : Mould) : Dev × List MemOp :=
  let st := (d.part (lowPart m.pmask)).step.toNat
  if m.rerun = some st then
    let r := d.errs.ring.find? (fun (r : ErrRec) => r.cls == 1 && r.step.toNat == st && (partsOf m.pmask).any (fun p => bit r.pmask.toNat p))
    let d := { d with errs := { d.errs with stepErrs := d.errs.stepErrs.filter (fun (e : Nat × Nat) => !bit m.pmask e.1) } }
    match r with
    | none =>
      let v := (Config.freeValue d.free).toNat % 2 ^ 16
      let x : Err := { code := v, cls := 2, source := 17, core := 0xFFFF, pmask := m.pmask, fpid := m.fpid, detail := [],
                       escalated := true }
      (({ d with free := d.free + 1 } : Dev).raise x, [])
    | some r =>
      let x : Err := { code := r.code, cls := 2, source := r.source, core := r.core, pmask := r.pmask.toNat, fpid := r.fpid,
                       detail := r.detail, escalated := true }
      (d.raise x, [])
  else (d.sendAll m 13 0xFFFF).standBy m (m.failover.elim [] (fun f => f.lost)) none true

/-- SAMPLING_POINT (R312, R345, R401): the first cycle in which both conditions of R220 hold for the next boundary. A member of a REPLICA
partition acts on a STEP-class error here; member 0 of a serving partition does its work once for each boundary, and puts a plan built
before a rerun in place again. -/
def execSamplingPoint (p : PartId) (s : State) : Host.Outcome State Fault Refusal :=
  liftW (fun mem _ d =>
    match d.mouldLow p with
    | none => (d, [])
    | some m =>
      let n := (d.part p).next
      if !(partsOf m.pmask).all (fun q => (d.part q).next == n && d.boundaryDue q m) || m.failover.isSome || !m.alive m.self then (d, [])
      else
        let v? := if m.self = 0 then m.serve else none
        let wrong := v?.any (fun v => decide (0 < n ∧ v.planned ≤ n) && v.hdr.outStep mem (n - 1) != n - 1)
        if m.replica && (d.errs.stepErrs.any (fun e => bit m.pmask e.1) || wrong) then d.rewind m
        else
          match v? with
          | none => (d, [])
          | some v =>
            if v.planned ≤ n then d.sample mem m v n
            else if v.planIn = n + 1 then (d, [])
            else
              match v.plans.find? (fun k => k.step == n) with
              | some k => d.sendPlan m n k.rows
              | none => (d, [])) s

/-- MSG_PLAN (R312): the plan is in place on this member. -/
def execMsgPlan (h : MHdr) (step : Nat) (rows : List (BitVec 64)) (s : State) : Host.Outcome State Fault Refusal :=
  liftW (fun _ _ d => d.onMsg h (fun d m =>
    match m.serve with
    | none => (d, [])
    | some v =>
      if m.self = 0 ∨ h.src ≠ 0 ∨ rows.length ≠ v.hdr.rows then (d, [])
      else
        (d.updMould m.pmask (fun m => { m with serve := m.serve.map (fun v => { v with planIn := step + 1 }) })).winWrite
          (v.hdr.planBuf step) (planBytes step rows))) s

end Sys2Proof.Machine
end

