-- ==== Sys2Proof/Machine/Scalar.lean ====
section
/-! DEFINITION. The scalar instructions (R46, R157 to R159, Table 04-4). -/

namespace Sys2Proof.Machine

/-- NOP (R157): no effect but the advance. -/
def execNop (k : CoreId) (q : SeqId) (s : State) : Host.Outcome State Fault Refusal :=
  seqOp k q 0x00 (fun _ d _ => .ok (d.setSeq k q (d.seq k q).advance) []) s

def execAdd (k : CoreId) (q : SeqId) (s : State) : Host.Outcome State Fault Refusal := rrOp k q 0x10 (fun a b => a + b) s
def execSub (k : CoreId) (q : SeqId) (s : State) : Host.Outcome State Fault Refusal := rrOp k q 0x11 (fun a b => a - b) s
def execMul (k : CoreId) (q : SeqId) (s : State) : Host.Outcome State Fault Refusal := rrOp k q 0x12 (fun a b => a * b) s

/-- The high half of the signed product (R158). -/
def mulHS (a b : Word) : Word := BitVec.ofInt 64 ((a.toInt * b.toInt).fdiv (2 ^ 64))
/-- The high half of the unsigned product (R158). -/
def mulHU (a b : Word) : Word := BitVec.ofNat 64 (a.toNat * b.toNat / 2 ^ 64)

def execMulhs (k : CoreId) (q : SeqId) (s : State) : Host.Outcome State Fault Refusal := rrOp k q 0x13 mulHS s
def execMulhu (k : CoreId) (q : SeqId) (s : State) : Host.Outcome State Fault Refusal := rrOp k q 0x14 mulHU s
def execAnd (k : CoreId) (q : SeqId) (s : State) : Host.Outcome State Fault Refusal := rrOp k q 0x15 (fun a b => a &&& b) s
def execOr (k : CoreId) (q : SeqId) (s : State) : Host.Outcome State Fault Refusal := rrOp k q 0x16 (fun a b => a ||| b) s
def execXor (k : CoreId) (q : SeqId) (s : State) : Host.Outcome State Fault Refusal := rrOp k q 0x17 (fun a b => a ^^^ b) s

/-- Shifts take the amount mod 64 (R158, Table 04-4). -/
def shl64 (a b : Word) : Word := a <<< (b.toNat % 64)
def shr64 (a b : Word) : Word := a >>> (b.toNat % 64)
def sra64 (a b : Word) : Word := a.sshiftRight (b.toNat % 64)

def execShl (k : CoreId) (q : SeqId) (s : State) : Host.Outcome State Fault Refusal := rrOp k q 0x18 shl64 s
def execShr (k : CoreId) (q : SeqId) (s : State) : Host.Outcome State Fault Refusal := rrOp k q 0x19 shr64 s
def execSra (k : CoreId) (q : SeqId) (s : State) : Host.Outcome State Fault Refusal := rrOp k q 0x1A sra64 s

/-- 1 or 0. -/
def flag64 (b : Bool) : Word := if b then 1 else 0

def execSlt (k : CoreId) (q : SeqId) (s : State) : Host.Outcome State Fault Refusal :=
  rrOp k q 0x1B (fun a b => flag64 (a.slt b)) s
def execSltu (k : CoreId) (q : SeqId) (s : State) : Host.Outcome State Fault Refusal :=
  rrOp k q 0x1C (fun a b => flag64 (a.ult b)) s
def execMin (k : CoreId) (q : SeqId) (s : State) : Host.Outcome State Fault Refusal :=
  rrOp k q 0x1D (fun a b => if a.sle b then a else b) s
def execMax (k : CoreId) (q : SeqId) (s : State) : Host.Outcome State Fault Refusal :=
  rrOp k q 0x1E (fun a b => if b.sle a then a else b) s

/-- SEL: a if register C is not 0, else b (R158). -/
def execSel (k : CoreId) (q : SeqId) (s : State) : Host.Outcome State Fault Refusal :=
  regOp k q 0x1F (fun _ x w => if x.get (wC w) ≠ 0 then x.get (wA w) else x.get (wB w)) s

def execAddi (k : CoreId) (q : SeqId) (s : State) : Host.Outcome State Fault Refusal := riOp k q 0x20 (fun a i => a + i) s
def execMuli (k : CoreId) (q : SeqId) (s : State) : Host.Outcome State Fault Refusal := riOp k q 0x21 (fun a i => a * i) s
def execAndi (k : CoreId) (q : SeqId) (s : State) : Host.Outcome State Fault Refusal := riOp k q 0x22 (fun a i => a &&& i) s
def execOri (k : CoreId) (q : SeqId) (s : State) : Host.Outcome State Fault Refusal := riOp k q 0x23 (fun a i => a ||| i) s
def execXori (k : CoreId) (q : SeqId) (s : State) : Host.Outcome State Fault Refusal := riOp k q 0x24 (fun a i => a ^^^ i) s
/-- SHLI, SHRI, SRAI: the amount is IMM[5:0]; the other bits are 0 by R158. -/
def execShli (k : CoreId) (q : SeqId) (s : State) : Host.Outcome State Fault Refusal := riOp k q 0x25 shl64 s
def execShri (k : CoreId) (q : SeqId) (s : State) : Host.Outcome State Fault Refusal := riOp k q 0x26 shr64 s
def execSrai (k : CoreId) (q : SeqId) (s : State) : Host.Outcome State Fault Refusal := riOp k q 0x27 sra64 s
def execSlti (k : CoreId) (q : SeqId) (s : State) : Host.Outcome State Fault Refusal :=
  riOp k q 0x28 (fun a i => flag64 (a.slt i)) s
/-- SLTIU compares with the immediate extended by its sign and read unsigned (R158). -/
def execSltiu (k : CoreId) (q : SeqId) (s : State) : Host.Outcome State Fault Refusal :=
  riOp k q 0x29 (fun a i => flag64 (a.ult i)) s
def execLi (k : CoreId) (q : SeqId) (s : State) : Host.Outcome State Fault Refusal := riOp k q 0x2A (fun _ i => i) s
/-- LIH: IMM[31:0] above a's low half (R158). -/
def execLih (k : CoreId) (q : SeqId) (s : State) : Host.Outcome State Fault Refusal :=
  regOp k q 0x2B (fun _ x w => BitVec.ofNat 64 (bits w 31 0 * 2 ^ 32 + (x.get (wA w)).toNat % 2 ^ 32)) s

/-- Table 09-3: what RDSYS reads. -/
def Dev.sysValue (d : Dev) (k sel : Nat) : Nat :=
  let p := d.partOf k
  match sel with
  | 0 => k
  | 1 => d.posOf k
  | 2 => p
  | 3 => (d.mouldOf p).elim 0 (fun m => m.fpid)
  | 4 => (d.mouldOf p).elim 0 (fun m => m.self)
  | 5 => (d.mouldOf p).elim 0 (fun m => m.devices)
  | _ => (d.part p).step.toNat

/-- RDSYS (R159). -/
def execRdsys (k : CoreId) (q : SeqId) (s : State) : Host.Outcome State Fault Refusal :=
  regOp k q 0x05 (fun d _ w => BitVec.ofNat 64 (d.sysValue k (wImm w))) s

end Sys2Proof.Machine
end

