-- ==== Sys2Proof/Machine/StartUp.lean ====
section
/-! DEFINITION. The ends of non-volatile writes, and what the Cave's and the key table's readiness release (R295, R300, R363, R366, R370,
R374, R385, R391, R394, R396, R398). -/

namespace Sys2Proof.Machine

/-- Is a held command's condition met (Table 22-2)? KEY_INSTALL waits for the key table, the others for the Cave. -/
def Dev.mayRun (d : Dev) (e : BitVec 512) : Bool := if cOpc e = 0x20 then d.crm.keysLoaded else d.flash.ready

/-- Run a command that was taken and held. -/
def Dev.runHeld (d : Dev) (cave : Memory) (f : Nat) (e : BitVec 512) (data : Option (List Byte)) : Dev × List MemOp :=
  match cOpc e with
  | 0x10 => (d.loadMould cave f e data, [])
  | 0x11 => d.startCmd f e
  | 0x12 => d.unloadCmd f e
  | 0x13 => d.loadWeights f e
  | 0x20 => (d.keyInstall f e data, [])
  | 0x25 => (d.caveRead cave f e, [])
  | 0x26 => (d.caveWrite f e data, [])
  | _ => (d, [])

/-- Run every held command whose condition is met, in the order they were taken. -/
def Dev.runWaiting (d : Dev) (cave : Memory) : Dev × List MemOp :=
  let l := d.crm.waitCmds
  let keep := l.filter (fun (c : Nat × BitVec 512 × Option (List Byte)) => !d.mayRun c.2.1)
  (l.filter (fun c => d.mayRun c.2.1)).foldl (fun (a : Dev × List MemOp) c =>
    let r := a.1.runHeld cave c.1 c.2.1 c.2.2
    (r.1, a.2 ++ r.2)) ({ d with crm := { d.crm with waitCmds := keep } }, [])

/-- CAVE_READY (R396): CAVE_STATUS.READY; what waited for the Cave goes on. -/
def execCaveReady (chFail : BitVec 16) (s : State) : Host.Outcome State Fault Refusal :=
  liftW (fun _ cave d =>
    if d.rst || d.crm.phase ≠ .firmware || d.flash.ready then (d, [])
    else
      let d := { d with flash := { d.flash with ready := true, chFail := chFail } }
      let d := (d.moulds.map (fun m => m.pmask)).foldl (fun d pm => d.digestCaves cave pm) d
      d.runWaiting cave) s

/-- Reload one persisted key: an entry whose digest differs is dropped, with a record (R374). -/
def Dev.reloadKey (d : Dev) (k : KeyEnt) : Dev :=
  if shake256 k.key ≠ k.digest then
    let v := (Config.freeValue d.free).toNat
    ({ d with free := d.free + 1 }).raiseDev 0x02 0 17 [4, v]
  else if d.crm.hasKey k.digest then d
  else d.addKey k

/-- KEY_RELOAD_END (R374, R398): the persisted keys are in the table; checks and commands that waited for them run. -/
def execKeyReloadEnd (s : State) : Host.Outcome State Fault Refusal :=
  liftW (fun _ cave d =>
    if d.rst || d.crm.phase ≠ .firmware || !d.flash.ready || d.crm.keysLoaded then (d, [])
    else
      let d := d.flash.sysKeys.foldl (fun d k => d.reloadKey k) d
      let d := { d with crm := { d.crm with keysLoaded := true } }
      let a := d.loads.foldl (fun (a : Dev × List MemOp) l =>
        let r := a.1.checkLoad l
        (r.1, a.2 ++ r.2)) (d, [])
      let d := (a.1.moulds.map (fun m => m.pmask)).foldl (fun d pm => d.checkManifest pm) a.1
      let r := d.runWaiting cave
      (r.1, a.2 ++ r.2)) s

/-- What goes on when a write is done: the next commit or program of the same operation, or its completion. A Cave that was worn
before has changed nothing, and the command is refused (R303). -/
def Dev.nvDone (d : Dev) (cave : Memory) (worn : Bool) : NvKind → Dev
  | .caveWrite f cid off data =>
    let rest := data.drop commitBytes
    if worn then d.complete f cid stRefused 0
    else if rest.isEmpty then d.complete f cid stOk 0
    else if 4 ≤ f then d
    else d.nvAsk needCave (.caveWrite f cid (off + commitBytes) rest)
  | .caveShard p id off data =>
    let rest := data.drop commitBytes
    match d.mouldLow p with
    | none => d
    | some m =>
      if rest.isEmpty ∨ worn then
        if m.wload.any (fun w => w.taking && w.shards.any (fun x => x.id == id && x.cave && !x.ok)) then d.digestCave cave m.pmask id
        else d
      else d.nvAsk needCave (.caveShard p id (off + commitBytes) rest)
  | .keyInstall f cid k =>
    if worn then d.complete f cid stRefused 0 else
    let d := if d.crm.hasKey k.digest then d else d.addKey k
    d.complete f cid stOk 0
  | .keyRemove f cid g =>
    if worn then d.complete f cid stRefused 0 else
    let d := { d with crm := { d.crm with keys := d.crm.keys.filter (fun (e : Nat × KeyEnt) => e.2.digest ≠ g) } }
    d.complete f cid stOk 0
  | .retire f cid _ => d.rebuildMap.complete f cid stOk 0
  | .leaf r => if 4 ≤ r.fn then d else (d.signReport r).attestAll
  | .recProgram left im =>
    if d.crm.phase ≠ .recovery then d
    else if left = 0 then d.fullReset 5
    else d.nvAsk needSpi (.recProgram (left - 1) im)
  | .mouldCopy g im done =>
    if worn ∨ im.length ≤ done + commitBytes then d else d.nvAsk needCave (.mouldCopy g im (done + commitBytes))

/-- NV_WRITE_COMPLETE (R300, R363, R391): a write that has started finishes; the last one of an orderly stop ends it in STANDBY (R385). -/
def execNvWriteComplete (id : Nat) (s : State) : Host.Outcome State Fault Refusal :=
  liftW (fun _ cave d =>
    match d.pwr.nv.find? (fun x => x.id == id && x.started) with
    | none => (d, [])
    | some x =>
      let d := { d with pwr := { d.pwr with nv := d.pwr.nv.filter (fun (y : NvReq) => y.id ≠ id) } }
      let r := d.nvEffect x.kind
      let (d, w) := (r.1.nvDone (caveAll cave r.2) d.flash.worn x.kind).remapped d
      (if d.pwr.st = .stopping ∧ d.pwr.nv.isEmpty then { d with pwr := { d.pwr with st := .standby } } else d, r.2 ++ w)) s

end Sys2Proof.Machine
end

