-- ==== Sys2Proof/Machine/Sync.lean ====
section
/-! DEFINITION. Data queues and synchronisation objects (R49, R54 to R57, R164, R165). -/

namespace Sys2Proof.Machine

def Core.dqOf (c : Core) (n : Nat) : List (BitVec 512) := lk [] c.dq n

/-- The 64 B entry DQPUSH forms: word j is s(S + j) for j < N, 0 for the rest (R164). -/
def dqEntry (x : Seq) (first n : Nat) : BitVec 512 :=
  BitVec.ofNat 512 (leNat (((List.range 8).map (fun j => if j < n then natLe (x.get (first + j)).toNat 8 else natLe 0 8)).flatten))

/-- Write word j of an entry into s(S + j) for j < N (R164). -/
def Seq.popRegs (x : Seq) (e : BitVec 512) (first : Nat) : Nat → Seq
  | 0 => x
  | n + 1 => (x.popRegs e first n).set (first + n) (e.extractLsb' (64 * n) 64)

/-- DQPUSH with the word w: STALL_DQ_FULL with 16 entries (R48, R49). -/
def dqPush (d : Dev) (k : Nat) (q : SeqId) (w : Nat) : Dev :=
  let c := d.core k
  let x := c.seq q
  let n := bits w 50 48
  if (c.dqOf n).length ≥ 16 then d.setSeq k q (x.stall .stallDqFull)
  else
    let e := dqEntry x (bits w 55 51) (bits w 46 44 + 1)
    d.setCore k ({ c with dq := up c.dq n (c.dqOf n ++ [e]) }.setSeq q x.advance)

/-- DQPOP with the word w: STALL_DQ_EMPTY on an empty queue (R48, R49). -/
def dqPop (d : Dev) (k : Nat) (q : SeqId) (w : Nat) : Dev :=
  let c := d.core k
  let x := c.seq q
  let n := bits w 50 48
  match c.dqOf n with
  | [] => d.setSeq k q (x.stall .stallDqEmpty)
  | e :: r =>
    d.setCore k ({ c with dq := up c.dq n r }.setSeq q (x.popRegs e (bits w 55 51) (bits w 46 44 + 1)).advance)

def execDqpush (k : CoreId) (q : SeqId) (s : State) : Host.Outcome State Fault Refusal :=
  seqOp k q 0x30 (fun _ d w => .ok (dqPush d k q w) []) s

def execDqpop (k : CoreId) (q : SeqId) (s : State) : Host.Outcome State Fault Refusal :=
  seqOp k q 0x31 (fun _ d w => .ok (dqPop d k q w) []) s

/-- A sequencer held on a full or an empty data queue dispatches its push or pop once it can (R49). -/
def execDqStallEnd (k : CoreId) (q : SeqId) (s : State) : Host.Outcome State Fault Refusal :=
  liftR (fun m _ d =>
    match (d.seq k q).st with
    | .stallDqFull =>
      (match front m d k q 0x30 with
       | .go w => dqPush d k q w
       | _ => d)
    | .stallDqEmpty =>
      (match front m d k q 0x31 with
       | .go w => dqPop d k q w
       | _ => d)
    | _ => d) s

/-- The object an SY word names, within its core, and its amount (R156, R165). -/
def syObj (w : Nat) : Nat := bits w 54 50
def syCount (x : Seq) (w : Nat) : Nat := countOf x w (bits w 49 45)

def Core.synOf (c : Core) (o : Nat) : Nat := (lk (0 : BitVec 32) c.syn o).toNat

/-- When both sequencers wait on one object, the access sequencer's wait is the one satisfied (R56): does the access
sequencer stand in a wait on object o that the count covers? -/
def Core.accessFirst (c : Core) (m : Memory) (k o : Nat) : Bool :=
  let w := fetch m k .A c.a.pc
  c.a.st == .stallSyn && wOp w == 0x40 && syObj w == o && decide (syCount c.a w ≤ c.synOf o)

/-- Must an operation of sequencer q on object o, with amount n, come after the access sequencer's (R56)? -/
def Core.after (c : Core) (m : Memory) (k : Nat) (q : SeqId) (o n : Nat) : Bool :=
  decide (q = .E ∧ 0 < n) && c.accessFirst m k o

/-- Try a SYNWAIT with the word w (R55, R56). -/
def synWait (m : Memory) (d : Dev) (k : Nat) (q : SeqId) (w : Nat) : Dev :=
  let c := d.core k
  let x := c.seq q
  let o := syObj w
  let n := syCount x w
  if n ≤ c.synOf o ∧ c.after m k q o n = false then
    d.setCore k ({ c with syn := up c.syn o (BitVec.ofNat 32 (c.synOf o - n)) }.setSeq q x.advance)
  else d.setSeq k q (x.stall .stallSyn)

def execSynwait (k : CoreId) (q : SeqId) (s : State) : Host.Outcome State Fault Refusal :=
  seqOp k q 0x40 (fun m d w => .ok (synWait m d k q w) []) s

/-- A waiting SYNWAIT completes once the count covers it (R55, R56). -/
def execSynwaitSatisfied (k : CoreId) (q : SeqId) (s : State) : Host.Outcome State Fault Refusal :=
  liftR (fun m _ d =>
    match (d.seq k q).st with
    | .stallSyn =>
      (match front m d k q 0x40 with
       | .go w => synWait m d k q w
       | _ => d)
    | _ => d) s

/-- The number of a sequencer in an error record's detail. -/
def seqNo : SeqId → Nat
  | .A => 0
  | .E => 1

/-- SYNADD (R55, R57). The execute sequencer's comes after a wait of the access sequencer that the count already covers (R56):
until that wait is satisfied it has not happened. -/
def execSynadd (k : CoreId) (q : SeqId) (s : State) : Host.Outcome State Fault Refusal :=
  seqOp k q 0x41 (fun m d w =>
    let x := d.seq k q
    if (d.core k).after m k q (syObj w) (syCount x w) then .ok d []
    else .ok ((d.setSeq k q x.advance).synAdd (32 * k + syObj w) (syCount x w) (seqNo q)) []) s

/-- SYNSUB (R55): with n > COUNT the count stays and SYNC_UNDERFLOW, detail UNDER, is raised (R57). The order of R56 is that of
SYNADD. -/
def execSynsub (k : CoreId) (q : SeqId) (s : State) : Host.Outcome State Fault Refusal :=
  seqOp k q 0x42 (fun m d w =>
    let c := d.core k
    let x := c.seq q
    let o := syObj w
    let n := syCount x w
    if c.after m k q o n then .ok d []
    else if n ≤ c.synOf o then
      .ok (d.setCore k ({ c with syn := up c.syn o (BitVec.ofNat 32 (c.synOf o - n)) }.setSeq q x.advance)) []
    else .ok ((d.setSeq k q x.advance).raiseStep k 0x14 [32 * k + o, 0, seqNo q]) []) s

end Sys2Proof.Machine
end

