-- ==== Sys2Proof/Machine/Dispatch.lean ====
section
/-! DEFINITION. What each command does: one arm per constructor, one direct call of its meaning. -/

namespace Sys2Proof.Machine

def exec (i : Instr) (s : State) : Host.Outcome State Fault Refusal :=
  match i with
  | .nop k q => Sys2Proof.Machine.execNop k q s
  | .loop k q => Sys2Proof.Machine.execLoop k q s
  | .call k q => Sys2Proof.Machine.execCall k q s
  | .stepend k q => Sys2Proof.Machine.execStepend k q s
  | .ret k q => Sys2Proof.Machine.execRet k q s
  | .rdsys k q => Sys2Proof.Machine.execRdsys k q s
  | .beq k q => Sys2Proof.Machine.execBeq k q s
  | .bne k q => Sys2Proof.Machine.execBne k q s
  | .blt k q => Sys2Proof.Machine.execBlt k q s
  | .bge k q => Sys2Proof.Machine.execBge k q s
  | .bltu k q => Sys2Proof.Machine.execBltu k q s
  | .bgeu k q => Sys2Proof.Machine.execBgeu k q s
  | .j k q => Sys2Proof.Machine.execJ k q s
  | .add k q => Sys2Proof.Machine.execAdd k q s
  | .sub k q => Sys2Proof.Machine.execSub k q s
  | .mul k q => Sys2Proof.Machine.execMul k q s
  | .mulhs k q => Sys2Proof.Machine.execMulhs k q s
  | .mulhu k q => Sys2Proof.Machine.execMulhu k q s
  | .and k q => Sys2Proof.Machine.execAnd k q s
  | .or k q => Sys2Proof.Machine.execOr k q s
  | .xor k q => Sys2Proof.Machine.execXor k q s
  | .shl k q => Sys2Proof.Machine.execShl k q s
  | .shr k q => Sys2Proof.Machine.execShr k q s
  | .sra k q => Sys2Proof.Machine.execSra k q s
  | .slt k q => Sys2Proof.Machine.execSlt k q s
  | .sltu k q => Sys2Proof.Machine.execSltu k q s
  | .min k q => Sys2Proof.Machine.execMin k q s
  | .max k q => Sys2Proof.Machine.execMax k q s
  | .sel k q => Sys2Proof.Machine.execSel k q s
  | .addi k q => Sys2Proof.Machine.execAddi k q s
  | .muli k q => Sys2Proof.Machine.execMuli k q s
  | .andi k q => Sys2Proof.Machine.execAndi k q s
  | .ori k q => Sys2Proof.Machine.execOri k q s
  | .xori k q => Sys2Proof.Machine.execXori k q s
  | .shli k q => Sys2Proof.Machine.execShli k q s
  | .shri k q => Sys2Proof.Machine.execShri k q s
  | .srai k q => Sys2Proof.Machine.execSrai k q s
  | .slti k q => Sys2Proof.Machine.execSlti k q s
  | .sltiu k q => Sys2Proof.Machine.execSltiu k q s
  | .li k q => Sys2Proof.Machine.execLi k q s
  | .lih k q => Sys2Proof.Machine.execLih k q s
  | .dqpush k q => Sys2Proof.Machine.execDqpush k q s
  | .dqpop k q => Sys2Proof.Machine.execDqpop k q s
  | .dqStallEnd k q => Sys2Proof.Machine.execDqStallEnd k q s
  | .synwait k q => Sys2Proof.Machine.execSynwait k q s
  | .synwaitSatisfied k q => Sys2Proof.Machine.execSynwaitSatisfied k q s
  | .synadd k q => Sys2Proof.Machine.execSynadd k q s
  | .synsub k q => Sys2Proof.Machine.execSynsub k q s
  | .dcreate k => Sys2Proof.Machine.execDcreate k s
  | .dcreateComplete k => Sys2Proof.Machine.execDcreateComplete k s
  | .dretire k => Sys2Proof.Machine.execDretire k s
  | .tload k => Sys2Proof.Machine.execTload k s
  | .tstore k => Sys2Proof.Machine.execTstore k s
  | .fill k => Sys2Proof.Machine.execFill k s
  | .copy k => Sys2Proof.Machine.execCopy k s
  | .msend k => Sys2Proof.Machine.execMsend k s
  | .fsend k => Sys2Proof.Machine.execFsend k s
  | .caveq k => Sys2Proof.Machine.execCaveq k s
  | .hostq k => Sys2Proof.Machine.execHostq k s
  | .tqAccept k => Sys2Proof.Machine.execTqAccept k s
  | .transferComplete k n => Sys2Proof.Machine.execTransferComplete k n s
  | .setvl k => Sys2Proof.Machine.execSetvl k s
  | .vadd k => Sys2Proof.Machine.execVadd k s
  | .vsub k => Sys2Proof.Machine.execVsub k s
  | .vmul k => Sys2Proof.Machine.execVmul k s
  | .vfma k => Sys2Proof.Machine.execVfma k s
  | .vfnma k => Sys2Proof.Machine.execVfnma k s
  | .vmin k => Sys2Proof.Machine.execVmin k s
  | .vmax k => Sys2Proof.Machine.execVmax k s
  | .vsadd k => Sys2Proof.Machine.execVsadd k s
  | .vssub k => Sys2Proof.Machine.execVssub k s
  | .vmulh k => Sys2Proof.Machine.execVmulh k s
  | .vand k => Sys2Proof.Machine.execVand k s
  | .vor k => Sys2Proof.Machine.execVor k s
  | .vxor k => Sys2Proof.Machine.execVxor k s
  | .vshl k => Sys2Proof.Machine.execVshl k s
  | .vshr k => Sys2Proof.Machine.execVshr k s
  | .vshrr k => Sys2Proof.Machine.execVshrr k s
  | .vcmp k => Sys2Proof.Machine.execVcmp k s
  | .vsel k => Sys2Proof.Machine.execVsel k s
  | .vidx k => Sys2Proof.Machine.execVidx k s
  | .vcvt k => Sys2Proof.Machine.execVcvt k s
  | .vredsum k => Sys2Proof.Machine.execVredsum k s
  | .vredmax k => Sys2Proof.Machine.execVredmax k s
  | .vredmin k => Sys2Proof.Machine.execVredmin k s
  | .vredargmax k => Sys2Proof.Machine.execVredargmax k s
  | .vperm k => Sys2Proof.Machine.execVperm k s
  | .vslide k => Sys2Proof.Machine.execVslide k s
  | .vfn k => Sys2Proof.Machine.execVfn k s
  | .vacc k => Sys2Proof.Machine.execVacc k s
  | .vld k => Sys2Proof.Machine.execVld k s
  | .vst k => Sys2Proof.Machine.execVst k s
  | .vpop k => Sys2Proof.Machine.execVpop k s
  | .vpush k => Sys2Proof.Machine.execVpush k s
  | .vqAccept k parity => Sys2Proof.Machine.execVqAccept k parity s
  | .vqEntryComplete k n => Sys2Proof.Machine.execVqEntryComplete k n s
  | .vrfBistEnd k pass => Sys2Proof.Machine.execVrfBistEnd k pass s
  | .mmul k => Sys2Proof.Machine.execMmul k s
  | .mstore k => Sys2Proof.Machine.execMstore k s
  | .mstorePress k => Sys2Proof.Machine.execMstorePress k s
  | .mldacc k => Sys2Proof.Machine.execMldacc k s
  | .mclr k => Sys2Proof.Machine.execMclr k s
  | .mqAccept k => Sys2Proof.Machine.execMqAccept k s
  | .mmulComplete k n => Sys2Proof.Machine.execMmulComplete k n s
  | .checksumCompare k faults => Sys2Proof.Machine.execChecksumCompare k faults s
  | .accTransferComplete k n => Sys2Proof.Machine.execAccTransferComplete k n s
  | .routineCounterExpire k q => Sys2Proof.Machine.execRoutineCounterExpire k q s
  | .watchdog k q => Sys2Proof.Machine.execWatchdog k q s
  | .routerFlitForward p o => Sys2Proof.Machine.execRouterFlitForward p o s
  | .meshFlitDeliver p => Sys2Proof.Machine.execMeshFlitDeliver p s
  | .pressNodeReduce p tree => Sys2Proof.Machine.execPressNodeReduce p tree s
  | .sliceAccessServe j ce ue => Sys2Proof.Machine.execSliceAccessServe j ce ue s
  | .eccWriteback w => Sys2Proof.Machine.execEccWriteback w s
  | .localStoreGrant k ce ue => Sys2Proof.Machine.execLocalStoreGrant k ce ue s
  | .caveRecordTake n => Sys2Proof.Machine.execCaveRecordTake n s
  | .caveRecordComplete n mediaError => Sys2Proof.Machine.execCaveRecordComplete n mediaError s
  | .hostRecordTake n => Sys2Proof.Machine.execHostRecordTake n s
  | .hostRecordComplete n data => Sys2Proof.Machine.execHostRecordComplete n data s
  | .programStoreWrite k q n v => Sys2Proof.Machine.execProgramStoreWrite k q n v s
  | .coreHalt who k => Sys2Proof.Machine.execCoreHalt who k s
  | .coreResume who k => Sys2Proof.Machine.execCoreResume who k s
  | .vecStarterWrite k v => Sys2Proof.Machine.execVecStarterWrite k v s
  | .stepBoundary p => Sys2Proof.Machine.execStepBoundary p s
  | .ptBreakWrite who p v => Sys2Proof.Machine.execPtBreakWrite who p v s
  | .deadlineMonitorTest p n => Sys2Proof.Machine.execDeadlineMonitorTest p n s
  | .deadlineEventLate p n => Sys2Proof.Machine.execDeadlineEventLate p n s
  | .dlCfgWrite p n v => Sys2Proof.Machine.execDlCfgWrite p n v s
  | .msgLockstepRecord p step digs => Sys2Proof.Machine.execMsgLockstepRecord p step digs s
  | .lsWaitExpire p step => Sys2Proof.Machine.execLsWaitExpire p step s
  | .syncExchangeSend u => Sys2Proof.Machine.execSyncExchangeSend u s
  | .syncWordReceive u prio root hops t1 t2 t3 t4 => Sys2Proof.Machine.execSyncWordReceive u prio root hops t1 t2 t3 t4 s
  | .ptpMessage u ns => Sys2Proof.Machine.execPtpMessage u ns s
  | .droopStretch r half => Sys2Proof.Machine.execDroopStretch r half s
  | .xingRestart => Sys2Proof.Machine.execXingRestart s
  | .refLoss count => Sys2Proof.Machine.execRefLoss count s
  | .refclkRestored => Sys2Proof.Machine.execRefclkRestored s
  | .refLossTimeout => Sys2Proof.Machine.execRefLossTimeout s
  | .clkFstepWrite v => Sys2Proof.Machine.execClkFstepWrite v s
  | .freqSwitch => Sys2Proof.Machine.execFreqSwitch s
  | .thermalForce => Sys2Proof.Machine.execThermalForce s
  | .freqRaise => Sys2Proof.Machine.execFreqRaise s
  | .telemetrySample vin iin pin pavg temps => Sys2Proof.Machine.execTelemetrySample vin iin pin pavg temps s
  | .thermalTrip sensor temp => Sys2Proof.Machine.execThermalTrip sensor temp s
  | .supplyInhibit mv => Sys2Proof.Machine.execSupplyInhibit mv s
  | .supplyInhibitRelease mv => Sys2Proof.Machine.execSupplyInhibitRelease mv s
  | .orderlyStop mv => Sys2Proof.Machine.execOrderlyStop mv s
  | .supplyRecover mv => Sys2Proof.Machine.execSupplyRecover mv s
  | .uvloOff mv => Sys2Proof.Machine.execUvloOff mv s
  | .uvloOn mv => Sys2Proof.Machine.execUvloOn mv s
  | .overvoltage mv => Sys2Proof.Machine.execOvervoltage mv s
  | .overvoltageRecover mv => Sys2Proof.Machine.execOvervoltageRecover mv s
  | .prechargeMate => Sys2Proof.Machine.execPrechargeMate s
  | .inputSwitchClose capMv inMv => Sys2Proof.Machine.execInputSwitchClose capMv inMv s
  | .enableBreak => Sys2Proof.Machine.execEnableBreak s
  | .holdupMeasure dvUv vbMv => Sys2Proof.Machine.execHoldupMeasure dvUv vbMv s
  | .nvWriteStart id vbMv => Sys2Proof.Machine.execNvWriteStart id vbMv s
  | .holdupLow id => Sys2Proof.Machine.execHoldupLow id s
  | .regionWakeStart p => Sys2Proof.Machine.execRegionWakeStart p s
  | .regionWakeEnd r => Sys2Proof.Machine.execRegionWakeEnd r s
  | .regionSleep p => Sys2Proof.Machine.execRegionSleep p s
  | .deviceResetEnd bifur slot => Sys2Proof.Machine.execDeviceResetEnd bifur slot s
  | .memoryBistEnd bad routerFail => Sys2Proof.Machine.execMemoryBistEnd bad routerFail s
  | .fwReady => Sys2Proof.Machine.execFwReady s
  | .keyReloadEnd => Sys2Proof.Machine.execKeyReloadEnd s
  | .identityReady ok => Sys2Proof.Machine.execIdentityReady ok s
  | .modRstNAssert => Sys2Proof.Machine.execModRstNAssert s
  | .hifReset f v => Sys2Proof.Machine.execHifReset f v s
  | .recGo f image => Sys2Proof.Machine.execRecGo f image s
  | .perstDeassert f => Sys2Proof.Machine.execPerstDeassert f s
  | .configRequest f => Sys2Proof.Machine.execConfigRequest f s
  | .functionLeave f why => Sys2Proof.Machine.execFunctionLeave f why s
  | .functionWedged f => Sys2Proof.Machine.execFunctionWedged f s
  | .bar0Access f off size write v => Sys2Proof.Machine.execBar0Access f off size write v s
  | .registerWrite who off size v => Sys2Proof.Machine.execRegisterWrite who off size v s
  | .bar2Access f addr len write data => Sys2Proof.Machine.execBar2Access f addr len write data s
  | .bar2ForwardTimeout f => Sys2Proof.Machine.execBar2ForwardTimeout f s
  | .hartWindowAccess hart addr size write v preempted => Sys2Proof.Machine.execHartWindowAccess hart addr size write v preempted s
  | .dbCmdSqTail f v => Sys2Proof.Machine.execDbCmdSqTail f v s
  | .dbCmdCqHead f v => Sys2Proof.Machine.execDbCmdCqHead f v s
  | .dbCtxSqTail f c v => Sys2Proof.Machine.execDbCtxSqTail f c v s
  | .dbTokenRingHead f c v => Sys2Proof.Machine.execDbTokenRingHead f c v s
  | .dbLogRingHead f c v => Sys2Proof.Machine.execDbLogRingHead f c v s
  | .hifCtrlEn f v => Sys2Proof.Machine.execHifCtrlEn f v s
  | .openCtx f e data => Sys2Proof.Machine.execOpenCtx f e data s
  | .closeCtx f e => Sys2Proof.Machine.execCloseCtx f e s
  | .cancel f e => Sys2Proof.Machine.execCancel f e s
  | .prefixRelease f e => Sys2Proof.Machine.execPrefixRelease f e s
  | .drain f e => Sys2Proof.Machine.execDrain f e s
  | .openLog f e => Sys2Proof.Machine.execOpenLog f e s
  | .closeLog f e => Sys2Proof.Machine.execCloseLog f e s
  | .loadMould f e data => Sys2Proof.Machine.execLoadMould f e data s
  | .start f e => Sys2Proof.Machine.execStart f e s
  | .unload f e => Sys2Proof.Machine.execUnload f e s
  | .loadWeights f e => Sys2Proof.Machine.execLoadWeights f e s
  | .switch f e => Sys2Proof.Machine.execSwitch f e s
  | .hold f e data => Sys2Proof.Machine.execHold f e data s
  | .substitute f e => Sys2Proof.Machine.execSubstitute f e s
  | .failover f e => Sys2Proof.Machine.execFailover f e s
  | .writeFabric f e data => Sys2Proof.Machine.execWriteFabric f e data s
  | .dump f e data => Sys2Proof.Machine.execDump f e data s
  | .keyInstall f e data => Sys2Proof.Machine.execKeyInstall f e data s
  | .keyRemove f e data => Sys2Proof.Machine.execKeyRemove f e data s
  | .attest f e => Sys2Proof.Machine.execAttest f e s
  | .retire f e => Sys2Proof.Machine.execRetire f e s
  | .distance f e => Sys2Proof.Machine.execDistance f e s
  | .caveRead f e => Sys2Proof.Machine.execCaveRead f e s
  | .caveWrite f e data => Sys2Proof.Machine.execCaveWrite f e data s
  | .turnPrio f e => Sys2Proof.Machine.execTurnPrio f e s
  | .openChan f e => Sys2Proof.Machine.execOpenChan f e s
  | .closeChan f e => Sys2Proof.Machine.execCloseChan f e s
  | .submit f c e record prompt => Sys2Proof.Machine.execSubmit f c e record prompt s
  | .submitPrefix f c e record prompt => Sys2Proof.Machine.execSubmitPrefix f c e record prompt s
  | .samplingPoint p => Sys2Proof.Machine.execSamplingPoint p s
  | .moderateExpire f c => Sys2Proof.Machine.execModerateExpire f c s
  | .msgPlan h step rows => Sys2Proof.Machine.execMsgPlan h step rows s
  | .mouldLastByte p image => Sys2Proof.Machine.execMouldLastByte p image s
  | .msgMouldOffer u h header t0 replay => Sys2Proof.Machine.execMsgMouldOffer u h header t0 replay s
  | .mouldOfferRetry p => Sys2Proof.Machine.execMouldOfferRetry p s
  | .msgLoadResult h status => Sys2Proof.Machine.execMsgLoadResult h status s
  | .msgCommit h => Sys2Proof.Machine.execMsgCommit h s
  | .msgAbandon h member => Sys2Proof.Machine.execMsgAbandon h member s
  | .msgCancelled h => Sys2Proof.Machine.execMsgCancelled h s
  | .msgStart h t0 => Sys2Proof.Machine.execMsgStart h t0 s
  | .mouldLoadTimeout p => Sys2Proof.Machine.execMouldLoadTimeout p s
  | .startLate p => Sys2Proof.Machine.execStartLate p s
  | .weightManifestArrive p manifest => Sys2Proof.Machine.execWeightManifestArrive p manifest s
  | .shardComplete p id data => Sys2Proof.Machine.execShardComplete p id data s
  | .weightEndMarker p => Sys2Proof.Machine.execWeightEndMarker p s
  | .weightLoadTimeout p => Sys2Proof.Machine.execWeightLoadTimeout p s
  | .msgShardRequest h id attempt => Sys2Proof.Machine.execMsgShardRequest h id attempt s
  | .msgWeightsOk h => Sys2Proof.Machine.execMsgWeightsOk h s
  | .msgShardFailed h id => Sys2Proof.Machine.execMsgShardFailed h id s
  | .msgWeightCommit h => Sys2Proof.Machine.execMsgWeightCommit h s
  | .msgWeightAbandon h => Sys2Proof.Machine.execMsgWeightAbandon h s
  | .msgStepdone h st => Sys2Proof.Machine.execMsgStepdone h st s
  | .msgGo h st => Sys2Proof.Machine.execMsgGo h st s
  | .memberLost p x => Sys2Proof.Machine.execMemberLost p x s
  | .msgLost h x => Sys2Proof.Machine.execMsgLost h x s
  | .msgReady h st => Sys2Proof.Machine.execMsgReady h st s
  | .msgRestart h st t => Sys2Proof.Machine.execMsgRestart h st t s
  | .survivorTimeout p x => Sys2Proof.Machine.execSurvivorTimeout p x s
  | .msgHold h st => Sys2Proof.Machine.execMsgHold h st s
  | .holdQuiet p => Sys2Proof.Machine.execHoldQuiet p s
  | .msgHeld h => Sys2Proof.Machine.execMsgHeld h s
  | .msgResume h t changes => Sys2Proof.Machine.execMsgResume h t changes s
  | .holdTimeout p => Sys2Proof.Machine.execHoldTimeout p s
  | .msgSwitch h st => Sys2Proof.Machine.execMsgSwitch h st s
  | .msgStateCopy h addr data => Sys2Proof.Machine.execMsgStateCopy h addr data s
  | .msgBar2Access h addr len write data => Sys2Proof.Machine.execMsgBar2Access h addr len write data s
  | .portUnitTake u => Sys2Proof.Machine.execPortUnitTake u s
  | .fabricPacketArrive u pk => Sys2Proof.Machine.execFabricPacketArrive u pk s
  | .flitReceive u flit => Sys2Proof.Machine.execFlitReceive u flit s
  | .nakReceive u seq => Sys2Proof.Machine.execNakReceive u seq s
  | .replayTimeout u => Sys2Proof.Machine.execReplayTimeout u s
  | .retrainWindowExpire u => Sys2Proof.Machine.execRetrainWindowExpire u s
  | .datagramReceive u peer sumOk seg flits => Sys2Proof.Machine.execDatagramReceive u peer sumOk seg flits s
  | .segmentTimeout u peer => Sys2Proof.Machine.execSegmentTimeout u peer s
  | .pfcFrameReceive u prio quanta => Sys2Proof.Machine.execPfcFrameReceive u prio quanta s
  | .pfcRepeat u cls => Sys2Proof.Machine.execPfcRepeat u cls s
  | .linkTrainRetry u => Sys2Proof.Machine.execLinkTrainRetry u s
  | .linkLoss u => Sys2Proof.Machine.execLinkLoss u s
  | .lnkRetrain u => Sys2Proof.Machine.execLnkRetrain u s
  | .lnkDisable u v => Sys2Proof.Machine.execLnkDisable u v s
  | .identityReceive u b => Sys2Proof.Machine.execIdentityReceive u b s
  | .identityResend u => Sys2Proof.Machine.execIdentityResend u s
  | .rttProbeReceive u stamp => Sys2Proof.Machine.execRttProbeReceive u stamp s
  | .rttReplyReceive u rtt => Sys2Proof.Machine.execRttReplyReceive u rtt s
  | .refuseReceive u seq reason => Sys2Proof.Machine.execRefuseReceive u seq reason s
  | .arbRequest a reqs locks => Sys2Proof.Machine.execArbRequest a reqs locks s
  | .quantumExpire a => Sys2Proof.Machine.execQuantumExpire a s
  | .arbLockDrop a => Sys2Proof.Machine.execArbLockDrop a s
  | .arbMask a n => Sys2Proof.Machine.execArbMask a n s
  | .mgmtRead off count => Sys2Proof.Machine.execMgmtRead off count s
  | .mgmtWriteBoard v => Sys2Proof.Machine.execMgmtWriteBoard v s
  | .shadowRefresh => Sys2Proof.Machine.execShadowRefresh s
  | .jtagInstruction n => Sys2Proof.Machine.execJtagInstruction n s
  | .nvWriteComplete id => Sys2Proof.Machine.execNvWriteComplete id s
  | .pcsAlignmentFecLock u => Sys2Proof.Machine.execPcsAlignmentFecLock u s
  | .romJumpToFirmware sfdp header body => Sys2Proof.Machine.execRomJumpToFirmware sfdp header body s
  | .caveReady chFail => Sys2Proof.Machine.execCaveReady chFail s
  | .longLock a => Sys2Proof.Machine.execLongLock a s
  | .shardAttemptTimeout p id => Sys2Proof.Machine.execShardAttemptTimeout p id s

end Sys2Proof.Machine
end

