-- ==== Sys2Proof/Machine/Idle.lean ====
section
/-! DEFINITION. What one arithmetic cycle does when no command waits (log entry 3): the counters that run by the cycle,
the lag of the regions, and at the end of a tick the Turn (R59, R52, R136, R217, R220, R223, R377, Table 12-1,
Table 12-2). -/

namespace Sys2Proof.Machine

/-! ### One cycle of a core -/

/-- A sequencer's cycle: a stalled one counts it (R59, CORE_STALL_CNTs), a resident routine that is not stalled counts it
(R52). R52 does not say whether a HALTED cycle is the routine's: it is not (log entry 135). -/
def Seq.cycle (x : Seq) : Seq :=
  if x.st.stalled then { x with stalls := x.stalls + 1, stallRun := x.stallRun + 1 }
  else if x.st = .halted then { x with stallRun := 0 }
  else
    { x with stallRun := 0, rtn := x.rtn.map (fun (r : Routine) => { r with count := r.count + 1 }) }

/-- The source ranges and the guarded destination of the entry at the head of a queue, when nothing but the fill guard keeps
it waiting (R150, R151). -/
def Dev.guardAsk (d : Dev) (k : Nat) (eng : Eng) : Option (List (Nat × Nat) × Option (Nat × Nat)) :=
  let c := d.core k
  match eng, c.queue eng with
  | _, [] => none
  | .tq, e :: _ =>
    let p := d.planT k e
    if d.tqHeld c || p.err.isSome then none else some (p.reads, p.dst)
  | .vq, e :: _ =>
    if vecHold c e || (vecErr c k e).isSome then none
    else some (boundsOf (vecRanges c k e).1, (vecRanges c k e).2)
  | .mq, e :: _ =>
    if mqHold c e || (mqErr c (d.partOf k) k e).isSome then none
    else
      let fs := e.caps.map (fun (h : Cap) => c.fields h.h)
      let f0 := fs.getD 0 DescF.zero
      match wOp e.w with
      | 0xC0 =>
        let q := mkPass e f0 (fs.getD 1 DescF.zero)
        some ((if q.aReads = [] then [] else [q.a.span]) ++ (if q.bReads = [] then [] else [q.b.span]), none)
      | 0xC1 => if bit e.w 40 then none else some ([], if guarded k f0.span then some f0.span else none)
      | 0xC2 => some ([(lsBase k + e.val 0, lsBase k + e.val 0 + mldaccBytes e.w - 1)], none)
      | _ => none

/-- Does a create's image wait for the fill guard (R89, R150)? -/
def Dev.createHeld (d : Dev) (k : Nat) : Bool :=
  (d.core k).creates.any (fun (x : Create) => !x.asked)

/-- Does this engine withhold acceptance under R150 or R151? -/
def Dev.engHeld (d : Dev) (k : Nat) (eng : Eng) : Bool :=
  (d.guardAsk k eng).any (fun (a : List (Nat × Nat) × Option (Nat × Nat)) => (d.core k).guardHold a.1 a.2)

/-- Does its head wait only because all 32 entries are live (R151, FG_FULL_CNT)? -/
def Dev.engFull (d : Dev) (k : Nat) (eng : Eng) : Bool :=
  let c := d.core k
  (d.guardAsk k eng).any (fun (a : List (Nat × Nat) × Option (Nat × Nat)) =>
    match a.2 with
    | none => false
    | some r =>
      decide (32 ≤ c.fgw.length) &&
      !(a.1.any (fun (s : Nat × Nat) => c.fgw.any (fun (g : FgEntry) => overlap s (g.lo, g.hi)))) &&
      !(c.fgw.any (fun (g : FgEntry) => overlap r (g.lo, g.hi))) && !(c.fgr.any (fun (g : FgEntry) => overlap r (g.lo, g.hi))))

/-- One cycle of core k, when its region's clock runs: the sequencers, the register-file BIST (R136), the schedules of the matrix
unit (R119), the fill guard's counters. -/
def Dev.coreCycle (d : Dev) (k : Nat) : Core :=
  let c := d.core k
  if d.clocked k then
    let c := d.mxCycle k c
    let stall : Bool := d.engHeld k .tq || d.engHeld k .vq || d.engHeld k .mq || d.createHeld k
    let full : Bool := d.engFull k .tq || d.engFull k .vq || d.engFull k .mq
    { c with
      a := c.a.cycle
      e := c.e.cycle
      vec := { c.vec with bist := c.vec.bist.map (fun (n : Nat) => n - 1) }
      cnt := { c.cnt with fgStall := if stall then c.cnt.fgStall + 1 else c.cnt.fgStall,
                          fgFull := if full then c.cnt.fgFull + 1 else c.cnt.fgFull } }
  else c

/-! ### One cycle of the clocks (R377) -/

/-- λ of a region falls by 1/128 cycle per cycle and stops at 0; the cycles since its last stretch are counted. -/
def Clk.cycle (c : Clk) : Clk :=
  { c with lag := c.lag.map (fun (e : Nat × Nat) => (e.1, e.2 - 1)),
           since := c.since.map (fun (e : Nat × Nat) => (e.1, e.2 + 1)) }

/-! ### Ticks -/

/-- In the first cycle of a tick: is partition p's next boundary past and not taken (R220)? A partition that stands stopped
at a hold, a break or an error is not HELD. -/
def Dev.isHeld (d : Dev) (p : Nat) (t : PartTime) : Bool :=
  match d.mouldOf p with
  | none => false
  | some m =>
    decide (5 ≤ m.phase) && m.t0 != 0 && !t.dead && t.st != .stopped && decide (t.nominal t.next ≤ d.turn.now.toNat)

/-- A tick a partition spends HELD (R220, PT_HOLD_TICKS). -/
def Dev.holdTick (d : Dev) (p : Nat) (t : PartTime) : PartTime :=
  if d.isHeld p t then { t with st := .held, holdTicks := t.holdTicks + 1 } else t

/-- A tick in which the peer held classes of a port (LNK_XOFF_TICKSc). -/
def Port.xoffTick (x : Port) : Port :=
  { x with xoffTicks := (List.range 4).foldl (fun (m : SMap (BitVec 64)) c =>
      if bit x.xoffRx.toNat c then up m c (lk (0 : BitVec 64) m c + 1) else m) x.xoffTicks }

/-- A tick of the Turn in 1/65,536 tick: a LOCKED device corrects by at most 50 ppm, which is 3.2768 units a tick (Table 12-2:
32.8 ns per 4,096 ticks), whole units at a time; HOLDOVER and LISTEN correct nothing. `skipped` says that the correction passed over
one count. -/
def Turn.tick (t : Turn) : Turn :=
  let most : Nat := (t.part + 32768) / 10000
  let c : Int := if t.st = .locked then max (-(most : Int)) (min most t.slew) else 0
  let u := ((t.units : Int) + 65536 + c).toNat
  let t' := { t.setUnits u with slew := t.slew - c, part := if t.slew = 0 then 0 else (t.part + 32768) % 10000 }
  { t' with skipped := decide (t.units / 65536 + 2 ≤ u / 65536) }

/-- The first cycle of a tick ends: what is counted in ticks. -/
def Dev.tickCounts (d : Dev) : Dev :=
  { d with parts := d.parts.map (fun (e : Nat × PartTime) => (e.1, d.holdTick e.1 e.2)),
           ports := d.ports.map (fun (e : Nat × Port) => (e.1, e.2.xoffTick)) }

/-- A device none of whose ports trains or is up hears no announcement: it is itself the best candidate (R222). -/
def Dev.lone (d : Dev) : Bool := d.ports.all (fun (e : Nat × Port) => e.2.st == .down)

/-- The last cycle of a tick ends: the Turn counts on, a lone device is its own root (log entry 112), and a function may be signalled
anew (R406). -/
def Dev.tickEnd (d : Dev) : Dev :=
  let d := if d.lone && !d.turn.root then d.chooseParent else d
  { d with cyc := 0, turn := d.turn.tick, errs := { d.errs with sent := [] } }

/-- One arithmetic cycle. A tick holds as many as its step code gives (Table 12-1). In device reset nothing counts. -/
def Dev.cycle (d : Dev) : Dev :=
  if d.rst then d
  else
    let d := { d with cores := d.cores.map (fun (e : Nat × Core) => (e.1, d.coreCycle e.1)), clk := d.clk.cycle }
    let d := d.cores.foldl (fun (d : Dev) (e : Nat × Core) => if d.clocked e.1 then d.issueSlc e.1 else d) d
    let d := if d.cyc = 0 then d.tickCounts else d
    if cyclesPerTick d.clk.step ≤ d.cyc + 1 then d.tickEnd else { d with cyc := d.cyc + 1 }

def idle (s : State) : Host.Outcome State Fault Refusal := lift (fun d => d.cycle) s

end Sys2Proof.Machine
end

