-- ==== Sys2Proof/WellFormed.lean ====
section
/-! DEFINITION. Which commands a sender can form: the operands whose types are wider than the fields they stand for.
The meanings run on ill-formed commands too, but for a datagram whose flits are not those it announces (Fault.illFormed). -/

namespace Sys2Proof

open Sys2Proof.Machine

/-- A command entry of opcode `opc`: its OPC field holds it, or a value that Table 18-7 does not list (R341). -/
def entryOk (opc : Nat) (e : BitVec 512) : Bool := cOpc e == opc || !cmdOpcodes.contains (cOpc e)

/-- A management message's header: FPID [11:0], SRC 2 bytes, SEQ 4 bytes (Table 20-3). -/
def MHdr.ok (h : MHdr) : Bool := decide (h.fpid < 2 ^ 12 ∧ h.src < 2 ^ 16 ∧ h.seq < 2 ^ 32)

/-- A tick or a step number: 64 bits (R3, R217). -/
def word64 (n : Nat) : Bool := decide (n < 2 ^ 64)

/-- An access to a register or to the device window: 1, 2, 4 or 8 bytes. -/
def sizeOk (n : Nat) : Bool := n == 1 || n == 2 || n == 4 || n == 8

/-- Written data is as long as the access; a read brings none (R276). -/
def dataOk (len : Nat) (write : Bool) (data : List Byte) : Bool := data.length == (if write then len else 0)

/-- An identity block whose values fit their fields (Table 14-6). -/
def identityOk (b : Identity) : Bool :=
  decide (b.serial < 2 ^ 64 ∧ b.board < 2 ^ 64 ∧ b.slot < 8 ∧ b.port < 256 ∧ b.revMin < 256 ∧ b.revMax < 256 ∧
    b.fwVersion < 2 ^ 32 ∧ b.state < 256 ∧ b.parts.length ≤ 16)

/-- A packet whose fields fit their widths, with at most 4,096 bytes (Table 14-3). -/
def packetOk (p : Packet) : Bool :=
  decide (p.cls < 4 ∧ p.addr < 2 ^ 37 ∧ p.epoch < 2 ∧ p.fmt < 2 ∧ p.fpid < 2 ^ 12 ∧ p.syn < 2 ^ 15 ∧ p.tree < 256 ∧ p.data.length ≤ 4096)

/-- The check of a command. -/
def Instr.wellFormed : Instr → Bool
  | .datagramReceive _ _ _ seg flits => decide (flits.length ≤ 8) && flits.length == seg.toNat / 2 ^ 96 % 256
  | .telemetrySample vin iin pin pavg temps =>
    decide (vin < 2 ^ 16 ∧ iin < 2 ^ 16 ∧ pin < 2 ^ 16 ∧ pavg < 2 ^ 16) && temps.length == 55
  | .syncWordReceive _ prio root hops t1 t2 t3 t4 =>
    decide (prio < 2 ^ 8 ∧ hops < 2 ^ 8) && word64 root && word64 t1 && word64 t2 && word64 t3 && word64 t4
  | .bar0Access _ _ size _ _ | .registerWrite _ _ size _ | .hartWindowAccess _ _ size _ _ _ => sizeOk size
  | .bar2Access _ _ len write data => dataOk len write data
  | .msgBar2Access h _ len write data => h.ok && dataOk len write data
  | .msgPlan h step _ | .msgStepdone h step | .msgGo h step | .msgReady h step | .msgHold h step | .msgSwitch h step |
    .msgStart h step => h.ok && word64 step
  | .msgRestart h step t => h.ok && word64 step && word64 t
  | .msgResume h t changes => h.ok && word64 t && decide (changes.length ≤ 256)
  | .msgMouldOffer _ h header t0 _ => h.ok && (h.answer || header.length == 64) && word64 t0
  | .msgLoadResult h st => h.ok && decide (st < 2 ^ 8)
  | .msgCommit h | .msgCancelled h | .msgWeightsOk h | .msgWeightCommit h | .msgWeightAbandon h | .msgHeld h => h.ok
  | .msgAbandon h x | .msgLost h x => h.ok && decide (x < 2 ^ 16)
  | .msgShardRequest h id _ | .msgShardFailed h id => h.ok && decide (id < 2 ^ 32)
  | .msgStateCopy h _ _ => h.ok
  | .msgLockstepRecord _ step digs => word64 step && decide (digs.length ≤ 768)
  | .lsWaitExpire _ step => word64 step
  | .identityReceive _ b => identityOk b
  | .fabricPacketArrive _ pk => packetOk pk
  | .pfcFrameReceive _ prio quanta => decide (prio < 8 ∧ quanta < 2 ^ 16)
  | .refuseReceive _ seq _ => decide (seq < 2 ^ 12)
  | .mgmtRead off count => decide (off < 2 ^ 16 ∧ count < 2 ^ 8)
  | .openCtx _ e _ => entryOk 0x01 e
  | .closeCtx _ e => entryOk 0x02 e
  | .cancel _ e => entryOk 0x03 e
  | .prefixRelease _ e => entryOk 0x04 e
  | .drain _ e => entryOk 0x05 e
  | .openLog _ e => entryOk 0x06 e.entry && e.log.all (fun x => x.1.length == 576)
  | .closeLog _ e => entryOk 0x07 e
  | .loadMould _ e _ => entryOk 0x10 e
  | .start _ e => entryOk 0x11 e
  | .unload _ e => entryOk 0x12 e
  | .loadWeights _ e => entryOk 0x13 e
  | .switch _ e => entryOk 0x14 e
  | .hold _ e _ => entryOk 0x15 e
  | .substitute _ e => entryOk 0x16 e
  | .failover _ e => entryOk 0x17 e
  | .writeFabric _ e _ => entryOk 0x18 e
  | .dump _ e _ => entryOk 0x19 e
  | .keyInstall _ e _ => entryOk 0x20 e
  | .keyRemove _ e _ => entryOk 0x21 e
  | .attest _ e => entryOk 0x22 e
  | .retire _ e => entryOk 0x23 e
  | .distance _ e => entryOk 0x24 e
  | .caveRead _ e => entryOk 0x25 e
  | .caveWrite _ e _ => entryOk 0x26 e
  | .turnPrio _ e => entryOk 0x27 e
  | .openChan _ e => entryOk 0x30 e
  | .closeChan _ e => entryOk 0x31 e
  | .submit _ _ e _ _ => cOpc e != 0x41
  | .submitPrefix _ _ e _ _ => cOpc e == 0x41
  | _ => true

end Sys2Proof
end

