-- ==== Sys2Proof/Safety.lean ====
section
/-! DEFINITION. What counts as a safe state and a safe run, and the frames in whose terms the statements say what a command
leaves unchanged. -/

namespace Sys2Proof.Machine

/-- Both byte memories are in their one canonical form: addresses strictly rising, no byte 0 listed. -/
abbrev State.Canonical (s : State) : Prop := s.mem.wf ∧ s.cave.wf

/-- Every waiting command could come from a sender. -/
def State.QueueOk (s : State) : Prop := ∀ c ∈ s.pending, c.wellFormed = true

/-- A step that does not stop with a fault. -/
def State.Safe (s : State) : Prop := ∀ r, step s ≠ .fault r

/-- The sequencer q of core k can dispatch (not IDLE, STEP_WAIT or HALTED, its clock runs) and the word at its program
counter is w, defined, of opcode op. -/
def State.standsAt (s : State) (k : Nat) (q : SeqId) (op w : Nat) : Prop := front s.mem s.dev k q op = .go w

/-! ### Frames: everything but the named part is as before -/

/-- Nothing but the device changed: the bytes of both memories and the queue are as before. -/
def OnlyDev (s t : State) (d : Dev) : Prop := t = { s with dev := d }

/-- Among the cores, only core k changed, to c; everything else of the machine is as before. -/
def OnlyCore (s t : State) (k : Nat) (c : Core) : Prop :=
  t = { s with dev := { s.dev with cores := t.dev.cores } } ∧ (∀ j, j ≠ k → t.dev.core j = s.dev.core j) ∧ t.dev.core k = c

/-- Only sequencer q of core k changed, to y: not one byte of memory, no other register of the device. -/
def OnlySeq (s t : State) (k : Nat) (q : SeqId) (y : Seq) : Prop := OnlyCore s t k ((s.dev.core k).setSeq q y)

/-- Only partition p's time block changed, to b. -/
def OnlyPart (s t : State) (p : Nat) (b : PartTime) : Prop :=
  t = { s with dev := { s.dev with parts := t.dev.parts } } ∧ (∀ j, j ≠ p → t.dev.part j = s.dev.part j) ∧ t.dev.part p = b

/-- Only function f's registers and rings changed, to x. -/
def OnlyFunc (s t : State) (f : Nat) (x : Func) : Prop :=
  t = { s with dev := { s.dev with funcs := t.dev.funcs } } ∧ (∀ j, j ≠ f → t.dev.func j = s.dev.func j) ∧ t.dev.func f = x

/-- Only port u changed, to x. -/
def OnlyPort (s t : State) (u : Nat) (x : Port) : Prop :=
  t = { s with dev := { s.dev with ports := t.dev.ports } } ∧ (∀ j, j ≠ u → t.dev.port j = s.dev.port j) ∧ t.dev.port u = x

/-- Only arbiter a changed, to x. -/
def OnlyArb (s t : State) (a : Nat) (x : Arb) : Prop :=
  t = { s with dev := { s.dev with arbs := t.dev.arbs } } ∧ (∀ j, j ≠ a → t.dev.arb j = s.dev.arb j) ∧ t.dev.arb a = x

/-- A dispatched word went by: the sequencer runs on at the next word, by its loop levels (R50, R51), the dispatch counted
(CORE_DISP_CNTs); its scalar registers are the caller's to say. -/
def RunsOn (x y : Seq) : Prop :=
  y = { x with regs := y.regs, pc := BitVec.ofNat 13 (loopNext x.pc.toNat x.loops).1, loops := (loopNext x.pc.toNat x.loops).2,
               st := x.running, stallRun := 0, disp := x.disp + 1 }

/-- Scalar register n of y holds v (nothing is written where n is s0, R46) and every other register is as in x. -/
def WritesReg (x y : Seq) (n : Nat) (v : Word) : Prop :=
  y.get n = (if n = 0 then 0 else v) ∧ ∀ i, i ≠ n → y.get i = x.get i

/-- The command dispatches the word w, whose only effect is that scalar register D takes v. -/
def ScalarResult (s : State) (k : CoreId) (q : SeqId) (w : Nat) (i : Instr) (v : Word) : Prop :=
  ∃ t y, exec i s = .next t ∧ OnlySeq s t k q y ∧ RunsOn (s.dev.seq k q) y ∧ WritesReg (s.dev.seq k q) y (wD w) v

/-- The command dispatches the word w as a branch: the next word is `target`, no register changes. -/
def BranchResult (s : State) (k : CoreId) (q : SeqId) (i : Instr) (taken : Prop) (target : Nat) : Prop :=
  ∃ t y, exec i s = .next t ∧ OnlySeq s t k q y ∧
    (taken → y = { s.dev.seq k q with pc := BitVec.ofNat 13 target, st := (s.dev.seq k q).running, stallRun := 0,
                                      disp := (s.dev.seq k q).disp + 1 }) ∧
    (¬ taken → RunsOn (s.dev.seq k q) y ∧ y.regs = (s.dev.seq k q).regs)

/-- The command dispatches the word w into queue `eng` of core k: the entry with the word, the handles as they stand (R90),
the scalar values (R156), VL and VTYPE (R128) goes to the queue's end, and sequencer q runs on with its registers as they
were. -/
def Dispatched (s : State) (k : CoreId) (q : SeqId) (w : Nat) (eng : Eng) (i : Instr) (handles regs : List Nat) : Prop :=
  ∃ t y, exec i s = .next t ∧ RunsOn (s.dev.seq k q) y ∧ y.regs = (s.dev.seq k q).regs ∧
    OnlyCore s t k (((s.dev.core k).pushEntry eng w handles (regs.map (s.dev.seq k q).get)).setSeq q y)

/-- The command pushes one 64 B entry of scalar registers onto a data queue and dispatches the word w (R164). -/
def DqPushed (s : State) (k : CoreId) (q : SeqId) (w : Nat) (i : Instr) : Prop :=
  let c := s.dev.core k
  let n := bits w 50 48
  ∃ t m y e, exec i s = .next t ∧ RunsOn (c.seq q) y ∧ y.regs = (c.seq q).regs ∧
    OnlyCore s t k ({ c with dq := m }.setSeq q y) ∧ lk [] m n = c.dqOf n ++ [e] ∧ (∀ j, j ≠ n → lk [] m j = c.dqOf j) ∧
    ∀ j, j < 8 → e.extractLsb' (64 * j) 64 = (if j ≤ bits w 46 44 then (c.seq q).get (bits w 55 51 + j) else 0)

/-- The command pops the oldest entry of a data queue into scalar registers and dispatches the word w (R164); nothing is
written into s0. -/
def DqPopped (s : State) (k : CoreId) (q : SeqId) (w : Nat) (i : Instr) (e : BitVec 512) (r : List (BitVec 512)) : Prop :=
  let c := s.dev.core k
  let n := bits w 50 48
  let first := bits w 55 51
  ∃ t m y, exec i s = .next t ∧ RunsOn (c.seq q) y ∧ OnlyCore s t k ({ c with dq := m }.setSeq q y) ∧
    lk [] m n = r ∧ (∀ j, j ≠ n → lk [] m j = c.dqOf j) ∧
    ∀ i, y.get i = (if first ≤ i ∧ i ≤ first + bits w 46 44 ∧ i ≠ 0 then e.extractLsb' (64 * (i - first)) 64 else (c.seq q).get i)

/-- The command sets object o of core k to v and dispatches the word at which sequencer q stands: no other object changes. -/
def SynSet (s : State) (k : CoreId) (q : SeqId) (i : Instr) (o v : Nat) : Prop :=
  let c := s.dev.core k
  ∃ t m y, exec i s = .next t ∧ RunsOn (c.seq q) y ∧ y.regs = (c.seq q).regs ∧ OnlyCore s t k ({ c with syn := m }.setSeq q y) ∧
    (lk (0 : BitVec 32) m o).toNat = v ∧ ∀ j, j ≠ o → lk (0 : BitVec 32) m j = lk 0 c.syn j

/-- The head e of engine queue `eng` is accepted: it leaves the queue, whose rest is r, and runs as a job of kind `kind` with the
next free number; a guarded destination takes a fill-guard entry (R149). Nothing it computes is written yet: no byte of
memory, no sequencer, object, data queue, descriptor, vector register or tile changes, and no other core; an MMUL may enter the cells
of its arrays (R114). -/
def Accepted (s : State) (k : CoreId) (i : Instr) (eng : Eng) (e : QEntry) (r : List QEntry) (kind : JobKind)
    (dst : Option (Nat × Nat)) : Prop :=
  let c := s.dev.core k
  ∃ t, exec i s = .next t ∧ t.mem = s.mem ∧ t.cave = s.cave ∧ t.dev.errs = s.dev.errs ∧
    (∃ j ∈ (t.dev.core k).jobs, j.id = c.newJob ∧ j.eng = eng ∧ j.kind = kind ∧ j.ent = e) ∧
    (t.dev.core k).queue eng = r ∧ (t.dev.core k).fgw = c.fgw ++ dst.toList.map (fun x => ⟨c.newJob, x.1, x.2⟩) ∧
    (t.dev.core k).a = c.a ∧ (t.dev.core k).e = c.e ∧ (t.dev.core k).syn = c.syn ∧ (t.dev.core k).dq = c.dq ∧
    (t.dev.core k).desc = c.desc ∧ (t.dev.core k).vec = c.vec ∧ (t.dev.core k).mx.acc = c.mx.acc ∧
    (t.dev.core k).mx.due = c.mx.due ∧ (t.dev.core k).mx.ckErr = c.mx.ckErr ∧ (t.dev.core k).mx.freeze = c.mx.freeze ∧
    ∀ j, j ≠ k.val → t.dev.core j = s.dev.core j

/-- The head of engine queue `eng` fails a check at acceptance (R431): it leaves the queue, starts no job, writes no byte of
memory, no vector register and no tile, and the error with this code and detail is recorded. -/
def FailedAtAcceptance (s : State) (k : CoreId) (i : Instr) (eng : Eng) (r : List QEntry) (x : Nat × List Nat) : Prop :=
  let c := s.dev.core k
  ∃ t, exec i s = .next t ∧ t.mem = s.mem ∧ t.cave = s.cave ∧ (∃ n ∈ t.dev.errs.ring, n.code = x.1 ∧ n.detail = x.2) ∧
    (t.dev.core k).queue eng = r ∧ (t.dev.core k).jobs.map (fun j => j.id) = c.jobs.map (fun j => j.id) ∧ (t.dev.core k).fgw = c.fgw ∧
    (t.dev.core k).vec = c.vec ∧ (t.dev.core k).mx = c.mx

/-- The newest error record has this code, core and detail (Table 23-2). -/
def Recorded (t : State) (code core : Nat) (detail : List Nat) : Prop :=
  ∃ r, t.dev.errs.ring.head? = some r ∧ r.code = code ∧ r.core = core ∧ r.detail = detail

/-- A full device reset of class DEVICE ran (R400, R409): device reset is asserted, the cores, Moulds and partitions are gone, and
the record kept in ERR_LASTDEV has this code and detail. -/
def ResetByError (s t : State) (code : Nat) (detail : List Nat) : Prop :=
  t.dev.rst = true ∧ t.dev.cores = [] ∧ t.dev.moulds = [] ∧ t.dev.parts = [] ∧ t.dev.errs.ring = [] ∧ t.dev.errs.cause = 4 ∧
  t.mem = s.mem ∧ t.cave = s.cave ∧ ∃ r, t.dev.errs.lastDev = some r ∧ r.code = code ∧ r.detail = detail

/-- A full device reset ran with this cause (R347, R409, R414): device reset is asserted, no core, Mould, partition, port or error
record holds anything, RST_CAUSE tells it, and what lies in flash is kept. -/
def Restarted (s t : State) (cause : Nat) : Prop :=
  t.dev.rst = true ∧ t.dev.cores = [] ∧ t.dev.moulds = [] ∧ t.dev.parts = [] ∧ t.dev.ports = [] ∧ t.dev.errs.ring = [] ∧
  t.dev.errs.cause = cause ∧ t.dev.errs.lastDev = s.dev.errs.lastDev ∧ t.dev.turn = Turn.reset ∧ t.dev.board = s.dev.board ∧
  t.dev.flash.sysKeys = s.dev.flash.sysKeys ∧ t.dev.net.retired = s.dev.net.retired ∧ t.mem = s.mem ∧ t.cave = s.cave

/-- A completion of function f can be written at once: the function is ready and has not left, nothing is held for it, and its
completion ring has room (R340). -/
def CanAnswer (d : Dev) (f : Nat) : Prop :=
  (d.func f).left = none ∧ (d.func f).ready = true ∧ (d.func f).held = [] ∧ (d.func f).cqRoom ≠ 0

/-- The completion of command `cid` of function f with this STATUS and RESULT went out (Table 18-5). -/
def Completed (t : State) (f cid status result : Nat) : Prop :=
  ∃ a ph h, Out.cpl f a (Cpl.bytes ⟨cid, h, status, result⟩ ph) ∈ t.dev.out

/-- A command entry of opcode `opc` that firmware can take from function f, with its reserved fields 0, and answer at once (R338 to
R340). -/
def Entry (d : Dev) (f opc : Nat) (e : BitVec 512) : Prop :=
  d.canTake f = true ∧ cOpc e = opc ∧ cReserved e = true ∧ CanAnswer d f

/-- The entry was taken and its completion went out: CID, the head past it as SQHD, this STATUS and RESULT (R340, Table 18-5). -/
def Answered (s t : State) (f : Nat) (e : BitVec 512) (status result : Nat) : Prop :=
  let h := ((s.dev.func f).sqHead + 1) % (s.dev.func f).sqEntries
  (t.dev.func f).sqHead = h ∧
  ∃ slot ph, Out.cpl f ((s.dev.func f).cqSlot slot) (Cpl.bytes ⟨cCid e, h, status, result⟩ ph) ∈ t.dev.out

/-- A message of class MGMT that is no answer is taken for the loaded Mould m: firmware is ready, the FPID is m's, and SEQ is above
the last one from its sender (R361). -/
def Takes (d : Dev) (h : MHdr) (m : Mould) : Prop :=
  d.crm.fwReady = true ∧ d.mouldFp h.fpid = some m ∧ h.answer = false ∧ lk 0 d.crm.mgmtSeq (h.fpid * 65536 + h.src) < h.seq

/-- The Mould m is the one loaded with its PMASK. -/
def Held (d : Dev) (m : Mould) : Prop := d.moulds.find? (fun x => x.pmask == m.pmask) = some m

/-- The device with the SEQ of a taken message noted (R361). -/
def Dev.heard (d : Dev) (h : MHdr) : Dev :=
  { d with crm := { d.crm with mgmtSeq := up d.crm.mgmtSeq (h.fpid * 65536 + h.src) h.seq } }

/-- A message of this type with this ARG went out to every other member of the Mould m (R249, R286 to R288). -/
def ToldAll (t : State) (m : Mould) (mtype arg : Nat) : Prop :=
  ∀ i, i < m.devices → i ≠ m.self → ∃ n, Out.mgmt i mtype m.fpid n arg false ∈ t.dev.out

/-- A message of this type with this ARG went on to the member after this one in distribution order, where there is one. -/
def PassedOn (t : State) (m : Mould) (mtype arg : Nat) : Prop :=
  ∀ j, m.nextMember = some j → ∃ n, Out.mgmt j mtype m.fpid n arg false ∈ t.dev.out

/-- The Mould k is as m, but for the ticks at which packets of its fabric versions passed a port last: a message that went out over a
link is such a packet (FAB_VLAST). -/
def Mould.AsSent (k m : Mould) : Prop := k = { m with vlast := k.vlast }

/-- Port u has sent its identity block as it now is, on an Ethernet port to each of its peers (R261). -/
def IdentitySent (t : State) (u : Nat) : Prop := ∀ o ∈ t.dev.identityOuts u none, o ∈ t.dev.out

/-- Step 2 of R287 ran on the Mould m: the sequencers of its cores stand IDLE, and no STEP-class error marks its partitions. -/
def StoodBy (s t : State) (m : Mould) : Prop :=
  t.cave = s.cave ∧ (∀ j, m.has (s.dev.partOf j) = true → (t.dev.core j).a.st = .idle ∧ (t.dev.core j).e.st = .idle) ∧
  ∀ e ∈ t.dev.errs.stepErrs, m.has e.1 = false

/-- Member y of the Mould m, now k, takes the place of the lost member x (R287). -/
def TakesOver (m k : Mould) (x y : Nat) : Prop :=
  k.pmask = m.pmask ∧ k.failoverRan = true ∧ ((k.tab k.epoch).rec_ x).aliasTo = y ∧ ((k.tab k.epoch).rec_ y).muted = false

/-- Boundary st of the Mould m is taken at tick `at_`: the grid of every partition that has not stopped for good is that tick plus
(S' - S) times STEP_PERIOD (R287, R288). -/
def TakenAnew (s t : State) (m : Mould) (st at_ : Nat) : Prop :=
  ∀ p ∈ partsOf m.pmask, (s.dev.part p).dead = false →
    (t.dev.part p).next = st ∧ (t.dev.part p).restartAt = some (st, at_) ∧
    (t.dev.part p).t0 = BitVec.ofNat 64 at_ - BitVec.ofNat 64 (st * (s.dev.part p).period.toNat)

/-- Exactly the bytes `bs` from address a on were written into the SRAM. -/
def Written (s t : State) (a : Nat) (bs : List Byte) : Prop :=
  (∀ i, i < bs.length → t.mem.rd (a + i) = bs.getD i 0) ∧ ∀ x, (x < a ∨ a + bs.length ≤ x) → t.mem.rd x = s.mem.rd x

end Sys2Proof.Machine
end

