-- ==== Sys2Proof/Certificates/Slice0/Obligations.lean ====
section
/-! DEFINITION. The statements for the provers: what the commands and the machine do, by the manual's numbered rules. -/

section Claims

open Sys2Proof Sys2Proof.Machine


/-! ### The machine as a whole -/

/-- A step takes the command at the front of the queue and answers what that command does with the rest of the queue. -/
def Obligations.StepRunsFrontCommand : Prop :=
  ∀ (c : Instr) (rest : List Instr) (s : State), s.pending = c :: rest → step s = exec c { s with pending := rest }

/-- With no command waiting, outside device reset, one arithmetic cycle passes (log entry 3): inside a tick (Table 12-1) only
the cycle counter, the cores and what they ask of the slices, the clock counters, and at the tick's first cycle the counters
of ticks change, and the Turn stands; at the tick's last cycle the cycle counter restarts and the Turn counts on, but for a
device none of whose ports is up, which makes itself the root (log entry 112). Device reset holds everything. -/
def Obligations.EmptyQueueRunsOneCycle : Prop :=
  ∀ s : State, s.pending = [] →
    (s.dev.rst = true → step s = .next s) ∧
    (s.dev.rst = false → ∃ d, step s = .next { s with dev := d } ∧
      d.moulds = s.dev.moulds ∧ d.net = { s.dev.net with slcQ := d.net.slcQ } ∧ d.funcs = s.dev.funcs ∧ d.arbs = s.dev.arbs ∧
      d.pwr = s.dev.pwr ∧ d.edge = s.dev.edge ∧ d.out = s.dev.out ∧ d.free = s.dev.free ∧
      (s.dev.cyc + 1 < cyclesPerTick s.dev.clk.step → d.cyc = s.dev.cyc + 1 ∧ d.turn = s.dev.turn ∧ d.errs = s.dev.errs) ∧
      (cyclesPerTick s.dev.clk.step ≤ s.dev.cyc + 1 → d.cyc = 0 ∧ d.errs.ring = s.dev.errs.ring ∧
        (s.dev.lone = false ∨ s.dev.turn.root = true → d.turn = s.dev.turn.tick)))

/-- What reset leaves where the manual gives a value: the Turn 0 in LISTEN with TURN_PRIO 0x80, every sequencer IDLE, every
partition IDLE with nothing loaded, step code 0, every port DOWN with LNK_CTRL.FPD 7, every arbiter with QUANTUM 0x0400 and
LFSR 1, RST_CAUSE 1 and no error record, every SRAM byte 0, no command waiting. -/
def Obligations.ResetLeavesGivenValues : Prop :=
  let d := State.reset.dev
  d.turn.now = 0 ∧ d.turn.st = .listen ∧ d.turn.prio = 0x80 ∧
  (∀ k q, (d.seq k q).st = .idle ∧ (d.seq k q).pc = 0) ∧
  (∀ p, (d.part p).st = .idle ∧ (d.part p).load = 0xFFFFFF0000000000 ∧ (d.part p).step = 0) ∧ d.moulds = [] ∧
  d.clk.step = 0 ∧ (∀ u, (d.port u).st = .down ∧ (d.port u).fpd = 7) ∧
  (∀ a, (d.arb a).quantum = 0x0400 ∧ (d.arb a).lfsr = 1 ∧ (d.arb a).holder = none) ∧
  d.errs.cause = 1 ∧ d.errs.ring = [] ∧ (∀ a, State.reset.mem.rd a = 0) ∧ State.reset.pending = []

/-- The memories of the reset state are canonical. -/
def Obligations.ResetIsCanonical : Prop := State.reset.Canonical

/-- Whatever the front command or the idle cycle does, a step from canonical memories leads to canonical memories, and the queue
afterwards is the rest of the queue before. -/
def Obligations.EveryStepKeepsCanonicalForm : Prop :=
  ∀ s t : State, step s = .next t → (s.Canonical → t.Canonical) ∧ t.pending = s.pending.tail

/-- No command that a sender can form ends in a fault, in any state: the step of a well-formed queue is safe. -/
def Obligations.WellFormedQueueNeverFaults : Prop := ∀ s : State, s.QueueOk → s.Safe

/-- A refusal comes only from a sequencer's word that the manual leaves undefined (R155) or from a test instruction that it
keeps for the maker (R426): no other command is ever refused. -/
def Obligations.OnlyUndefinedWordsAndReservedTestsRefuse : Prop :=
  ∀ (s : State) (r : Refusal), step s = .refused r →
    (∃ op k q c, r = .undefinedWord op ∧ s.pending.head? = some c ∧
      (front s.mem s.dev k q op = .bad ∨ (op ∈ [0x01, 0x02, 0x03, 0x04] ∧ ∃ w, front s.mem s.dev k q op = .go w))) ∨
    (r = .reservedTest ∧ s.pending.head? = some (.jtagInstruction .other))

/-! ### Sequencers: scalar words, control, queues, objects -/

/-- R158, the register forms: d := a op b with 64-bit wrapping, shifts mod 64, comparisons 1 or 0, min and max signed, SEL by
register C. R158, the immediate forms: d := a op the immediate, whose 46 bits are extended by their sign; LI takes the
immediate alone, LIH puts its low 32 bits above the low half of a; R159, RDSYS reads the value its selector names. -/
def Obligations.ScalarWords : Prop :=
    (∀ (k : CoreId) (q : SeqId) (s : State) (w : Nat),
      let a := (s.dev.seq k q).get (wA w)
      let b := (s.dev.seq k q).get (wB w)
      (s.standsAt k q 0x10 w → ScalarResult s k q w (.add k q) (a + b)) ∧
      (s.standsAt k q 0x11 w → ScalarResult s k q w (.sub k q) (a - b)) ∧
      (s.standsAt k q 0x12 w → ScalarResult s k q w (.mul k q) (a * b)) ∧
      (s.standsAt k q 0x13 w → ScalarResult s k q w (.mulhs k q) (BitVec.ofInt 64 (a.toInt * b.toInt / 2 ^ 64))) ∧
      (s.standsAt k q 0x14 w → ScalarResult s k q w (.mulhu k q) (BitVec.ofNat 64 (a.toNat * b.toNat / 2 ^ 64))) ∧
      (s.standsAt k q 0x15 w → ScalarResult s k q w (.and k q) (a &&& b)) ∧
      (s.standsAt k q 0x16 w → ScalarResult s k q w (.or k q) (a ||| b)) ∧
      (s.standsAt k q 0x17 w → ScalarResult s k q w (.xor k q) (a ^^^ b)) ∧
      (s.standsAt k q 0x18 w → ScalarResult s k q w (.shl k q) (a <<< (b.toNat % 64))) ∧
      (s.standsAt k q 0x19 w → ScalarResult s k q w (.shr k q) (a >>> (b.toNat % 64))) ∧
      (s.standsAt k q 0x1A w → ScalarResult s k q w (.sra k q) (BitVec.ofInt 64 (a.toInt / 2 ^ (b.toNat % 64)))) ∧
      (s.standsAt k q 0x1B w → ScalarResult s k q w (.slt k q) (if a.toInt < b.toInt then 1 else 0)) ∧
      (s.standsAt k q 0x1C w → ScalarResult s k q w (.sltu k q) (if a.toNat < b.toNat then 1 else 0)) ∧
      (s.standsAt k q 0x1D w → ScalarResult s k q w (.min k q) (BitVec.ofInt 64 (min a.toInt b.toInt))) ∧
      (s.standsAt k q 0x1E w → ScalarResult s k q w (.max k q) (BitVec.ofInt 64 (max a.toInt b.toInt))) ∧
      (s.standsAt k q 0x1F w → ScalarResult s k q w (.sel k q) (if (s.dev.seq k q).get (wC w) ≠ 0 then a else b))) ∧
    (∀ (k : CoreId) (q : SeqId) (s : State) (w : Nat),
      let a := (s.dev.seq k q).get (wA w)
      let i : Word := BitVec.ofInt 64 (sext (wImm w) 46)
      (s.standsAt k q 0x20 w → ScalarResult s k q w (.addi k q) (a + i)) ∧
      (s.standsAt k q 0x21 w → ScalarResult s k q w (.muli k q) (a * i)) ∧
      (s.standsAt k q 0x22 w → ScalarResult s k q w (.andi k q) (a &&& i)) ∧
      (s.standsAt k q 0x23 w → ScalarResult s k q w (.ori k q) (a ||| i)) ∧
      (s.standsAt k q 0x24 w → ScalarResult s k q w (.xori k q) (a ^^^ i)) ∧
      (s.standsAt k q 0x25 w → ScalarResult s k q w (.shli k q) (a <<< bits w 5 0)) ∧
      (s.standsAt k q 0x26 w → ScalarResult s k q w (.shri k q) (a >>> bits w 5 0)) ∧
      (s.standsAt k q 0x27 w → ScalarResult s k q w (.srai k q) (BitVec.ofInt 64 (a.toInt / 2 ^ bits w 5 0))) ∧
      (s.standsAt k q 0x28 w → ScalarResult s k q w (.slti k q) (if a.toInt < i.toInt then 1 else 0)) ∧
      (s.standsAt k q 0x29 w → ScalarResult s k q w (.sltiu k q) (if a.toNat < i.toNat then 1 else 0)) ∧
      (s.standsAt k q 0x2A w → ScalarResult s k q w (.li k q) i) ∧
      (s.standsAt k q 0x2B w → ScalarResult s k q w (.lih k q) (BitVec.ofNat 64 (bits w 31 0 * 2 ^ 32 + a.toNat % 2 ^ 32))) ∧
      (s.standsAt k q 0x25 w ∨ s.standsAt k q 0x26 w ∨ s.standsAt k q 0x27 w → bits w 45 6 = 0) ∧
      (s.standsAt k q 0x2B w → bits w 45 32 = 0) ∧
      (s.standsAt k q 0x05 w → ScalarResult s k q w (.rdsys k q) (BitVec.ofNat 64 (s.dev.sysValue k (wImm w)))) ∧
      s.dev.sysValue k 0 = k.val ∧ s.dev.sysValue k 1 = s.dev.posOf k ∧ s.dev.sysValue k 2 = s.dev.partOf k ∧
      s.dev.sysValue k 6 = (s.dev.part (s.dev.partOf k)).step.toNat)

/-- R157 and R162: NOP only goes on; a taken branch goes to its own word plus OFS, a branch not taken goes on; no register
changes. R50, R51: at a word that ends levels, innermost first, a level with iterations left jumps to the body's first word
with one iteration fewer, a level without is left and the next that shares the end word decides; with none left, or at any
other word, the next word follows. LOOP (R50, R160): with a count a new innermost level opens over the words up to END; a
count of 0 goes on as if the end word had just ended this loop. With four levels open the word is refused. -/
def Obligations.ControlWords : Prop :=
    (∀ (k : CoreId) (q : SeqId) (s : State) (w : Nat),
      let x := s.dev.seq k q
      let a := x.get (wA w)
      let b := x.get (wB w)
      let dst := (((x.pc.toNat : Int) + sext (bits w 13 0) 14) % 8192).toNat
      (s.standsAt k q 0x00 w → BranchResult s k q (.nop k q) False 0) ∧
      (s.standsAt k q 0x08 w → BranchResult s k q (.beq k q) (a = b) dst) ∧
      (s.standsAt k q 0x09 w → BranchResult s k q (.bne k q) (a ≠ b) dst) ∧
      (s.standsAt k q 0x0A w → BranchResult s k q (.blt k q) (a.toInt < b.toInt) dst) ∧
      (s.standsAt k q 0x0B w → BranchResult s k q (.bge k q) (b.toInt ≤ a.toInt) dst) ∧
      (s.standsAt k q 0x0C w → BranchResult s k q (.bltu k q) (a.toNat < b.toNat) dst) ∧
      (s.standsAt k q 0x0D w → BranchResult s k q (.bgeu k q) (b.toNat ≤ a.toNat) dst) ∧
      (s.standsAt k q 0x0E w → BranchResult s k q (.j k q) True dst)) ∧
    (∀ (w : Nat) (l : LoopLv) (r : List LoopLv),
      loopNext w [] = (w + 1, []) ∧
      (l.last ≠ w → loopNext w (l :: r) = (w + 1, l :: r)) ∧
      (l.last = w → 1 < l.left → loopNext w (l :: r) = (l.first, ⟨l.first, l.last, l.left - 1⟩ :: r)) ∧
      (l.last = w → l.left ≤ 1 → loopNext w (l :: r) = loopNext w r)) ∧
    (∀ (k : CoreId) (q : SeqId) (s : State) (w : Nat), s.standsAt k q 0x01 w →
      let x := s.dev.seq k q
      let n := if bit w 55 then (x.get (wA w)).toNat % 2 ^ 32 else bits w 31 0
      (x.loops.length < 4 → ∃ t y, exec (.loop k q) s = .next t ∧ OnlySeq s t k q y ∧ y.regs = x.regs ∧ y.rtn = x.rtn ∧
        y.st = x.running ∧ y.disp = x.disp + 1 ∧
        (n ≠ 0 → y.pc = x.pc + 1 ∧ y.loops = ⟨x.pc.toNat + 1, bits w 44 32, n⟩ :: x.loops) ∧
        (n = 0 → y.pc = BitVec.ofNat 13 (loopNext (bits w 44 32) x.loops).1 ∧ y.loops = (loopNext (bits w 44 32) x.loops).2)) ∧
      (4 ≤ x.loops.length → exec (.loop k q) s = .refused (.undefinedWord 0x01)))

/-- CALL, RET and the routine counter (R52, R53, R161, R162): CALL enters the routine at the library word its table entry gives,
with the published CYCLES; RET waits while the counter has not reached CYCLES, and returns to the word after the CALL at
once where it has, which sets RTN_OVER; when the counter reaches CYCLES a waiting return is taken, and a routine still
running sets RTN_OVER. -/
def Obligations.RoutineCallReturnAndCounter : Prop :=
  ∀ (k : CoreId) (q : SeqId) (s : State) (w : Nat),
    let x := s.dev.seq k q
    let e := fetch s.mem k q (BitVec.ofNat 13 (6144 + bits w 55 48))
    (s.standsAt k q 0x02 w → x.rtn = none → bit e (match q with | .A => 50 | .E => 51) = true →
      x.loops.length + bits e 49 48 ≤ 4 →
      ∃ t y, exec (.call k q) s = .next t ∧ OnlySeq s t k q y ∧ y.regs = x.regs ∧ y.loops = x.loops ∧ y.st = .inRoutine ∧
        y.pc = BitVec.ofNat 13 (6144 + bits e 10 0) ∧ y.rtn = some ⟨x.pc, bits e 47 16, 0, x.loops.length, false, false⟩) ∧
    (∀ r, x.rtn = some r →
      let ls := x.loops.drop (x.loops.length - r.depth)
      let back := fun (y : Seq) => y.regs = x.regs ∧ y.rtn = none ∧ y.st = .run ∧
        y.pc = BitVec.ofNat 13 (loopNext r.ret.toNat ls).1 ∧ y.loops = (loopNext r.ret.toNat ls).2
      (s.standsAt k q 0x04 w → r.expired = true ∨ r.cycles ≤ r.count →
        ∃ t y, exec (.ret k q) s = .next t ∧ OnlyCore s t k ({ s.dev.core k with rtnOver := true }.setSeq q y) ∧ back y) ∧
      (s.standsAt k q 0x04 w → r.expired = false → r.count < r.cycles →
        ∃ t y, exec (.ret k q) s = .next t ∧ OnlySeq s t k q y ∧ y.regs = x.regs ∧ y.pc = x.pc ∧ y.loops = x.loops ∧
          y.rtn = some { r with done := true }) ∧
      (x.st ≠ .halted → r.expired = false → r.cycles ≤ r.count → r.done = true →
        ∃ t y, exec (.routineCounterExpire k q) s = .next t ∧ OnlySeq s t k q y ∧ back y) ∧
      (x.st ≠ .halted → r.expired = false → r.cycles ≤ r.count → r.done = false →
        ∃ t, exec (.routineCounterExpire k q) s = .next t ∧
          OnlyCore s t k ({ s.dev.core k with rtnOver := true }.setSeq q { x with rtn := some { r with expired := true } }))) ∧
    (x.st = .halted → exec (.routineCounterExpire k q) s = .next s)

/-- CALL, RET and the routine counter complete (R52, R161, R162): a CALL of a routine that its table entry opens to the
sequencer, outside any routine and with loop levels to spare, enters the routine; a RET inside a routine returns or waits;
the routine counter that reaches CYCLES ends the routine whose return waits. Nothing else of the machine changes but, of the
core's own flags, RTN_OVER. -/
def Obligations.RoutineWordsComplete : Prop :=
  ∀ (k : CoreId) (q : SeqId) (s : State) (w : Nat) (r : Routine),
    let x := s.dev.seq k q
    let e := fetch s.mem k q (BitVec.ofNat 13 (6144 + bits w 55 48))
    (s.standsAt k q 0x02 w → x.rtn = none → bit e (match q with | .A => 50 | .E => 51) = true → x.loops.length + bits e 49 48 ≤ 4 →
      ∃ t y, exec (.call k q) s = .next t ∧ OnlySeq s t k q y ∧ y.disp = x.disp + 1 ∧ y.regs = x.regs ∧
        y.pc.toNat = 6144 + bits e 10 0) ∧
    (s.standsAt k q 0x04 w → x.rtn = some r →
      ∃ t y b, exec (.ret k q) s = .next t ∧ OnlyCore s t k ({ s.dev.core k with rtnOver := b }.setSeq q y) ∧
        y.disp = x.disp + 1 ∧ y.regs = x.regs ∧
        (y.rtn = none ∨ (y.rtn = some { r with done := true } ∧ b = (s.dev.core k).rtnOver))) ∧
    (x.rtn = some r → r.done = true → r.expired = false → r.cycles ≤ r.count → x.st ≠ .halted →
      ∃ t y, exec (.routineCounterExpire k q) s = .next t ∧ OnlySeq s t k q y ∧ y.rtn = none ∧ y.st = .run ∧ y.disp = x.disp ∧
        y.regs = x.regs)

/-- STEPEND (R163): the sequencer enters STEP_WAIT, at the next word or with WRAP at word 0; its registers, the other sequencer
and every byte of memory stay. WRAP inside a loop is refused. -/
def Obligations.StependEntersStepWait : Prop :=
  ∀ (k : CoreId) (q : SeqId) (s : State) (w : Nat), s.standsAt k q 0x03 w →
    let x := s.dev.seq k q
    ((bit w 55 = true → x.loops = []) → ∃ t, exec (.stepend k q) s = .next t ∧ t.mem = s.mem ∧ t.cave = s.cave ∧
      (t.dev.seq k q).st = .stepWait ∧ (t.dev.seq k q).ended = true ∧ (t.dev.seq k q).regs = x.regs ∧
      (t.dev.seq k q).pc = (if bit w 55 then 0 else BitVec.ofNat 13 (loopNext x.pc.toNat x.loops).1) ∧
      (∀ r, r ≠ q → t.dev.seq k r = s.dev.seq k r) ∧ (∀ j, j ≠ k.val → t.dev.core j = s.dev.core j)) ∧
    (bit w 55 = true → x.loops ≠ [] → exec (.stepend k q) s = .refused (.undefinedWord 0x03))

/-- R49, R164: DQPUSH puts one entry at the queue's end while it holds fewer than 16, else the sequencer waits in STALL_DQ_FULL;
DQPOP takes the oldest entry, else the sequencer waits in STALL_DQ_EMPTY; a waiting word is dispatched as soon as there is
room or an entry. -/
def Obligations.DataQueueWords : Prop :=
  ∀ (k : CoreId) (q : SeqId) (s : State) (w : Nat),
    let c := s.dev.core k
    let x := s.dev.seq k q
    (s.standsAt k q 0x30 w →
      ((c.dqOf (bits w 50 48)).length < 16 → DqPushed s k q w (.dqpush k q)) ∧
      ((c.dqOf (bits w 50 48)).length < 16 → x.st = .stallDqFull → DqPushed s k q w (.dqStallEnd k q)) ∧
      (16 ≤ (c.dqOf (bits w 50 48)).length →
        ∃ t, exec (.dqpush k q) s = .next t ∧ OnlySeq s t k q { x with st := .stallDqFull })) ∧
    (s.standsAt k q 0x31 w →
      (∀ e r, c.dqOf (bits w 50 48) = e :: r → DqPopped s k q w (.dqpop k q) e r) ∧
      (∀ e r, c.dqOf (bits w 50 48) = e :: r → x.st = .stallDqEmpty → DqPopped s k q w (.dqStallEnd k q) e r) ∧
      (c.dqOf (bits w 50 48) = [] → ∃ t, exec (.dqpop k q) s = .next t ∧ OnlySeq s t k q { x with st := .stallDqEmpty }))

/-- R55, R56, R165: SYNWAIT takes n from a count that covers it, else waits in STALL_SYN and completes as soon as the count
covers n; SYNADD adds n, SYNSUB takes n without waiting. Where the access sequencer waits for credits that the count already
covers, what the execute sequencer asks of that object comes after it. R57: a SYNSUB of more than the count leaves the count
and raises SYNC_UNDERFLOW with detail UNDER; a SYNADD past 2^32 - 1 saturates and raises it with detail OVER. The record
names the object and the sequencer. R54 to R57: a credit of n adds n to exactly one object, of a core by its number 32·core
+ object or of an edge, as long as the count stays below 2^32, and no sequencer moves; past that the count saturates and the
record of SYNC_UNDERFLOW has detail OVER and the source of the credit. -/
def Obligations.SynchronisationObjects : Prop :=
    (∀ (k : CoreId) (q : SeqId) (s : State) (w : Nat),
      let c := s.dev.core k
      let x := s.dev.seq k q
      let o := bits w 54 50
      let count := (lk (0 : BitVec 32) c.syn o).toNat
      let n := if bit w 55 then (x.get (bits w 49 45)).toNat % 2 ^ 32 else bits w 31 0
      let mine := ¬ (q = .E ∧ 0 < n ∧ c.accessFirst s.mem k o = true)
      (s.standsAt k q 0x40 w → n ≤ count → mine → SynSet s k q (.synwait k q) o (count - n)) ∧
      (s.standsAt k q 0x40 w → n ≤ count → mine → x.st = .stallSyn → SynSet s k q (.synwaitSatisfied k q) o (count - n)) ∧
      (s.standsAt k q 0x40 w → count < n ∨ ¬ mine →
        ∃ t, exec (.synwait k q) s = .next t ∧ OnlySeq s t k q { x with st := .stallSyn }) ∧
      (s.standsAt k q 0x41 w → mine → count + n < 2 ^ 32 → SynSet s k q (.synadd k q) o (count + n)) ∧
      (s.standsAt k q 0x42 w → mine → n ≤ count → SynSet s k q (.synsub k q) o (count - n)) ∧
      (s.standsAt k q 0x41 w → ¬ mine → exec (.synadd k q) s = .next s) ∧
      (s.standsAt k q 0x42 w → ¬ mine → exec (.synsub k q) s = .next s)) ∧
    (∀ (k : CoreId) (q : SeqId) (s : State) (w : Nat),
      let c := s.dev.core k
      let x := s.dev.seq k q
      let o := bits w 54 50
      let count := (lk (0 : BitVec 32) c.syn o).toNat
      let n := if bit w 55 then (x.get (bits w 49 45)).toNat % 2 ^ 32 else bits w 31 0
      let no := match q with | .A => 0 | .E => 1
      let mine := ¬ (q = .E ∧ 0 < n ∧ c.accessFirst s.mem k o = true)
      (s.standsAt k q 0x42 w → mine → count < n → ∃ t r, exec (.synsub k q) s = .next t ∧ t.mem = s.mem ∧
        t.dev.errs.ring.head? = some r ∧ r.code = 0x14 ∧ r.core = k.val ∧ r.detail = [32 * k.val + o, 0, no] ∧
        (lk (0 : BitVec 32) (t.dev.core k).syn o).toNat = count ∧ RunsOn x (t.dev.seq k q)) ∧
      (s.standsAt k q 0x41 w → mine → 2 ^ 32 ≤ count + n → ∃ t r, exec (.synadd k q) s = .next t ∧ t.mem = s.mem ∧
        t.dev.errs.ring.head? = some r ∧ r.code = 0x14 ∧ r.core = k.val ∧ r.detail = [32 * k.val + o, 1, no] ∧
        (lk (0 : BitVec 32) (t.dev.core k).syn o).toNat = 2 ^ 32 - 1 ∧ RunsOn x (t.dev.seq k q))) ∧
    (∀ (d : Dev) (obj n src : Nat),
      let t := d.credit obj n src
      (obj < 24576 → (lk (0 : BitVec 32) (d.core (obj / 32)).syn (obj % 32)).toNat + n < 2 ^ 32 →
        (lk (0 : BitVec 32) (t.core (obj / 32)).syn (obj % 32)).toNat = (lk (0 : BitVec 32) (d.core (obj / 32)).syn (obj % 32)).toNat + n ∧
        (∀ o, o ≠ obj % 32 → lk (0 : BitVec 32) (t.core (obj / 32)).syn o = lk 0 (d.core (obj / 32)).syn o) ∧
        (∀ j, j ≠ obj / 32 → t.core j = d.core j) ∧ (∀ j q, t.seq j q = d.seq j q) ∧ t.edge = d.edge ∧ t.errs = d.errs) ∧
      (24576 ≤ obj → (lk (0 : BitVec 32) d.edge obj).toNat + n < 2 ^ 32 →
        (lk (0 : BitVec 32) t.edge obj).toNat = (lk (0 : BitVec 32) d.edge obj).toNat + n ∧
        (∀ o, o ≠ obj → lk (0 : BitVec 32) t.edge o = lk 0 d.edge o) ∧ t.cores = d.cores ∧ t.errs = d.errs) ∧
      (obj < 24576 → 2 ^ 32 ≤ (lk (0 : BitVec 32) (d.core (obj / 32)).syn (obj % 32)).toNat + n →
        (lk (0 : BitVec 32) (t.core (obj / 32)).syn (obj % 32)).toNat = 2 ^ 32 - 1 ∧
        ∃ r, t.errs.ring.head? = some r ∧ r.code = 0x14 ∧ r.core = obj / 32 ∧ r.detail = [obj, 1, src]) ∧
      (24576 ≤ obj → 2 ^ 32 ≤ (lk (0 : BitVec 32) d.edge obj).toNat + n → (lk (0 : BitVec 32) t.edge obj).toNat = 2 ^ 32 - 1 ∧
        ∃ r, t.errs.ring.head? = some r ∧ r.code = 0x14 ∧ r.detail = [obj, 1, src]))

/-- WATCHDOG (R59): a sequencer stalled for more than 2^WDOG_EXP cycles on end halts both sequencers of its core and is recorded
with code WATCHDOG, its number and its state code. -/
def Obligations.WatchdogHaltsBothSequencers : Prop :=
  ∀ (k : CoreId) (q : SeqId) (s : State),
    let c := s.dev.core k
    let x := c.seq q
    x.st.stalled = true → 2 ^ c.wdogExp.toNat < x.stallRun →
      ∃ t r, exec (.watchdog k q) s = .next t ∧ t.mem = s.mem ∧ (t.dev.core k).wdog = true ∧
        (t.dev.seq k .A).st = .halted ∧ (t.dev.seq k .E).st = .halted ∧
        t.dev.errs.ring.head? = some r ∧ r.code = 0x15 ∧ r.core = k.val ∧
        r.detail = [match q with | .A => 0 | .E => 1, x.st.code]

/-- R87 to R89, R166: DCREATE counts GEN of its handle on, clears VALID and has the 64 B image (48 B under COMPAT_S420) read in
the TQ-read class once the fill guard allows it; when the image is there and passes every check of R88 the handle becomes
VALID with the image's fields; DRETIRE counts GEN on and clears VALID. The fields of the entry stay until then. -/
def Obligations.DescriptorLifeCycle : Prop :=
  ∀ (k : CoreId) (s : State) (w : Nat),
    let c := s.dev.core k
    let h := bits w 55 50
    let e := lk DescEntry.reset c.desc h
    let v := (c.a.get (bits w 49 45)).toNat
    let n := if s.dev.compat k then 48 else 64
    let asks := fun (l : List Create) => l.map (fun x => (x.h, x.addr, x.len))
    (s.standsAt k .A 0x50 w → c.descBusy h = false → v < 2 ^ 20 → v % (if s.dev.compat k then 16 else 64) = 0 →
      ∃ t y m cs rq, exec (.dcreate k) s = .next t ∧ RunsOn c.a y ∧ y.regs = c.a.regs ∧
        OnlyCore s t k { c with a := y, desc := m, creates := cs, lsq := c.lsq ++ rq } ∧
        asks cs = asks c.creates ++ [(h, lsBase k + v, n)] ∧ (∀ r ∈ rq, r.cls = .tqRead ∧ r.write = false) ∧
        lk DescEntry.reset m h = { e with valid := false, gen := e.gen + 1 } ∧
        ∀ i, i ≠ h → lk DescEntry.reset m i = lk DescEntry.reset c.desc i) ∧
    (s.standsAt k .A 0x51 w → c.descBusy h = false →
      ∃ t y m, exec (.dretire k) s = .next t ∧ RunsOn c.a y ∧ y.regs = c.a.regs ∧ OnlyCore s t k { c with a := y, desc := m } ∧
        lk DescEntry.reset m h = { e with valid := false, gen := e.gen + 1 } ∧
        ∀ i, i ≠ h → lk DescEntry.reset m i = lk DescEntry.reset c.desc i) ∧
    (∀ cr rest, c.creates = cr :: rest → cr.asked = true → cr.left = 0 → cr.addr + cr.len ≤ lsBase k + 2 ^ 20 →
      let bs := cr.image k s.dev.free
      let f := parseDesc bs (s.dev.compat k)
      let g := lk DescEntry.reset c.desc cr.h
      let p := s.dev.partOf k
      validate bs f ((s.dev.mouldOf p).elim [] (fun m => m.ranges)) p k = none →
      ∃ t m, exec (.dcreateComplete k) s = .next t ∧ OnlyCore s t k { c with creates := rest, desc := m } ∧
        lk DescEntry.reset m cr.h = ⟨true, g.gen, f, some cr.addr⟩ ∧
        ∀ i, i ≠ cr.h → lk DescEntry.reset m i = lk DescEntry.reset c.desc i)

/-- The eight words of the transfer queue (R167, R169 to R176): each is dispatched into TQ while it holds fewer than 8 entries
and no create of a handle it names runs (R47, R88). Every vector word (R178 to R194) is dispatched into VQ while it holds
fewer than 8 entries, with the scalar register that SB asks for and the handle that VLD and VST name. The five words of the
matrix queue (R195 to R203) are dispatched into MQ while it holds fewer than 8 entries; bit MODE tells MSTORE from
MSTORE_PRESS (R199, R200). -/
def Obligations.EngineWordsEnterTheirQueue : Prop :=
    (∀ (k : CoreId) (s : State) (w : Nat), (s.dev.core k).tq.length < 8 →
      let free := fun (hs : List Nat) => ∀ cr ∈ (s.dev.core k).creates, cr.h ∉ hs
      (s.standsAt k .A 0x60 w → bit w 17 = false → free [bits w 49 44, bits w 55 50] →
        Dispatched s k .A w .tq (.tload k) [bits w 49 44, bits w 55 50] [bits w 43 39, bits w 38 34]) ∧
      (s.standsAt k .A 0x60 w → bit w 17 = true → free [bits w 49 44] →
        Dispatched s k .A w .tq (.tload k) [bits w 49 44] [bits w 43 39, bits w 38 34]) ∧
      (s.standsAt k .A 0x61 w → free [bits w 49 44, bits w 55 50] →
        Dispatched s k .A w .tq (.tstore k) [bits w 49 44, bits w 55 50] [bits w 43 39, bits w 38 34]) ∧
      (s.standsAt k .A 0x62 w → free [bits w 55 50] → Dispatched s k .A w .tq (.fill k) [bits w 55 50] [bits w 49 45]) ∧
      (s.standsAt k .A 0x63 w → free [bits w 49 44, bits w 55 50] →
        Dispatched s k .A w .tq (.copy k) [bits w 49 44, bits w 55 50] []) ∧
      (s.standsAt k .A 0x64 w → Dispatched s k .A w .tq (.msend k) [] [bits w 55 51, bits w 50 46]) ∧
      (s.standsAt k .A 0x65 w → Dispatched s k .A w .tq (.fsend k) [] [bits w 55 51, bits w 50 46, bits w 45 41]) ∧
      (s.standsAt k .A 0x66 w → Dispatched s k .A w .tq (.caveq k) [] [bits w 55 51]) ∧
      (s.standsAt k .A 0x67 w → Dispatched s k .A w .tq (.hostq k) [] [bits w 55 51])) ∧
    (∀ (k : CoreId) (s : State) (w op : Nat) (i : Instr), (s.dev.core k).vq.length < 8 → s.standsAt k .E op w →
      (op, i) ∈ [(0x81, Instr.vadd k), (0x82, .vsub k), (0x83, .vmul k), (0x84, .vfma k), (0x85, .vfnma k), (0x86, .vmin k),
        (0x87, .vmax k), (0x88, .vsadd k), (0x89, .vssub k), (0x8A, .vmulh k), (0x8B, .vand k), (0x8C, .vor k),
        (0x8D, .vxor k), (0x8E, .vshl k), (0x8F, .vshr k), (0x90, .vshrr k), (0x91, .vcmp k), (0x92, .vsel k),
        (0x93, .vidx k), (0x98, .vcvt k), (0xA0, .vredsum k), (0xA1, .vredmax k), (0xA2, .vredmin k), (0xA3, .vredargmax k),
        (0xA8, .vperm k), (0xA9, .vslide k), (0xB0, .vfn k), (0xB4, .vacc k), (0xB8, .vld k), (0xB9, .vst k),
        (0xBA, .vpop k), (0xBB, .vpush k)] →
      Dispatched s k .E w .vq i (if op = 0xB8 ∨ op = 0xB9 then [bits w 13 0] else []) (if bit w 35 then [bits w 45 41] else [])) ∧
    (∀ (k : CoreId) (s : State) (w : Nat), (s.dev.core k).mq.length < 8 →
      (s.standsAt k .E 0xC0 w → Dispatched s k .E w .mq (.mmul k) [bits w 55 50, bits w 49 44]
        [bits w 31 27, bits w 26 22, bits w 21 17]) ∧
      (s.standsAt k .E 0xC1 w → bit w 40 = false → Dispatched s k .E w .mq (.mstore k) [bits w 51 46] [bits w 45 41]) ∧
      (s.standsAt k .E 0xC1 w → bit w 40 = true → Dispatched s k .E w .mq (.mstorePress k) [] [bits w 45 41]) ∧
      (s.standsAt k .E 0xC2 w → Dispatched s k .E w .mq (.mldacc k) [] [bits w 48 44]) ∧
      (s.standsAt k .E 0xC3 w → Dispatched s k .E w .mq (.mclr k) [] []))

/-! ### Engines -/

/-- TQ_ACCEPT (R150, R151, R167, R168, R431): the head of TQ that passes its checks and is not withheld by the fill guard
becomes a job; one that the guard withholds waits; one that fails a check ends with its record. VQ_ACCEPT (R130, R179,
R431): the head of VQ with no hazard, no failing check and not withheld by the fill guard becomes a job with its sources
captured; a VST takes a fill-guard entry; one withheld waits; one that fails ends with its record. MQ_ACCEPT (R112, R197,
R431): the head of MQ whose tiles are free becomes a job of the kind its word names; one the fill guard withholds waits; one
that fails a check ends with its record. -/
def Obligations.QueuesAcceptTheirHead : Prop :=
    (∀ (k : CoreId) (s : State) (e : QEntry) (r : List QEntry),
      let c := s.dev.core k
      let p := s.dev.planT k e
      c.tq = e :: r → s.dev.clocked k = true → s.dev.tqHeld c = false →
      (p.err = none → c.guardHold p.reads p.dst = false → Accepted s k (.tqAccept k) .tq e r p.kind p.dst) ∧
      (p.err = none → c.guardHold p.reads p.dst = true → exec (.tqAccept k) s = .next s) ∧
      (∀ x, p.err = some x → FailedAtAcceptance s k (.tqAccept k) .tq r x)) ∧
    (∀ (k : CoreId) (s : State) (e : QEntry) (r : List QEntry),
      let c := s.dev.core k
      let g := vecRanges c k e
      c.vq = e :: r → s.dev.clocked k = true → vecHold c e = false →
      (vecErr c k e = none → c.guardHold (boundsOf g.1) g.2 = false → Accepted s k (.vqAccept k none) .vq e r .vec g.2) ∧
      (vecErr c k e = none → c.guardHold (boundsOf g.1) g.2 = true → exec (.vqAccept k none) s = .next s) ∧
      (∀ x p, vecErr c k e = some x → FailedAtAcceptance s k (.vqAccept k p) .vq r x)) ∧
    (∀ (k : CoreId) (s : State) (e : QEntry) (r : List QEntry),
      let c := s.dev.core k
      let w := e.w
      let f0 := (e.caps.map (fun (h : Cap) => c.fields h.h)).getD 0 DescF.zero
      let f1 := (e.caps.map (fun (h : Cap) => c.fields h.h)).getD 1 DescF.zero
      let q := mkPass e f0 f1
      let src := (if q.aReads = [] then [] else [q.a.span]) ++ (if q.bReads = [] then [] else [q.b.span])
      let dst := if guarded k f0.span then some f0.span else none
      let i := Instr.mqAccept k
      c.mq = e :: r → s.dev.clocked k = true → mqHold c e = false →
      (∀ x, mqErr c (s.dev.partOf k) k e = some x → FailedAtAcceptance s k i .mq r x) ∧
      (mqErr c (s.dev.partOf k) k e = none →
        (wOp w = 0xC0 → c.guardHold src none = false → Accepted s k i .mq e r .mmul none) ∧
        (wOp w = 0xC0 → c.guardHold src none = true → exec i s = .next s) ∧
        (wOp w = 0xC1 → bit w 40 = false → c.guardHold [] dst = false → Accepted s k i .mq e r .mstore dst) ∧
        (wOp w = 0xC1 → bit w 40 = true → Accepted s k i .mq e r .mstorePress none) ∧
        (wOp w = 0xC2 → c.guardHold [(lsBase k + e.val 0, lsBase k + e.val 0 + (if bits w 51 50 = 2 then 8192 else 1024) - 1)] none =
          false → Accepted s k i .mq e r .mldacc none) ∧
        (wOp w = 0xC3 → Accepted s k i .mq e r .mclr none)))

/-- TRANSFER_COMPLETE (R149, R167): a transfer whose last byte has landed ends, its fill-guard entry goes, and its object, if it
has one, is credited with the bytes moved; a Cave or host record leaves on the service channel for its request queue while
fewer than 32 stand in that or are on their way to it. -/
def Obligations.TransferCompletesWithItsCredit : Prop :=
  ∀ (k : CoreId) (i : Nat) (s : State) (j : Job),
    let d := s.dev
    let c := d.core k
    let x := j.descs.getD 0 DescF.zero
    let n := bits j.ent.w 50 47
    let ended := d.setCore k { c with jobs := c.jobs.filter (fun y => y.id ≠ j.id), fgw := c.fgw.filter (fun g => g.job ≠ j.id),
                                      fgr := c.fgr.filter (fun g => g.job ≠ j.id) }
    c.jobs[i]? = some j → j.eng = .tq → j.issued = true → j.rdLeft = 0 → j.wrLeft = 0 → j.lost = false →
    (j.kind = .tload ∨ j.kind = .tstore → exec (.transferComplete k i) s =
      .next { s with dev := ended.creditOpt (tqSyn j.ent.w) (moveBytes x (j.ent.window x).1 (j.ent.window x).2.2) }) ∧
    (j.kind = .fill → exec (.transferComplete k i) s = .next { s with dev := ended.creditOpt (tqSyn j.ent.w) (x.bytesOf x.elems) }) ∧
    (j.kind = .copy → exec (.transferComplete k i) s = .next { s with
      dev := ended.creditOpt (tqSyn j.ent.w) ((j.descs.getD 1 DescF.zero).bytesOf (j.descs.getD 1 DescF.zero).elems) }) ∧
    (∀ host, j.kind = (if host then .hostq else .caveq) → d.recCount host n < 32 →
      let t := ended.sendRec k host n (j.ent.val 0) (j.record k)
      exec (.transferComplete k i) s = .next { s with dev := t } ∧ t.recCount host n = d.recCount host n + 1 ∧
      t.caveQ = d.caveQ ∧ t.hostQ = d.hostQ ∧ t.errs = d.errs) ∧
    (∀ host, j.kind = (if host then .hostq else .caveq) → 32 ≤ d.recCount host n → exec (.transferComplete k i) s = .next s)

/-- SETVL (R182): in the execute sequencer VTYPE takes the word's bits 43 to 36, VL the smaller of the wanted length (COUNT, or
the low 32 bits of register A with M = 1) and the 2048 / W(VTYPE) lanes a register has of that type, and register D takes
VL; nothing else changes. A word with a reserved VTYPE is undefined: the model stops on it by name. The access stream has no
SETVL: the word is undefined there, and the loader's program check refuses every access program that holds one. -/
def Obligations.SetvlSetsLengthAndType : Prop :=
  (∀ (k : CoreId) (s : State) (w : Nat), s.standsAt k .E 0x80 w →
    let c := s.dev.core k
    let n := if bit w 45 then (c.e.get (wA w)).toNat % 2 ^ 32 else bits w 31 0
    let vl := min n (2048 / vtWidth (bits w 43 36))
    ∃ t y, exec (.setvl k) s = .next t ∧ RunsOn c.e y ∧ WritesReg c.e y (wD w) (BitVec.ofNat 64 vl) ∧
      OnlyCore s t k { c with e := y, vec := { c.vec with vl := vl, vtype := BitVec.ofNat 8 (bits w 43 36) } }) ∧
  (∀ (k : CoreId) (s : State),
    let c := s.dev.core k
    let w := fetch s.mem k .E c.e.pc
    c.e.live = true → s.dev.clocked k = true → wOp w = 0x80 → vtypeOk (bits w 43 36) = false →
      exec (.setvl k) s = .refused (.undefinedWord 0x80)) ∧
  (∀ w : Nat, wOp w = 0x80 →
    (∀ pc dqdir, wordOk .A pc dqdir w = false) ∧
    (∀ dqdir replica lib ws, w ∈ ws → programOk .A dqdir replica lib ws = false))

/-- VQ_ENTRY_COMPLETE (R180, R194): an entry whose reads are in and whose writes are granted writes its result, ends and gives
its credit: the bytes of a VST, else 1. -/
def Obligations.VectorEntryCompletes : Prop :=
  ∀ (k : CoreId) (i : Nat) (s : State) (j : Job),
    let c := s.dev.core k
    let w := j.ent.w
    let n := if wOp w = 0xB9 then vstBytes (j.descs.getD 0 DescF.zero) (vecCount w j.ent.vl) else 1
    c.jobs[i]? = some j → j.eng = .vq → j.issued = true → j.rdLeft = 0 → j.wrLeft = 0 → j.lost = false →
    s.dev.clocked k = true → wOp w ≠ 0xBA → wOp w ≠ 0xBB →
      exec (.vqEntryComplete k i) s =
        .next { s with dev := (s.dev.setCore k (c.vecWrite j)).creditIf (wVCr w && n ≠ 0) (wVSyn w) n 3 } ∧
      (c.vecWrite j).jobs = c.jobs.filter (fun y => y.id ≠ j.id) ∧ (c.vecWrite j).a = c.a ∧ (c.vecWrite j).e = c.e ∧
      (c.vecWrite j).syn = c.syn ∧ (c.vecWrite j).mx = c.mx ∧ (c.vecWrite j).dq = c.dq ∧
      (∀ m, vecDst w ≠ some m → ∀ st, (c.vecWrite j).vec.reg st m = c.vec.reg st m)

/-- R126, R183, R184: with an integer lane type, in every lane below VL the destination of VADD, VSUB, VMUL, VAND, VOR, VXOR
takes the wrapped result of the two source lanes, and every lane from VL on keeps its bits. -/
def Obligations.IntegerLanesWrap : Prop :=
  ∀ (c : Core) (j : Job) (f : Nat → Nat → Nat → Nat),
    let w := j.ent.w
    let vt := j.ent.vtype.toNat
    let b := vtWidth vt
    vtypeOk vt = true → vtKind vt ≠ 0 → wSB w = false → 0 < j.ent.vl → j.ent.vl * b ≤ 2048 →
    (wOp w = 0x81 ∧ f = (fun m x y => (x + y) % m)) ∨ (wOp w = 0x82 ∧ f = (fun m x y => (x + m - y) % m)) ∨
    (wOp w = 0x83 ∧ f = (fun m x y => x * y % m)) ∨ (wOp w = 0x8B ∧ f = (fun _ x y => x &&& y)) ∨
    (wOp w = 0x8C ∧ f = (fun _ x y => x ||| y)) ∨ (wOp w = 0x8D ∧ f = (fun _ x y => x ^^^ y)) →
    ∀ i, (i + 1) * b ≤ 2048 →
      lane b i ((c.vecWrite j).vec.reg j.starter (wD w)) =
        (if i < j.ent.vl then f (2 ^ b) (lane b i (j.srcs.getD 0 0)) (lane b i (j.srcs.getD 1 0))
         else lane b i (c.vec.reg j.starter (wD w)))

/-- VRF_BIST_END (R135, R136): when the 65,536 cycles are over, a pass zeroes v0 to v31, and the engine stays in recovery
starter mode until the next step boundary; a failure halts both sequencers and is recorded as VRF_BIST (3) of code 0x02. -/
def Obligations.RegisterFileBistEnds : Prop :=
  ∀ (k : CoreId) (s : State),
    let c := s.dev.core k
    c.vec.bist = some 0 →
    (∃ t, exec (.vrfBistEnd k true) s = .next t ∧
      OnlyCore s t k { c with vec := { c.vec with regs := [], bist := none, passed := true } }) ∧
    (∃ t r, exec (.vrfBistEnd k false) s = .next t ∧ t.mem = s.mem ∧ (t.dev.seq k .A).st = .halted ∧
      (t.dev.seq k .E).st = .halted ∧ (t.dev.core k).vec.bist = none ∧
      t.dev.errs.ring.head? = some r ∧ r.code = 0x02 ∧ r.core = k.val ∧ r.detail = [3])

/-- MMUL_COMPLETE (R116, R196): an active MMUL whose operands are in, with no earlier operation on its arrays or tiles in
flight, writes the tiles of its gang and no other tile, ends, and credits its object with 1; a later MMUL may become active
then (R114). CHECKSUM_COMPARE (R123, R124): the oldest comparison that is due goes; where every sum agrees nothing else
changes; a row that differs, with checking on, sets the array's error bit and is recorded with code 0x16, the array, the
dataflow and the row. ACC_TRANSFER_COMPLETE (R202 to R204): an MSTORE, MLDACC, MCLR or press store whose accesses are done,
with no earlier operation on its tiles in flight, ends with its effect and its credit; MCLR leaves each masked tile at 0
with its tag and every other tile as it was, and MLDACC changes its one tile only. Where the job ends, an MMUL that waited
for its tiles may become active (R114). -/
def Obligations.MatrixResults : Prop :=
    (∀ (k : CoreId) (i : Nat) (s : State) (j : Job),
      let c := s.dev.core k
      let w := j.ent.w
      c.jobs[i]? = some j → j.kind = .mmul → wOp w = 0xC0 → j.active = true → j.issued = true → j.rdLeft = 0 → j.lost = false →
      s.dev.clocked k = true → (∀ x ∈ c.jobs.take i, mqBefore j x = false) →
        exec (.mmulComplete k i) s =
          .next { s with dev := (s.dev.setCore k ((c.mmulRun j).endJob j.id).matAdvance).creditIf (bit w 15) (bits w 14 0) 1 4 } ∧
        ((c.mmulRun j).endJob j.id).matAdvance.mx.acc = (c.mmulRun j).mx.acc ∧
        (∀ t, t ∉ mqTiles w → lk Tile.reset (c.mmulRun j).mx.acc t = lk Tile.reset c.mx.acc t) ∧
        (c.mmulRun j).a = c.a ∧ (c.mmulRun j).e = c.e ∧ (c.mmulRun j).vec = c.vec ∧ (c.mmulRun j).jobs = c.jobs ∧
        (c.mmulRun j).syn = c.syn) ∧
    (∀ (k : CoreId) (s : State) (u : CkDue) (rest : List CkDue),
      let c := s.dev.core k
      let m := 2 ^ 61 - 1
      c.mx.due = u :: rest →
      ((∀ e ∈ u.rows, e.2.1 = e.2.2 % m) → (∀ e ∈ u.cols, e.2.1 = e.2.2 % m) →
        ∃ t, exec (.checksumCompare k []) s = .next t ∧ OnlyCore s t k { c with mx := { c.mx with due := rest } }) ∧
      (∀ row err want got more, u.rows = (row, want, got) :: more → want ≠ (got + err) % m → u.cols = [] → c.mx.ckEn = true →
        ∃ t r, exec (.checksumCompare k [(true, row, err)]) s = .next t ∧ t.mem = s.mem ∧ (t.dev.core k).mx.due = rest ∧
          (t.dev.core k).mx.ckErr = c.mx.ckErr ||| BitVec.ofNat 8 (2 ^ u.array) ∧ (t.dev.core k).mx.acc = c.mx.acc ∧
          t.dev.errs.ring.head? = some r ∧ r.code = 0x16 ∧ r.core = k.val ∧ r.detail = [u.array, u.df, row, 0xFF])) ∧
    (∀ (k : CoreId) (i : Nat) (s : State) (j : Job),
      let c := s.dev.core k
      let w := j.ent.w
      let f := j.descs.getD 0 DescF.zero
      let ended := fun (x : Core) => (x.endJob j.id).matAdvance
      c.jobs[i]? = some j → j.eng = .mq → j.issued = true → j.rdLeft = 0 → j.wrLeft = 0 → j.lost = false →
      s.dev.clocked k = true → (∀ x ∈ c.jobs.take i, mqBefore j x = false) →
      (j.kind = .mclr → wOp w = 0xC3 → ∃ t m, exec (.accTransferComplete k i) s = .next t ∧
        OnlyCore s t k (ended { c with mx := { c.mx with acc := m } }) ∧
        ∀ x, lk Tile.reset m x = (if x < 16 ∧ bit (bits w 55 40) x then ⟨bits w 39 38, []⟩ else lk Tile.reset c.mx.acc x)) ∧
      (j.kind = .mldacc → wOp w = 0xC2 → exec (.accTransferComplete k i) s =
          .next { s with dev := (s.dev.setCore k (ended (c.mldaccRun k j))).creditIf (bit w 28) (bits w 43 29) 1 4 } ∧
        (lk Tile.reset (c.mldaccRun k j).mx.acc (bits w 55 52)).tag = bits w 51 50 ∧
        ∀ x, x ≠ bits w 55 52 → lk Tile.reset (c.mldaccRun k j).mx.acc x = lk Tile.reset c.mx.acc x) ∧
      (j.kind = .mstore → exec (.accTransferComplete k i) s =
          .next { s with dev := (s.dev.setCore k (ended (c.mstoreFlags j))).creditPair (mqCredit j.ent f) } ∧
        (c.mstoreFlags j).mx = c.mx ∧ (c.mstoreFlags j).vec = c.vec) ∧
      (j.kind = .mstorePress → wOp w = 0xC1 → bit w 40 = true → ∃ t, exec (.accTransferComplete k i) s = .next t ∧
        OnlyCore s t k (ended c)) ∧
      (∀ x : Core, (ended x).mx.acc = x.mx.acc ∧ (ended x).a = x.a ∧ (ended x).e = x.e ∧ (ended x).vec = x.vec ∧
        (ended x).fgw = x.fgw.filter (fun g => g.job ≠ j.id)))

/-! ### The mesh, the memories, the edge units -/

/-- ROUTER_FLIT_FORWARD (R25, R27): a unicast flit that an input from a neighbour offers first on VC0, with one output and a
credit, leaves its input's head and goes to the end of the next router's buffer; the output's pointer moves to that input
and nothing else in the device changes. MESH_FLIT_DELIVER (R25, R38, R168): the oldest flit ejected at a core of its
partition is written as 64 B at its place in that core's local store, no other byte changes, the write takes its line in the
store's arbitration (R142) and its object is credited with 64; a header-only packet writes nothing and credits its amount; a
first flit of another partition is dropped, counted and recorded. -/
def Obligations.MeshCarriesFlits : Prop :=
    (∀ (p : Pos) (o : Fin 6) (s : State) (i n : Nat) (f : Flit),
      let d := s.dev
      let here := (6 * p.val + i) * 2
      let there := (6 * n + inputAt o) * 2 + f.vc
      d.planeOn (regionOf p) = true → d.pickIn p o 0 = some (i, f) → 1 ≤ i → i ≤ 4 → d.outs p i f = [o.val] →
      d.intoNode p f = false → neighbour p o = some n → f.vc < 2 → d.barred p n (inputAt o) f = false →
        ∃ t b, exec (.routerFlitForward p o) s = .next t ∧
          t = { s with dev := { d with net := { d.net with bufs := b, rr := up d.net.rr (6 * p.val + o.val) i } } } ∧
          lk [] b here = (lk [] d.net.bufs here).drop 1 ∧ lk [] b there = lk [] d.net.bufs there ++ [f] ∧
          ∀ x, x ≠ here → x ≠ there → lk [] b x = lk [] d.net.bufs x) ∧
    (∀ (p : Pos) (s : State) (f : Flit) (r : List Flit) (k : Nat),
      let d := s.dev
      let d1 := { d with net := { d.net with eject := up d.net.eject p r } }
      let a := lsBase k + 64 * (f.lsaddr + f.idx) % 2 ^ 20
      lk [] d.net.eject p = f :: r → d.coreAt p = some k →
      (d.partOf k = f.ptag → d.clocked k = true → f.amount = none → s.mem.wf →
        ∃ t, exec (.meshFlitDeliver p) s = .next t ∧
          t.dev = ((d1.eccWrite (wholeBytes a (natLe f.data.toNat 64)) k).updCore k (fun c => c.lsToken .meshEject true (a % 2 ^ 20 / 64))).creditIf
            f.credit f.syn 64 (0x10000 + f.src) ∧
          Written s t a (natLe f.data.toNat 64) ∧ t.cave = s.cave) ∧
      (∀ n, d.partOf k = f.ptag → d.clocked k = true → f.amount = some n →
        exec (.meshFlitDeliver p) s = .next { s with dev := d1.creditIf (f.credit && n ≠ 0) f.syn n (0x10000 + f.src) }) ∧
      (d.partOf k ≠ f.ptag → f.idx = 0 → ∃ t, exec (.meshFlitDeliver p) s = .next t ∧ t.mem = s.mem ∧
        Recorded t 0x20 f.src [f.ptag, f.src, p.val] ∧ lk [] t.dev.net.eject p = r ∧
        lk (0 : BitVec 32) t.dev.net.drop f.ptag = satAdd (lk (0 : BitVec 32) d.net.drop f.ptag) 1))

/-- PRESS_NODE_REDUCE (R31): with one flit waiting from every input of IN_MASK, all of one length when the round begins, and a
credit, the node sends their sum, taken in port order, on its output, and waits for the next index. -/
def Obligations.PressNodeSumsInPortOrder : Prop :=
  ∀ (p : Pos) (tree : BitVec 8) (s : State) (e : TreeEntry) (i0 : Nat) (f0 : Flit) (r : List (Nat × Flit)),
    let d := s.dev
    let n := d.nodeAt p tree.toNat
    let ins := (List.range 6).filter (fun i => bit e.inMask.toNat i)
    let fs := ins.filterMap (fun i => (n.waiting.find? (fun w => w.1 == i)).map (fun w => (i, w.2)))
    let ds := fs.map (fun x => x.2.data)
    let g := { f0 with data := if e.exa then pressExa ds else pressFp32 ds }
    let o := ((List.range 6).filter (fun o => bit e.outMask.toNat o)).headD 0
    d.treeAt p tree.toNat = some e → e.press = true → d.planeOn (regionOf p) = true → fs = (i0, f0) :: r →
    fs.length = ins.length → (f0.idx = 0 → ∀ x ∈ r, x.2.flits = f0.flits) → d.hasCredit p o g = true →
      exec (.pressNodeReduce p tree) s = .next { s with dev :=
        (d.setNode { n with waiting := [], next := if f0.idx + 1 = f0.flits then 0 else f0.idx + 1 }).leave p o g }

/-- SLICE_ACCESS_SERVE (R34, R35, R38): cores whose next access goes to the slice issue it; the slice serves the waiting access
whose core comes next in the round. A write stores its masked bytes and counts as done for its job; a read gives its job the
two 64 B lines of the block and changes no byte; the job then goes on. An access of another partition is dropped, writes
nothing and is recorded. LOCAL_STORE_GRANT and ECC_WRITEBACK (R141, R142, R147): a request that waits alone and fits the
ports is granted whole: a write stores its masked bytes, a read brings its job the lines as they stand, and the job goes on;
a corrected word is written back in a cycle in which its bank or slice has no access, and not one byte changes. -/
def Obligations.MemoryAccessesAreServed : Prop :=
    (∀ (j : CoreId) (s : State) (a : SlcAcc),
      let d := s.dev.issueTo j
      let q := lk [] d.net.slcQ j
      let i := Instr.sliceAccessServe j [] []
      let served := fun (e : Dev) => lk [] e.net.slcQ j = q.erase a ∧ lk 767 e.net.slcRr j = a.core
      d.atRetention j = false → slcPick q (lk 767 d.net.slcRr j) = some a →
      (lk 16 d.net.slcOwner j = a.ptag → a.write = true → ∃ t e, exec i s = .next t ∧ t.mem = memAll s.mem (storeBytes s.mem a.bytes) ∧
        t.cave = s.cave ∧ t.dev = e.issueJob a.core a.job ∧ served e ∧
        (e.core a.core).jobs = (d.core a.core).jobs.map (fun x => if x.id = a.job then { x with wrLeft := x.wrLeft - 1 } else x)) ∧
      (lk 16 d.net.slcOwner j = a.ptag → a.write = false → ∃ t e, exec i s = .next t ∧ t.mem = s.mem ∧ t.cave = s.cave ∧
        t.dev = (e.issueJob a.core a.job).updCore a.core Core.matAdvance ∧ served e ∧
        ∀ x ∈ (e.core a.core).jobs, x.id = a.job →
          lk (0 : BitVec 512) x.got (a.block / 64) = lineAt s.mem a.block ∧
          lk (0 : BitVec 512) x.got (a.block / 64 + 1) = lineAt s.mem (a.block + 64)) ∧
      (lk 16 d.net.slcOwner j ≠ a.ptag → ∃ t, exec i s = .next t ∧ t.mem = s.mem ∧ t.cave = s.cave ∧
        Recorded t 0x20 a.core [a.ptag, a.core, d.posOf j] ∧ served t.dev)) ∧
    (∀ (k : CoreId) (s : State) (r : LsReq) (w : Nat),
      let c := (s.dev.core k).askCreates k
      let goes := fun (t : State) (e : Dev) => t.dev = (e.issueJob k r.job).updCore k Core.matAdvance ∧ (e.core k).lsq = []
      (s.dev.clocked k = true → c.lsq = [r] → r.serves = true → r.write = true → r.lines.length ≤ 4 →
        ∃ t e, exec (.localStoreGrant k [] []) s = .next t ∧ t.mem = memAll s.mem (storeBytes s.mem r.bytes) ∧ t.cave = s.cave ∧
          goes t e ∧ (e.core k).jobs = c.jobs.map (fun x => if x.id = r.job then { x with wrLeft := x.wrLeft - 1 } else x)) ∧
      (s.dev.clocked k = true → c.lsq = [r] → r.serves = true → r.write = false → r.lines.length ≤ 8 →
        ∃ t e, exec (.localStoreGrant k [] []) s = .next t ∧ t.mem = s.mem ∧ t.cave = s.cave ∧ goes t e ∧
          ∀ x ∈ (e.core k).jobs, x.id = r.job → ∀ l ∈ r.lines,
            lk (0 : BitVec 512) x.got (lsBase k / 64 + l) = lineAt s.mem (lsBase k + 64 * l)) ∧
      (s.dev.wordBusy w = false → exec (.eccWriteback w) s =
        .next { s with dev := { s.dev with net := { s.dev.net with ce := s.dev.net.ce.filter (fun x => x ≠ w) } } }) ∧
      (s.dev.wordBusy w = true → exec (.eccWriteback w) s = .next s))

/-- CAVE_RECORD_TAKE and CAVE_RECORD_COMPLETE (R175): a record that passes its checks is taken into service; one that fails is
refused with DESC_RANGE, check 19; when a good one is served the bytes of the Cave range lie at its destination and STATUS 1
in the record, and the edge unit is free; the Cave's bytes do not change. HOST_RECORD_TAKE and HOST_RECORD_COMPLETE (R177):
a record of an open channel that passes its checks is taken; with DIR to the host its bytes leave for the channel's memory,
with DIR to the device the host's bytes land in the local store; STATUS 1 is written and the edge unit is free. -/
def Obligations.CaveAndHostRecordsAreServed : Prop :=
    (∀ (n : Fin 16) (s : State) (r : ReqRec),
      let d := s.dev
      (∀ q, lk none d.caveSrv n = none → lk [] d.caveQ n = r :: q →
        (d.caveRecOk r = true → exec (.caveRecordTake n) s =
          .next { s with dev := { d with caveQ := up d.caveQ n q, caveSrv := up d.caveSrv n (some ⟨r, 1⟩) } }) ∧
        (d.caveRecOk r = false → ∃ t, exec (.caveRecordTake n) s = .next t ∧ t.mem = s.mem ∧ Recorded t 0x11 r.core [r.off, 19] ∧
          lk none t.dev.caveSrv n = some ⟨r, 2⟩)) ∧
      (∀ g, lk none d.caveSrv n = some ⟨r, 1⟩ → d.caveRange r = some g → d.clocked r.core = true → d.flash.ready = true →
        (∀ j, d.atRetention j = false) →
        ∃ t, exec (.caveRecordComplete n false) s = .next t ∧ t.cave = s.cave ∧ lk none t.dev.caveSrv n = none ∧
          t.mem = memAll (memAll s.mem (storeBytes s.mem (wholeBytes r.dest (s.cave.bytes (g.first + r.offset) r.length))))
            (storeBytes s.mem (wholeBytes (lsBase r.core + (r.off + 0x18) % 2 ^ 20) (natLe 1 4))))) ∧
    (∀ (n : Fin 16) (s : State) (r : ReqRec) (c : Chan),
      let d := s.dev
      let a := lsBase r.core + r.local_
      let st := storeBytes s.mem (wholeBytes (lsBase r.core + (r.off + 0x18) % 2 ^ 20) (natLe 1 4))
      d.chanOf r = some c → c.down = false →
      (∀ q, lk none d.hostSrv n = none → lk [] d.hostQ n = r :: q → d.hostRecOk r = true →
        ∃ t, exec (.hostRecordTake n) s = .next t ∧ t.mem = s.mem ∧ lk [] t.dev.hostQ n = q ∧
          lk none t.dev.hostSrv n = some ⟨r, 1⟩ ∧
          t.dev.out = (if r.toHost then [] else [.hostRead c.fn (c.addr + r.offset) r.length]) ++ d.out) ∧
      (lk none d.hostSrv n = some ⟨r, 1⟩ → d.clocked r.core = true →
        (r.toHost = true → ∃ t, exec (.hostRecordComplete n none) s = .next t ∧ t.mem = memAll s.mem st ∧ t.cave = s.cave ∧
          lk none t.dev.hostSrv n = none ∧ .hostWrite c.fn (c.addr + r.offset) (s.mem.bytes a r.length) ∈ t.dev.out) ∧
        (∀ bs, r.toHost = false → bs.length = r.length → ∃ t, exec (.hostRecordComplete n (some bs)) s = .next t ∧
          t.mem = memAll (memAll s.mem (storeBytes s.mem (wholeBytes a bs))) st ∧ t.cave = s.cave ∧ lk none t.dev.hostSrv n = none)))

/-! ### Control of a core from outside -/

/-- PROGRAM_STORE_WRITE (R43): while both sequencers are IDLE or HALTED the 8 bytes of the word are written and nothing else; at
any other time the write is dropped and PS_WDROP is set. CORE_HALT, CORE_RESUME and VEC_STARTER_WRITE (R60, R135, R413): a
writer that may, halts both sequencers of the core; a resume gives each sequencer that HALT stopped its state back and
leaves one that an error stopped; another function's write changes nothing; STARTER is taken while the core is quiet and
ignored otherwise. -/
def Obligations.ProgramStoreAndCoreControl : Prop :=
    (∀ (k : CoreId) (q : SeqId) (n : BitVec 13) (v : Word) (s : State), s.mem.wf →
      ((s.dev.core k).quiet = true → ∃ t, exec (.programStoreWrite k q n v) s = .next t ∧ t.dev = s.dev ∧ t.cave = s.cave ∧
        Written s t ((match q with | .A => 0x1C0000000 + 0x20000 * k.val | .E => 0x1C0000000 + 0x20000 * k.val + 0x10000) + 8 * n.toNat)
          (natLe v.toNat 8)) ∧
      ((s.dev.core k).quiet = false → ∃ t, exec (.programStoreWrite k q n v) s = .next t ∧
        OnlyCore s t k { s.dev.core k with psWdrop := true })) ∧
    (∀ (who : Option FnId) (k : CoreId) (s : State) (v : Bool),
      let c := s.dev.core k
      (s.dev.mayCtrl who (s.dev.partOf k) = true →
        (c.a.st ≠ .halted → c.e.st ≠ .halted → ∃ t, exec (.coreHalt who k) s = .next t ∧
          OnlyCore s t k { c with a := { c.a with st := .halted, haltBy := .ctrl, saved := c.a.st, stallRun := 0 },
                                  e := { c.e with st := .halted, haltBy := .ctrl, saved := c.e.st, stallRun := 0 } }) ∧
        (∃ t, exec (.coreResume who k) s = .next t ∧ t.mem = s.mem ∧
          ∀ q, (t.dev.seq k q).st = (if (c.seq q).st = .halted ∧ (c.seq q).haltBy = .ctrl then (c.seq q).saved else (c.seq q).st) ∧
            (t.dev.seq k q).regs = (c.seq q).regs ∧ (t.dev.seq k q).pc = (c.seq q).pc)) ∧
      (s.dev.mayCtrl who (s.dev.partOf k) = false → exec (.coreHalt who k) s = .next s ∧ exec (.coreResume who k) s = .next s) ∧
      (c.quiet = true → ∃ t, exec (.vecStarterWrite k v) s = .next t ∧ OnlyCore s t k { c with vec := { c.vec with
        starter := v, mode := if c.vec.mode = 1 ∨ c.vec.mode = 3 then c.vec.mode else if v then 2 else 0 } }) ∧
      (c.quiet = false → ∃ t, exec (.vecStarterWrite k v) s = .next t ∧ OnlyCore s t k c))

/-! ### Steps, deadlines, lock-step -/

/-- STEP_BOUNDARY (R219, R220, R221, R288): in a tick's first cycle, when a boundary is due and nothing gates, holds or breaks
it, the partition takes it: PT_STEP is the new step, the state RUNNING, and every sequencer of its cores that waited runs.
At a hold or a break it stops before it; a frequency change holds it. -/
def Obligations.BoundaryStartsTheStep : Prop :=
  ∀ (p : PartId) (s : State) (m : Mould),
    let d := s.dev
    let b := d.part p
    d.mouldOf p = some m → d.cyc = 0 → d.boundaryDue p m = true → d.boundaryGates p m = true →
    (m.heldAt b.next = false → b.breakAt b.next = false → (b.atBreak = true → b.brkTick < d.turn.now.toNat) →
      d.freqHeld b = false → b.dead = false → (∀ l, b.lock = some l → ∀ x ∈ l.theirs, x.1 + 1 ≠ b.next) →
      ∃ t, exec (.stepBoundary p) s = .next t ∧ t.mem = s.mem ∧ t.cave = s.cave ∧
        (t.dev.part p).step = BitVec.ofNat 64 b.next ∧ (t.dev.part p).next = b.next + 1 ∧ (t.dev.part p).st = .running ∧
        (∀ k q, d.partOf k = p → (d.seq k q).st = .stepWait → (t.dev.seq k q).st = .run) ∧
        (∀ k, d.partOf k ≠ p → t.dev.core k = d.core k) ∧ (∀ j, j ≠ p.val → t.dev.part j = d.part j)) ∧
    (m.heldAt b.next = true → ∃ t, exec (.stepBoundary p) s = .next t ∧ t.dev.cores = d.cores ∧ t.mem = s.mem ∧
      (t.dev.part p) = { b with st := .stopped }) ∧
    (m.heldAt b.next = false → b.breakAt b.next = true → b.atBreak = false → ∃ t, exec (.stepBoundary p) s = .next t ∧
      OnlyPart s t p { b with st := .stopped, breakHit := true, atBreak := true }) ∧
    (m.heldAt b.next = false → b.breakAt b.next = false → b.atBreak = false → d.freqHeld b = true →
      ∃ t, exec (.stepBoundary p) s = .next t ∧ OnlyPart s t p { b with st := .held })

/-- PT_BREAK_WRITE and DL_CFG_WRITE (R221, R231, R413): the owner's write sets EN and STEP of the break; a function that does
not own the partition changes nothing. While a monitor's EN is 1 a write changes EN only; else every field with a legal
value is taken. DEADLINE_MONITOR_TEST and DEADLINE_EVENT_LATE (R231 to R233): in the first cycle of tick D a monitor whose
event has not occurred sets its DL_MISS bit and records DEADLINE_MISS with its number and step; one whose event has occurred
does nothing; the monitors of lower number come first; when the missed event comes, LATE holds the ticks since D. -/
def Obligations.BreaksAndDeadlines : Prop :=
    (∀ (who : Option FnId) (p : PartId) (n : MonId) (v : BitVec 64) (s : State),
      let b := s.dev.part p
      let old := (lk (0 : BitVec 64) b.dlCfg n).toNat
      let x := v.toNat
      (s.dev.mayCtrl who p = true → ∃ t, exec (.ptBreakWrite who p v) s = .next t ∧
        OnlyPart s t p { b with breakEn := v.getLsbD 63, breakStep := v.extractLsb' 0 63, brkTick := s.dev.turn.now.toNat }) ∧
      (s.dev.mayCtrl who p = false → exec (.ptBreakWrite who p v) s = .next s) ∧
      (∃ t m, exec (.dlCfgWrite p n v) s = .next t ∧ OnlyPart s t p { b with dlCfg := m } ∧
        (∀ i, i ≠ n.val → lk (0 : BitVec 64) m i = lk 0 b.dlCfg i) ∧
        (bit old 63 = true → (lk (0 : BitVec 64) m n).toNat = bits x 63 63 * 2 ^ 63 + bits old 62 0) ∧
        (bit old 63 = false → bits x 61 60 ≠ 3 → bits x 59 52 ≠ 0 → bits x 51 44 < bits x 59 52 → bits x 31 0 ≠ 0 →
          (lk (0 : BitVec 64) m n).toNat = bits x 63 44 * 2 ^ 44 + bits x 31 0))) ∧
    (∀ (p : PartId) (n : MonId) (s : State) (m : Mould) (st : Nat),
      let d := s.dev
      let b := d.part p
      let now := d.turn.now.toNat
      (d.mouldOf p = some m → d.cyc = 0 → b.dlHalt = none → m.t0 ≠ 0 → 5 ≤ m.phase → b.armedAt n now = some st →
        ((∀ i, i < n.val → d.dlDue p i = none) → d.dlEvent p n st = false → (n.val, st) ∉ b.missed →
          ∃ t, exec (.deadlineMonitorTest p n) s = .next t ∧ t.mem = s.mem ∧
            Recorded t 0x30 0xFFFF [n.val, st] ∧ (t.dev.part p).dlMiss = b.dlMiss ||| BitVec.ofNat 64 (2 ^ n.val)) ∧
        ((∀ i, i < n.val → d.dlDue p i = none) → d.dlEvent p n st = true → exec (.deadlineMonitorTest p n) s = .next s) ∧
        (∀ l : MonId, l.val + 1 = n.val → ∃ t, exec (.deadlineMonitorTest p l) s = .next t ∧
          exec (.deadlineMonitorTest p n) s = .next { t with dev := t.dev.dlTest p n })) ∧
      (∀ x, b.late.find? (fun y => y.mon == n.val) = some x → d.dlEvent p n x.step = true →
        ∃ t l, exec (.deadlineEventLate p n) s = .next t ∧
          OnlyPart s t p { b with late := b.late.filter (fun y => y.mon ≠ n.val), dlLast := l } ∧
          (lk 0xFFFFFFFF l n).toNat % 2 ^ 32 = (now - x.tick) % 2 ^ 32 ∧
          (lk 0xFFFFFFFF l n).toNat / 2 ^ 32 = (lk 0xFFFFFFFF b.dlLast n).toNat / 2 ^ 32))

/-- MSG_LOCKSTEP_RECORD and LS_WAIT_EXPIRE (R236, R237): the partner's record of a step whose own record is there with the same
digests counts as compared; different digests set the divergence flag and record LOCKSTEP_DIVERGE with the first core that
differs; a record that stays away for LS_WAIT records it with NO_PARTNER. -/
def Obligations.LockstepRecordsAreCompared : Prop :=
  ∀ (p : PartId) (step : Nat) (digs : List Nat) (s : State) (l : LockStep),
    let b := s.dev.part p
    b.lock = some l →
    (step ∉ l.compared → (∀ x ∈ l.theirs, x.1 ≠ step) →
      (∀ k tick, l.own.find? (fun x => x.1 == step) = some (k, tick, digs) → ∃ t, exec (.msgLockstepRecord p step digs) s = .next t ∧
        OnlyPart s t p { b with lock := some { l with own := l.own.filter (fun x => x.1 ≠ step), compared := step :: l.compared } }) ∧
      (∀ k tick a, l.own.find? (fun x => x.1 == step) = some (k, tick, a) → a ≠ digs →
        ∃ t, exec (.msgLockstepRecord p step digs) s = .next t ∧ t.mem = s.mem ∧ (t.dev.part p).lsDiv = true ∧
          Recorded t 0x32 0xFFFF [step, firstDiff 0 (a.drop 1) (digs.drop 1), 0]) ∧
      (l.own.find? (fun x => x.1 == step) = none → ∃ t, exec (.msgLockstepRecord p step digs) s = .next t ∧
        OnlyPart s t p { b with lock := some { l with theirs := l.theirs ++ [(step, digs)] } })) ∧
    (b.dead = false → (∃ x ∈ l.own, x.1 = step ∧ x.2.1 + l.wait ≤ s.dev.turn.now.toNat) →
      ∃ t, exec (.lsWaitExpire p step) s = .next t ∧ t.mem = s.mem ∧ Recorded t 0x32 0xFFFF [step, 0xFFFF, 1])

/-! ### Time, clocks, temperature -/

/-- SYNC_EXCHANGE_SEND, SYNC_WORD_RECEIVE and PTP_MESSAGE (R222 to R224, R226): a port whose last word is 4,096 ticks old sends
a SYNC control flit with the Turn and its announcement, and no port sends one earlier; a word received is the port's
announcement, the parent is chosen anew, and on the parent port θ corrects the Turn: in LISTEN by θ (a Turn that a partition
has begun with is not set), LOCKED after three exchanges within 4 ns; in LOCKED by slewing, with SYNC_LOST recorded beyond
40 ns; in HOLDOVER θ is kept only. A root's first PTP message sets TURN_EPOCH, later ones slew it. Which way θ and the times
of PTP are rounded is free (log entry 23). -/
def Obligations.TurnFollowsItsParent : Prop :=
  ∀ (u : PortId) (s : State),
    let d := s.dev
    let t := d.turn
    d.rst = false →
    ((d.port u).syncs = true →
      ((∀ e, t.lastSync.find? (fun x => x.1 == u.val) = some e → e.2 + 4096 ≤ t.now.toNat) →
        let word := syncData t d.bestCand
        ∃ x e, exec (.syncExchangeSend u) s = .next { s with dev := e } ∧ e = ({ d with turn := x } : Dev).sendCtrl u none 1 0 0 word ∧
          (u.val < 7 → .flit u ((d.port u).stamp false (ctrlFlit false 1 0 0 0 word)) ∈ e.out) ∧
          x.units = t.units ∧ x.parent = d.bestCand.code ∧ x.root = (d.bestCand.code == 0) ∧ lk 0 x.lastSync u = t.now.toNat) ∧
      (∀ e, t.lastSync.find? (fun x => x.1 == u.val) = some e → t.now.toNat < e.2 + 4096 →
        exec (.syncExchangeSend u) s = .next s)) ∧
    (∀ (prio root hops t1 t2 t3 t4 : Nat), (d.port u).syncs = true →
      let a : Dev := { d with turn := { t with ann := up t.ann u ⟨prio, root, hops⟩ } }
      let i := Instr.syncWordReceive u prio root hops t1 t2 t3 t4
      ∃ th : Int, (2 * th - (((t2 : Int) - t1) - ((t4 : Int) - t3))).natAbs ≤ 1 ∧
      (a.bestCand.code ≠ u.val + 4 → exec i s = .next { s with dev := a.chooseParent }) ∧
      (a.bestCand.code = u.val + 4 → t.st = .holdover → ∃ x, exec i s = .next { s with dev := { d with turn := x, free := d.free + 1 } } ∧
        x.units = t.units ∧ x.parent = u.val + 4 ∧ x.st = .holdover ∧ x.theta = BitVec.ofInt 32 th) ∧
      (a.bestCand.code = u.val + 4 → t.st = .listen → ∃ x, exec i s = .next { s with dev := { d with turn := x, free := d.free + 1 } } ∧
        x.parent = u.val + 4 ∧ x.theta = BitVec.ofInt 32 th ∧
        (x.units : Int) = (if t.begun then (t.units : Int) else ((t.units : Int) + th) % 2 ^ 80) ∧
        x.st = (if th.natAbs * 40 ≤ 65536 ∧ 2 ≤ t.good then .locked else .listen)) ∧
      (a.bestCand.code = u.val + 4 → t.st = .locked → th.natAbs * 4 ≤ 65536 →
        ∃ x, exec i s = .next { s with dev := { d with turn := x, free := d.free + 1 } } ∧
          x.units = t.units ∧ x.slew = th ∧ x.st = .locked ∧ x.syncLost = t.syncLost) ∧
      (a.bestCand.code = u.val + 4 → t.st = .locked → 65536 < th.natAbs * 4 → ∃ r, exec i s = .next r ∧ r.mem = s.mem ∧
        r.dev.turn.slew = th ∧ r.dev.turn.syncLost = true ∧ r.dev.turn.units = t.units ∧
        Recorded r 0x31 0xFFFF [(BitVec.ofInt 32 th).toNat])) ∧
    (∀ ns : Nat, t.root = true → 7 ≤ u.val →
      (t.anchored = false →
        ∃ x : Int, (((ns : Int) - x) * 65536 - 160 * (t.units : Int)).natAbs < 65536 ∧ exec (.ptpMessage u ns) s = .next { s with dev :=
          { d with turn := { t with anchored := true, ptpLock := true, epoch := BitVec.ofInt 64 x }, free := d.free + 1 } }) ∧
      (t.anchored = true → t.st = .locked →
        let off : Int := ((ns : Int) - t.epoch.toNat) * 65536 - 160 * (t.units : Int)
        let lock := decide (off.natAbs ≤ 40 * 65536)
        ∃ x : Int, (160 * x - off).natAbs < 160 ∧ exec (.ptpMessage u ns) s =
          .next { s with dev := { d with turn := { t with ptpLock := lock, slew := x }, free := d.free + 1 } }))

/-- DROOP_STRETCH, XING_RESTART, REF_LOSS, REFCLK_RESTORED and REF_LOSS_TIMEOUT (R377 to R380): a stretch lags its region by 32
or 64 of 1/128 cycle and is counted; where that puts it more than 1.5 cycles behind a running neighbour, both are gated and
XING_SLIP is recorded with them, until the next tick mark, where they run again in phase. A window count outside 56 to 69
puts the Turn into HOLDOVER and is recorded; restored, the Turn is in the state it left; not restored within 1 s, the device
resets. -/
def Obligations.RegionClocksAndReference : Prop :=
  ∀ s : State,
    let d := s.dev
    let c := d.clk
    (∀ (r : RegionId) (half : Bool),
      let l := lk 0 c.lag r + (if half then 64 else 32)
      let far := fun b => lk 0 c.lag b + 192 < l ∧ d.regionRuns b = true
      d.regionRuns r = true → r.val ∉ c.gated → (∀ e, c.since.find? (fun x => x.1 == r.val) = some e → 16 ≤ e.2) →
      let longer : Clk := { c with lag := up c.lag r l, since := up c.since r 0, stretch := c.stretch + 1 }
      ((∀ b ∈ neighbours r, ¬ far b) → exec (.droopStretch r half) s = .next { s with dev := { d with clk := longer } }) ∧
      (∀ b ∈ neighbours r, far b → (∀ b' ∈ neighbours r, b' ≠ b → ¬ far b') →
        ∃ t, exec (.droopStretch r half) s = .next t ∧ t.mem = s.mem ∧ t.dev.clk.xslip = true ∧
          t.dev.clk.gated = (c.gated.filter (fun x => x ≠ r.val ∧ x ≠ b)) ++ [r.val, b] ∧
          lk 0 t.dev.clk.lag r = l ∧ t.dev.clk.stretch = c.stretch + 1 ∧ Recorded t 0x71 0xFFFF [min r.val b, max r.val b])) ∧
    (d.cyc = 0 → c.gated ≠ [] → c.gateTick < d.turn.now.toNat →
      ∃ m, exec .xingRestart s = .next { s with dev := { d with clk := { c with gated := [], lag := m } } } ∧
        ∀ r, lk 0 m r = if r ∈ c.gated then 0 else lk 0 c.lag r) ∧
    (∀ n, c.holdover = false → n < 56 ∨ 69 < n → ∃ t, exec (.refLoss n) s = .next t ∧ t.mem = s.mem ∧
      t.dev.clk.holdover = true ∧ t.dev.clk.refLoss = true ∧ t.dev.turn.st = .holdover ∧ t.dev.turn.units = d.turn.units ∧
      Recorded t 0x70 0xFFFF [n] ∧ ∀ t', exec .refclkRestored t = .next t' → t'.dev.turn.st = d.turn.st) ∧
    (c.holdover = true →
      exec .refclkRestored s = .next { s with dev := { d with clk := { c with holdover := false },
                                                              turn := { d.turn with st := d.turn.before } } } ∧
      (c.lossTick + 6250000 ≤ d.turn.now.toNat →
        ∃ t, exec .refLossTimeout s = .next t ∧ ResetByError s t 0x70 [c.lossCount]))

/-- CLK_FSTEP_WRITE, FREQ_SWITCH, THERMAL_FORCE and FREQ_RAISE (R382, R383): a code that every clock plan admits begins a change
at this tick, one outside is refused, 7 is ignored; 64 ticks on, with every partition stopped, every region changes and each
stopped partition takes its boundary; above STEP_C or PWR_LIMIT firmware forces one code slower and records it; one second
below them it raises the frequency by one code towards REQ (that it skips the plan check is log entry 24). TELEMETRY_SAMPLE,
THERMAL_TRIP, REGION_WAKE_START, REGION_WAKE_END and REGION_SLEEP (R153, R388, R389, R392): the readings stand in the
registers with the hottest and its sensor, and every sensor that newly reaches WARN_C is recorded; at 108 °C the device
resets; regions wake by their state, with the local stores of power-gated ones zero and no other byte changed, run when the
wake ends, and sleep by their plan once AWAKE ticks are over and every sequencer waits. -/
def Obligations.FrequencyTelemetryAndSleep : Prop :=
    (∀ (s : State) (v : BitVec 32),
      let d := s.dev
      let c := d.clk
      let now := d.turn.now.toNat
      let n := v.toNat % 8
      d.rst = false →
      (n = 7 → exec (.clkFstepWrite v) s = .next s) ∧
      (n ≠ 7 → c.change = none →
        let begun : Clk := { c with req := BitVec.ofNat 3 n, change := some ⟨n, now, false⟩ }
        let refused : Clk := { c with req := BitVec.ofNat 3 n, refused := true }
        ((∀ m ∈ d.moulds, ∀ e ∈ m.clock, e.fmax ≤ n ∧ n ≤ e.fmin) →
          exec (.clkFstepWrite v) s = .next { s with dev := { d with clk := begun } }) ∧
        ((∃ m ∈ d.moulds, ∃ e ∈ m.clock, n < e.fmax ∨ e.fmin < n) →
          exec (.clkFstepWrite v) s = .next { s with dev := { d with clk := refused } })) ∧
      (∀ x, c.change = some x → c.waiting = none → d.cyc = 0 → x.tick + 64 ≤ now →
        (∀ e ∈ d.changers, d.stoppedFor x e.1 e.2 = true ∧ (d.part e.1).lock = none) →
        let switched : Clk := { c with step := x.code, change := none, forcedNow := x.forced && decide (c.req.toNat < x.code) }
        ∃ t, exec .freqSwitch s = .next t ∧ t.mem = s.mem ∧ t.dev.clk = switched ∧
          ∀ e ∈ d.changers, (t.dev.part e.1).step = BitVec.ofNat 64 (d.part e.1).next ∧
            (t.dev.part e.1).next = (d.part e.1).next + 1 ∧ (t.dev.part e.1).st = .running) ∧
      (16 * (d.pwr.stepC.toNat : Int) ≤ d.pwr.tmax ∨ d.pwr.limit.toNat < d.pwr.pavg → c.step < 6 → c.change = none →
        c.lastForce = 0 ∨ c.lastForce + 624999 ≤ now →
        ∃ t, exec .thermalForce s = .next t ∧ t.mem = s.mem ∧
          t.dev.clk = { c with lastForce := now + 1, change := some ⟨c.step + 1, now, true⟩ } ∧
          Recorded t 0x72 0xFFFF [if 16 * (d.pwr.stepC.toNat : Int) ≤ d.pwr.tmax then 1 else 2, d.pwr.sensor, c.step + 1]) ∧
      (c.change = none → c.req.toNat < c.step → c.lastAbove + 6250000 ≤ now → exec .freqRaise s =
        .next { s with dev := { d with clk := { c with lastAbove := now, change := some ⟨c.step - 1, now, true⟩ } } })) ∧
    (∀ s : State,
      let d := s.dev
      let now := d.turn.now.toNat
      let state := fun (x : Dev) r => lk Sleep.run x.clk.sleep r
      (∀ (vin iin pin pavg : Nat) (temps : List Int), d.rst = false → temps.length = 55 →
        ∃ t, exec (.telemetrySample vin iin pin pavg temps) s = .next t ∧ t.mem = s.mem ∧
          t.dev.pwr.vin = vin ∧ t.dev.pwr.iin = iin ∧ t.dev.pwr.pin = pin ∧ t.dev.pwr.pavg = pavg ∧
          t.dev.pwr.nv = d.pwr.nv ∧ t.dev.pwr.st = d.pwr.st ∧ t.dev.cores = d.cores ∧
          temps[t.dev.pwr.sensor]? = some t.dev.pwr.tmax ∧ (∀ x ∈ temps, x ≤ t.dev.pwr.tmax) ∧
          ∀ i, i < 55 → 16 * (d.pwr.warnC.toNat : Int) ≤ temps.getD i 0 → i ∉ d.pwr.warned →
            ∃ r ∈ t.dev.errs.ring, r.code = 0x72 ∧ r.detail = [0, i, d.clk.step]) ∧
      (∀ (n : Nat) (x : Int), d.rst = false → 16 * 108 ≤ x → n ≤ 54 →
        ∃ t, exec (.thermalTrip n x) s = .next t ∧ ResetByError s t 0x72 [3, n, d.clk.step]) ∧
      (∀ (p : PartId) (c : ClockEnt) (m : Mould), d.planOf p = some c → d.mouldOf p = some m → c.sleep ≠ 0 →
        let b := d.part p
        (m.t0 ≠ 0 → 5 ≤ m.phase → lk 0 d.clk.wakeStep p ≠ b.next + 1 → b.nominal b.next ≤ now + c.wakeLead →
          ∃ t, exec (.regionWakeStart p) s = .next t ∧ t.cave = s.cave ∧ t.dev.cores = d.cores ∧
            (∀ r, state t.dev r = if r ∉ d.regionsOf p then state d r else
              match state d r with
              | .clockGated => .waking false (now + 2)
              | .powerGated => .waking true (now + wakeTicks d.clk.step)
              | x => x) ∧
            ∀ a, t.mem.rd a = if ∃ k ∈ d.coresOf ((d.regionsOf p).filter (fun r => state d r == .powerGated)),
              lsBase k ≤ a ∧ a ≤ lsBase k + 0xFFFFF then 0 else s.mem.rd a) ∧
        (b.next ≠ 0 → lk 0 d.clk.wakeStep p = b.next → lk 0 d.clk.wakeBegan p + c.awake ≤ now → d.partDone p = true →
          (∀ r ∈ d.regionsOf p, state d r = .run) →
          ∃ g, exec (.regionSleep p) s = .next { s with dev := { d with clk := { d.clk with sleep := g } } } ∧
            ∀ r, lk Sleep.run g r = if r ∉ d.regionsOf p then state d r else if c.sleep = 1 then .clockGated else .powerGated)) ∧
      (∀ (r : RegionId) (b : Bool) (e : Nat), state d r = .waking b e → e ≤ now →
        ∃ g, exec (.regionWakeEnd r) s = .next { s with dev := { d with clk := { d.clk with sleep := g } } } ∧
          ∀ x, lk Sleep.run g x = if x = r.val then .run else state d x))

/-! ### Power, non-volatile writes, start-up -/

/-- The 36 V input (R384 to R387): below 33.0 V no non-volatile write starts until 33.5 V, and SUPPLY_SAG is recorded; below
31.0 V a running device records it, keeps it in ERR_LASTDEV, and stops in order: every sequencer halted, every region
clock-gated, every port down, device reset asserted, STANDBY once no started write is left; above 33.5 V a full device reset
follows. Below 29.0 V everything is off; above 30.0 V a device that is off is in STANDBY once its pre-charge pins have
mated. Above 42.0 V the switch opens (what that does to the supply is log entry 25), below 40.0 V it starts again. The
switch closes within 2 V after precharge; when ENABLE breaks a running device stops in order. -/
def Obligations.SupplyAndHotPlug : Prop :=
  ∀ (s : State) (mv : Nat),
    let d := s.dev
    let p := d.pwr
    let stopped := fun (t : State) => t.mem = s.mem ∧ t.cave = s.cave ∧ t.dev.rst = true ∧
      t.dev.cores = d.cores.map (fun e => (e.1, e.2.halt .error)) ∧ (∀ r, r < 52 → lk Sleep.run t.dev.clk.sleep r = .clockGated) ∧
      (∀ u, u < 9 → (t.dev.port u).st = .down) ∧ t.dev.pwr.sag = true ∧
      t.dev.pwr.st = (if p.nv.any (fun x => x.started) then .stopping else .standby)
    (p.st ≠ .off → p.inhibit = false → mv < 33000 → ∃ t, exec (.supplyInhibit mv) s = .next t ∧ t.mem = s.mem ∧
      t.dev.pwr = { p with inhibit := true } ∧ (d.rst = false → Recorded t 0x73 0xFFFF [mv])) ∧
    (p.inhibit = true → 33500 ≤ mv →
      exec (.supplyInhibitRelease mv) s = .next { s with dev := { d with pwr := { p with inhibit := false } } }) ∧
    (p.st = .run → mv < 31000 → ∃ t, exec (.orderlyStop mv) s = .next t ∧ stopped t ∧ Recorded t 0x73 0xFFFF [mv] ∧
      ∃ r, t.dev.errs.lastDev = some r ∧ r.code = 0x73 ∧ r.detail = [mv]) ∧
    (p.st = .standby → p.stopRan = true → p.enable = true → 33500 < mv →
      ∃ t, exec (.supplyRecover mv) s = .next t ∧ Restarted s t 6 ∧ t.dev.pwr.st = .run ∧ t.dev.pwr.stopRan = false) ∧
    (p.st ≠ .off → mv < 29000 → ∃ t, exec (.uvloOff mv) s = .next t ∧ t.mem = s.mem ∧ t.dev.pwr.st = .off ∧ t.dev.rst = true ∧
      t.dev.cores = [] ∧ t.dev.moulds = [] ∧ t.dev.ports = [] ∧ t.dev.errs = Errs.reset ∧ t.dev.turn = Turn.reset) ∧
    (p.st = .off → p.precharged = true → p.ovp = false → 30000 < mv →
      exec (.uvloOn mv) s = .next { s with dev := { d with pwr := { p with st := .standby } } }) ∧
    (p.ovp = false → 42000 < mv → ∃ t, exec (.overvoltage mv) s = .next t ∧ t.mem = s.mem ∧ t.dev.pwr.st = .off ∧
      t.dev.pwr.ovp = true ∧ t.dev.pwr.switch = false ∧ t.dev.rst = true ∧ t.dev.cores = []) ∧
    (p.ovp = true → mv < 40000 → exec (.overvoltageRecover mv) s =
      .next { s with dev := { d with pwr := { p with ovp := false, switch := p.precharged && p.enable,
                                                     st := if p.precharged then .standby else .off } } }) ∧
    (p.precharged = false → exec (.uvloOn mv) s = .next s) ∧
    exec .prechargeMate s = .next { s with dev := { d with pwr := { p with precharged := true } } } ∧
    (∀ c, p.precharged = true → p.ovp = false → mv ≤ c + 2000 → c ≤ mv + 2000 → exec (.inputSwitchClose c mv) s =
      .next { s with dev := { d with pwr := { p with enable := true, switch := true } } }) ∧
    (p.st ≠ .run → exec .enableBreak s = .next { s with dev := { d with pwr := { p with enable := false } } }) ∧
    (p.st = .run → ∃ t, exec .enableBreak s = .next t ∧ stopped t ∧ t.dev.pwr.enable = false)

/-- HOLDUP_MEASURE, NV_WRITE_START, HOLDUP_LOW and NV_WRITE_COMPLETE (R300, R363, R390, R391): C = 1 mC / ΔV and the usable
energy C·(V_B² − 24²)/2; a write starts while the inhibit is clear and the energy less the needs in flight covers 1.5 times
its need, else it waits; after 100 ms it fails with HOLDUP_LOW; a commit of CAVE_WRITE that completes writes its bytes and
no other byte, and completes the command. -/
def Obligations.NonVolatileWrites : Prop :=
  ∀ s : State,
    let d := s.dev
    let p := d.pwr
    (∀ dv vb, d.rst = false → d.crm.phase = .firmware → dv ≠ 0 →
      let c := 1000000000 / dv
      let m : Pwr := { p with cap := c, vbank := vb, energy := c * (vb * vb - 24000 * 24000) / 2000000, measured := true }
      exec (.holdupMeasure dv vb) s = .next { s with dev := { d with pwr := m } }) ∧
    (∀ id (x : NvReq), p.nv.find? (fun y => y.id == id) = some x → x.started = false →
      (∀ vb, d.rst = false → p.measured = true → x.kind.isCave = false ∨ d.flash.ready = true →
        let e := p.cap * (vb * vb - 24000 * 24000) / 2000000
        let busy := p.nv.filter (fun y => y.started)
        let read : Pwr := { p with vbank := vb, energy := e }
        let going := p.nv.map (fun y => if y.id = id then { y with started := true } else y)
        (p.inhibit = false → (∀ y ∈ busy, y.kind.isCave ≠ x.kind.isCave) → 3 * x.need + 2 * (busy.map (fun y => y.need)).sum ≤ 2 * e →
          exec (.nvWriteStart id vb) s = .next { s with dev := { d with pwr := { read with nv := going } } }) ∧
        (p.inhibit = true ∨ 2 * e < 3 * x.need + 2 * (busy.map (fun y => y.need)).sum →
          exec (.nvWriteStart id vb) s = .next { s with dev := { d with pwr := read } })) ∧
      (∀ f c off bs, x.kind = .caveWrite f c off bs → x.since + 625000 ≤ d.turn.now.toNat → d.crm.attests = [] →
        CanAnswer d f → ∃ t, exec (.holdupLow id) s = .next t ∧ t.mem = s.mem ∧ t.cave = s.cave ∧
          t.dev.pwr.nv = p.nv.filter (fun y => y.id ≠ id) ∧ Recorded t 0x74 0xFFFF [0, p.energy] ∧ Completed t f c 12 0)) ∧
    (∀ id n need since f c off bs,
      p.nv.find? (fun y => y.id == id && y.started) = some ⟨n, need, true, since, .caveWrite f c off bs⟩ →
      bs.length ≤ 262144 → d.flash.worn = false → s.cave.wf → CanAnswer d f →
      ∃ t, exec (.nvWriteComplete id) s = .next t ∧ t.mem = s.mem ∧ (∀ i, i < bs.length → t.cave.rd (off + i) = bs.getD i 0) ∧
        (∀ a, a < off ∨ off + bs.length ≤ a → t.cave.rd a = s.cave.rd a) ∧
        t.dev.pwr.nv = p.nv.filter (fun y => y.id ≠ id) ∧ Completed t f c 0 0)

/-- Start-up (R17, R18, R347, R348, R364 to R366, R370, R374, R393 to R396): the end of device reset is tick 0 in LISTEN with
the ROM running and every port at training step 1; memory BIST leaves every byte of the address space 0 and every vector
engine out of start-up starter mode; the ROM jumps to an image that passes every check, now in SRAM, and else goes to
recovery with the reason; then firmware, the Cave, the key table and the identity become ready; a recovery image that passes
is programmed; MOD_RST_N and HIF_RESET with its key reset the device. -/
def Obligations.StartUp : Prop :=
  ∀ s : State,
    let d := s.dev
    let c := d.crm
    (∀ b l, d.rst = true → d.pwr.stopRan = false → d.pwr.enable = true → d.pwr.switch = true → d.pwr.ovp = false →
      d.pwr.st = .standby ∨ d.pwr.st = .run →
      ∃ t, exec (.deviceResetEnd b l) s = .next t ∧ t.mem = s.mem ∧ t.dev.rst = false ∧ t.dev.turn = Turn.reset ∧ t.dev.bifur = b ∧
        t.dev.slot = l ∧ t.dev.pwr.st = .run ∧ t.dev.crm.phase = .rom ∧
        ∀ u, u < 9 → (t.dev.port u).st = .training ∧ (t.dev.port u).step = 1) ∧
    (∀ (bad : List Pos) r, d.rst = false → c.bistDone = false →
      ∃ t, exec (.memoryBistEnd bad r) s = .next t ∧ (∀ a, a < 2 ^ 34 → t.mem.rd a = 0) ∧ t.cave = s.cave ∧
        t.dev.crm.bistDone = true ∧ (∀ x ∈ bad, t.dev.goodPos x = false) ∧
        ∀ k, k < 768 → (t.dev.core k).vec.mode = (if (d.core k).vec.starter then 2 else 0)) ∧
    (∀ sfdp h b, d.rst = false → c.phase = .rom →
      (c.recover = true → exec (.romJumpToFirmware sfdp h b) s =
        .next { s with dev := { d with crm := { c with recover := false, phase := .recovery, recReason := 4, recState := 0 } } }) ∧
      (c.recover = false → sfdp = false → exec (.romJumpToFirmware sfdp h b) s =
        .next { s with dev := { d with crm := { c with phase := .recovery, recReason := 5, recState := 0 } } }) ∧
      (c.recover = false → sfdp = true → c.spiImage = none → ∃ t, exec (.romJumpToFirmware sfdp h b) s = .next t ∧
        t.mem = s.mem ∧ t.cave = s.cave ∧ t.dev.serial = Config.idSerial ∧
        t.dev.crm.phase = (if fwCheck h b = 0 then .firmware else .recovery) ∧
        (fwCheck h b ≠ 0 → t.dev.crm.recReason = fwCheck h b) ∧
        (fwCheck h b = 0 → t.dev.crm.hartsUp = true ∧ t.dev.crm.sram = b ∧
          (lk Hart.reset t.dev.crm.harts 0).pc = BitVec.ofNat 64 (0x10000000 + fld h 0xC 4) ∧ t.dev.crm.secver = BitVec.ofNat 32 (fld h 0x10 4) ∧
          t.dev.crm.fwDigest = shake256 (h.take 0x80 ++ b)))) ∧
    (d.rst = false → c.phase = .firmware →
      (c.fwReady = false → c.bistDone = true → d.pwr.measured = true →
        ∃ t, exec .fwReady s = .next t ∧ t.mem = s.mem ∧ t.dev.crm.fwReady = true ∧
          ∀ f, f < 4 → let x := d.func f
            (t.dev.func f).ready = (x.ready || (!x.perst && x.linkUp && !x.wedged && x.left.isNone))) ∧
      (∀ n, d.flash.ready = false → d.moulds = [] → c.waitCmds = [] → exec (.caveReady n) s =
        .next { s with dev := { d with flash := { d.flash with ready := true, chFail := n } } }) ∧
      (d.flash.ready = true → c.keysLoaded = false → d.loads = [] → d.moulds = [] → c.waitCmds = [] →
        ∃ t, exec .keyReloadEnd s = .next t ∧ t.mem = s.mem ∧ t.cave = s.cave ∧ t.dev.crm.keysLoaded = true ∧
          (∀ g, c.hasKey g = true → t.dev.crm.hasKey g = true) ∧
          (d.flash.sysKeys.length + c.keys.length ≤ 16 → ∀ k ∈ d.flash.sysKeys, shake256 k.key = k.digest →
            t.dev.crm.hasKey k.digest = true))) ∧
    (∀ ok, d.rst = false → c.fwReady = true → c.idReady = false → c.idFail = false → c.attests = [] →
      let known : Crm := { c with idReady := ok, idFail := !ok, leafNext := if ok then c.reservedEnd else 0 }
      exec (.identityReady ok) s = .next { s with dev := { d with crm := known } }) ∧
    (∀ f : FnId, d.rst = false → c.phase = .recovery → c.recState = 0 ∨ c.recState = 5 → (d.func f).linkUp = true →
      exec (.recGo f none) s = .next { s with dev := { d with crm := { c with recOwner := f, recState := 5, recReason := 6 } } } ∧
      ∀ im : List Byte,
        let good := im.length = c.recLen.toNat ∧ im.length = 4096 + fld (im.take 4096) 8 4 ∧
          fwCheck (im.take 4096) (im.drop 4096) = 0
        ∃ t, exec (.recGo f (some im)) s = .next t ∧ t.mem = s.mem ∧ t.cave = s.cave ∧ t.dev.crm.recOwner = f ∧
          (good → t.dev.crm.recState = 3 ∧ t.dev.pwr.nvNext = d.pwr.nvNext + 1) ∧
          (¬ good → t.dev.crm.recState = 5 ∧ t.dev.crm.recReason = 6)) ∧
    (d.pwr.st ≠ .off → d.pwr.stopRan = false → ∃ t, exec .modRstNAssert s = .next t ∧ Restarted s t 2) ∧
    (∀ f : FnId, d.rst = false → c.phase ≠ .recovery → (d.func f).linkUp = true →
      (∃ t, exec (.hifReset f 0x4D525354) s = .next t ∧ Restarted s t 3) ∧
      ∀ v, v ≠ 0x4D525354 → exec (.hifReset f v) s = .next s)

/-! ### Arbiters, host functions, registers -/

/-- The lottery (R351 to R353, R355): a free arbiter with requests grants in the same cycle, one of the highest class present,
by the draw over the cumulative tickets, the lowest-numbered with no tickets at all; the LFSR steps and never becomes 0; an
urgent contender, or any other after QUANTUM ticks, takes an unlocked grant back, which is counted; a lock outlasts the
quantum, is reported after 16 of them, and ends when the holder drops it; a masked requester holds nothing. -/
def Obligations.LotteryGrants : Prop :=
  ∀ (a : ArbId) (s : State),
    let d := s.dev
    let x := d.arb a
    let now := d.turn.now.toNat
    (∀ reqs locks : BitVec 16, d.rst = false → (a.val = 1 → d.flash.ready = true) →
      let y : Arb := { x with reqs := reqs, locks := locks }
      let all := y.contenders a
      let top := if all.any y.urgent then all.filter y.urgent else all
      let sum := (top.map y.tickets).sum
      let draw := x.lfsr.toNat % 65536 * sum / 65536
      (x.holder = none → all ≠ [] → ∃ t i, exec (.arbRequest a reqs locks) s = .next t ∧
        OnlyArb s t a { y with holder := some ⟨i, bit locks.toNat i, now⟩, lfsr := lfsrStep x.lfsr } ∧ i ∈ top ∧
        (sum = 0 → ∀ j ∈ top, i ≤ j) ∧
        (sum ≠ 0 → ((top.filter (fun j => j < i)).map y.tickets).sum ≤ draw ∧
          draw < ((top.filter (fun j => j ≤ i)).map y.tickets).sum)) ∧
      (∀ g, x.holder = some g → g.locked = false → bit reqs.toNat g.req = true → y.urgent g.req = false →
        (∃ j ∈ all, j ≠ g.req ∧ y.urgent j = true) → ∃ t h, exec (.arbRequest a reqs locks) s = .next t ∧
          (t.dev.arb a).holder = some h ∧ y.urgent h.req = true ∧ (t.dev.arb a).preempt = x.preempt + 1)) ∧
    (x.lfsr ≠ 0 → lfsrStep x.lfsr ≠ 0) ∧
    (∀ g, x.holder = some g →
      (g.locked = false → x.quantum ≠ 0 → g.tick + x.quantum.toNat ≤ now → (∃ j ∈ x.contenders a, j ≠ g.req) →
        ∃ t h, exec (.quantumExpire a) s = .next t ∧ t.mem = s.mem ∧ (t.dev.arb a).holder = some h ∧ h.req ∈ x.contenders a ∧
          (t.dev.arb a).preempt = x.preempt + 1 ∧ (t.dev.arb a).lfsr = lfsrStep x.lfsr) ∧
      (g.locked = true → exec (.quantumExpire a) s = .next s ∧
        (x.quantum ≠ 0 → g.tick + 16 * x.quantum.toNat < now →
          ∃ t, exec (.longLock a) s = .next t ∧ OnlyArb s t a { x with longLock := true }) ∧
        ∃ t l, exec (.arbLockDrop a) s = .next t ∧ OnlyArb s t a { x with holder := some { g with locked := false }, locks := l } ∧
          ∀ i, i < 16 → bit l.toNat i = (if i = g.req then false else bit x.locks.toNat i))) ∧
    (∀ n : Fin 16, ∃ t y, exec (.arbMask a n) s = .next t ∧ OnlyArb s t a y ∧ y.lfsr = x.lfsr ∧ y.tkt = x.tkt ∧
      (∀ i, i < 16 → bit y.masked.toNat i = if i = n.val then true else bit x.masked.toNat i) ∧
      y.holder = (if ∃ g, x.holder = some g ∧ g.req = n.val then none else x.holder))

/-- Doorbells and HIF_CTRL (R338, R340, R342, R343): for a function that the device serves an index below the entry count is
taken into its register and nothing else changes; at or beyond it sets DB_ERR and is ignored. -/
def Obligations.DoorbellsTakeTheirIndex : Prop :=
  ∀ (f : FnId) (v : BitVec 32) (c : Fin 16) (s : State), s.dev.serves f = true →
    let d := s.dev
    let x := d.func f
    let n := v.toNat
    let takes := fun (i : Instr) (y : Func) => ∃ t, exec i s = .next t ∧ OnlyFunc s t f y
    let fails := fun (i : Instr) => ∃ t, exec i s = .next t ∧ OnlyFunc s t f { x with dbErr := true }
    (n < x.sqEntries → takes (.dbCmdSqTail f v) { x with sqTail := n }) ∧
    (x.sqEntries ≤ n → fails (.dbCmdSqTail f v)) ∧
    (n < x.cqEntries → x.held = [] → takes (.dbCmdCqHead f v) { x with cqHead := n }) ∧
    (x.cqEntries ≤ n → fails (.dbCmdCqHead f v)) ∧
    (∀ k, d.ctx f c = some k →
      (n < ringEntries k.qSize → ∃ t m, exec (.dbCtxSqTail f c v) s = .next t ∧ OnlyFunc s t f { x with ctxs := m } ∧
        t.dev.ctx f c = some { k with qTail := n }) ∧
      (ringEntries k.qSize ≤ n → fails (.dbCtxSqTail f c v)) ∧
      (n < k.ents → k.backlog = [] → ∃ t m, exec (.dbTokenRingHead f c v) s = .next t ∧ OnlyFunc s t f { x with ctxs := m } ∧
        t.dev.ctx f c = some { k with rHead := n }) ∧
      (k.ents ≤ n → fails (.dbTokenRingHead f c v))) ∧
    (d.ctx f c = none → fails (.dbCtxSqTail f c v) ∧ fails (.dbTokenRingHead f c v)) ∧
    (∀ m u l, d.mouldLow c = some m → m.serve = some u → u.log = some l → l.fn = f.val →
      (n < l.ents → l.dropped = 0 → ∃ t, exec (.dbLogRingHead f c v) s = .next t ∧ t.mem = s.mem ∧ t.dev.funcs = d.funcs ∧
        t.dev.mouldLow c = some { m with serve := some { u with log := some { l with head := n } } }) ∧
      (l.ents ≤ n → fails (.dbLogRingHead f c v))) ∧
    takes (.hifCtrlEn f v) { x with en := v.getLsbD 0 }

/-- Register and window accesses (R5, R6, R334, R335, R337, R358, R366, R407, R410 to R413): a BAR0 access of another size or
alignment, or of a reserved range, is an Unsupported Request; the register space seen through BAR0 is the one REGISTER_WRITE
writes, a doorbell the one its row rings; a read of TURN_NOW answers the Turn; read-only registers keep their value, a
function's write of a register that only firmware writes changes nothing, ERR_IRQ_CFG is its own function's. A hart reads
and writes bytes of the device window, and waits while a slice of them is at retention (R153); a descriptor's image reads
back with its GEN (R94), other bytes as they are; an address that holds nothing traps the hart: mepc, mcause, mtval, machine
level (the model's reading, log entry 9). -/
def Obligations.RegisterAndWindowAccesses : Prop :=
  ∀ (f : FnId) (size x : Nat) (v : BitVec 64) (s : State),
    let d := s.dev
    let err := d.errs
    (d.serves f = true → d.crm.phase ≠ .recovery →
      (∀ wr, regAligned x size = false ∨ bar0Known x = false →
        exec (.bar0Access f x size wr v) s = .next { s with dev := { d with out := .unsupported f :: d.out } }) ∧
      (regAligned x size = true → (regBlock x).isSome = true →
        exec (.bar0Access f (0x1000000 + x) size true v) s = exec (.registerWrite (some f) x size v) s ∧
        exec (.bar0Access f (0x1000000 + x) size false v) s =
          .next { s with dev := { d with out := .readData f ((d.regRead x size).getD 0) :: d.out } }) ∧
      exec (.bar0Access f 0x1002000 8 false v) s = .next { s with dev := { d with out := .readData f d.turn.now.toNat :: d.out } } ∧
      exec (.bar0Access f 0x1000 4 true v) s = exec (.dbCmdSqTail f (v.setWidth 32)) s ∧
      exec (.bar0Access f 0x1004 4 true v) s = exec (.dbCmdCqHead f (v.setWidth 32)) s) ∧
    (d.rst = false → d.crm.phase = .recovery → (d.func f).linkUp = true → 0x20 ≤ x →
      ∀ wr, exec (.bar0Access f x size wr v) s = .next { s with dev := { d with out := .unsupported f :: d.out } }) ∧
    (d.rst = false → ∀ who : Option FnId,
      (regAligned x size = false → exec (.registerWrite who x size v) s = .next s) ∧
      exec (.registerWrite who 0x2000 8 v) s = .next s ∧
      (let l := if v.toNat % 65536 ≤ 0x2AF8 then v.setWidth 16 else d.pwr.limit
       exec (.registerWrite who 0x1118 4 v) s = .next { s with dev := { d with pwr := { d.pwr with limit := l } } }) ∧
      exec (.registerWrite (some f) 0x2020 8 v) s = .next s ∧
      exec (.registerWrite none 0x2020 8 v) s = .next { s with dev := { d with turn := { d.turn with epoch := v } } } ∧
      (∀ g : FnId, g ≠ f → exec (.registerWrite (some f) (0x10010 + 8 * g.val) 4 v) s = .next s) ∧
      ∃ t a b, exec (.registerWrite (some f) (0x10010 + 8 * f.val) 4 v) s = .next t ∧
        t = { s with dev := { d with errs := { err with irqVec := a, irqEn := b } } } ∧
        lk 0 a f.val = v.extractLsb' 8 6 ∧ lk 0 b f.val = v.extractLsb' 0 4) ∧
    (∀ (hart : Fin 4) (wr pre : Bool), d.rst = false → d.crm.phase ≠ .reset → hart.val = 0 ∨ d.crm.hartsUp = true →
      let tells := fun (o : Out) => exec (.hartWindowAccess hart x size wr v pre) s = .next { s with dev := { d with out := o :: d.out } }
      let h := lk Hart.reset d.crm.harts hart.val
      let faults := ∃ x', exec (.hartWindowAccess hart x size wr v pre) s = .next { s with dev := { d with
          crm := { d.crm with harts := up d.crm.harts hart.val x' }, out := .hartFault hart :: d.out } } ∧
        x'.pc = h.mtvec &&& ~~~(3 : BitVec 64) ∧ x'.mepc = h.pc ∧ x'.mcause = (if wr then 7 else 5) ∧ x'.priv = 3 ∧
        x'.mtval = BitVec.ofNat 64 (0x400000000 + x) ∧ x'.x = h.x ∧ x'.f = h.f
      (pre = true → tells (.hartRestart hart)) ∧
      (pre = false → size ∉ [1, 2, 4, 8] ∨ x % size ≠ 0 → faults) ∧
      (pre = false → size ∈ [1, 2, 4, 8] → x % size = 0 →
        (0x303000000 ≤ x ∨ 0x1C6000000 ≤ x ∧ x < 0x300000000 ∨ 0x1B0000000 ≤ x ∧ x < 0x1C0000000 → faults) ∧
        (x < 0x1B0000000 → 0x180000000 ≤ x ∨ lk 16 d.net.slcOwner (x / 0x800000) < 16 →
          let i := Instr.hartWindowAccess hart x size wr v pre
          (d.winAsleep x size = true → exec i s = .next { s with dev := { d with net := { d.net with
            winQ := d.net.winQ ++ [⟨.hart hart, x, size, wr, natLe v.toNat size⟩] } } }) ∧
          (d.winAsleep x size = false → wr = true → s.mem.wf → ∃ t, exec i s = .next t ∧ Written s t x (natLe v.toNat size) ∧
            t.cave = s.cave) ∧
          (d.winAsleep x size = false → wr = false → ∃ t, exec i s = .next t ∧ t.mem = s.mem ∧
            t.dev.out.head? = some (.hartData hart (leNat (d.shown s.mem x size))))))) ∧
    (∀ a n, d.genBytes s.mem a n = [] → (∀ i, i < n → d.winLost (a + i) = false) → d.shown s.mem a n = s.mem.bytes a n)

/-- BAR2 (R276, R337): a write within one RANGES entry that grants it, in a partition of a Mould the function owns, stores its
bytes and no other; one without is an Unsupported Request; for another slot the access is carried to the member there, and a
read that stays unanswered for 10 ms is aborted. The device it is carried to makes the same test, and answers. An access of
a slice at retention waits (R153). -/
def Obligations.Bar2Accesses : Prop :=
  ∀ (f : FnId) (addr len : Nat) (wr : Bool) (data : List Byte) (s : State),
    let d := s.dev
    let lo := addr % 2 ^ 34
    let mine := fun m => m ∈ d.moulds ∧ m.owner = some f.val
    let i := Instr.bar2Access f addr len wr data
    let tells := fun (o : Out) => exec i s = .next { s with dev := { d with out := o :: d.out } }
    (d.serves f = true → addr < 2 ^ 37 → (wr = true → data.length = len) →
      (bits addr 36 34 = d.slot.toNat →
        ((∃ m, mine m ∧ d.bar2Ok m lo len wr = true) →
          (d.winAsleep lo len = false → wr = true → s.mem.wf → ∃ t, exec i s = .next t ∧ Written s t lo data ∧ t.cave = s.cave) ∧
          (d.winAsleep lo len = false → wr = false → ∃ t, exec i s = .next t ∧ t.mem = s.mem ∧
            t.dev.out.head? = some (.readData f (leNat (d.shown s.mem lo len)))) ∧
          (d.winAsleep lo len = true → exec i s =
            .next { s with dev := { d with net := { d.net with winQ := d.net.winQ ++ [⟨.func f, lo, len, wr, data⟩] } } })) ∧
        ((∀ m, mine m → d.bar2Ok m lo len wr = false) → tells (.unsupported f))) ∧
      (bits addr 36 34 ≠ d.slot.toNat → (∀ m, mine m → ∀ e ∈ m.members, e.slot ≠ bits addr 36 34 ∨ e.board ≠ d.board.toNat) →
        tells (.unsupported f)) ∧
      (∀ m e, bits addr 36 34 ≠ d.slot.toNat → d.moulds = [m] → m.owner = some f.val → m.members = [e] →
        e.slot = bits addr 36 34 → e.board = d.board.toNat → ∃ t b, exec i s = .next t ∧ t.mem = s.mem ∧
          t.dev.out.head? = some (.fwd 0 m.fpid addr len wr data) ∧ t.dev.bar2 = d.bar2 ++ [b] ∧ b.fn = f.val ∧
          b.tick = d.turn.now.toNat ∧ b.write = wr)) ∧
    (let late := fun (b : Bar2Wait) => b.fn == f.val && decide (b.tick + 62500 ≤ d.turn.now.toNat)
     exec (.bar2ForwardTimeout f) s = .next { s with dev := { d with
       bar2 := d.bar2.filter (fun b => !late b),
       out := List.replicate (d.bar2.filter (fun b => late b && !b.write)).length (.aborted f) ++ d.out } }) ∧
    (∀ (h : MHdr) (m : Mould), Takes d h m →
      let j := Instr.msgBar2Access h addr len wr data
      (d.bar2Ok m lo len wr = true → d.winAsleep lo len = false → wr = true → data.length = len → s.mem.wf →
        ∃ t, exec j s = .next t ∧ Written s t lo data ∧ t.dev.out.head? = some (.fwdAnswer h.src m.fpid h.seq true [])) ∧
      (d.bar2Ok m lo len wr = true → d.winAsleep lo len = false → wr = false → ∃ t, exec j s = .next t ∧ t.mem = s.mem ∧
        t.dev.out.head? = some (.fwdAnswer h.src m.fpid h.seq true (d.shown s.mem lo len))) ∧
      (d.bar2Ok m lo len wr = false → exec j s = .next { s with dev := (d.heard h).fwdReply m.fpid h.src h.seq false [] }))

/-- Functions (R333, R345 to R348, R355): PERST_N released trains the link, and the function is ready where firmware is; a
configuration request is answered with the configuration space as the function stands; a function that leaves is torn down,
at once where no sampling point is to come (log entry 26), while a link that goes down and its channels are down at once: it
owns nothing, its channels are down, no completion is left for it; one whose teardown takes 1 s is wedged. -/
def Obligations.FunctionsComeAndGo : Prop :=
  ∀ (f : FnId) (s : State),
    let d := s.dev
    let x := d.func f
    (x.perst = true → d.rst = false → ∃ t, exec (.perstDeassert f) s = .next t ∧ t.mem = s.mem ∧
      t.dev.func f = { x with perst := false, linkUp := d.linkOf f,
                              ready := d.linkOf f && d.crm.fwReady && !x.wedged && x.left.isNone } ∧
      bit (t.dev.arb 2).masked.toNat (4 + f.val) = false) ∧
    (d.rst = false → x.perst = false → d.linkOf f = true →
      let tells := fun (o : Out) => exec (.configRequest f) s = .next { s with dev := { d with out := o :: d.out } }
      (d.crm.phase = .recovery → tells (.configDone f (cfgSpace 0x09F0))) ∧
      (d.crm.phase ≠ .recovery → x.ready = true → x.left = none → x.wedged = false → tells (.configDone f (cfgSpace 0x0960))) ∧
      (d.crm.phase ≠ .recovery → x.ready = false ∨ x.left ≠ none ∨ x.wedged = true → tells (.rrs f))) ∧
    (∀ why, d.rst = false → x.perst = false → (∀ g, g < 4 → (d.func g).left = none) →
      (d.samples = false → ∃ t, exec (.functionLeave f why) s = .next t ∧ t.mem = s.mem ∧
        (∀ m ∈ t.dev.moulds, m.owner ≠ some f.val) ∧ (∀ c ∈ t.dev.chans, c.fn = f.val → c.down = true) ∧
        (t.dev.func f).held = [] ∧ (t.dev.func f).ctxs = [] ∧ (t.dev.func f).sq = 0 ∧ (t.dev.func f).left = none ∧
        (t.dev.func f).perst = (why == .perst) ∧ (∀ g, g ≠ f.val → t.dev.func g = d.func g) ∧ t.dev.cores = d.cores) ∧
      (d.samples = true → ∃ t, exec (.functionLeave f why) s = .next t ∧ t.mem = s.mem ∧ t.dev.cores = d.cores ∧
        t.dev.moulds = d.moulds ∧ (t.dev.func f).left = some d.turn.now.toNat ∧
        (why.down = true → (t.dev.func f).linkUp = false) ∧
        (why.cuts = true → ∀ c ∈ t.dev.chans, c.fn = f.val → c.down = true))) ∧
    (∀ n, x.left = some n → n + 6250000 ≤ d.turn.now.toNat →
      ∃ t, exec (.functionWedged f) s = .next t ∧ OnlyFunc s t f { x with wedged := true })

/-! ### Commands of the command queue -/

/-- Every row of the command queue (R336, R338, R339, R341): an entry that firmware cannot take does nothing; one whose reserved
fields are not 0 completes INVALID; a command marked front on a member other than 0 completes NOT_FRONT, an owner-only
command of another function NOT_OWNER, also one on a Mould without an owner that no neighbour passed on, with no change of
any Mould. START, and what comes behind a load request that waits, is taken up in turn; DUMP waits for a slice that sleeps. -/
def Obligations.CommandEntriesAreChecked : Prop :=
  ∀ (f : FnId) (e : BitVec 512) (data : Option (List Byte)) (log : List (List Byte × Option (List Nat))) (s : State),
    let d := s.dev
    let tells := fun (i : Instr) st => ∃ t, exec i s = .next t ∧ Answered s t f e st 0 ∧ t.mem = s.mem ∧ t.cave = s.cave ∧
      t.dev.moulds = d.moulds ∧ t.dev.cores = d.cores
    (d.dumpAsleep data = true → exec (.dump f e data) s = .next s) ∧
    (∀ op i, (op, i) ∈ [(0x01, Instr.openCtx f e data), (0x02, .closeCtx f e), (0x03, .cancel f e), (0x04, .prefixRelease f e),
        (0x05, .drain f e), (0x06, .openLog f ⟨e, log⟩), (0x07, .closeLog f e), (0x10, .loadMould f e data), (0x11, .start f e),
        (0x12, .unload f e), (0x13, .loadWeights f e), (0x14, .switch f e), (0x15, .hold f e data), (0x16, .substitute f e),
        (0x17, .failover f e), (0x18, .writeFabric f e data), (0x19, .dump f e data), (0x20, .keyInstall f e data),
        (0x21, .keyRemove f e data), (0x22, .attest f e), (0x23, .retire f e), (0x24, .distance f e), (0x25, .caveRead f e),
        (0x26, .caveWrite f e data), (0x27, .turnPrio f e), (0x30, .openChan f e), (0x31, .closeChan f e)] →
      (op = 0x19 → d.dumpAsleep data = false) →
      (d.canTake f = false → exec i s = .next s) ∧
      (d.canTake f = true → cOpc e = op → cReserved e = false → CanAnswer d f → tells i 3)) ∧
    (∀ op i m, Entry d f op e → d.mouldLow (cPtag e) = some m → d.loadHeld = false →
      (m.self ≠ 0 → (op, i) ∈ [(0x04, Instr.prefixRelease f e), (0x07, .closeLog f e), (0x11, .start f e), (0x14, .switch f e),
        (0x15, .hold f e data), (0x17, .failover f e)] → tells i 5) ∧
      (m.self = 0 → m.owner ≠ some f.val → m.owner ≠ none ∨ m.fromNbr = false → (op = 0x19 → d.dumpAsleep data = false) → (op, i) ∈ [(0x07, Instr.closeLog f e), (0x11, .start f e),
        (0x14, .switch f e), (0x15, .hold f e data), (0x17, .failover f e), (0x18, .writeFabric f e data), (0x19, .dump f e data)] →
        tells i 4))

/-- Contexts, cancels, prefixes, drains, the log (R307, R316, R317, R326, R327, R329, R330): OPEN_CTX opens the context its
descriptor gives; a command whose effect belongs to a sampling point waits for it in order, and acts at once where none is
to come; a context, handle or log that is not there is NOT_FOUND. -/
def Obligations.ContextCommands : Prop :=
  ∀ (f : FnId) (e : BitVec 512) (log : List (List Byte × Option (List Nat))) (s : State),
    let d := s.dev
    let c := cCtx e
    let owned := fun (m : Mould) => m.self = 0 ∧ (m.owner = some f.val ∨ m.owner = none ∧ m.fromNbr = true)
    let own := fun (m : Mould) => { m with owner := some f.val, fromNbr := m.fromNbr && m.owner.isSome }
    let becomes := fun (i : Instr) p (m : Mould) => ∃ t, exec i s = .next t ∧ t.mem = s.mem ∧ t.dev.mouldLow p = some m
    let done := fun (i : Instr) p (m : Mould) => ∃ t, exec i s = .next t ∧ t.mem = s.mem ∧ t.dev.mouldLow p = some m ∧ Answered s t f e 0 0
    let tells := fun (i : Instr) st => ∃ t, exec i s = .next t ∧ t.mem = s.mem ∧ t.dev.moulds = d.moulds ∧ Answered s t f e st 0
    (∀ bs m, Entry d f 0x01 e → d.mouldLow (fld bs 1 1) = some m → m.self = 0 → m.alive 0 = true → m.serve ≠ none → ctxDescOk bs c = true →
      cArg1 e ≤ 12 → d.ctx f c = none → ∃ t, exec (.openCtx f e (some bs)) s = .next t ∧ t.mem = s.mem ∧ Answered s t f e 0 0 ∧
        t.dev.ctx f c = some (newCtx bs (cArg0 e) (cArg1 e)) ∧ t.dev.moulds = d.moulds) ∧
    (Entry d f 0x02 e → (d.ctx f c = none → tells (.closeCtx f e) 2) ∧
      ∀ x, d.ctx f c = some x →
        (d.ctxMould x = none → ∃ t, exec (.closeCtx f e) s = .next t ∧ t.mem = s.mem ∧ t.dev.ctx f c = none ∧ Answered s t f e 0 0) ∧
        (∀ m, d.ctxMould x = some m →
          becomes (.closeCtx f e) x.part { m with serve := m.serve.map (fun v =>
            { v with waiting := v.waiting ++ [⟨f, cCid e, .closeCtx c⟩] }) })) ∧
    (Entry d f 0x03 e → (d.ctx f c = none → tells (.cancel f e) 2) ∧
      ∀ x, d.ctx f c = some x → (d.ctxMould x = none → tells (.cancel f e) 2) ∧
        (∀ m, d.ctxMould x = some m →
          becomes (.cancel f e) x.part { m with serve := m.serve.map (fun v =>
            { v with waiting := v.waiting ++ [⟨f, cCid e, .cancel c (cArg0 e)⟩] }) })) ∧
    (∀ m v, d.mouldLow (cPtag e) = some m → m.serve = some v →
      (Entry d f 0x04 e → m.self = 0 →
        (d.willSample m = true → becomes (.prefixRelease f e) (cPtag e) { m with serve := some { v with
          waiting := v.waiting ++ [⟨f, cCid e, .prefixRelease (cArg0 e)⟩] } }) ∧
        (d.willSample m = false → v.release (cArg0 e) = none → tells (.prefixRelease f e) 2) ∧
        (∀ u, d.willSample m = false → v.release (cArg0 e) = some u → done (.prefixRelease f e) (cPtag e) { m with serve := some u })) ∧
      (Entry d f 0x05 e → cFlags e < 2 → owned m → v.draining = none →
        (d.willSample m = true → m.phase = 6 ∨ 0 < v.planned → becomes (.drain f e) (cPtag e) { own m with
          serve := some { v with waiting := v.waiting ++ [⟨f, cCid e, .drain (bit (cFlags e) 0)⟩] } }) ∧
        (d.willSample m = false ∨ m.phase ≠ 6 ∧ v.planned = 0 → done (.drain f e) (cPtag e) { own m with
          serve := some { v with drainSince := true } })) ∧
      (Entry d f 0x06 e → cArg0 e ≤ 12 → owned m → v.log = none →
        (m.replay = false → done (.openLog f ⟨e, log⟩) (cPtag e) { own m with
          serve := some { v with log := some ⟨f, cAddr e, ringEntries (cArg0 e), 0, 0, 0⟩ } }) ∧
        (m.replay = true → done (.openLog f ⟨e, log⟩) (cPtag e) { own m with
          serve := some { v with given := log.map (fun x => ⟨x.1, x.2⟩) } })) ∧
      (Entry d f 0x07 e → owned m →
        (v.log = none → ∃ t, exec (.closeLog f e) s = .next t ∧ Answered s t f e 2 0) ∧
        (v.log ≠ none → done (.closeLog f e) (cPtag e) { own m with
          serve := some { v with log := none } })))

/-- Commands on the device (R19, R40, R176, R222, R294, R295, R300, R302, R370, R372): each acts as its row says and completes
with its status, a non-volatile one when its write is done: the write is asked for with its need. -/
def Obligations.DeviceCommands : Prop :=
  ∀ (f : FnId) (e : BitVec 512) (bs : List Byte) (s : State),
    let d := s.dev
    let c := d.crm
    let tells := fun (i : Instr) st => ∃ t, exec i s = .next t ∧ t.mem = s.mem ∧ t.cave = s.cave ∧ t.dev.crm = c ∧ t.dev.pwr = d.pwr ∧
      t.dev.chans = d.chans ∧ Answered s t f e st 0
    let asks := fun (i : Instr) need (k : NvKind) => ∃ t, exec i s = .next t ∧ t.mem = s.mem ∧ t.cave = s.cave ∧ t.dev.crm = c ∧
      t.dev.pwr.nv = d.pwr.nv ++ [⟨d.pwr.nvNext, need, false, d.turn.now.toNat, k⟩]
    let sends := fun (i : Instr) (l : List Byte) => ∃ t, exec i s = .next t ∧ t.mem = s.mem ∧ t.cave = s.cave ∧ Answered s t f e 0 0 ∧
      .hostWrite f (cAddr e) l ∈ t.dev.out
    let key : KeyEnt := ⟨bs, shake256 bs, bit (cFlags e) 0⟩
    (Entry d f 0x20 e → cFlags e < 2 → (bit (cFlags e) 0 = true → c.keysLoaded = true) → bs.length = 68 →
      (bs.take 4 ≠ xmssOid → tells (.keyInstall f e (some bs)) 10) ∧
      (bs.take 4 = xmssOid → c.hasKey (shake256 bs) = false →
        (16 ≤ c.keys.length + d.keyWrites → tells (.keyInstall f e (some bs)) 11) ∧
        (c.keys.length + d.keyWrites < 16 → cFlags e = 1 → asks (.keyInstall f e (some bs)) 250000 (.keyInstall f (cCid e) key)) ∧
        (c.keys.length + d.keyWrites < 16 → cFlags e = 0 → ∃ t, exec (.keyInstall f e (some bs)) s = .next t ∧ t.mem = s.mem ∧
          Answered s t f e 0 0 ∧ t.dev.crm.hasKey (shake256 bs) = true ∧ ∀ g, c.hasKey g = true → t.dev.crm.hasKey g = true))) ∧
    (Entry d f 0x21 e → bs.length = 32 →
      (c.hasKey (leNat bs) = false → tells (.keyRemove f e (some bs)) 2) ∧
      (∀ k, c.keys.find? (fun x => x.2.digest == leNat bs) = some k →
        (k.2.persist = true → asks (.keyRemove f e (some bs)) 250000 (.keyRemove f (cCid e) (leNat bs))) ∧
        (k.2.persist = false → ∃ t, exec (.keyRemove f e (some bs)) s = .next t ∧ t.mem = s.mem ∧ Answered s t f e 0 0 ∧
          t.dev.crm.keys = del c.keys k.1))) ∧
    (Entry d f 0x22 e → c.attests = [] → d.reserving = false →
      let r : AttReq := ⟨f, cCid e, cArg0 e + cArg1 e * 2 ^ 64, cAddr e, cLen e⟩
      (c.idReady = false → c.idFail = false → ∃ t, exec (.attest f e) s = .next t ∧ t.mem = s.mem ∧
        t.dev.crm = { c with attests := [r] }) ∧
      (c.idFail = true → tells (.attest f e) 14) ∧
      (c.idReady = true → c.idFail = false → c.leafNext < 2 ^ 40 → attLength d.attEnts.length ≤ cLen e →
        (c.reservedEnd ≤ c.leafNext → asks (.attest f e) 50000 (.leaf r)) ∧
        (c.leafNext < c.reservedEnd → ∃ t l, exec (.attest f e) s = .next t ∧ t.mem = s.mem ∧
          Answered s t f e 0 (attLength d.attEnts.length) ∧ t.dev.crm.leafNext = c.leafNext + 1 ∧
          .hostWrite f (cAddr e) l ∈ t.dev.out ∧ l.length = attLength d.attEnts.length))) ∧
    (Entry d f 0x23 e →
      let left := (d.goodRows (cArg0 e % 32)).filter (fun y => y ≠ cArg0 e / 32 && !(d.retiring (cArg0 e % 32)).contains y)
      (832 ≤ cArg0 e → tells (.retire f e) 3) ∧
      (cArg0 e < 832 → left.length < 24 → tells (.retire f e) 14) ∧
      (cArg0 e < 832 → 24 ≤ left.length → asks (.retire f e) 50000 (.retire f (cCid e) (cArg0 e)))) ∧
    (Entry d f 0x24 e → (cLen e < 1204288 → tells (.distance f e) 3) ∧
      (1204288 ≤ cLen e → sends (.distance f e) d.distanceTable)) ∧
    (Entry d f 0x25 e → d.flash.ready = true → (caveCmdOk e = false → tells (.caveRead f e) 3) ∧
      (caveCmdOk e = true → sends (.caveRead f e) (s.cave.bytes (cArg0 e) (cLen e)))) ∧
    (Entry d f 0x26 e → d.flash.ready = true → caveCmdOk e = true → bs.length = cLen e →
      (d.pinned (cArg0 e) (cLen e) = true → tells (.caveWrite f e (some bs)) 13) ∧
      (d.pinned (cArg0 e) (cLen e) = false → d.flash.worn = false → bs ≠ [] →
        asks (.caveWrite f e (some bs)) 250000 (.caveWrite f (cCid e) (cArg0 e) bs))) ∧
    (Entry d f 0x27 e → (256 ≤ cArg0 e → tells (.turnPrio f e) 3) ∧
      (cArg0 e < 256 → ∃ t, exec (.turnPrio f e) s = .next t ∧ t.mem = s.mem ∧ Answered s t f e 0 0 ∧
        t.dev.turn.prio.toNat = cArg0 e ∧ t.dev.turn.units = d.turn.units)) ∧
    (Entry d f 0x30 e → cFlags e < 4 → cPtag e < 16 → cArg0 e < 256 → cAddr e % 4096 = 0 → cLen e % 4096 = 0 →
      ((d.logicalChan (cPtag e) (cArg0 e)).isSome = true → tells (.openChan f e) 1) ∧
      (∀ n, d.logicalChan (cPtag e) (cArg0 e) = none → d.freeChan (cPtag e) = some n → ∃ t, exec (.openChan f e) s = .next t ∧
        t.mem = s.mem ∧ Answered s t f e 0 n ∧
        ⟨cPtag e, cArg0 e, n, f, cAddr e, cLen e, bit (cFlags e) 0, bit (cFlags e) 1, false⟩ ∈ t.dev.chans)) ∧
    (Entry d f 0x31 e →
      let mine := fun (x : Chan) => x.part = cPtag e ∧ x.chan = cArg0 e ∧ x.fn = f.val ∧ x.down = false
      ((∀ x ∈ d.chans, ¬ mine x) → tells (.closeChan f e) 2) ∧
      ((∃ x ∈ d.chans, mine x) → ∃ t, exec (.closeChan f e) s = .next t ∧ t.mem = s.mem ∧ Answered s t f e 0 0 ∧
        ∀ x, x ∈ t.dev.chans ↔ x ∈ d.chans ∧ ¬ mine x))

/-- Commands on a Mould (R219, R239, R246, R251 to R253, R282, R283, R287 to R289, R293, R341): LOAD_MOULD begins a load in
phase 1; START fixes T0; UNLOAD leaves every byte of the Mould's local stores and slices 0 and no other byte changed, but
that bytes go with their positions where the map in force changes; the three wait behind a load request that waits; SWITCH,
HOLD and LOAD_WEIGHTS are noted until they complete; SUBSTITUTE replaces a member that has an ALIAS; FAILOVER lets the
partner take the place of a member; WRITE_FABRIC rewrites a version that is not busy; DUMP writes a tensor's bytes to the
host. -/
def Obligations.MouldCommands : Prop :=
  ∀ (f : FnId) (e : BitVec 512) (bs : List Byte) (s : State),
    let d := s.dev
    let now := d.turn.now.toNat
    let p := cPtag e
    let tells := fun (i : Instr) st => ∃ t, exec i s = .next t ∧ t.mem = s.mem ∧ Answered s t f e st 0
    let becomes := fun (i : Instr) (m : Mould) => ∃ t, exec i s = .next t ∧ t.mem = s.mem ∧ t.dev.mouldLow p = some m
    let passes := fun (i : Instr) (m : Mould) => ∃ t k, exec i s = .next t ∧ t.mem = s.mem ∧ t.dev.mouldLow p = some k ∧ k.AsSent m
    let own := fun (m : Mould) => { m with owner := some f.val, fromNbr := m.fromNbr && m.owner.isSome }
    (∀ op i, (op, i) ∈ [(0x10, Instr.loadMould f e (some bs)), (0x11, .start f e), (0x12, .unload f e)] → Entry d f op e →
      d.loadHeld = true → cArg0 e = 0 → ∃ t, exec i s = .next t ∧ t.mem = s.mem ∧ t.dev.moulds = d.moulds ∧ t.dev.loads = d.loads ∧
        ∃ x, t.dev.crm.waitCmds = d.crm.waitCmds ++ [(f.val, e, x)]) ∧
    (Entry d f 0x10 e → cFlags e = 0 ∨ cFlags e = 2 →
      (cArg0 e ≠ 0 → cArg0 e < now + 64 → tells (.loadMould f e (some bs)) 0x10D) ∧
      (d.loadHeld = false → cArg0 e = 0 ∨ now + 64 ≤ cArg0 e → imLength bs ≤ 536870912 → imPmask bs ≠ 0 → imLength bs = cLen e →
        (d.notFree (imPmask bs) = true → tells (.loadMould f e (some bs)) 0x10B) ∧
        (d.notFree (imPmask bs) = false → ∃ t l, exec (.loadMould f e (some bs)) s = .next t ∧ t.mem = s.mem ∧
          t.dev.loads = d.loads ++ [l] ∧ l.pmask = imPmask bs ∧ l.fpid = imFpid bs ∧ l.t0 = cArg0 e ∧ l.req = some (f.val, cCid e) ∧
          l.image = none ∧ ∀ q ∈ partsOf (imPmask bs), (t.dev.part q).load.toNat % 8 = 1))) ∧
    (∀ m, d.mouldLow p = some m → m.owner = some f.val ∨ m.owner = none ∧ m.fromNbr = true →
      let n := own m
      (Entry d f 0x11 e → d.loadHeld = false → m.self = 0 → m.phase = 5 → m.t0 = 0 →
        (cArg0 e < now + 64 → ∃ t, exec (.start f e) s = .next t ∧ Answered s t f e 0x10D 0) ∧
        (now + 64 ≤ cArg0 e → passes (.start f e) { n with t0 := cArg0 e } ∧ ∃ t, exec (.start f e) s = .next t ∧
          Answered s t f e 0 0 ∧ ∀ q ∈ partsOf m.pmask, (t.dev.part q).t0 = BitVec.ofNat 64 (cArg0 e))) ∧
      (Entry d f 0x12 e → d.loadHeld = false → (∀ l ∈ d.loads, lowPart l.pmask ≠ p) → 5 ≤ m.phase →
        ∃ t, exec (.unload f e) s = .next t ∧ t.cave = s.cave ∧ (∀ x ∈ t.dev.moulds, x.pmask ≠ m.pmask) ∧
          t.mem = memAll s.mem ((d.ownRanges m).map (fun r => .clr r.1 r.2) ++ moveOps (d.moves t.dev)) ∧
          (d.moves t.dev = [] → ∀ a, t.mem.rd a = if inRanges (d.ownRanges m) a then 0 else s.mem.rd a) ∧
          (∀ q ∈ partsOf m.pmask, (t.dev.part q).st = .idle ∧ (t.dev.part q).load.toNat % 8 = 0) ∧
          (d.mouldOf p = some m → m.serve = none → m.wload = none → m.hold = none → m.failover = none → m.switching = none → m.req = none →
            Answered s t f e 0 0)) ∧
      (Entry d f 0x13 e → m.self = 0 → cFlags e = 0 → m.phase = 4 ∨ m.phase = 6 → (∀ w, m.wload = some w → w.busy = false) →
        becomes (.loadWeights f e) { n with wload := some { WLoad.fresh now with
          req := some (f.val, cCid e)
          src := some (false, f.val, cAddr e, cLen e) } }) ∧
      (m.self = 0 → m.t0 ≠ 0 → 5 ≤ m.phase → d.stepAhead m (cArg0 e) = true →
        (Entry d f 0x14 e → (m.tab (1 - m.epoch)).valid = true → m.switching = none →
          passes (.switch f e) { n with switchAt := some (cArg0 e), switching := some ⟨cArg0 e, f, cCid e, [], false⟩ }) ∧
        (Entry d f 0x15 e → m.hold = none →
          (cArg1 e = 0 → passes (.hold f e none) { n with hold := some ⟨cArg0 e, [], f.val, cCid e, true, [], now⟩ }) ∧
          (cArg1 e ≠ 0 → changesOk bs (cArg1 e) m.devices = true → passes (.hold f e (some bs)) { n with
            hold := some ⟨cArg0 e, changeList bs, f.val, cCid e, true, [], now⟩ }))) ∧
      (Entry d f 0x16 e → cArg0 e < m.devices →
        (m.alive (cArg0 e) = true → ∃ t, exec (.substitute f e) s = .next t ∧ Answered s t f e 14 0) ∧
        (m.alive (cArg0 e) = false → ∃ t k, exec (.substitute f e) s = .next t ∧ Answered s t f e 0 0 ∧ t.mem = s.mem ∧
          t.dev.mouldLow p = some k ∧ (∀ x, m.members[cArg0 e]? = some x → k.members[cArg0 e]? = some { x with serial := cArg1 e }) ∧
          ∀ i, i ≠ cArg0 e → k.members[i]? = m.members[i]?)) ∧
      (Entry d f 0x17 e → m.self = 0 → m.replica = true → m.phase = 6 → cArg0 e ≠ 0 → cArg0 e < m.devices → m.alive (cArg0 e) = true →
        (∀ y, m.livePartner (cArg0 e) = some y → ∃ t k, exec (.failover f e) s = .next t ∧ t.cave = s.cave ∧
          t.dev.mouldLow p = some k ∧ k.failoverRan = true ∧ ((k.tab k.epoch).rec_ (cArg0 e)).aliasTo = y ∧
          ∀ j, m.has (d.partOf j) = true → (t.dev.core j).a.st = .idle ∧ (t.dev.core j).e.st = .idle) ∧
        (m.livePartner (cArg0 e) = none → ∃ t, exec (.failover f e) s = .next t ∧ t.mem = s.mem ∧
          ∀ q ∈ partsOf m.pmask, (t.dev.part q).st = .stopped)) ∧
      (Entry d f 0x18 e → cArg0 e < 2 →
        (d.versionBusy m (cArg0 e) = true → ∃ t, exec (.writeFabric f e (some bs)) s = .next t ∧ Answered s t f e 6 0) ∧
        (d.versionBusy m (cArg0 e) = false → bs.length = cLen e → fabricOk m.members bs = true →
          headersAgree (readFabric bs) (m.tab (1 - cArg0 e)) = true →
          ((m.tab (cArg0 e)).valid = true → (readFabric bs).recs.map (fun r => r.partner) = (m.tab (cArg0 e)).recs.map (fun r => r.partner)) →
          becomes (.writeFabric f e (some bs)) (n.setTab (cArg0 e) (readFabric bs)) ∧ tells (.writeFabric f e (some bs)) 0)) ∧
      (Entry d f 0x19 e → d.dumpAsleep (some bs) = false → cArg0 e < 768 → m.has (d.partOf (cArg0 e)) = true → d.net.ue = [] → d.net.ce = [] →
        let x := parseDesc bs m.compat
        let out := dumpBytes s.mem.rd x
        bs.length = (if m.compat then 48 else 64) → validate bs x m.ranges (d.partOf (cArg0 e)) (cArg0 e) = none → out.length ≤ cLen e →
        ∃ t, exec (.dump f e (some bs)) s = .next t ∧ t.mem = s.mem ∧ Answered s t f e 0 0 ∧ .hostWrite f (cAddr e) out ∈ t.dev.out))

/-! ### Loading a Mould -/

/-- A load (R213, R248 to R250, R273, R396, R397): a source that fails ends it with SOURCE; a whole image that fails a check of
its form ends it with that status; one that passes every check is installed with exactly the bytes of its cores' stores, and
waits for the key table and memory BIST before that. An offer is taken like a request, turned away with REFUSE before
firmware is ready and behind a request that waits, and made again 10 ms after a refusal. Results and ends of a load, and its
start (R249, R251, R253): member 0 counts the results and answers a refusal, and every member a refusal, a cancellation, a
timeout or a start that is late, by ending the load; COMMIT takes a Mould from phase 3 on; START gives its T0 to every
partition, in phase 5 with T0 still open. -/
def Obligations.MouldLoads : Prop :=
    (∀ s : State,
      let d := s.dev
      let now := d.turn.now.toNat
      (∀ (p : PartId) (l : Load), d.loads.find? (fun x => lowPart x.pmask == p.val && x.image.isNone) = some l →
        (∃ t, exec (.mouldLastByte p none) s = .next t ∧ t.mem = s.mem ∧ (∀ x ∈ t.dev.loads, x.pmask ≠ l.pmask) ∧
          ∀ q ∈ partsOf l.pmask, (t.dev.part q).load = loadReg 0xFFFF 0xFF 14 0) ∧
        (∀ b, l.caveOff = none → l.pmask = imPmask b →
          (∀ r, d.imEarly b = some r → ∃ t, exec (.mouldLastByte p (some b)) s = .next t ∧ t.mem = s.mem ∧
            (∀ x ∈ t.dev.loads, x.pmask ≠ l.pmask) ∧ ∀ q ∈ partsOf l.pmask, (t.dev.part q).load = loadReg 0xFFFF r.2 r.1 0) ∧
          (d.crm.keysLoaded = false → ∃ t, exec (.mouldLastByte p (some b)) s = .next t ∧ t.mem = s.mem ∧
            (d.imEarly b = none → { l with image := some b, lastByte := now } ∈ t.dev.loads)) ∧
          (d.crm.keysLoaded = true → d.crm.bistDone = true → ∃ t, exec (.mouldLastByte p (some b)) s = .next t ∧ t.cave = s.cave ∧
            ∀ self, d.imEarly b = none → d.imLate b l.port.isNone = none → d.imSelf b = some self →
              t.mem = memAll s.mem (moveOps (d.moves t.dev) ++ d.installOps b self) ∧ (∀ x ∈ t.dev.loads, x.pmask ≠ l.pmask) ∧
              ∃ m ∈ t.dev.moulds, m.pmask = l.pmask ∧ m.self = self ∧ m.t0 = l.t0 ∧ 3 ≤ m.phase))) ∧
      (∀ (u : PortId) (h : MHdr) (b : List Byte) (t0 : Nat) (rep : Bool), h.answer = false →
        let waits := d.crm.fwReady = false ∨ d.loadHeld = true ∨ (d.port u).st ≠ .admitted ∧ (d.port u).st ≠ .notAdmitted
        let why := if d.t0Late t0 then some (0x0D, false) else d.askLoad b (imLength b)
        (waits → exec (.msgMouldOffer u h b t0 rep) s = .next { s with dev := d.sendCtrl u none 4 0 1 [] }) ∧
        (¬ waits →
          lk 0 d.crm.mgmtSeq (h.fpid * 65536 + h.src) < h.seq →
          (why = none → ∃ t l, exec (.msgMouldOffer u h b t0 rep) s = .next t ∧ t.mem = s.mem ∧
            t.dev.loads = d.loads ++ [l] ∧ l.pmask = imPmask b ∧ l.port = some u.val ∧ l.t0 = t0 ∧ l.replay = rep ∧ (t.dev.port u).offer = true ∧
            .mgmt h.src 1 h.fpid h.seq 1 true ∈ t.dev.out) ∧
          (∀ r, why = some r → ∃ t, exec (.msgMouldOffer u h b t0 rep) s = .next t ∧ t.mem = s.mem ∧
            t.dev.loads = d.loads ∧ .mgmt h.src 1 h.fpid h.seq r.1 true ∈ t.dev.out))) ∧
      (∀ (p : PartId) (o : Offer), d.offers.find? (fun x => lowPart x.pmask == p.val && x.refused) = some o → o.tick + 62500 ≤ now →
        now < o.began + d.timeoutOf o.pmask → ∃ t, exec (.mouldOfferRetry p) s = .next t ∧ t.mem = s.mem ∧
          t.dev.offers = d.offers.map (fun y => if y = o then { y with refused := false, tick := now } else y))) ∧
    (∀ (h : MHdr) (s : State),
      let d := s.dev
      let now := d.turn.now.toNat
      let ends := fun (i : Instr) (l : Load) st mem => ∃ t, exec i s = .next t ∧ t.mem = s.mem ∧ (∀ x ∈ t.dev.loads, x.pmask ≠ l.pmask) ∧
        ∀ q ∈ partsOf l.pmask, (t.dev.part q).load = loadReg mem 0xFF st 0
      (∀ l, d.crm.fwReady = true → d.loads.find? (fun x => x.fpid == h.fpid) = some l → h.answer = false →
        lk 0 d.crm.mgmtSeq (h.fpid * 65536 + h.src) < h.seq →
        (h.src ∉ l.results → ∃ t, exec (.msgLoadResult h 1) s = .next t ∧ t.mem = s.mem ∧
          { l with results := h.src :: l.results } ∈ t.dev.loads ∧ t.dev.parts = d.parts) ∧
        (∀ st, st ≠ 1 → ends (.msgLoadResult h st) l 15 h.src) ∧
        (∀ x, x < 0xFFFE → ends (.msgAbandon h x) l 15 x) ∧
        (d.mouldFp h.fpid = none → ends (.msgCancelled h) l 18 0xFFFF)) ∧
      (∀ m, Takes d h m → Held d m →
        (m.phase = 3 → ∃ t n, exec (.msgCommit h) s = .next t ∧ t.mem = s.mem ∧
          t.dev.moulds.find? (fun x => x.pmask == m.pmask) = some n ∧ n.phase = (if m.weights then 4 else 5) ∧
          ∀ q ∈ partsOf m.pmask, (t.dev.part q).load.toNat % 8 = n.phase) ∧
        (∀ t0, m.phase = 5 → m.t0 = 0 → now + 64 ≤ t0 → ∃ t k, exec (.msgStart h t0) s = .next t ∧ t.mem = s.mem ∧
          t.dev.mouldFp h.fpid = some k ∧ k.AsSent { m with t0 := t0 } ∧ ∀ q ∈ partsOf m.pmask, (t.dev.part q).t0 = BitVec.ofNat 64 t0)) ∧
      (∀ (p : PartId) (l : Load) (b : List Byte), d.loads.find? (fun x => lowPart x.pmask == p.val) = some l → l.image = some b →
        d.loads.find? (fun x => x.fpid == l.fpid) = some l →
        (d.imSelf b = some 0 → l.lastByte + imTimeout b ≤ now → ends (.mouldLoadTimeout p) l 16 0xFFFF) ∧
        (l.t0 ≠ 0 → l.t0 ≤ now + 64 → ends (.startLate p) l 17 0xFFFF)))

/-! ### Serving -/

/-- Submission entries, plans and moderated records (R308, R312, R314, R316, R324, R342, R343): an entry goes to the end of its
context's queue, which holds at most its entry count minus 1; a context's vector is signalled MODERATE ticks after the
oldest record not yet announced; a plan that member 0 sends is put into plan buffer STEP mod 2 of the member, with no other
byte of memory changed. -/
def Obligations.ServingQueues : Prop :=
  ∀ s : State,
    let d := s.dev
    let now := d.turn.now.toNat
    (∀ (f : FnId) (c : Fin 16) (k : Ctx), d.ctx f c = some k →
      (∀ e r p, 
        let y : Func := { d.func f with ctxs := up (d.func f).ctxs c { k with queue := k.queue ++ [⟨e, r, p⟩] } }
        let i : Instr := if cOpc e = 0x41 then .submitPrefix f c e r p else .submit f c e r p
        (k.queue.length + 1 < ringEntries k.qSize → ∃ t, exec i s = .next t ∧ OnlyFunc s t f y) ∧
        (ringEntries k.qSize ≤ k.queue.length + 1 → exec i s = .next s)) ∧
      (∀ n, k.since = some n →
        (n + k.moderate ≤ now → ∃ t, exec (.moderateExpire f c) s = .next t ∧ t.mem = s.mem ∧
          t.dev.ctx f c = some { k with since := none } ∧
          (bit (lk (0 : BitVec 128) (d.func f).msix k.vec).toNat 96 = false → .msix f k.vec ∈ t.dev.out) ∧
          (bit (lk (0 : BitVec 128) (d.func f).msix k.vec).toNat 96 = true → t.dev.out = d.out ∧
            (t.dev.func f).pba = (d.func f).pba ||| BitVec.ofNat 64 (2 ^ k.vec))) ∧
        (now < n + k.moderate → exec (.moderateExpire f c) s = .next s))) ∧
    (∀ h step rows m v, s.Canonical → Takes d h m → m.serve = some v → m.self ≠ 0 → h.src = 0 → rows.length = v.hdr.rows →
      d.winAsleep (v.hdr.planBuf step) (64 + 8 * v.hdr.rows) = false → ∃ t, exec (.msgPlan h step rows) s = .next t ∧ t.cave = s.cave ∧
        Written s t (v.hdr.planBuf step)
          (natLe step 8 ++ List.replicate 56 0 ++ rows.flatMap (fun (r : BitVec 64) => natLe r.toNat 8)) ∧
        t.dev.mouldFp h.fpid = some { m with serve := some { v with planIn := step + 1 } } ∧
        (d.net.ue = [] → t.dev.out = d.out))

/-- The sampling point (R312, R313, R329, R330, R401): on member 0 it builds the plan of the next step once, keeps it, puts it
in place and writes the records; a partition that drains and has no request gets a plan of PAD rows only. On a member of a
replicated partition a step that a STEP-class error marks is taken anew instead. -/
def Obligations.SamplingPointBuildsThePlan : Prop :=
  ∀ (p : PartId) (s : State) (m : Mould), s.dev.mouldLow p = some m → Held s.dev m → m.failover = none →
    m.alive m.self = true →
    let d := s.dev
    let n := (d.part p).next
    (∀ q ∈ partsOf m.pmask, (d.part q).next = n ∧ d.boundaryDue q m = true) →
    (∀ v, m.self = 0 → m.serve = some v → v.planned ≤ n →
      (m.replica = true → (∀ e ∈ d.errs.stepErrs, bit m.pmask e.1 = false) ∧ (0 < n → v.hdr.outStep s.mem (n - 1) = n - 1)) →
      ∃ t k w rows, exec (.samplingPoint p) s = .next t ∧ t.cave = s.cave ∧ t.dev.mouldLow p = some k ∧ k.serve = some w ∧
        w.hdr = v.hdr ∧ w.planned = n + 1 ∧ w.planIn = n + 1 ∧ w.recorded = n ∧ w.plans.head? = some ⟨n, rows⟩ ∧
        (v.active = [] → v.waiting = [] → v.drainSince = true → rows.length = v.hdr.rows ∧ ∀ r ∈ rows, rowKind r = 0)) ∧
    (m.replica = true → (∃ e ∈ d.errs.stepErrs, bit m.pmask e.1 = true) → m.rerun ≠ some (d.part p).step.toNat →
      ∃ t, exec (.samplingPoint p) s = .next t ∧ StoodBy s t m ∧ ToldAll t m 13 0xFFFF)

/-! ### Weights -/

/-- Loading a weight image (R292, R293, R296 to R298, R319): a manifest that fails a check ends the load with the status of that
check; one that passes gives the shards this member keeps. A slice shard is written at its target, no other byte changed,
and is verified by its digest; one that is damaged or does not come is recorded and asked for again, and after attempt 5 the
load fails with SHARD_FAILED and the partitions stop. -/
def Obligations.WeightLoad : Prop :=
  ∀ (p : PartId) (s : State) (m : Mould), s.dev.mouldLow p = some m → Held s.dev m →
    let d := s.dev
    let now := d.turn.now.toNat
    let gets := fun (i : Instr) (t : State) (z : WLoad) =>
      exec i s = .next t ∧ t.cave = s.cave ∧ ∃ k, t.dev.mouldLow p = some k ∧ k.wload = some z
    let missed := fun (i : Instr) (w : WLoad) (x : Shard) (code : Nat) => ∃ t z, gets i t z ∧ Recorded t code 0xFFFF [x.id, x.attempt] ∧
      (x.attempt < 5 → z.state = 2 ∧ z.repairs = satAdd w.repairs 1 ∧
        z.shard x.id = some { x with attempt := x.attempt + 1, since := now, arrived := false } ∧
        (m.self ≠ 0 → ∃ n, .mgmt (if x.attempt + 1 ≤ 3 then m.before else 0) 7 m.fpid n x.id false ∈ t.dev.out)) ∧
      (5 ≤ x.attempt → z.state = 5 ∧ z.status = 7 ∧ ∀ q ∈ partsOf m.pmask, (t.dev.part q).st = .stopped)
    (∀ b : List Byte,
      (m.self = 0 ∧ ∃ w, m.wload = some w ∧ w.state = 1 ∧ w.mani = [] ∧ ∀ x, w.src ≠ some (true, x)) ∨
      (m.self ≠ 0 ∧ (m.phase = 4 ∨ m.phase = 6) ∧ ∀ w, m.wload = some w → w.busy = false) →
      (wmFormatOk b = false → ∃ t z, gets (.weightManifestArrive p b) t z ∧ t.mem = s.mem ∧ z.state = 5 ∧ z.status = 2) ∧
      (wmFormatOk b = true → wmMatches m b = false →
        ∃ t z, gets (.weightManifestArrive p b) t z ∧ t.mem = s.mem ∧ z.state = 5 ∧ z.status = 3) ∧
      (wmFormatOk b = true → wmMatches m b = true → wmKind b = 0 →
        (d.crm.keysLoaded = false → ∃ t z, gets (.weightManifestArrive p b) t z ∧ t.mem = s.mem ∧ z.state = 1 ∧ z.waits = true) ∧
        (d.crm.keysLoaded = true → ∃ t z, gets (.weightManifestArrive p b) t z ∧ t.mem = s.mem ∧
          (∀ r, d.crm.weightKey b = some r → z.state = 5 ∧ z.status = r) ∧
          (d.crm.weightKey b = none → d.targetsOk m b = false → z.state = 5 ∧ z.status = 6) ∧
          (d.crm.weightKey b = none → d.targetsOk m b = true → z.shards = wmKept b m.self ∧ z.mani = b ∧ z.vslot = 0x1FF)))) ∧
    (∀ w, m.wload = some w → w.taking = true →
      (∀ (id : Nat) (x : Shard) (bs : List Byte), w.shard id = some x → x.ok = false →
        (x.cave = false → d.winAsleep x.target x.len = false → (∀ y, w.src ≠ some (true, y)) →
          (bs.length = x.len → shake256 bs = x.digest → s.Canonical →
            ∃ t z, gets (.shardComplete p id bs) t z ∧ Written s t x.target bs ∧
              z.shard id = some { x with arrived := true, ok := true }) ∧
          (bs.length = x.len → shake256 bs ≠ x.digest → missed (.shardComplete p id bs) w x 0x60)) ∧
        (x.cave = true → x.attempt ≠ 0 → bs ≠ [] → ∃ t, exec (.shardComplete p id bs) s = .next t ∧ t.mem = s.mem ∧ t.cave = s.cave ∧
          ∃ r ∈ t.dev.pwr.nv, r.kind = .caveShard p id x.target (bs.take x.len)) ∧
        (x.attempt ≠ 0 → x.attempt < 6 → x.since + m.timeout ≤ now → missed (.shardAttemptTimeout p id) w x 0x61)) ∧
      (∀ x, w.shard x.id = some x →
        ((w.shards.filter (fun y => !y.arrived && !y.ok && y.attempt == 0)) = [x] → w.lastByte + m.timeout ≤ now →
          missed (.weightLoadTimeout p) w x 0x61) ∧
        (w.ended = false → (∀ y ∈ w.shards, y.cave = false) → (w.shards.filter (fun y => !y.arrived && y.attempt == 0)) = [x] →
          missed (.weightEndMarker p) w x 0x61)) ∧
      (w.ended = false → (∀ y ∈ w.shards, y.cave = false ∧ y.arrived = true) →
        ∃ t, gets (.weightEndMarker p) t { w with ended := true, lastByte := now } ∧ t.mem = s.mem ∧
          ∀ u, m.outPort = some u → .loadEnd u ∈ t.dev.out))

/-- Messages of a weight load (R297, R298): a verified shard goes to the member that asks for it, from slices or from the Cave,
and another request goes on towards the source with its SEQ, where member 0 has the bytes sent from the image's source;
member 0 counts WEIGHTS_OK and with those of all DEVICES members commits the image, which takes a BASE load to READY; a
failed shard, ABANDON and COMMIT end the load with their status. -/
def Obligations.WeightMessages : Prop :=
  ∀ (h : MHdr) (s : State) (m : Mould) (w : WLoad), Takes s.dev h m → Held s.dev m → m.wload = some w →
    let d := s.dev
    let gets := fun (i : Instr) (t : State) (k : Mould) (z : WLoad) =>
      exec i s = .next t ∧ t.mem = s.mem ∧ t.cave = s.cave ∧ t.dev.mouldFp h.fpid = some k ∧ k.wload = some z
    (∀ id a : Nat,
      (∀ x, w.shard id = some x → x.ok = true → a ≤ 3 → ∃ t k, gets (.msgShardRequest h id a) t k w ∧
        .shard h.src m.fpid id (d.shardBytes s.mem s.cave x).2 ∈ t.dev.out) ∧
      ((∀ x, w.shard id = some x → x.ok = false ∨ 3 < a) →
        (m.self ≠ 0 → ∃ t k, gets (.msgShardRequest h id a) t k w ∧ .mgmt m.before 7 m.fpid h.seq id false ∈ t.dev.out) ∧
        (m.self = 0 → ∀ y, (wmShards w.mani).find? (fun z => z.id == id) = some y →
          (∀ fn addr len, w.src = some (false, fn, addr, len) → ∃ t k,
            gets (.msgShardRequest h id a) t k { w with asked := w.asked ++ [(h.src, id)] } ∧
            .hostRead fn (addr + wmSize w.mani + y.source) y.len ∈ t.dev.out) ∧
          (∀ fn off len, w.src = some (true, fn, off, len) → y.cave = false → ∃ t k, gets (.msgShardRequest h id a) t k w ∧
            .shard h.src m.fpid id (s.cave.bytes (off + wmSize w.mani + y.source) y.len) ∈ t.dev.out)))) ∧
    (m.self = 0 → ∀ (p : PartId) (id : Nat) (bs : List Byte) (j : Nat), d.mouldLow p = some m → (j, id) ∈ w.asked → bs ≠ [] →
      w.shard id = none → ∃ t z, exec (.shardComplete p id bs) s = .next t ∧ t.mem = s.mem ∧ .shard j m.fpid id bs ∈ t.dev.out ∧
        (t.dev.mouldLow p).bind (fun k => k.wload) = some z ∧ ∀ x ∈ z.asked, x.2 ≠ id) ∧
    (m.self = 0 → w.busy = true →
      let oks := if h.src ∈ w.oks then w.oks else h.src :: w.oks
      let all := ∀ j, j < m.devices → j ∈ oks
      (w.state ≠ 3 ∨ ¬ all → ∃ t k, gets (.msgWeightsOk h) t k { w with oks := oks } ∧ k.phase = m.phase) ∧
      (w.state = 3 → all → ∃ t k z, gets (.msgWeightsOk h) t k z ∧ z.state = 4 ∧ z.status = 1 ∧ PassedOn t m 10 0 ∧
        (w.kind = 0 → k.base = w.digest ∧ (m.phase = 4 → k.phase = 5 ∧ ∀ q ∈ partsOf m.pmask,
          (t.dev.part q).load = loadReg 0xFFFF 0xFF 1 5))) ∧
      ∀ id, ∃ t k z, gets (.msgShardFailed h id) t k z ∧ z.state = 5 ∧ z.status = 7 ∧ ToldAll t m 10 1) ∧
    (w.state = 3 → ∃ t k z, gets (.msgWeightCommit h) t k z ∧ z.state = 4 ∧ z.status = 1 ∧ k.images = m.images ++ [z]) ∧
    (w.busy = true → ∃ t k z, gets (.msgWeightAbandon h) t k z ∧ z.state = 5 ∧ z.status = 7)

/-! ### Members of a fabric partition -/

/-- Messages of class MGMT (R283, R286, R288, R361): a message for an FPID that is not loaded, or with a SEQ not above its
sender's last, is counted and does nothing else. A taken STEPDONE is collected on member 0, which with the last one tells GO
to all; GO opens the next boundary, SWITCH notes the epoch's change and HOLD the stop, and both are passed on; member 0
counts the members that have switched, and with the last one the SWITCH command completes, SWITCH_LATE where one was late. -/
def Obligations.MemberMessages : Prop :=
  ∀ (h : MHdr) (st : Nat) (s : State),
    let d := s.dev
    (∀ i : Instr, i ∈ [.msgStepdone h st, .msgGo h st, .msgSwitch h st, .msgHold h st, .msgHeld h, .msgReady h st, .msgCommit h] →
      (d.crm.fwReady = false → exec i s = .next s) ∧
      (d.crm.fwReady = true →
        ((∀ m ∈ d.moulds, m.fpid ≠ h.fpid) ∧ (∀ l ∈ d.loads, l.fpid ≠ h.fpid)) ∨
        (h.answer = false ∧ h.seq ≤ lk 0 d.crm.mgmtSeq (h.fpid * 65536 + h.src)) →
        exec i s = .next { s with dev := { d with crm := { d.crm with mgmtDrop := satAdd d.crm.mgmtDrop 1 } } })) ∧
    (∀ m, Takes d h m →
      let becomes := fun (i : Instr) (t : State) (k : Mould) =>
        exec i s = .next t ∧ t.mem = s.mem ∧ t.cave = s.cave ∧ t.dev.parts = d.parts ∧ t.dev.mouldFp h.fpid = some k
      let passes := fun (i : Instr) (t : State) (k : Mould) =>
        exec i s = .next t ∧ t.mem = s.mem ∧ t.cave = s.cave ∧ t.dev.parts = d.parts ∧ ∃ n, t.dev.mouldFp h.fpid = some n ∧ n.AsSent k
      (m.self = 0 → m.replica = true → (h.src, st) ∉ m.stepDone →
        let got := (h.src, st) :: m.stepDone
        let all := ∀ i, i < m.devices → (i, st) ∈ got ∨ m.alive i = false
        (¬ all → ∃ t, becomes (.msgStepdone h st) t { m with stepDone := got } ∧ t.dev.out = d.out) ∧
        (all → ∃ t, passes (.msgStepdone h st) t
            { m with stepDone := m.stepDone.filter (fun e => e.2 ≠ st), go := max m.go (st + 1) } ∧ ToldAll t m 12 st)) ∧
      (∃ t, becomes (.msgGo h st) t { m with go := max m.go (st + 1) } ∧ t.dev.out = d.out) ∧
      (m.self ≠ 0 → ∃ t, passes (.msgSwitch h st) t { m with switchAt := some st } ∧ PassedOn t m 19 st) ∧
      (∀ r, m.self = 0 → m.switching = some r → d.mouldOf (lowPart m.pmask) = some m →
        let got := if h.src ∈ r.done then r.done else h.src :: r.done
        let late := r.late || decide (r.step < st)
        let all := ∀ i, i < m.devices → i ∈ got ∨ m.alive i = false
        (¬ all → ∃ t, becomes (.msgSwitch h st) t { m with switching := some { r with done := got, late := late } }) ∧
        (all → ∃ t, becomes (.msgSwitch h st) t { m with switching := none } ∧
          (CanAnswer d r.fn → Completed t r.fn r.cid (if late then 7 else 0) 0))) ∧
      (m.hold = none → ∃ t, passes (.msgHold h st) t
        { m with hold := some ⟨st, [], 0, 0, false, [], d.turn.now.toNat⟩ } ∧ PassedOn t m 16 st) ∧
      (m.hold ≠ none → exec (.msgHold h st) s = .next { s with dev := d.heard h }))

/-- Failover (R287, R401, R402): when a board link is DOWN after its retries, when LOST names a member, or when a survivor is
not READY within LOAD_TIMEOUT, the lost member's live partner takes its traffic and every core of the Mould goes back to its
start, but the lost member only notes it; with no live partner the Mould's partitions stop with a record of code 0x50. The
coordinator collects READY, also one that comes early, and with the last one every partition takes the lowest step reported
anew. -/
def Obligations.FailoverRuns : Prop :=
  ∀ s : State,
    let d := s.dev
    let now := d.turn.now.toNat
    let loses := fun (i : Instr) (found : Dev → Option Mould) (m : Mould) (x : Nat) =>
      (∀ y, m.livePartner x = some y → ∃ t k, exec i s = .next t ∧ StoodBy s t m ∧ found t.dev = some k ∧ TakesOver m k x y) ∧
      (m.livePartner x = none → ∃ t, exec i s = .next t ∧ t.mem = s.mem ∧ t.cave = s.cave ∧ Recorded t 0x50 0xFFFF [x, 0, 1] ∧
        ∀ q ∈ partsOf m.pmask, (t.dev.part q).st = .stopped)
    (∀ (p : PartId) (x : Nat) (m : Mould), d.mouldLow p = some m → x < m.devices → x ≠ m.self → m.alive x = true →
      (m.replica = true → m.phase = 6 → (∃ u, m.linkTo x = some u ∧ (d.port u).st = .down ∧ (d.port u).lost = true) →
        loses (.memberLost p x) (fun e => e.mouldLow p) m x ∧ ∀ t, exec (.memberLost p x) s = .next t → ToldAll t m 13 x) ∧
      (∀ f, m.failover = some f → m.coordinator = m.self → (∀ e ∈ f.ready, e.1 ≠ x) → f.since + m.timeout ≤ now →
        loses (.survivorTimeout p x) (fun e => e.mouldLow p) m x ∧ ∀ t, exec (.survivorTimeout p x) s = .next t → ToldAll t m 13 x)) ∧
    (∀ (h : MHdr) (m : Mould), Takes d h m →
      (∀ x, x ≠ 0xFFFF → x ≠ m.self → m.alive x = true → loses (.msgLost h x) (fun e => e.mouldFp h.fpid) m x) ∧
      (∀ y, m.alive m.self = true → m.self ≠ 0xFFFF → m.livePartner m.self = some y → ∃ t k, exec (.msgLost h m.self) s = .next t ∧
        t.mem = s.mem ∧ t.dev.cores = d.cores ∧ t.dev.mouldFp h.fpid = some k ∧ TakesOver m k m.self y ∧
        (m.self = 0 → ∀ f c x, t.dev.ctx f c = some x → x.part ≠ lowPart m.pmask)) ∧
      (m.failover = none → m.coordinator = m.self → ∀ st, ∃ t, exec (.msgReady h st) s = .next t ∧ t.mem = s.mem ∧
        t.dev.parts = d.parts ∧ t.dev.mouldFp h.fpid = some { m with early := (h.src, st) :: m.early.filter (fun e => e.1 ≠ h.src) }) ∧
      (∃ t, exec (.msgLost h 0xFFFF) s = .next t ∧ StoodBy s t m) ∧
      (∀ f, m.failover = some f →
        (∀ st at_, ∃ t k, exec (.msgRestart h st at_) s = .next t ∧ t.cave = s.cave ∧ t.dev.mouldFp h.fpid = some k ∧ k.failover = none ∧
          k.stepDone = [] ∧ TakenAnew s t m st at_) ∧
        (∀ st, m.coordinator = m.self →
          let l := (h.src, st) :: f.ready.filter (fun e => e.1 ≠ h.src)
          ((∃ j, j < m.devices ∧ m.alive j = true ∧ ∀ e ∈ l, e.1 ≠ j) → ∃ t, exec (.msgReady h st) s = .next t ∧ t.mem = s.mem ∧
            t.dev.parts = d.parts ∧ t.dev.mouldFp h.fpid = some { m with failover := some { f with ready := l } }) ∧
          ((∀ j, j < m.devices → m.alive j = true → ∃ e ∈ l, e.1 = j) → ∃ t k r, exec (.msgReady h st) s = .next t ∧ t.cave = s.cave ∧
            t.dev.mouldFp h.fpid = some k ∧ k.failover = none ∧ ToldAll t m 15 r ∧ (∃ at_, now + 64 ≤ at_ ∧ TakenAnew s t m r at_) ∧
            (∀ e ∈ l, r ≤ e.2) ∧ ∃ e ∈ l, r = e.2))))

/-- Holds and state copies (R288, R289, R341): a member that stands before step S with no packet of the FPID left reports HELD;
member 0 collects them and with the last one clears the hold everywhere, every partition takes step S anew, and the HOLD
command completes OK; HOLD_TIMEOUT clears it with the grid as it was, an overdue boundary coming at the grid's next point,
and completes HOLD_TIMEOUT; RESUME with a tick of 0 clears it, with another takes step S at that tick. The bytes of a state
copy are written during a hold and until its step S is taken only, exactly where it says. -/
def Obligations.HoldsAndStateCopies : Prop :=
  ∀ s : State,
    let d := s.dev
    let now := d.turn.now.toNat
    let ended := fun (i : Instr) (found : Dev → Option Mould) (m : Mould) (x : Hold) => ∃ t k at_, exec i s = .next t ∧ t.mem = s.mem ∧
      t.cave = s.cave ∧ found t.dev = some k ∧ k.hold = none ∧ now + 64 ≤ at_ ∧
      ToldAll t m 18 0 ∧ TakenAnew s t m x.step at_ ∧
      (x.host = true → CanAnswer d x.fn → Completed t x.fn x.cid 0 0)
    let goesOn := fun (t : State) (m : Mould) => ∀ q ∈ partsOf m.pmask,
      let b := d.part q
      let n := b.nominal b.next
      (t.dev.part q).next = b.next ∧ (t.dev.part q).t0 = b.t0 ∧
      (b.period ≠ 0 → n ≤ now → now < (t.dev.part q).earliest ∧ (t.dev.part q).earliest ≤ now + b.period.toNat ∧
        ∃ i, (t.dev.part q).earliest = n + b.period.toNat * i)
    (∀ (p : PartId) (m : Mould) (x : Hold), d.mouldLow p = some m → m.hold = some x →
      (m.quiet = false → d.fpQuiet m.fpid = true → (∀ q ∈ partsOf m.pmask, (d.part q).st = .stopped ∧ (d.part q).next = x.step) →
        (m.self ≠ 0 → ∃ t n, exec (.holdQuiet p) s = .next t ∧ t.mem = s.mem ∧ t.dev.parts = d.parts ∧
          (∃ k, t.dev.mouldLow p = some k ∧ k.AsSent { m with quiet := true }) ∧ .mgmt 0 17 m.fpid n x.step false ∈ t.dev.out) ∧
        (m.self = 0 → (∀ j, j < m.devices → m.alive j = true → j = 0 ∨ j ∈ x.held) →
          ended (.holdQuiet p) (fun e => e.mouldLow p) m x)) ∧
      (m.self = 0 → x.since + m.timeout ≤ now → (d.part p).nominal x.step + m.timeout ≤ now →
        ∃ t k, exec (.holdTimeout p) s = .next t ∧ t.mem = s.mem ∧ t.cave = s.cave ∧ goesOn t m ∧
          t.dev.mouldLow p = some k ∧ k.hold = none ∧ ToldAll t m 18 0 ∧
          (x.host = true → CanAnswer d x.fn → Completed t x.fn x.cid 8 0))) ∧
    (∀ (h : MHdr) (m : Mould), Takes d h m →
      (∀ x, m.hold = some x →
        (m.self = 0 → ((∀ j, j < m.devices → m.alive j = true → j = h.src ∨ j ∈ x.held) →
          ended (.msgHeld h) (fun e => e.mouldFp h.fpid) m x) ∧
          ((∃ j, j < m.devices ∧ m.alive j = true ∧ j ≠ h.src ∧ j ∉ x.held) → ∃ t y, exec (.msgHeld h) s = .next t ∧ t.mem = s.mem ∧
            t.dev.parts = d.parts ∧ t.dev.mouldFp h.fpid = some { m with hold := some { x with held := y } } ∧
            ∀ j, j ∈ y ↔ j = h.src ∨ j ∈ x.held)) ∧
        (∀ at_ l, ∃ t k, exec (.msgResume h at_ l) s = .next t ∧ t.mem = s.mem ∧ t.cave = s.cave ∧ t.dev.mouldFp h.fpid = some k ∧
          k.hold = none ∧ (at_ = 0 → goesOn t m) ∧ (at_ ≠ 0 → TakenAnew s t m x.step at_))) ∧
      (m.hold ≠ none ∨ (d.part (lowPart m.pmask)).restartAt ≠ none → ∀ a bs, s.Canonical → bs ≠ [] → d.inMould m a bs.length = true →
        d.winAsleep a bs.length = false → ∃ t, exec (.msgStateCopy h a bs) s = .next t ∧ t.cave = s.cave ∧ Written s t a bs) ∧
      (m.hold = none → (d.part (lowPart m.pmask)).restartAt = none → ∀ a bs,
        exec (.msgStateCopy h a bs) s = .next { s with dev := d.heard h }))

/-! ### Ports -/

/-- Packets at the port units (R252, R260, R277 to R279, R281, R282, R284, R287): a message taken off the die is stamped with
the send epoch, goes to the member the table names and waits in order while the port may not send; a muted member's is
counted and dropped, one without a destination is recorded. An arriving packet that fails a check of Table 15-1 is recorded
with that check's detail and writes nothing; one for another slot of the board is relayed; one for this member writes
exactly its bytes and credits their count, a header-only one only its count; a message of class MGMT goes to firmware. -/
def Obligations.FabricPackets : Prop :=
  ∀ (u : PortId) (s : State),
    let d := s.dev
    let q := lk [] d.net.unitIn (u + 4)
    (∀ f r rest m k, gather q q = some (f :: r, rest) → d.mouldOf f.ptag = some m → f.fab = some k → k.cls ≠ 1 →
      let data := if f.amount.isSome then [] else (f :: r).flatMap (fun g => natLe g.data.toNat 64)
      let pk : Packet := { cls := k.cls, addr := k.addr, epoch := m.epoch, fmt := 0, fpid := m.fpid, syn := k.syn, src := m.self,
                           dst := 0, tree := 0, data := data, amount := f.amount }
      let tab := m.tab m.epoch
      let drops := (tab.rec_ m.self).muted = true ∧ k.cls < 2
      (drops → ∃ t, exec (.portUnitTake u) s = .next t ∧ t.dev.ports = d.ports ∧ lk [] t.dev.net.unitIn (u + 4) = rest ∧
        lk (0 : BitVec 32) t.dev.fabDrop 5 = satAdd (lk 0 d.fabDrop 5) 1) ∧
      (¬ drops → m.destOf tab u k.addr = none → ∃ t, exec (.portUnitTake u) s = .next t ∧ t.dev.ports = d.ports ∧
        lk [] t.dev.net.unitIn (u + 4) = rest ∧ Recorded t 0x50 f.src [0xFFFF]) ∧
      (¬ drops → ∀ x, m.destOf tab u k.addr = some x → ∃ t n, exec (.portUnitTake u) s = .next t ∧ t.mem = s.mem ∧
        lk [] t.dev.net.unitIn (u + 4) = rest ∧ t.dev.mouldOf f.ptag = some n ∧ lk 0 n.vlast m.epoch = d.turn.now ∧
        ((d.port u).st ≠ .admitted → (∀ o ∈ d.offers, o.taken = false) → (t.dev.port u).sendQ = (d.port u).sendQ ++ [{ pk with dst := x }]))) ∧
    (∀ pk : Packet, (d.port u).done.find? (fun k => k.cls == pk.cls) = some pk → (d.port u).st = .admitted → pk.off = 0 →
      let rejects := fun (what r : Nat) => ∃ t, exec (.fabricPacketArrive u pk) s = .next t ∧ t.mem = s.mem ∧
        Recorded t 0x20 0xFFFF [what, pk.src, r] ∧ lk (0 : BitVec 32) t.dev.fabDrop r = satAdd (lk 0 d.fabDrop r) 1 ∧
        (t.dev.port u).dropCnt = satAdd (d.port u).dropCnt 1 ∧ (t.dev.port u).done = (d.port u).done.erase pk
      (d.mouldFp pk.fpid = none → rejects pk.fpid 0) ∧
      (∀ m, d.mouldFp pk.fpid = some m →
        (d.portAdmits u pk.fpid pk.src = false → rejects pk.fpid 0) ∧
        (d.portAdmits u pk.fpid pk.src = true → (m.tab pk.epoch).valid = true →
          (pk.dst ≠ m.self → m.boardOf pk.dst = m.boardOf m.self → ∀ v, m.linkTo pk.dst = some v → (d.port v).st ≠ .admitted →
            (∀ o ∈ d.offers, o.taken = false) → ∃ t, exec (.fabricPacketArrive u pk) s = .next t ∧ t.mem = s.mem ∧
              (t.dev.port v).sendQ = (d.port v).sendQ ++ [{ pk with total := 0, nfl := 0 }]) ∧
          (pk.dst = m.self →
            (d.fabTarget m pk = none → rejects pk.addr 1) ∧
            (∀ x, d.fabTarget m pk = some x →
              (d.fabSyn m pk.syn = false → rejects pk.syn 2) ∧
              (d.fabSyn m pk.syn = true →
                (pk.cls = 1 → d.fabTree m u pk.tree = none → rejects pk.tree 3) ∧
                (pk.cls = 3 → ∃ t, exec (.fabricPacketArrive u pk) s = .next t ∧ t.mem = s.mem ∧ t.dev.cores = d.cores ∧
                  (t.dev.port u).done = (d.port u).done.erase pk) ∧
                (∀ n, pk.cls ≠ 3 → pk.cls ≠ 1 ∨ d.fabTree m u pk.tree ≠ none → pk.amount = some n → (∀ j, x = .inl j → d.atRetention j = false) → pk.syn < 24576 →
                  (lk (0 : BitVec 32) (d.core (pk.syn / 32)).syn (pk.syn % 32)).toNat + n < 2 ^ 32 →
                  ∃ t, exec (.fabricPacketArrive u pk) s = .next t ∧ t.mem = s.mem ∧
                    (lk (0 : BitVec 32) (t.dev.core (pk.syn / 32)).syn (pk.syn % 32)).toNat =
                      (lk (0 : BitVec 32) (d.core (pk.syn / 32)).syn (pk.syn % 32)).toNat + n) ∧
                (∀ j, pk.cls ≠ 1 → pk.cls ≠ 3 → pk.amount = none → pk.data.length % 64 = 0 → x = .inl j → s.Canonical → d.net.ue = [] → pk.syn < 24576 →
                  (d.atRetention j = true → exec (.fabricPacketArrive u pk) s = .next s) ∧
                  (d.atRetention j = false →
                    (lk (0 : BitVec 32) (d.core (pk.syn / 32)).syn (pk.syn % 32)).toNat + pk.data.length < 2 ^ 32 →
                    ∃ t, exec (.fabricPacketArrive u pk) s = .next t ∧ Written s t (pk.addr % 2 ^ 34) pk.data ∧
                      (lk (0 : BitVec 32) (t.dev.core (pk.syn / 32)).syn (pk.syn % 32)).toNat =
                        (lk (0 : BitVec 32) (d.core (pk.syn / 32)).syn (pk.syn % 32)).toNat + pk.data.length))))))))

/-- Board links (R258, R262, R264, Table 14-5): a flit with a bad CRC is counted and, but for a CTRL flit, asked for again; the
expected one is taken and the next is expected; one ahead asks for the expected one again, once, and one behind is dropped.
NAK and the replay timer send the held flits again from that one on, unchanged; the 16th replay in a row from one SEQ begins
training again, and 1 ms later the buffer is lost, recorded, and the partitions with a flit in it stop. A quarantined port
sends none of these. -/
def Obligations.BoardLinkRetry : Prop :=
  ∀ (u : PortId) (s : State), u.val < 7 →
    let d := s.dev
    let x := d.port u
    let now := d.turn.now.toNat
    let nak := Out.flit u (x.stamp false (ctrlFlit false 3 0 x.expect.toNat 0 []))
    let resends := fun (i : Instr) (pre : List (BitVec 2048 × Nat)) (e : BitVec 2048 × Nat) (l : List (BitVec 2048 × Nat)) =>
      let n := if x.replayRuns ≠ 0 ∧ x.replaySeq = heldSeq e then x.replayRuns + 1 else 1
      ∃ t, exec i s = .next t ∧ t.mem = s.mem ∧ (t.dev.port u).replay = pre ++ e :: l ∧ (t.dev.port u).retryCnt = x.retryCnt + 1 ∧
        (n ≠ 16 → (t.dev.port u).st = x.st ∧ (t.dev.port u).replayRuns = n ∧ (t.dev.port u).replaySeq = heldSeq e ∧
          ∀ g ∈ e :: l, .flit u (x.stamp false g.1) ∈ t.dev.out) ∧
        (n = 16 → (t.dev.port u).st = .training ∧ (t.dev.port u).step = 1 ∧ (t.dev.port u).retryExh = true ∧
          (t.dev.port u).retrain = some now)
    (x.talks = true → ∀ flit : BitVec 2048,
      let typ := flitNum flit 0 1 % 16
      let good := (crc32c (natLe flit.toNat 252)).toNat = flitNum flit 0xFC 4
      let ahead := (BitVec.ofNat 12 (flitNum flit 2 2) - x.expect).toNat
      (¬ good → ∃ t, exec (.flitReceive u flit) s = .next t ∧
        OnlyPort s { t with dev := { t.dev with out := d.out } } u
          { x with crcCnt := x.crcCnt + 1, rxRetry := x.rxRetry || typ != 3 } ∧
        t.dev.out = (if typ ≠ 3 ∧ x.rxRetry = false ∧ x.st ≠ .quarantined then [nak] else []) ++ d.out) ∧
      (good → ∃ t, exec (.flitReceive u flit) s = .next t ∧ t.mem = s.mem ∧
        (t.dev.port u).xoffRx = BitVec.ofNat 4 (flitNum flit 1 1) ∧
        (typ = 1 ∨ typ = 2 →
          (ahead = 0 → (t.dev.port u).expect = x.expect + 1 ∧ (t.dev.port u).rxRetry = false) ∧
          (ahead ≠ 0 → (t.dev.port u).expect = x.expect ∧ (t.dev.port u).done = x.done ∧ (t.dev.port u).rx = x.rx ∧
            (t.dev.port u).rxRetry = (x.rxRetry || decide (ahead < 2048)) ∧
            (ahead < 2048 → x.rxRetry = false → x.st ≠ .quarantined → nak ∈ t.dev.out))) ∧
        (typ ≠ 1 → typ ≠ 2 → (t.dev.port u).expect = x.expect ∧ (t.dev.port u).done = x.done))) ∧
    (x.carries = false → (∀ n, exec (.nakReceive u n) s = .next s) ∧ exec (.replayTimeout u) s = .next s) ∧
    (x.carries = true → x.retrain = none →
      (∀ pre e l, x.replay = pre ++ e :: l → (∀ g ∈ pre, heldSeq g ≠ heldSeq e ∧ (heldSeq e - heldSeq g).toNat < 2048) →
        resends (.nakReceive u (heldSeq e)) pre e l) ∧
      (∀ e l, x.replay = e :: l → resends (.replayTimeout u) [] e l ∧
        (x.rxRetry = true → ∀ t, exec (.replayTimeout u) s = .next t → nak ∈ t.dev.out)) ∧
      (x.replay = [] → x.rxRetry = true →
        exec (.replayTimeout u) s = .next { s with dev := { d with out := nak :: d.out } })) ∧
    (∀ n, x.retrain = some n → n + 6250 ≤ now → ∃ t a b, exec (.retrainWindowExpire u) s = .next t ∧ t.mem = s.mem ∧
      (t.dev.port u).st = .down ∧ (t.dev.port u).replay = [] ∧ (t.dev.port u).lost = true ∧ Recorded t 0x40 0xFFFF [a, b] ∧
      ∀ m ∈ d.moulds, (∃ e ∈ x.replay, e.2 = m.fpid) → ∀ q ∈ partsOf m.pmask, (t.dev.part q).st = .stopped)

/-- Ethernet ports (R266 to R268): a frame with a bad checksum is counted and dropped; the expected segment is taken and
acknowledged, one ahead or damaged is asked for again; an acknowledgement frees what it covers; the segment timer sends
again from the oldest on, and the 16th time in a row refuses the peer's traffic and repeats the identity exchange; the
traffic of a peer refused for 1 ms is lost and recorded; a PFC frame holds or frees the class of its priority, and is
repeated while less than 1 MiB is free; what is held is not sent again either, and control flits are not sequenced. -/
def Obligations.EthernetSegments : Prop :=
  ∀ (u : PortId) (s : State), 7 ≤ u.val →
    let d := s.dev
    let x := d.port u
    let now := d.turn.now.toNat
    (x.identified = true → ∀ (ip : Nat) (v : BitVec 128),
      let p := x.seg ip
      let answers := fun (t : State) (nak : Bool) (last : BitVec 32) => x.st ≠ .quarantined → ∀ fr ∈ d.ctrlFrames u, fr.dst = ip →
        .datagram u fr (segHdr p.rev true nak p.next last 0) [] ∈ t.dev.out
      (∀ fs, ∃ t, exec (.datagramReceive u ip false v fs) s = .next t ∧ OnlyPort s t u { x with crcCnt := x.crcCnt + 1 }) ∧
      (v.toNat % 2 ^ 16 = 0x5253 → p.refused = none → bit v.toNat 25 = false →
        (bit v.toNat 24 = true → v.toNat / 2 ^ 96 % 256 = 0 → x.sendQ = [] → ∃ t l, exec (.datagramReceive u ip true v []) s = .next t ∧
          ((t.dev.port u).seg ip).unacked = l ∧ (∃ r, p.unacked = r ++ l ∧
            ∀ e ∈ r, (BitVec.ofNat 32 (v.toNat / 2 ^ 64) - e.seq).toNat < 2 ^ 31) ∧
          ∀ e, l.head? = some e → 2 ^ 31 ≤ (BitVec.ofNat 32 (v.toNat / 2 ^ 64) - e.seq).toNat) ∧
        (∀ f, v.toNat / 2 ^ 96 % 256 = 1 →
          let cls := flitNum f 0 1 / 16 % 4
          let ahead := (BitVec.ofNat 32 (v.toNat / 2 ^ 32) - p.expect).toNat
          let typ := flitNum f 0 1 % 16
          let good := (crc32c (natLe f.toNat 252)).toNat = flitNum f 0xFC 4
          (2 ≤ cls → lk 0 x.rxUsed cls + 256 ≤ 2 ^ 18) → ahead < 2 ^ 31 →
          (good → typ = 0 ∨ typ = 3 → ∃ t, exec (.datagramReceive u ip true v [f]) s = .next t ∧ t.mem = s.mem ∧
            ((t.dev.port u).seg ip).expect = p.expect ∧ (t.dev.port u).done = x.done ∧ answers t false (p.expect - 1)) ∧
          (good → typ ≠ 0 → typ ≠ 3 → ahead = 0 → ∃ t, exec (.datagramReceive u ip true v [f]) s = .next t ∧ t.mem = s.mem ∧
            ((t.dev.port u).seg ip).expect = p.expect + 1 ∧ answers t false p.expect) ∧
          (¬ good ∨ (typ ≠ 0 ∧ typ ≠ 3 ∧ ahead ≠ 0) → ∃ t, exec (.datagramReceive u ip true v [f]) s = .next t ∧ t.mem = s.mem ∧
            ((t.dev.port u).seg ip).expect = p.expect ∧ answers t true (p.expect - 1)))) ∧
      (∀ e l, x.st ≠ .quarantined → p.refused = none → p.unacked = e :: l →
        let n := if p.resends ≠ 0 ∧ p.from_ = e.seq then p.resends + 1 else 1
        ∃ t, exec (.segmentTimeout u ip) s = .next t ∧ t.mem = s.mem ∧ (t.dev.port u).retryCnt = x.retryCnt + 1 ∧
          ((t.dev.port u).seg ip).unacked = e :: l ∧
          (n ≠ 16 → ((t.dev.port u).seg ip).resends = n ∧ ((t.dev.port u).seg ip).from_ = e.seq ∧
            (bit x.xoffRx.toNat (flitNum e.flit 0 1 / 16 % 4) = false → ∃ g r, .datagram u e.frame g (e.flit :: r) ∈ t.dev.out) ∧
            (bit x.xoffRx.toNat (flitNum e.flit 0 1 / 16 % 4) = true → t.dev.out = d.out)) ∧
          (n = 16 → ((t.dev.port u).seg ip).refused = some now ∧ (t.dev.port u).retryExh = true ∧
            IdentitySent t u))) ∧
    (∀ p, x.peers.find? (fun p => p.refused.any (fun k => decide (k + 6250 ≤ now)) && !p.unacked.isEmpty) = some p →
      ∃ t a, exec (.retrainWindowExpire u) s = .next t ∧ t.mem = s.mem ∧
        ((t.dev.port u).seg p.peer).unacked = [] ∧ Recorded t 0x40 0xFFFF [a, p.peer]) ∧
    (x.talks = true →
      (∀ prio quanta, ∃ t, exec (.pfcFrameReceive u prio quanta) s = .next t ∧ t.mem = s.mem ∧
        ∀ c, c < 4 → bit (t.dev.port u).xoffRx.toNat c =
          if c < 2 ∧ x.pcp c = prio then decide (quanta ≠ 0) else bit x.xoffRx.toNat c) ∧
      (∀ c : Fin 2, bit x.pfc.toNat c = true → 2 ^ 20 < lk 0 x.rxUsed c →
        exec (.pfcRepeat u c) s = .next { s with dev := { d with out := .pfc u (x.pcp c) 0xFFFF :: d.out } }))

/-- Training and admission (R254, R261, R269 to R273, R394, Table 14-8): a DOWN port that nothing holds down tries again at step
1, but not one that lost its buffer; loss of the link and RETRAIN go back to step 1, and a step 1 or 2 that fails and
DISABLE go DOWN, and what the port holds to be sent stays; with PCS alignment it goes on to step 3, or with firmware running
to step 4, sending its identity. Identity blocks are acknowledged and settle the revision, or quarantine the port with code
0x42; eight probes give LNK_RTT; a board link over 600 ns fails with 0x43 and goes DOWN, else the neighbour check admits or
quarantines the port. An Ethernet port judges each peer by its own eight replies. A REFUSE makes the offers on the port
stand refused. -/
def Obligations.LinkTraining : Prop :=
  ∀ (u : PortId) (s : State),
    let d := s.dev
    let x := d.port u
    let now := d.turn.now.toNat
    let trains := fun (i : Instr) => ∃ t y, exec i s = .next t ∧ t.mem = s.mem ∧ t.dev.port u = y ∧ y.st = .training ∧ y.step = 1 ∧
      y.sendQ = x.sendQ ∧ y.replay = x.replay ∧ y.peer = none ∧ ∀ v, v ≠ u.val → t.dev.port v = d.port v
    let down := fun (i : Instr) => ∃ t y, exec i s = .next t ∧ t.mem = s.mem ∧ t.dev.port u = y ∧ y.st = .down ∧ y.sendQ = x.sendQ ∧
      y.replay = x.replay
    let eth := decide (7 ≤ u.val)
    (d.rst = false → x.st = .down → d.heldDown u = false →
      (x.lost = true → exec (.linkTrainRetry u) s = .next s) ∧
      (x.lost = false → ∃ t, exec (.linkTrainRetry u) s = .next t ∧ OnlyPort s t u { x with st := .training, step := 1 })) ∧
    (d.rst = false → x.st = .training → x.step ≤ 2 →
      (d.crm.phase ≠ .firmware → ∃ t, exec (.pcsAlignmentFecLock u) s = .next t ∧ OnlyPort s t u ({ x with step := 3 }.reXoff eth)) ∧
      (d.crm.phase = .firmware → ∃ t, exec (.pcsAlignmentFecLock u) s = .next t ∧ IdentitySent t u ∧
        t.dev.port u = { ({ x with step := 4 }.reXoff eth) with idSent := some now })) ∧
    (x.st ≠ .down → if x.st = .training ∧ x.step ≤ 2 then down (.linkLoss u) else trains (.linkLoss u)) ∧
    (d.heldDown u = false → trains (.lnkRetrain u)) ∧
    (∀ v, x.st = .down ∨ v = false →
      ∃ t, exec (.lnkDisable u v) s = .next t ∧ OnlyPort s t u { x with disable := v, lost := x.lost && v == x.disable }) ∧
    (x.st ≠ .down → down (.lnkDisable u true) ∧ ∀ t, exec (.lnkDisable u true) s = .next t → (t.dev.port u).disable = true) ∧
    (x.identified = true →
      (∀ n, x.idSent = some n → n + 6250 ≤ now → ∃ t, exec (.identityResend u) s = .next t ∧ IdentitySent t u ∧
        t.dev.port u = { x with idSent := some now }) ∧
      (∀ stamp, exec (.rttProbeReceive u stamp) s = .next (if x.st = .quarantined then s else { s with
        dev := d.sendCtrl u (if u.val < 7 then none else x.peer.bind (d.onlyPeer u)) 6 0 0 (natLe stamp 10) })) ∧
      (∀ b : Identity, ∃ t, exec (.identityReceive u b) s = .next t ∧ t.mem = s.mem ∧
        (x.idSent = none → ∀ o ∈ d.identityOuts u (d.onlyPeer u b), o ∈ t.dev.out) ∧
        (x.st = .training → x.step = 4 →
          (∀ r, d.revision u b = some r → (t.dev.port u).rev = r ∧ (t.dev.port u).step = 6 ∧ (t.dev.port u).peer = some b ∧
            (u.val < 7 → .flit u (x.stamp false (ctrlFlit false 5 0 0 0 (natLe now 8 ++ natLe d.turn.frac.toNat 2))) ∈ t.dev.out)) ∧
          (d.revision u b = none → (t.dev.port u).st = .quarantined ∧ (t.dev.port u).vmism = true ∧
            Recorded t 0x42 0xFFFF [256 + d.revMax u, b.revMin * 256 + b.revMax])))) ∧
    (∀ rtt : Nat,
      let judged := fun (t : State) (mean : Nat) (b : Identity) => (t.dev.port u).rtt = BitVec.ofNat 32 mean ∧
        (7 ≤ u.val ∨ mean ≤ 245760 → x.retrain = none →
          (d.passes u b = none → (t.dev.port u).st = .notAdmitted) ∧
          (d.passes u b = some true → (t.dev.port u).st = .admitted) ∧
          (d.passes u b = some false → (t.dev.port u).st = .quarantined ∧
            (x.st ≠ .quarantined → Recorded t 0x41 0xFFFF [b.serial, b.slot, b.port])))
      (u.val < 7 → x.st = .training → x.step = 6 →
        (x.probes.length < 7 → ∃ t, exec (.rttReplyReceive u rtt) s = .next t ∧ OnlyPort s t u { x with probes := x.probes ++ [rtt] }) ∧
        (∀ b, x.peer = some b → x.probes.length = 7 →
          let sum := x.probes.foldl (fun a b => a + b) 0 + rtt
          ∃ t mean, exec (.rttReplyReceive u rtt) s = .next t ∧ t.mem = s.mem ∧ sum / 8 ≤ mean ∧ mean ≤ (sum + 7) / 8 ∧ judged t mean b ∧
            (245760 < mean → (t.dev.port u).st = .down ∧ (t.dev.port u).rttFail = true ∧ Recorded t 0x43 0xFFFF [mean]))) ∧
      (7 ≤ u.val → ∀ n r, x.negs = n :: r →
        (n.probes.length < 7 →
          ∃ t, exec (.rttReplyReceive u rtt) s = .next t ∧ OnlyPort s t u { x with negs := { n with probes := n.probes ++ [rtt] } :: r }) ∧
        (n.probes.length = 7 →
          let sum := n.probes.foldl (fun a b => a + b) 0 + rtt
          ∃ t mean, exec (.rttReplyReceive u rtt) s = .next t ∧ t.mem = s.mem ∧ sum / 8 ≤ mean ∧ mean ≤ (sum + 7) / 8 ∧
            (t.dev.port u).rev = n.rev ∧ (t.dev.port u).peer = some n.id ∧ judged t mean n.id))) ∧
    (∀ seq reason, exec (.refuseReceive u seq reason) s = .next { s with dev := { d with
      offers := d.offers.map (fun (o : Offer) => if o.port = u.val + 4 ∧ o.taken = false then { o with refused := true } else o) } })

/-! ### The management target and the test access port -/

/-- The board side (R415, R416, R423 to R426): a read of the target answers status 0 and the bytes for aligned words inside the
blocks that it serves, status 1 and no byte otherwise, and nothing in OFF; a new board value makes the identified ports send
their identity again; firmware refreshes every shadow; the test instructions IDCODE and EXTEST do as described, EXTEST
outside device reset as BYPASS, and every instruction that the manual keeps for the maker is refused by name. -/
def Obligations.BoardAndTestPort : Prop :=
  ∀ s : State,
    let d := s.dev
    let sent := fun (i : Instr) (o : Out) => exec i s = .next { s with dev := { d with out := o :: d.out } }
    (∀ off n : Nat,
      (d.pwr.st = .off → exec (.mgmtRead off n) s = .next s) ∧
      (d.pwr.st ≠ .off →
        (off % 4 ≠ 0 ∨ n % 4 ≠ 0 ∨ n < 4 ∨ 64 < n ∨ mgmtRange off n = false → sent (.mgmtRead off n) (.mgmtAnswer 1 [])) ∧
        (off % 4 = 0 → n % 4 = 0 → 4 ≤ n → n ≤ 64 → mgmtRange off n = true → ∃ l, sent (.mgmtRead off n) (.mgmtAnswer 0 l) ∧
          l.length = n ∧ ∀ i, i < n → l.getD i 0 = d.shadowWord (off + i / 4 * 4) / 256 ^ (i % 4) % 256))) ∧
    (d.rst = false → d.crm.phase = .firmware → ∃ m, exec .shadowRefresh s = .next { s with dev := { d with shadows := m } } ∧
      (∀ x ∈ shadowRegs, lk (0 : BitVec 64) m x = BitVec.ofNat 64 ((d.regAt x).elim 0 (fun r => r.val))) ∧
      ∀ x, x ∉ shadowRegs → lk (0 : BitVec 64) m x = lk 0 d.shadows x) ∧
    (∀ v, d.pwr.st ≠ .off → d.board ≠ v → ∃ t, exec (.mgmtWriteBoard v) s = .next t ∧ t.mem = s.mem ∧ t.dev.board = v ∧
      (d.rst = true → t = { s with dev := { d with board := v } }) ∧
      (d.rst = false → ∀ u, u < 9 → (d.port u).identified = true →
        IdentitySent t u ∧ (t.dev.ownIdentity u).board = v.toNat ∧ (t.dev.ownIdentity u).serial = d.serial.toNat)) ∧
    (d.pwr.enable = true →
      (∃ t, exec (.jtagInstruction (.known .idcode)) s = .next t ∧ t.dev.jtag = .idcode ∧ t.dev.out = .jtagBits idcode :: d.out) ∧
      exec (.jtagInstruction (.known .extest)) s = .next { s with dev := { d with jtag := if d.rst then .extest else .bypass } } ∧
      exec (.jtagInstruction (.known .bypass)) s = .next { s with dev := { d with jtag := .bypass } } ∧
      exec (.jtagInstruction (.known .samplePreload)) s = .next { s with dev := { d with jtag := .samplePreload } }) ∧
    exec (.jtagInstruction .other) s = .refused .reservedTest

end Claims
end

