-- ==== Sys2Proof/Laws/Maps.lean ====
section
/-! SUPPORT. The laws of sparse tables and of the byte memory: a read after a write, and that every operation keeps the
canonical form. -/

namespace Sys2Proof.Machine

variable {α : Type}

/-- A write is read back. -/
@[simp] theorem lk_up_same (z v : α) (n : Nat) : (m : SMap α) → lk z (up m n v) n = v
  | [] => by simp [up, lk]
  | (k, w) :: r => by
    by_cases h : n = k
    · simp [up, lk, h]
    · by_cases l : n < k
      · simp [up, lk, h, l]
      · simp [up, lk, h, l, lk_up_same z v n r]

/-- A write leaves every other key alone. -/
theorem lk_up_ne (z v : α) {n i : Nat} (hi : i ≠ n) : (m : SMap α) → lk z (up m n v) i = lk z m i
  | [] => by simp [up, lk, hi]
  | (k, w) :: r => by
    by_cases h : n = k
    · subst h; simp [up, lk, hi]
    · by_cases l : n < k
      · simp [up, lk, h, l, hi]
      · simp only [up, lk, h, l, if_false, lk_up_ne z v hi r]

/-- A read after a write, in one equation. -/
theorem lk_up (z v : α) (n i : Nat) (m : SMap α) : lk z (up m n v) i = if i = n then v else lk z m i := by
  by_cases h : i = n
  · subst h; simp
  · simp [h, lk_up_ne z v h]

theorem del_cons (k n : Nat) (w : α) (r : SMap α) : del ((k, w) :: r) n = if k = n then del r n else (k, w) :: del r n := by
  by_cases h : k = n <;> simp [del, h]

/-- A removed key reads the default. -/
@[simp] theorem lk_del_same (z : α) (n : Nat) : (m : SMap α) → lk z (del m n) n = z
  | [] => rfl
  | (k, w) :: r => by
    rw [del_cons]
    by_cases h : k = n
    · rw [if_pos h]; exact lk_del_same z n r
    · rw [if_neg h, lk, if_neg (Ne.symm h)]; exact lk_del_same z n r

/-- A removal leaves every other key alone. -/
theorem lk_del_ne (z : α) {n i : Nat} (hi : i ≠ n) : (m : SMap α) → lk z (del m n) i = lk z m i
  | [] => rfl
  | (k, w) :: r => by
    rw [del_cons]
    by_cases h : k = n
    · rw [if_pos h, lk, if_neg (h ▸ hi)]; exact lk_del_ne z hi r
    · rw [if_neg h, lk, lk, lk_del_ne z hi r]

/-! ### The byte memory -/

/-- Below the lowest listed address every byte reads 0. -/
theorem Memory.rd_low : (m : Memory) → (a : Nat) → (∀ c ∈ m, a < c.1) → m.rd a = 0
  | [], _, _ => rfl
  | (k, w) :: r, a, h => by
    have h1 : a < k := h (k, w) (by simp)
    have h2 : a ≠ k := by omega
    simp only [Memory.rd, h2, if_false]
    exact Memory.rd_low r a (fun c hc => h c (List.mem_cons_of_mem _ hc))

/-- Every address of a memory after a write is the written one or was listed before. -/
theorem Memory.wr_mem (b : Byte) (a : Nat) : (m : Memory) → (c : Host.Cell) → c ∈ m.wr a b → c.1 = a ∨ c ∈ m
  | [], c => by
    by_cases hb : b = 0
    · simp [Memory.wr, hb]
    · simp only [Memory.wr, hb, if_false, List.mem_singleton]
      rintro rfl; simp
  | (k, w) :: r, c => by
    have ih := Memory.wr_mem b a r c
    simp only [Memory.wr]
    split_ifs <;> simp only [List.mem_cons] <;> intro h
    · exact .inr h
    · rcases h with rfl | h
      · exact .inl rfl
      · exact .inr h
    · exact .inr (.inr h)
    · rcases h with rfl | h
      · exact .inl rfl
      · exact .inr (.inr h)
    · rcases h with rfl | h
      · exact .inr (.inl rfl)
      · rcases ih h with e | e
        · exact .inl e
        · exact .inr (.inr e)

/-- A write keeps the canonical form. -/
theorem Memory.wr_wf (b : Byte) (a : Nat) : (m : Memory) → m.wf → (m.wr a b).wf
  | [], _ => by
    by_cases hb : b = 0
    · rw [Memory.wr, if_pos hb]; exact ⟨List.Pairwise.nil, by simp⟩
    · rw [Memory.wr, if_neg hb]; exact ⟨by simp, by simpa using hb⟩
  | (k, w) :: r, h => by
    have hp := List.pairwise_cons.mp h.1
    have hr : Memory.wf r := ⟨hp.2, fun c hc => h.2 c (List.mem_cons_of_mem _ hc)⟩
    have ih := Memory.wr_wf b a r hr
    have hw : w ≠ 0 := h.2 (k, w) (by simp)
    have low : ∀ c ∈ r, k < c.1 := hp.1
    simp only [Memory.wr]
    split_ifs with h1 h2 h3 h4
    · exact h
    · refine ⟨List.pairwise_cons.mpr ⟨?_, h.1⟩, ?_⟩
      · intro c hc
        rcases List.mem_cons.mp hc with rfl | hc
        · exact h1
        · have := low c hc; show a < c.1; omega
      · intro c hc
        rcases List.mem_cons.mp hc with rfl | hc
        · exact h2
        · exact h.2 c hc
    · exact hr
    · subst h3
      refine ⟨List.pairwise_cons.mpr ⟨low, hp.2⟩, ?_⟩
      intro c hc
      rcases List.mem_cons.mp hc with rfl | hc
      · exact h4
      · exact hr.2 c hc
    · refine ⟨List.pairwise_cons.mpr ⟨?_, ih.1⟩, ?_⟩
      · intro c hc
        show k < c.1
        rcases Memory.wr_mem b a r c hc with e | e
        · omega
        · exact low c e
      · intro c hc
        rcases List.mem_cons.mp hc with rfl | hc
        · exact hw
        · exact ih.2 c hc

/-- Clearing a range keeps the canonical form. -/
theorem Memory.clr_wf (m : Memory) (lo hi : Nat) (h : m.wf) : (m.clr lo hi).wf :=
  ⟨h.1.filter _, fun c hc => h.2 c (List.mem_of_mem_filter hc)⟩

/-- A written byte is read back. -/
theorem Memory.rd_wr_same (b : Byte) (a : Nat) : (m : Memory) → m.wf → (m.wr a b).rd a = b
  | [], _ => by
    by_cases hb : b = 0
    · rw [Memory.wr, if_pos hb]; exact hb.symm
    · rw [Memory.wr, if_neg hb, Memory.rd, if_pos rfl]
  | (k, w) :: r, h => by
    have hp := List.pairwise_cons.mp h.1
    have hr : Memory.wf r := ⟨hp.2, fun c hc => h.2 c (List.mem_cons_of_mem _ hc)⟩
    have low : ∀ c ∈ r, k < c.1 := hp.1
    simp only [Memory.wr]
    split_ifs with h1 h2 h3 h4
    · rw [h2]
      apply Memory.rd_low
      intro c hc
      rcases List.mem_cons.mp hc with rfl | hc
      · exact h1
      · have := low c hc; omega
    · simp [Memory.rd]
    · subst h3; rw [h4]; exact Memory.rd_low r a low
    · simp [Memory.rd]
    · simp only [Memory.rd, h3, if_false]; exact Memory.rd_wr_same b a r hr

/-- A write leaves every other byte alone. -/
theorem Memory.rd_wr_ne (b : Byte) {a i : Nat} (hi : i ≠ a) : (m : Memory) → (m.wr a b).rd i = m.rd i
  | [] => by
    by_cases hb : b = 0
    · rw [Memory.wr, if_pos hb]
    · rw [Memory.wr, if_neg hb]; simp [Memory.rd, hi]
  | (k, w) :: r => by
    have ih := Memory.rd_wr_ne b hi r
    simp only [Memory.wr]
    split_ifs with h1 h2 h3 h4
    · rfl
    · simp [Memory.rd, hi]
    · subst h3; simp [Memory.rd, hi]
    · subst h3; simp [Memory.rd, hi]
    · simp only [Memory.rd, ih]

theorem Memory.clr_cons (k : Nat) (w : Byte) (r : Memory) (lo hi : Nat) :
    Memory.clr ((k, w) :: r) lo hi = if k < lo ∨ hi < k then (k, w) :: r.clr lo hi else r.clr lo hi := by
  by_cases h : k < lo ∨ hi < k
  · rw [if_pos h]; exact List.filter_cons_of_pos (decide_eq_true h)
  · rw [if_neg h]; exact List.filter_cons_of_neg (by simpa using h)

/-- Inside a cleared range every byte reads 0. -/
theorem Memory.rd_clr_in {lo hi i : Nat} (h : lo ≤ i ∧ i ≤ hi) : (m : Memory) → (m.clr lo hi).rd i = 0
  | [] => rfl
  | (k, w) :: r => by
    rw [Memory.clr_cons]
    by_cases hk : k < lo ∨ hi < k
    · rw [if_pos hk, Memory.rd, if_neg (by omega)]; exact Memory.rd_clr_in h r
    · rw [if_neg hk]; exact Memory.rd_clr_in h r

/-- Outside a cleared range nothing changes. -/
theorem Memory.rd_clr_out {lo hi i : Nat} (h : i < lo ∨ hi < i) : (m : Memory) → (m.clr lo hi).rd i = m.rd i
  | [] => rfl
  | (k, w) :: r => by
    rw [Memory.clr_cons]
    by_cases hk : k < lo ∨ hi < k
    · rw [if_pos hk, Memory.rd, Memory.rd, Memory.rd_clr_out h r]
    · rw [if_neg hk, Memory.rd, if_neg (by omega)]; exact Memory.rd_clr_out h r

/-- Moving ranges keeps the canonical form. -/
theorem Memory.move_wf (m : Memory) (l : List (Nat × Nat × Nat)) : (m.move l).wf := by
  have h : ∀ (m a : Memory), a.wf → (m.foldl (fun (a : Memory) (c : Host.Cell) => a.wr (movedTo l c.1) c.2) a).wf := by
    intro m
    induction m with
    | nil => exact fun a h => h
    | cons c r ih => exact fun a h => ih _ (Memory.wr_wf _ _ a h)
  exact h m [] ⟨List.Pairwise.nil, fun c hc => absurd hc List.not_mem_nil⟩

/-- A change keeps the canonical form of both memories. -/
theorem MemOp.onMem_wf (m : Memory) (o : MemOp) (h : m.wf) : (o.onMem m).wf := by
  cases o with
  | wr a b => exact Memory.wr_wf b a m h
  | clr lo hi => exact Memory.clr_wf m lo hi h
  | cave a b => exact h
  | move l => exact Memory.move_wf m l

theorem MemOp.onCave_wf (m : Memory) (o : MemOp) (h : m.wf) : (o.onCave m).wf := by
  cases o with
  | wr a b => exact h
  | clr lo hi => exact h
  | cave a b => exact Memory.wr_wf b a m h
  | move l => exact h

end Sys2Proof.Machine
end

