-- ==== Sys2Proof/Laws/State.lean ====
section
/-! SUPPORT. What each named update of the state writes and leaves: one lemma per field per update. -/

namespace Sys2Proof.Machine

@[simp] theorem Dev.setCore_cyc (d : Dev) (k : Nat) (c : Core) : (d.setCore k c).cyc = d.cyc := rfl
@[simp] theorem Dev.setCore_rst (d : Dev) (k : Nat) (c : Core) : (d.setCore k c).rst = d.rst := rfl
@[simp] theorem Dev.setCore_net (d : Dev) (k : Nat) (c : Core) : (d.setCore k c).net = d.net := rfl
@[simp] theorem Dev.setCore_edge (d : Dev) (k : Nat) (c : Core) : (d.setCore k c).edge = d.edge := rfl
@[simp] theorem Dev.setCore_parts (d : Dev) (k : Nat) (c : Core) : (d.setCore k c).parts = d.parts := rfl
@[simp] theorem Dev.setCore_turn (d : Dev) (k : Nat) (c : Core) : (d.setCore k c).turn = d.turn := rfl
@[simp] theorem Dev.setCore_errs (d : Dev) (k : Nat) (c : Core) : (d.setCore k c).errs = d.errs := rfl
@[simp] theorem Dev.setCore_moulds (d : Dev) (k : Nat) (c : Core) : (d.setCore k c).moulds = d.moulds := rfl
@[simp] theorem Dev.setCore_loads (d : Dev) (k : Nat) (c : Core) : (d.setCore k c).loads = d.loads := rfl
@[simp] theorem Dev.setCore_offers (d : Dev) (k : Nat) (c : Core) : (d.setCore k c).offers = d.offers := rfl
@[simp] theorem Dev.setCore_clk (d : Dev) (k : Nat) (c : Core) : (d.setCore k c).clk = d.clk := rfl
@[simp] theorem Dev.setCore_pwr (d : Dev) (k : Nat) (c : Core) : (d.setCore k c).pwr = d.pwr := rfl
@[simp] theorem Dev.setCore_crm (d : Dev) (k : Nat) (c : Core) : (d.setCore k c).crm = d.crm := rfl
@[simp] theorem Dev.setCore_flash (d : Dev) (k : Nat) (c : Core) : (d.setCore k c).flash = d.flash := rfl
@[simp] theorem Dev.setCore_caveQ (d : Dev) (k : Nat) (c : Core) : (d.setCore k c).caveQ = d.caveQ := rfl
@[simp] theorem Dev.setCore_hostQ (d : Dev) (k : Nat) (c : Core) : (d.setCore k c).hostQ = d.hostQ := rfl
@[simp] theorem Dev.setCore_caveSrv (d : Dev) (k : Nat) (c : Core) : (d.setCore k c).caveSrv = d.caveSrv := rfl
@[simp] theorem Dev.setCore_hostSrv (d : Dev) (k : Nat) (c : Core) : (d.setCore k c).hostSrv = d.hostSrv := rfl
@[simp] theorem Dev.setCore_chans (d : Dev) (k : Nat) (c : Core) : (d.setCore k c).chans = d.chans := rfl
@[simp] theorem Dev.setCore_funcs (d : Dev) (k : Nat) (c : Core) : (d.setCore k c).funcs = d.funcs := rfl
@[simp] theorem Dev.setCore_ports (d : Dev) (k : Nat) (c : Core) : (d.setCore k c).ports = d.ports := rfl
@[simp] theorem Dev.setCore_arbs (d : Dev) (k : Nat) (c : Core) : (d.setCore k c).arbs = d.arbs := rfl
@[simp] theorem Dev.setCore_fabDrop (d : Dev) (k : Nat) (c : Core) : (d.setCore k c).fabDrop = d.fabDrop := rfl
@[simp] theorem Dev.setCore_bar2 (d : Dev) (k : Nat) (c : Core) : (d.setCore k c).bar2 = d.bar2 := rfl
@[simp] theorem Dev.setCore_wtLast (d : Dev) (k : Nat) (c : Core) : (d.setCore k c).wtLast = d.wtLast := rfl
@[simp] theorem Dev.setCore_joinAs (d : Dev) (k : Nat) (c : Core) : (d.setCore k c).joinAs = d.joinAs := rfl
@[simp] theorem Dev.setCore_serial (d : Dev) (k : Nat) (c : Core) : (d.setCore k c).serial = d.serial := rfl
@[simp] theorem Dev.setCore_board (d : Dev) (k : Nat) (c : Core) : (d.setCore k c).board = d.board := rfl
@[simp] theorem Dev.setCore_bifur (d : Dev) (k : Nat) (c : Core) : (d.setCore k c).bifur = d.bifur := rfl
@[simp] theorem Dev.setCore_slot (d : Dev) (k : Nat) (c : Core) : (d.setCore k c).slot = d.slot := rfl
@[simp] theorem Dev.setCore_shadows (d : Dev) (k : Nat) (c : Core) : (d.setCore k c).shadows = d.shadows := rfl
@[simp] theorem Dev.setCore_jtag (d : Dev) (k : Nat) (c : Core) : (d.setCore k c).jtag = d.jtag := rfl
@[simp] theorem Dev.setCore_free (d : Dev) (k : Nat) (c : Core) : (d.setCore k c).free = d.free := rfl
@[simp] theorem Dev.setCore_out (d : Dev) (k : Nat) (c : Core) : (d.setCore k c).out = d.out := rfl

@[simp] theorem Dev.updCore_cyc (d : Dev) (k : Nat) (f : Core → Core) : (d.updCore k f).cyc = d.cyc := rfl
@[simp] theorem Dev.updCore_rst (d : Dev) (k : Nat) (f : Core → Core) : (d.updCore k f).rst = d.rst := rfl
@[simp] theorem Dev.updCore_net (d : Dev) (k : Nat) (f : Core → Core) : (d.updCore k f).net = d.net := rfl
@[simp] theorem Dev.updCore_edge (d : Dev) (k : Nat) (f : Core → Core) : (d.updCore k f).edge = d.edge := rfl
@[simp] theorem Dev.updCore_parts (d : Dev) (k : Nat) (f : Core → Core) : (d.updCore k f).parts = d.parts := rfl
@[simp] theorem Dev.updCore_turn (d : Dev) (k : Nat) (f : Core → Core) : (d.updCore k f).turn = d.turn := rfl
@[simp] theorem Dev.updCore_errs (d : Dev) (k : Nat) (f : Core → Core) : (d.updCore k f).errs = d.errs := rfl
@[simp] theorem Dev.updCore_moulds (d : Dev) (k : Nat) (f : Core → Core) : (d.updCore k f).moulds = d.moulds := rfl
@[simp] theorem Dev.updCore_loads (d : Dev) (k : Nat) (f : Core → Core) : (d.updCore k f).loads = d.loads := rfl
@[simp] theorem Dev.updCore_offers (d : Dev) (k : Nat) (f : Core → Core) : (d.updCore k f).offers = d.offers := rfl
@[simp] theorem Dev.updCore_clk (d : Dev) (k : Nat) (f : Core → Core) : (d.updCore k f).clk = d.clk := rfl
@[simp] theorem Dev.updCore_pwr (d : Dev) (k : Nat) (f : Core → Core) : (d.updCore k f).pwr = d.pwr := rfl
@[simp] theorem Dev.updCore_crm (d : Dev) (k : Nat) (f : Core → Core) : (d.updCore k f).crm = d.crm := rfl
@[simp] theorem Dev.updCore_flash (d : Dev) (k : Nat) (f : Core → Core) : (d.updCore k f).flash = d.flash := rfl
@[simp] theorem Dev.updCore_caveQ (d : Dev) (k : Nat) (f : Core → Core) : (d.updCore k f).caveQ = d.caveQ := rfl
@[simp] theorem Dev.updCore_hostQ (d : Dev) (k : Nat) (f : Core → Core) : (d.updCore k f).hostQ = d.hostQ := rfl
@[simp] theorem Dev.updCore_caveSrv (d : Dev) (k : Nat) (f : Core → Core) : (d.updCore k f).caveSrv = d.caveSrv := rfl
@[simp] theorem Dev.updCore_hostSrv (d : Dev) (k : Nat) (f : Core → Core) : (d.updCore k f).hostSrv = d.hostSrv := rfl
@[simp] theorem Dev.updCore_chans (d : Dev) (k : Nat) (f : Core → Core) : (d.updCore k f).chans = d.chans := rfl
@[simp] theorem Dev.updCore_funcs (d : Dev) (k : Nat) (f : Core → Core) : (d.updCore k f).funcs = d.funcs := rfl
@[simp] theorem Dev.updCore_ports (d : Dev) (k : Nat) (f : Core → Core) : (d.updCore k f).ports = d.ports := rfl
@[simp] theorem Dev.updCore_arbs (d : Dev) (k : Nat) (f : Core → Core) : (d.updCore k f).arbs = d.arbs := rfl
@[simp] theorem Dev.updCore_fabDrop (d : Dev) (k : Nat) (f : Core → Core) : (d.updCore k f).fabDrop = d.fabDrop := rfl
@[simp] theorem Dev.updCore_bar2 (d : Dev) (k : Nat) (f : Core → Core) : (d.updCore k f).bar2 = d.bar2 := rfl
@[simp] theorem Dev.updCore_wtLast (d : Dev) (k : Nat) (f : Core → Core) : (d.updCore k f).wtLast = d.wtLast := rfl
@[simp] theorem Dev.updCore_joinAs (d : Dev) (k : Nat) (f : Core → Core) : (d.updCore k f).joinAs = d.joinAs := rfl
@[simp] theorem Dev.updCore_serial (d : Dev) (k : Nat) (f : Core → Core) : (d.updCore k f).serial = d.serial := rfl
@[simp] theorem Dev.updCore_board (d : Dev) (k : Nat) (f : Core → Core) : (d.updCore k f).board = d.board := rfl
@[simp] theorem Dev.updCore_bifur (d : Dev) (k : Nat) (f : Core → Core) : (d.updCore k f).bifur = d.bifur := rfl
@[simp] theorem Dev.updCore_slot (d : Dev) (k : Nat) (f : Core → Core) : (d.updCore k f).slot = d.slot := rfl
@[simp] theorem Dev.updCore_shadows (d : Dev) (k : Nat) (f : Core → Core) : (d.updCore k f).shadows = d.shadows := rfl
@[simp] theorem Dev.updCore_jtag (d : Dev) (k : Nat) (f : Core → Core) : (d.updCore k f).jtag = d.jtag := rfl
@[simp] theorem Dev.updCore_free (d : Dev) (k : Nat) (f : Core → Core) : (d.updCore k f).free = d.free := rfl
@[simp] theorem Dev.updCore_out (d : Dev) (k : Nat) (f : Core → Core) : (d.updCore k f).out = d.out := rfl

@[simp] theorem Dev.setSeq_cyc (d : Dev) (k : Nat) (q : SeqId) (x : Seq) : (d.setSeq k q x).cyc = d.cyc := rfl
@[simp] theorem Dev.setSeq_rst (d : Dev) (k : Nat) (q : SeqId) (x : Seq) : (d.setSeq k q x).rst = d.rst := rfl
@[simp] theorem Dev.setSeq_net (d : Dev) (k : Nat) (q : SeqId) (x : Seq) : (d.setSeq k q x).net = d.net := rfl
@[simp] theorem Dev.setSeq_edge (d : Dev) (k : Nat) (q : SeqId) (x : Seq) : (d.setSeq k q x).edge = d.edge := rfl
@[simp] theorem Dev.setSeq_parts (d : Dev) (k : Nat) (q : SeqId) (x : Seq) : (d.setSeq k q x).parts = d.parts := rfl
@[simp] theorem Dev.setSeq_turn (d : Dev) (k : Nat) (q : SeqId) (x : Seq) : (d.setSeq k q x).turn = d.turn := rfl
@[simp] theorem Dev.setSeq_errs (d : Dev) (k : Nat) (q : SeqId) (x : Seq) : (d.setSeq k q x).errs = d.errs := rfl
@[simp] theorem Dev.setSeq_moulds (d : Dev) (k : Nat) (q : SeqId) (x : Seq) : (d.setSeq k q x).moulds = d.moulds := rfl
@[simp] theorem Dev.setSeq_loads (d : Dev) (k : Nat) (q : SeqId) (x : Seq) : (d.setSeq k q x).loads = d.loads := rfl
@[simp] theorem Dev.setSeq_offers (d : Dev) (k : Nat) (q : SeqId) (x : Seq) : (d.setSeq k q x).offers = d.offers := rfl
@[simp] theorem Dev.setSeq_clk (d : Dev) (k : Nat) (q : SeqId) (x : Seq) : (d.setSeq k q x).clk = d.clk := rfl
@[simp] theorem Dev.setSeq_pwr (d : Dev) (k : Nat) (q : SeqId) (x : Seq) : (d.setSeq k q x).pwr = d.pwr := rfl
@[simp] theorem Dev.setSeq_crm (d : Dev) (k : Nat) (q : SeqId) (x : Seq) : (d.setSeq k q x).crm = d.crm := rfl
@[simp] theorem Dev.setSeq_flash (d : Dev) (k : Nat) (q : SeqId) (x : Seq) : (d.setSeq k q x).flash = d.flash := rfl
@[simp] theorem Dev.setSeq_caveQ (d : Dev) (k : Nat) (q : SeqId) (x : Seq) : (d.setSeq k q x).caveQ = d.caveQ := rfl
@[simp] theorem Dev.setSeq_hostQ (d : Dev) (k : Nat) (q : SeqId) (x : Seq) : (d.setSeq k q x).hostQ = d.hostQ := rfl
@[simp] theorem Dev.setSeq_caveSrv (d : Dev) (k : Nat) (q : SeqId) (x : Seq) : (d.setSeq k q x).caveSrv = d.caveSrv := rfl
@[simp] theorem Dev.setSeq_hostSrv (d : Dev) (k : Nat) (q : SeqId) (x : Seq) : (d.setSeq k q x).hostSrv = d.hostSrv := rfl
@[simp] theorem Dev.setSeq_chans (d : Dev) (k : Nat) (q : SeqId) (x : Seq) : (d.setSeq k q x).chans = d.chans := rfl
@[simp] theorem Dev.setSeq_funcs (d : Dev) (k : Nat) (q : SeqId) (x : Seq) : (d.setSeq k q x).funcs = d.funcs := rfl
@[simp] theorem Dev.setSeq_ports (d : Dev) (k : Nat) (q : SeqId) (x : Seq) : (d.setSeq k q x).ports = d.ports := rfl
@[simp] theorem Dev.setSeq_arbs (d : Dev) (k : Nat) (q : SeqId) (x : Seq) : (d.setSeq k q x).arbs = d.arbs := rfl
@[simp] theorem Dev.setSeq_fabDrop (d : Dev) (k : Nat) (q : SeqId) (x : Seq) : (d.setSeq k q x).fabDrop = d.fabDrop := rfl
@[simp] theorem Dev.setSeq_bar2 (d : Dev) (k : Nat) (q : SeqId) (x : Seq) : (d.setSeq k q x).bar2 = d.bar2 := rfl
@[simp] theorem Dev.setSeq_wtLast (d : Dev) (k : Nat) (q : SeqId) (x : Seq) : (d.setSeq k q x).wtLast = d.wtLast := rfl
@[simp] theorem Dev.setSeq_joinAs (d : Dev) (k : Nat) (q : SeqId) (x : Seq) : (d.setSeq k q x).joinAs = d.joinAs := rfl
@[simp] theorem Dev.setSeq_serial (d : Dev) (k : Nat) (q : SeqId) (x : Seq) : (d.setSeq k q x).serial = d.serial := rfl
@[simp] theorem Dev.setSeq_board (d : Dev) (k : Nat) (q : SeqId) (x : Seq) : (d.setSeq k q x).board = d.board := rfl
@[simp] theorem Dev.setSeq_bifur (d : Dev) (k : Nat) (q : SeqId) (x : Seq) : (d.setSeq k q x).bifur = d.bifur := rfl
@[simp] theorem Dev.setSeq_slot (d : Dev) (k : Nat) (q : SeqId) (x : Seq) : (d.setSeq k q x).slot = d.slot := rfl
@[simp] theorem Dev.setSeq_shadows (d : Dev) (k : Nat) (q : SeqId) (x : Seq) : (d.setSeq k q x).shadows = d.shadows := rfl
@[simp] theorem Dev.setSeq_jtag (d : Dev) (k : Nat) (q : SeqId) (x : Seq) : (d.setSeq k q x).jtag = d.jtag := rfl
@[simp] theorem Dev.setSeq_free (d : Dev) (k : Nat) (q : SeqId) (x : Seq) : (d.setSeq k q x).free = d.free := rfl
@[simp] theorem Dev.setSeq_out (d : Dev) (k : Nat) (q : SeqId) (x : Seq) : (d.setSeq k q x).out = d.out := rfl

@[simp] theorem Dev.setPart_cyc (d : Dev) (p : Nat) (t : PartTime) : (d.setPart p t).cyc = d.cyc := rfl
@[simp] theorem Dev.setPart_rst (d : Dev) (p : Nat) (t : PartTime) : (d.setPart p t).rst = d.rst := rfl
@[simp] theorem Dev.setPart_cores (d : Dev) (p : Nat) (t : PartTime) : (d.setPart p t).cores = d.cores := rfl
@[simp] theorem Dev.setPart_net (d : Dev) (p : Nat) (t : PartTime) : (d.setPart p t).net = d.net := rfl
@[simp] theorem Dev.setPart_edge (d : Dev) (p : Nat) (t : PartTime) : (d.setPart p t).edge = d.edge := rfl
@[simp] theorem Dev.setPart_turn (d : Dev) (p : Nat) (t : PartTime) : (d.setPart p t).turn = d.turn := rfl
@[simp] theorem Dev.setPart_errs (d : Dev) (p : Nat) (t : PartTime) : (d.setPart p t).errs = d.errs := rfl
@[simp] theorem Dev.setPart_moulds (d : Dev) (p : Nat) (t : PartTime) : (d.setPart p t).moulds = d.moulds := rfl
@[simp] theorem Dev.setPart_loads (d : Dev) (p : Nat) (t : PartTime) : (d.setPart p t).loads = d.loads := rfl
@[simp] theorem Dev.setPart_offers (d : Dev) (p : Nat) (t : PartTime) : (d.setPart p t).offers = d.offers := rfl
@[simp] theorem Dev.setPart_clk (d : Dev) (p : Nat) (t : PartTime) : (d.setPart p t).clk = d.clk := rfl
@[simp] theorem Dev.setPart_pwr (d : Dev) (p : Nat) (t : PartTime) : (d.setPart p t).pwr = d.pwr := rfl
@[simp] theorem Dev.setPart_crm (d : Dev) (p : Nat) (t : PartTime) : (d.setPart p t).crm = d.crm := rfl
@[simp] theorem Dev.setPart_flash (d : Dev) (p : Nat) (t : PartTime) : (d.setPart p t).flash = d.flash := rfl
@[simp] theorem Dev.setPart_caveQ (d : Dev) (p : Nat) (t : PartTime) : (d.setPart p t).caveQ = d.caveQ := rfl
@[simp] theorem Dev.setPart_hostQ (d : Dev) (p : Nat) (t : PartTime) : (d.setPart p t).hostQ = d.hostQ := rfl
@[simp] theorem Dev.setPart_caveSrv (d : Dev) (p : Nat) (t : PartTime) : (d.setPart p t).caveSrv = d.caveSrv := rfl
@[simp] theorem Dev.setPart_hostSrv (d : Dev) (p : Nat) (t : PartTime) : (d.setPart p t).hostSrv = d.hostSrv := rfl
@[simp] theorem Dev.setPart_chans (d : Dev) (p : Nat) (t : PartTime) : (d.setPart p t).chans = d.chans := rfl
@[simp] theorem Dev.setPart_funcs (d : Dev) (p : Nat) (t : PartTime) : (d.setPart p t).funcs = d.funcs := rfl
@[simp] theorem Dev.setPart_ports (d : Dev) (p : Nat) (t : PartTime) : (d.setPart p t).ports = d.ports := rfl
@[simp] theorem Dev.setPart_arbs (d : Dev) (p : Nat) (t : PartTime) : (d.setPart p t).arbs = d.arbs := rfl
@[simp] theorem Dev.setPart_fabDrop (d : Dev) (p : Nat) (t : PartTime) : (d.setPart p t).fabDrop = d.fabDrop := rfl
@[simp] theorem Dev.setPart_bar2 (d : Dev) (p : Nat) (t : PartTime) : (d.setPart p t).bar2 = d.bar2 := rfl
@[simp] theorem Dev.setPart_wtLast (d : Dev) (p : Nat) (t : PartTime) : (d.setPart p t).wtLast = d.wtLast := rfl
@[simp] theorem Dev.setPart_joinAs (d : Dev) (p : Nat) (t : PartTime) : (d.setPart p t).joinAs = d.joinAs := rfl
@[simp] theorem Dev.setPart_serial (d : Dev) (p : Nat) (t : PartTime) : (d.setPart p t).serial = d.serial := rfl
@[simp] theorem Dev.setPart_board (d : Dev) (p : Nat) (t : PartTime) : (d.setPart p t).board = d.board := rfl
@[simp] theorem Dev.setPart_bifur (d : Dev) (p : Nat) (t : PartTime) : (d.setPart p t).bifur = d.bifur := rfl
@[simp] theorem Dev.setPart_slot (d : Dev) (p : Nat) (t : PartTime) : (d.setPart p t).slot = d.slot := rfl
@[simp] theorem Dev.setPart_shadows (d : Dev) (p : Nat) (t : PartTime) : (d.setPart p t).shadows = d.shadows := rfl
@[simp] theorem Dev.setPart_jtag (d : Dev) (p : Nat) (t : PartTime) : (d.setPart p t).jtag = d.jtag := rfl
@[simp] theorem Dev.setPart_free (d : Dev) (p : Nat) (t : PartTime) : (d.setPart p t).free = d.free := rfl
@[simp] theorem Dev.setPart_out (d : Dev) (p : Nat) (t : PartTime) : (d.setPart p t).out = d.out := rfl

@[simp] theorem Dev.updPart_cyc (d : Dev) (p : Nat) (f : PartTime → PartTime) : (d.updPart p f).cyc = d.cyc := rfl
@[simp] theorem Dev.updPart_rst (d : Dev) (p : Nat) (f : PartTime → PartTime) : (d.updPart p f).rst = d.rst := rfl
@[simp] theorem Dev.updPart_cores (d : Dev) (p : Nat) (f : PartTime → PartTime) : (d.updPart p f).cores = d.cores := rfl
@[simp] theorem Dev.updPart_net (d : Dev) (p : Nat) (f : PartTime → PartTime) : (d.updPart p f).net = d.net := rfl
@[simp] theorem Dev.updPart_edge (d : Dev) (p : Nat) (f : PartTime → PartTime) : (d.updPart p f).edge = d.edge := rfl
@[simp] theorem Dev.updPart_turn (d : Dev) (p : Nat) (f : PartTime → PartTime) : (d.updPart p f).turn = d.turn := rfl
@[simp] theorem Dev.updPart_errs (d : Dev) (p : Nat) (f : PartTime → PartTime) : (d.updPart p f).errs = d.errs := rfl
@[simp] theorem Dev.updPart_moulds (d : Dev) (p : Nat) (f : PartTime → PartTime) : (d.updPart p f).moulds = d.moulds := rfl
@[simp] theorem Dev.updPart_loads (d : Dev) (p : Nat) (f : PartTime → PartTime) : (d.updPart p f).loads = d.loads := rfl
@[simp] theorem Dev.updPart_offers (d : Dev) (p : Nat) (f : PartTime → PartTime) : (d.updPart p f).offers = d.offers := rfl
@[simp] theorem Dev.updPart_clk (d : Dev) (p : Nat) (f : PartTime → PartTime) : (d.updPart p f).clk = d.clk := rfl
@[simp] theorem Dev.updPart_pwr (d : Dev) (p : Nat) (f : PartTime → PartTime) : (d.updPart p f).pwr = d.pwr := rfl
@[simp] theorem Dev.updPart_crm (d : Dev) (p : Nat) (f : PartTime → PartTime) : (d.updPart p f).crm = d.crm := rfl
@[simp] theorem Dev.updPart_flash (d : Dev) (p : Nat) (f : PartTime → PartTime) : (d.updPart p f).flash = d.flash := rfl
@[simp] theorem Dev.updPart_caveQ (d : Dev) (p : Nat) (f : PartTime → PartTime) : (d.updPart p f).caveQ = d.caveQ := rfl
@[simp] theorem Dev.updPart_hostQ (d : Dev) (p : Nat) (f : PartTime → PartTime) : (d.updPart p f).hostQ = d.hostQ := rfl
@[simp] theorem Dev.updPart_caveSrv (d : Dev) (p : Nat) (f : PartTime → PartTime) : (d.updPart p f).caveSrv = d.caveSrv := rfl
@[simp] theorem Dev.updPart_hostSrv (d : Dev) (p : Nat) (f : PartTime → PartTime) : (d.updPart p f).hostSrv = d.hostSrv := rfl
@[simp] theorem Dev.updPart_chans (d : Dev) (p : Nat) (f : PartTime → PartTime) : (d.updPart p f).chans = d.chans := rfl
@[simp] theorem Dev.updPart_funcs (d : Dev) (p : Nat) (f : PartTime → PartTime) : (d.updPart p f).funcs = d.funcs := rfl
@[simp] theorem Dev.updPart_ports (d : Dev) (p : Nat) (f : PartTime → PartTime) : (d.updPart p f).ports = d.ports := rfl
@[simp] theorem Dev.updPart_arbs (d : Dev) (p : Nat) (f : PartTime → PartTime) : (d.updPart p f).arbs = d.arbs := rfl
@[simp] theorem Dev.updPart_fabDrop (d : Dev) (p : Nat) (f : PartTime → PartTime) : (d.updPart p f).fabDrop = d.fabDrop := rfl
@[simp] theorem Dev.updPart_bar2 (d : Dev) (p : Nat) (f : PartTime → PartTime) : (d.updPart p f).bar2 = d.bar2 := rfl
@[simp] theorem Dev.updPart_wtLast (d : Dev) (p : Nat) (f : PartTime → PartTime) : (d.updPart p f).wtLast = d.wtLast := rfl
@[simp] theorem Dev.updPart_joinAs (d : Dev) (p : Nat) (f : PartTime → PartTime) : (d.updPart p f).joinAs = d.joinAs := rfl
@[simp] theorem Dev.updPart_serial (d : Dev) (p : Nat) (f : PartTime → PartTime) : (d.updPart p f).serial = d.serial := rfl
@[simp] theorem Dev.updPart_board (d : Dev) (p : Nat) (f : PartTime → PartTime) : (d.updPart p f).board = d.board := rfl
@[simp] theorem Dev.updPart_bifur (d : Dev) (p : Nat) (f : PartTime → PartTime) : (d.updPart p f).bifur = d.bifur := rfl
@[simp] theorem Dev.updPart_slot (d : Dev) (p : Nat) (f : PartTime → PartTime) : (d.updPart p f).slot = d.slot := rfl
@[simp] theorem Dev.updPart_shadows (d : Dev) (p : Nat) (f : PartTime → PartTime) : (d.updPart p f).shadows = d.shadows := rfl
@[simp] theorem Dev.updPart_jtag (d : Dev) (p : Nat) (f : PartTime → PartTime) : (d.updPart p f).jtag = d.jtag := rfl
@[simp] theorem Dev.updPart_free (d : Dev) (p : Nat) (f : PartTime → PartTime) : (d.updPart p f).free = d.free := rfl
@[simp] theorem Dev.updPart_out (d : Dev) (p : Nat) (f : PartTime → PartTime) : (d.updPart p f).out = d.out := rfl

@[simp] theorem Dev.setFunc_cyc (d : Dev) (f : Nat) (x : Func) : (d.setFunc f x).cyc = d.cyc := rfl
@[simp] theorem Dev.setFunc_rst (d : Dev) (f : Nat) (x : Func) : (d.setFunc f x).rst = d.rst := rfl
@[simp] theorem Dev.setFunc_cores (d : Dev) (f : Nat) (x : Func) : (d.setFunc f x).cores = d.cores := rfl
@[simp] theorem Dev.setFunc_net (d : Dev) (f : Nat) (x : Func) : (d.setFunc f x).net = d.net := rfl
@[simp] theorem Dev.setFunc_edge (d : Dev) (f : Nat) (x : Func) : (d.setFunc f x).edge = d.edge := rfl
@[simp] theorem Dev.setFunc_parts (d : Dev) (f : Nat) (x : Func) : (d.setFunc f x).parts = d.parts := rfl
@[simp] theorem Dev.setFunc_turn (d : Dev) (f : Nat) (x : Func) : (d.setFunc f x).turn = d.turn := rfl
@[simp] theorem Dev.setFunc_errs (d : Dev) (f : Nat) (x : Func) : (d.setFunc f x).errs = d.errs := rfl
@[simp] theorem Dev.setFunc_moulds (d : Dev) (f : Nat) (x : Func) : (d.setFunc f x).moulds = d.moulds := rfl
@[simp] theorem Dev.setFunc_loads (d : Dev) (f : Nat) (x : Func) : (d.setFunc f x).loads = d.loads := rfl
@[simp] theorem Dev.setFunc_offers (d : Dev) (f : Nat) (x : Func) : (d.setFunc f x).offers = d.offers := rfl
@[simp] theorem Dev.setFunc_clk (d : Dev) (f : Nat) (x : Func) : (d.setFunc f x).clk = d.clk := rfl
@[simp] theorem Dev.setFunc_pwr (d : Dev) (f : Nat) (x : Func) : (d.setFunc f x).pwr = d.pwr := rfl
@[simp] theorem Dev.setFunc_crm (d : Dev) (f : Nat) (x : Func) : (d.setFunc f x).crm = d.crm := rfl
@[simp] theorem Dev.setFunc_flash (d : Dev) (f : Nat) (x : Func) : (d.setFunc f x).flash = d.flash := rfl
@[simp] theorem Dev.setFunc_caveQ (d : Dev) (f : Nat) (x : Func) : (d.setFunc f x).caveQ = d.caveQ := rfl
@[simp] theorem Dev.setFunc_hostQ (d : Dev) (f : Nat) (x : Func) : (d.setFunc f x).hostQ = d.hostQ := rfl
@[simp] theorem Dev.setFunc_caveSrv (d : Dev) (f : Nat) (x : Func) : (d.setFunc f x).caveSrv = d.caveSrv := rfl
@[simp] theorem Dev.setFunc_hostSrv (d : Dev) (f : Nat) (x : Func) : (d.setFunc f x).hostSrv = d.hostSrv := rfl
@[simp] theorem Dev.setFunc_chans (d : Dev) (f : Nat) (x : Func) : (d.setFunc f x).chans = d.chans := rfl
@[simp] theorem Dev.setFunc_ports (d : Dev) (f : Nat) (x : Func) : (d.setFunc f x).ports = d.ports := rfl
@[simp] theorem Dev.setFunc_arbs (d : Dev) (f : Nat) (x : Func) : (d.setFunc f x).arbs = d.arbs := rfl
@[simp] theorem Dev.setFunc_fabDrop (d : Dev) (f : Nat) (x : Func) : (d.setFunc f x).fabDrop = d.fabDrop := rfl
@[simp] theorem Dev.setFunc_bar2 (d : Dev) (f : Nat) (x : Func) : (d.setFunc f x).bar2 = d.bar2 := rfl
@[simp] theorem Dev.setFunc_wtLast (d : Dev) (f : Nat) (x : Func) : (d.setFunc f x).wtLast = d.wtLast := rfl
@[simp] theorem Dev.setFunc_joinAs (d : Dev) (f : Nat) (x : Func) : (d.setFunc f x).joinAs = d.joinAs := rfl
@[simp] theorem Dev.setFunc_serial (d : Dev) (f : Nat) (x : Func) : (d.setFunc f x).serial = d.serial := rfl
@[simp] theorem Dev.setFunc_board (d : Dev) (f : Nat) (x : Func) : (d.setFunc f x).board = d.board := rfl
@[simp] theorem Dev.setFunc_bifur (d : Dev) (f : Nat) (x : Func) : (d.setFunc f x).bifur = d.bifur := rfl
@[simp] theorem Dev.setFunc_slot (d : Dev) (f : Nat) (x : Func) : (d.setFunc f x).slot = d.slot := rfl
@[simp] theorem Dev.setFunc_shadows (d : Dev) (f : Nat) (x : Func) : (d.setFunc f x).shadows = d.shadows := rfl
@[simp] theorem Dev.setFunc_jtag (d : Dev) (f : Nat) (x : Func) : (d.setFunc f x).jtag = d.jtag := rfl
@[simp] theorem Dev.setFunc_free (d : Dev) (f : Nat) (x : Func) : (d.setFunc f x).free = d.free := rfl
@[simp] theorem Dev.setFunc_out (d : Dev) (f : Nat) (x : Func) : (d.setFunc f x).out = d.out := rfl

@[simp] theorem Dev.updFunc_cyc (d : Dev) (f : Nat) (g : Func → Func) : (d.updFunc f g).cyc = d.cyc := rfl
@[simp] theorem Dev.updFunc_rst (d : Dev) (f : Nat) (g : Func → Func) : (d.updFunc f g).rst = d.rst := rfl
@[simp] theorem Dev.updFunc_cores (d : Dev) (f : Nat) (g : Func → Func) : (d.updFunc f g).cores = d.cores := rfl
@[simp] theorem Dev.updFunc_net (d : Dev) (f : Nat) (g : Func → Func) : (d.updFunc f g).net = d.net := rfl
@[simp] theorem Dev.updFunc_edge (d : Dev) (f : Nat) (g : Func → Func) : (d.updFunc f g).edge = d.edge := rfl
@[simp] theorem Dev.updFunc_parts (d : Dev) (f : Nat) (g : Func → Func) : (d.updFunc f g).parts = d.parts := rfl
@[simp] theorem Dev.updFunc_turn (d : Dev) (f : Nat) (g : Func → Func) : (d.updFunc f g).turn = d.turn := rfl
@[simp] theorem Dev.updFunc_errs (d : Dev) (f : Nat) (g : Func → Func) : (d.updFunc f g).errs = d.errs := rfl
@[simp] theorem Dev.updFunc_moulds (d : Dev) (f : Nat) (g : Func → Func) : (d.updFunc f g).moulds = d.moulds := rfl
@[simp] theorem Dev.updFunc_loads (d : Dev) (f : Nat) (g : Func → Func) : (d.updFunc f g).loads = d.loads := rfl
@[simp] theorem Dev.updFunc_offers (d : Dev) (f : Nat) (g : Func → Func) : (d.updFunc f g).offers = d.offers := rfl
@[simp] theorem Dev.updFunc_clk (d : Dev) (f : Nat) (g : Func → Func) : (d.updFunc f g).clk = d.clk := rfl
@[simp] theorem Dev.updFunc_pwr (d : Dev) (f : Nat) (g : Func → Func) : (d.updFunc f g).pwr = d.pwr := rfl
@[simp] theorem Dev.updFunc_crm (d : Dev) (f : Nat) (g : Func → Func) : (d.updFunc f g).crm = d.crm := rfl
@[simp] theorem Dev.updFunc_flash (d : Dev) (f : Nat) (g : Func → Func) : (d.updFunc f g).flash = d.flash := rfl
@[simp] theorem Dev.updFunc_caveQ (d : Dev) (f : Nat) (g : Func → Func) : (d.updFunc f g).caveQ = d.caveQ := rfl
@[simp] theorem Dev.updFunc_hostQ (d : Dev) (f : Nat) (g : Func → Func) : (d.updFunc f g).hostQ = d.hostQ := rfl
@[simp] theorem Dev.updFunc_caveSrv (d : Dev) (f : Nat) (g : Func → Func) : (d.updFunc f g).caveSrv = d.caveSrv := rfl
@[simp] theorem Dev.updFunc_hostSrv (d : Dev) (f : Nat) (g : Func → Func) : (d.updFunc f g).hostSrv = d.hostSrv := rfl
@[simp] theorem Dev.updFunc_chans (d : Dev) (f : Nat) (g : Func → Func) : (d.updFunc f g).chans = d.chans := rfl
@[simp] theorem Dev.updFunc_ports (d : Dev) (f : Nat) (g : Func → Func) : (d.updFunc f g).ports = d.ports := rfl
@[simp] theorem Dev.updFunc_arbs (d : Dev) (f : Nat) (g : Func → Func) : (d.updFunc f g).arbs = d.arbs := rfl
@[simp] theorem Dev.updFunc_fabDrop (d : Dev) (f : Nat) (g : Func → Func) : (d.updFunc f g).fabDrop = d.fabDrop := rfl
@[simp] theorem Dev.updFunc_bar2 (d : Dev) (f : Nat) (g : Func → Func) : (d.updFunc f g).bar2 = d.bar2 := rfl
@[simp] theorem Dev.updFunc_wtLast (d : Dev) (f : Nat) (g : Func → Func) : (d.updFunc f g).wtLast = d.wtLast := rfl
@[simp] theorem Dev.updFunc_joinAs (d : Dev) (f : Nat) (g : Func → Func) : (d.updFunc f g).joinAs = d.joinAs := rfl
@[simp] theorem Dev.updFunc_serial (d : Dev) (f : Nat) (g : Func → Func) : (d.updFunc f g).serial = d.serial := rfl
@[simp] theorem Dev.updFunc_board (d : Dev) (f : Nat) (g : Func → Func) : (d.updFunc f g).board = d.board := rfl
@[simp] theorem Dev.updFunc_bifur (d : Dev) (f : Nat) (g : Func → Func) : (d.updFunc f g).bifur = d.bifur := rfl
@[simp] theorem Dev.updFunc_slot (d : Dev) (f : Nat) (g : Func → Func) : (d.updFunc f g).slot = d.slot := rfl
@[simp] theorem Dev.updFunc_shadows (d : Dev) (f : Nat) (g : Func → Func) : (d.updFunc f g).shadows = d.shadows := rfl
@[simp] theorem Dev.updFunc_jtag (d : Dev) (f : Nat) (g : Func → Func) : (d.updFunc f g).jtag = d.jtag := rfl
@[simp] theorem Dev.updFunc_free (d : Dev) (f : Nat) (g : Func → Func) : (d.updFunc f g).free = d.free := rfl
@[simp] theorem Dev.updFunc_out (d : Dev) (f : Nat) (g : Func → Func) : (d.updFunc f g).out = d.out := rfl

@[simp] theorem Dev.setPort_cyc (d : Dev) (u : Nat) (x : Port) : (d.setPort u x).cyc = d.cyc := rfl
@[simp] theorem Dev.setPort_rst (d : Dev) (u : Nat) (x : Port) : (d.setPort u x).rst = d.rst := rfl
@[simp] theorem Dev.setPort_cores (d : Dev) (u : Nat) (x : Port) : (d.setPort u x).cores = d.cores := rfl
@[simp] theorem Dev.setPort_net (d : Dev) (u : Nat) (x : Port) : (d.setPort u x).net = d.net := rfl
@[simp] theorem Dev.setPort_edge (d : Dev) (u : Nat) (x : Port) : (d.setPort u x).edge = d.edge := rfl
@[simp] theorem Dev.setPort_parts (d : Dev) (u : Nat) (x : Port) : (d.setPort u x).parts = d.parts := rfl
@[simp] theorem Dev.setPort_turn (d : Dev) (u : Nat) (x : Port) : (d.setPort u x).turn = d.turn := rfl
@[simp] theorem Dev.setPort_errs (d : Dev) (u : Nat) (x : Port) : (d.setPort u x).errs = d.errs := rfl
@[simp] theorem Dev.setPort_moulds (d : Dev) (u : Nat) (x : Port) : (d.setPort u x).moulds = d.moulds := rfl
@[simp] theorem Dev.setPort_loads (d : Dev) (u : Nat) (x : Port) : (d.setPort u x).loads = d.loads := rfl
@[simp] theorem Dev.setPort_offers (d : Dev) (u : Nat) (x : Port) : (d.setPort u x).offers = d.offers := rfl
@[simp] theorem Dev.setPort_clk (d : Dev) (u : Nat) (x : Port) : (d.setPort u x).clk = d.clk := rfl
@[simp] theorem Dev.setPort_pwr (d : Dev) (u : Nat) (x : Port) : (d.setPort u x).pwr = d.pwr := rfl
@[simp] theorem Dev.setPort_crm (d : Dev) (u : Nat) (x : Port) : (d.setPort u x).crm = d.crm := rfl
@[simp] theorem Dev.setPort_flash (d : Dev) (u : Nat) (x : Port) : (d.setPort u x).flash = d.flash := rfl
@[simp] theorem Dev.setPort_caveQ (d : Dev) (u : Nat) (x : Port) : (d.setPort u x).caveQ = d.caveQ := rfl
@[simp] theorem Dev.setPort_hostQ (d : Dev) (u : Nat) (x : Port) : (d.setPort u x).hostQ = d.hostQ := rfl
@[simp] theorem Dev.setPort_caveSrv (d : Dev) (u : Nat) (x : Port) : (d.setPort u x).caveSrv = d.caveSrv := rfl
@[simp] theorem Dev.setPort_hostSrv (d : Dev) (u : Nat) (x : Port) : (d.setPort u x).hostSrv = d.hostSrv := rfl
@[simp] theorem Dev.setPort_chans (d : Dev) (u : Nat) (x : Port) : (d.setPort u x).chans = d.chans := rfl
@[simp] theorem Dev.setPort_funcs (d : Dev) (u : Nat) (x : Port) : (d.setPort u x).funcs = d.funcs := rfl
@[simp] theorem Dev.setPort_arbs (d : Dev) (u : Nat) (x : Port) : (d.setPort u x).arbs = d.arbs := rfl
@[simp] theorem Dev.setPort_fabDrop (d : Dev) (u : Nat) (x : Port) : (d.setPort u x).fabDrop = d.fabDrop := rfl
@[simp] theorem Dev.setPort_bar2 (d : Dev) (u : Nat) (x : Port) : (d.setPort u x).bar2 = d.bar2 := rfl
@[simp] theorem Dev.setPort_wtLast (d : Dev) (u : Nat) (x : Port) : (d.setPort u x).wtLast = d.wtLast := rfl
@[simp] theorem Dev.setPort_joinAs (d : Dev) (u : Nat) (x : Port) : (d.setPort u x).joinAs = d.joinAs := rfl
@[simp] theorem Dev.setPort_serial (d : Dev) (u : Nat) (x : Port) : (d.setPort u x).serial = d.serial := rfl
@[simp] theorem Dev.setPort_board (d : Dev) (u : Nat) (x : Port) : (d.setPort u x).board = d.board := rfl
@[simp] theorem Dev.setPort_bifur (d : Dev) (u : Nat) (x : Port) : (d.setPort u x).bifur = d.bifur := rfl
@[simp] theorem Dev.setPort_slot (d : Dev) (u : Nat) (x : Port) : (d.setPort u x).slot = d.slot := rfl
@[simp] theorem Dev.setPort_shadows (d : Dev) (u : Nat) (x : Port) : (d.setPort u x).shadows = d.shadows := rfl
@[simp] theorem Dev.setPort_jtag (d : Dev) (u : Nat) (x : Port) : (d.setPort u x).jtag = d.jtag := rfl
@[simp] theorem Dev.setPort_free (d : Dev) (u : Nat) (x : Port) : (d.setPort u x).free = d.free := rfl
@[simp] theorem Dev.setPort_out (d : Dev) (u : Nat) (x : Port) : (d.setPort u x).out = d.out := rfl

@[simp] theorem Dev.updPort_cyc (d : Dev) (u : Nat) (g : Port → Port) : (d.updPort u g).cyc = d.cyc := rfl
@[simp] theorem Dev.updPort_rst (d : Dev) (u : Nat) (g : Port → Port) : (d.updPort u g).rst = d.rst := rfl
@[simp] theorem Dev.updPort_cores (d : Dev) (u : Nat) (g : Port → Port) : (d.updPort u g).cores = d.cores := rfl
@[simp] theorem Dev.updPort_net (d : Dev) (u : Nat) (g : Port → Port) : (d.updPort u g).net = d.net := rfl
@[simp] theorem Dev.updPort_edge (d : Dev) (u : Nat) (g : Port → Port) : (d.updPort u g).edge = d.edge := rfl
@[simp] theorem Dev.updPort_parts (d : Dev) (u : Nat) (g : Port → Port) : (d.updPort u g).parts = d.parts := rfl
@[simp] theorem Dev.updPort_turn (d : Dev) (u : Nat) (g : Port → Port) : (d.updPort u g).turn = d.turn := rfl
@[simp] theorem Dev.updPort_errs (d : Dev) (u : Nat) (g : Port → Port) : (d.updPort u g).errs = d.errs := rfl
@[simp] theorem Dev.updPort_moulds (d : Dev) (u : Nat) (g : Port → Port) : (d.updPort u g).moulds = d.moulds := rfl
@[simp] theorem Dev.updPort_loads (d : Dev) (u : Nat) (g : Port → Port) : (d.updPort u g).loads = d.loads := rfl
@[simp] theorem Dev.updPort_offers (d : Dev) (u : Nat) (g : Port → Port) : (d.updPort u g).offers = d.offers := rfl
@[simp] theorem Dev.updPort_clk (d : Dev) (u : Nat) (g : Port → Port) : (d.updPort u g).clk = d.clk := rfl
@[simp] theorem Dev.updPort_pwr (d : Dev) (u : Nat) (g : Port → Port) : (d.updPort u g).pwr = d.pwr := rfl
@[simp] theorem Dev.updPort_crm (d : Dev) (u : Nat) (g : Port → Port) : (d.updPort u g).crm = d.crm := rfl
@[simp] theorem Dev.updPort_flash (d : Dev) (u : Nat) (g : Port → Port) : (d.updPort u g).flash = d.flash := rfl
@[simp] theorem Dev.updPort_caveQ (d : Dev) (u : Nat) (g : Port → Port) : (d.updPort u g).caveQ = d.caveQ := rfl
@[simp] theorem Dev.updPort_hostQ (d : Dev) (u : Nat) (g : Port → Port) : (d.updPort u g).hostQ = d.hostQ := rfl
@[simp] theorem Dev.updPort_caveSrv (d : Dev) (u : Nat) (g : Port → Port) : (d.updPort u g).caveSrv = d.caveSrv := rfl
@[simp] theorem Dev.updPort_hostSrv (d : Dev) (u : Nat) (g : Port → Port) : (d.updPort u g).hostSrv = d.hostSrv := rfl
@[simp] theorem Dev.updPort_chans (d : Dev) (u : Nat) (g : Port → Port) : (d.updPort u g).chans = d.chans := rfl
@[simp] theorem Dev.updPort_funcs (d : Dev) (u : Nat) (g : Port → Port) : (d.updPort u g).funcs = d.funcs := rfl
@[simp] theorem Dev.updPort_arbs (d : Dev) (u : Nat) (g : Port → Port) : (d.updPort u g).arbs = d.arbs := rfl
@[simp] theorem Dev.updPort_fabDrop (d : Dev) (u : Nat) (g : Port → Port) : (d.updPort u g).fabDrop = d.fabDrop := rfl
@[simp] theorem Dev.updPort_bar2 (d : Dev) (u : Nat) (g : Port → Port) : (d.updPort u g).bar2 = d.bar2 := rfl
@[simp] theorem Dev.updPort_wtLast (d : Dev) (u : Nat) (g : Port → Port) : (d.updPort u g).wtLast = d.wtLast := rfl
@[simp] theorem Dev.updPort_joinAs (d : Dev) (u : Nat) (g : Port → Port) : (d.updPort u g).joinAs = d.joinAs := rfl
@[simp] theorem Dev.updPort_serial (d : Dev) (u : Nat) (g : Port → Port) : (d.updPort u g).serial = d.serial := rfl
@[simp] theorem Dev.updPort_board (d : Dev) (u : Nat) (g : Port → Port) : (d.updPort u g).board = d.board := rfl
@[simp] theorem Dev.updPort_bifur (d : Dev) (u : Nat) (g : Port → Port) : (d.updPort u g).bifur = d.bifur := rfl
@[simp] theorem Dev.updPort_slot (d : Dev) (u : Nat) (g : Port → Port) : (d.updPort u g).slot = d.slot := rfl
@[simp] theorem Dev.updPort_shadows (d : Dev) (u : Nat) (g : Port → Port) : (d.updPort u g).shadows = d.shadows := rfl
@[simp] theorem Dev.updPort_jtag (d : Dev) (u : Nat) (g : Port → Port) : (d.updPort u g).jtag = d.jtag := rfl
@[simp] theorem Dev.updPort_free (d : Dev) (u : Nat) (g : Port → Port) : (d.updPort u g).free = d.free := rfl
@[simp] theorem Dev.updPort_out (d : Dev) (u : Nat) (g : Port → Port) : (d.updPort u g).out = d.out := rfl

@[simp] theorem Dev.setArb_cyc (d : Dev) (a : Nat) (x : Arb) : (d.setArb a x).cyc = d.cyc := rfl
@[simp] theorem Dev.setArb_rst (d : Dev) (a : Nat) (x : Arb) : (d.setArb a x).rst = d.rst := rfl
@[simp] theorem Dev.setArb_cores (d : Dev) (a : Nat) (x : Arb) : (d.setArb a x).cores = d.cores := rfl
@[simp] theorem Dev.setArb_net (d : Dev) (a : Nat) (x : Arb) : (d.setArb a x).net = d.net := rfl
@[simp] theorem Dev.setArb_edge (d : Dev) (a : Nat) (x : Arb) : (d.setArb a x).edge = d.edge := rfl
@[simp] theorem Dev.setArb_parts (d : Dev) (a : Nat) (x : Arb) : (d.setArb a x).parts = d.parts := rfl
@[simp] theorem Dev.setArb_turn (d : Dev) (a : Nat) (x : Arb) : (d.setArb a x).turn = d.turn := rfl
@[simp] theorem Dev.setArb_errs (d : Dev) (a : Nat) (x : Arb) : (d.setArb a x).errs = d.errs := rfl
@[simp] theorem Dev.setArb_moulds (d : Dev) (a : Nat) (x : Arb) : (d.setArb a x).moulds = d.moulds := rfl
@[simp] theorem Dev.setArb_loads (d : Dev) (a : Nat) (x : Arb) : (d.setArb a x).loads = d.loads := rfl
@[simp] theorem Dev.setArb_offers (d : Dev) (a : Nat) (x : Arb) : (d.setArb a x).offers = d.offers := rfl
@[simp] theorem Dev.setArb_clk (d : Dev) (a : Nat) (x : Arb) : (d.setArb a x).clk = d.clk := rfl
@[simp] theorem Dev.setArb_pwr (d : Dev) (a : Nat) (x : Arb) : (d.setArb a x).pwr = d.pwr := rfl
@[simp] theorem Dev.setArb_crm (d : Dev) (a : Nat) (x : Arb) : (d.setArb a x).crm = d.crm := rfl
@[simp] theorem Dev.setArb_flash (d : Dev) (a : Nat) (x : Arb) : (d.setArb a x).flash = d.flash := rfl
@[simp] theorem Dev.setArb_caveQ (d : Dev) (a : Nat) (x : Arb) : (d.setArb a x).caveQ = d.caveQ := rfl
@[simp] theorem Dev.setArb_hostQ (d : Dev) (a : Nat) (x : Arb) : (d.setArb a x).hostQ = d.hostQ := rfl
@[simp] theorem Dev.setArb_caveSrv (d : Dev) (a : Nat) (x : Arb) : (d.setArb a x).caveSrv = d.caveSrv := rfl
@[simp] theorem Dev.setArb_hostSrv (d : Dev) (a : Nat) (x : Arb) : (d.setArb a x).hostSrv = d.hostSrv := rfl
@[simp] theorem Dev.setArb_chans (d : Dev) (a : Nat) (x : Arb) : (d.setArb a x).chans = d.chans := rfl
@[simp] theorem Dev.setArb_funcs (d : Dev) (a : Nat) (x : Arb) : (d.setArb a x).funcs = d.funcs := rfl
@[simp] theorem Dev.setArb_ports (d : Dev) (a : Nat) (x : Arb) : (d.setArb a x).ports = d.ports := rfl
@[simp] theorem Dev.setArb_fabDrop (d : Dev) (a : Nat) (x : Arb) : (d.setArb a x).fabDrop = d.fabDrop := rfl
@[simp] theorem Dev.setArb_bar2 (d : Dev) (a : Nat) (x : Arb) : (d.setArb a x).bar2 = d.bar2 := rfl
@[simp] theorem Dev.setArb_wtLast (d : Dev) (a : Nat) (x : Arb) : (d.setArb a x).wtLast = d.wtLast := rfl
@[simp] theorem Dev.setArb_joinAs (d : Dev) (a : Nat) (x : Arb) : (d.setArb a x).joinAs = d.joinAs := rfl
@[simp] theorem Dev.setArb_serial (d : Dev) (a : Nat) (x : Arb) : (d.setArb a x).serial = d.serial := rfl
@[simp] theorem Dev.setArb_board (d : Dev) (a : Nat) (x : Arb) : (d.setArb a x).board = d.board := rfl
@[simp] theorem Dev.setArb_bifur (d : Dev) (a : Nat) (x : Arb) : (d.setArb a x).bifur = d.bifur := rfl
@[simp] theorem Dev.setArb_slot (d : Dev) (a : Nat) (x : Arb) : (d.setArb a x).slot = d.slot := rfl
@[simp] theorem Dev.setArb_shadows (d : Dev) (a : Nat) (x : Arb) : (d.setArb a x).shadows = d.shadows := rfl
@[simp] theorem Dev.setArb_jtag (d : Dev) (a : Nat) (x : Arb) : (d.setArb a x).jtag = d.jtag := rfl
@[simp] theorem Dev.setArb_free (d : Dev) (a : Nat) (x : Arb) : (d.setArb a x).free = d.free := rfl
@[simp] theorem Dev.setArb_out (d : Dev) (a : Nat) (x : Arb) : (d.setArb a x).out = d.out := rfl

@[simp] theorem Dev.updMould_cyc (d : Dev) (pm : Nat) (f : Mould → Mould) : (d.updMould pm f).cyc = d.cyc := rfl
@[simp] theorem Dev.updMould_rst (d : Dev) (pm : Nat) (f : Mould → Mould) : (d.updMould pm f).rst = d.rst := rfl
@[simp] theorem Dev.updMould_cores (d : Dev) (pm : Nat) (f : Mould → Mould) : (d.updMould pm f).cores = d.cores := rfl
@[simp] theorem Dev.updMould_net (d : Dev) (pm : Nat) (f : Mould → Mould) : (d.updMould pm f).net = d.net := rfl
@[simp] theorem Dev.updMould_edge (d : Dev) (pm : Nat) (f : Mould → Mould) : (d.updMould pm f).edge = d.edge := rfl
@[simp] theorem Dev.updMould_parts (d : Dev) (pm : Nat) (f : Mould → Mould) : (d.updMould pm f).parts = d.parts := rfl
@[simp] theorem Dev.updMould_turn (d : Dev) (pm : Nat) (f : Mould → Mould) : (d.updMould pm f).turn = d.turn := rfl
@[simp] theorem Dev.updMould_errs (d : Dev) (pm : Nat) (f : Mould → Mould) : (d.updMould pm f).errs = d.errs := rfl
@[simp] theorem Dev.updMould_loads (d : Dev) (pm : Nat) (f : Mould → Mould) : (d.updMould pm f).loads = d.loads := rfl
@[simp] theorem Dev.updMould_offers (d : Dev) (pm : Nat) (f : Mould → Mould) : (d.updMould pm f).offers = d.offers := rfl
@[simp] theorem Dev.updMould_clk (d : Dev) (pm : Nat) (f : Mould → Mould) : (d.updMould pm f).clk = d.clk := rfl
@[simp] theorem Dev.updMould_pwr (d : Dev) (pm : Nat) (f : Mould → Mould) : (d.updMould pm f).pwr = d.pwr := rfl
@[simp] theorem Dev.updMould_crm (d : Dev) (pm : Nat) (f : Mould → Mould) : (d.updMould pm f).crm = d.crm := rfl
@[simp] theorem Dev.updMould_flash (d : Dev) (pm : Nat) (f : Mould → Mould) : (d.updMould pm f).flash = d.flash := rfl
@[simp] theorem Dev.updMould_caveQ (d : Dev) (pm : Nat) (f : Mould → Mould) : (d.updMould pm f).caveQ = d.caveQ := rfl
@[simp] theorem Dev.updMould_hostQ (d : Dev) (pm : Nat) (f : Mould → Mould) : (d.updMould pm f).hostQ = d.hostQ := rfl
@[simp] theorem Dev.updMould_caveSrv (d : Dev) (pm : Nat) (f : Mould → Mould) : (d.updMould pm f).caveSrv = d.caveSrv := rfl
@[simp] theorem Dev.updMould_hostSrv (d : Dev) (pm : Nat) (f : Mould → Mould) : (d.updMould pm f).hostSrv = d.hostSrv := rfl
@[simp] theorem Dev.updMould_chans (d : Dev) (pm : Nat) (f : Mould → Mould) : (d.updMould pm f).chans = d.chans := rfl
@[simp] theorem Dev.updMould_funcs (d : Dev) (pm : Nat) (f : Mould → Mould) : (d.updMould pm f).funcs = d.funcs := rfl
@[simp] theorem Dev.updMould_ports (d : Dev) (pm : Nat) (f : Mould → Mould) : (d.updMould pm f).ports = d.ports := rfl
@[simp] theorem Dev.updMould_arbs (d : Dev) (pm : Nat) (f : Mould → Mould) : (d.updMould pm f).arbs = d.arbs := rfl
@[simp] theorem Dev.updMould_fabDrop (d : Dev) (pm : Nat) (f : Mould → Mould) : (d.updMould pm f).fabDrop = d.fabDrop := rfl
@[simp] theorem Dev.updMould_bar2 (d : Dev) (pm : Nat) (f : Mould → Mould) : (d.updMould pm f).bar2 = d.bar2 := rfl
@[simp] theorem Dev.updMould_wtLast (d : Dev) (pm : Nat) (f : Mould → Mould) : (d.updMould pm f).wtLast = d.wtLast := rfl
@[simp] theorem Dev.updMould_joinAs (d : Dev) (pm : Nat) (f : Mould → Mould) : (d.updMould pm f).joinAs = d.joinAs := rfl
@[simp] theorem Dev.updMould_serial (d : Dev) (pm : Nat) (f : Mould → Mould) : (d.updMould pm f).serial = d.serial := rfl
@[simp] theorem Dev.updMould_board (d : Dev) (pm : Nat) (f : Mould → Mould) : (d.updMould pm f).board = d.board := rfl
@[simp] theorem Dev.updMould_bifur (d : Dev) (pm : Nat) (f : Mould → Mould) : (d.updMould pm f).bifur = d.bifur := rfl
@[simp] theorem Dev.updMould_slot (d : Dev) (pm : Nat) (f : Mould → Mould) : (d.updMould pm f).slot = d.slot := rfl
@[simp] theorem Dev.updMould_shadows (d : Dev) (pm : Nat) (f : Mould → Mould) : (d.updMould pm f).shadows = d.shadows := rfl
@[simp] theorem Dev.updMould_jtag (d : Dev) (pm : Nat) (f : Mould → Mould) : (d.updMould pm f).jtag = d.jtag := rfl
@[simp] theorem Dev.updMould_free (d : Dev) (pm : Nat) (f : Mould → Mould) : (d.updMould pm f).free = d.free := rfl
@[simp] theorem Dev.updMould_out (d : Dev) (pm : Nat) (f : Mould → Mould) : (d.updMould pm f).out = d.out := rfl

@[simp] theorem Dev.emit_cyc (d : Dev) (o : Out) : (d.emit o).cyc = d.cyc := rfl
@[simp] theorem Dev.emit_rst (d : Dev) (o : Out) : (d.emit o).rst = d.rst := rfl
@[simp] theorem Dev.emit_cores (d : Dev) (o : Out) : (d.emit o).cores = d.cores := rfl
@[simp] theorem Dev.emit_net (d : Dev) (o : Out) : (d.emit o).net = d.net := rfl
@[simp] theorem Dev.emit_edge (d : Dev) (o : Out) : (d.emit o).edge = d.edge := rfl
@[simp] theorem Dev.emit_parts (d : Dev) (o : Out) : (d.emit o).parts = d.parts := rfl
@[simp] theorem Dev.emit_turn (d : Dev) (o : Out) : (d.emit o).turn = d.turn := rfl
@[simp] theorem Dev.emit_errs (d : Dev) (o : Out) : (d.emit o).errs = d.errs := rfl
@[simp] theorem Dev.emit_moulds (d : Dev) (o : Out) : (d.emit o).moulds = d.moulds := rfl
@[simp] theorem Dev.emit_loads (d : Dev) (o : Out) : (d.emit o).loads = d.loads := rfl
@[simp] theorem Dev.emit_offers (d : Dev) (o : Out) : (d.emit o).offers = d.offers := rfl
@[simp] theorem Dev.emit_clk (d : Dev) (o : Out) : (d.emit o).clk = d.clk := rfl
@[simp] theorem Dev.emit_pwr (d : Dev) (o : Out) : (d.emit o).pwr = d.pwr := rfl
@[simp] theorem Dev.emit_crm (d : Dev) (o : Out) : (d.emit o).crm = d.crm := rfl
@[simp] theorem Dev.emit_flash (d : Dev) (o : Out) : (d.emit o).flash = d.flash := rfl
@[simp] theorem Dev.emit_caveQ (d : Dev) (o : Out) : (d.emit o).caveQ = d.caveQ := rfl
@[simp] theorem Dev.emit_hostQ (d : Dev) (o : Out) : (d.emit o).hostQ = d.hostQ := rfl
@[simp] theorem Dev.emit_caveSrv (d : Dev) (o : Out) : (d.emit o).caveSrv = d.caveSrv := rfl
@[simp] theorem Dev.emit_hostSrv (d : Dev) (o : Out) : (d.emit o).hostSrv = d.hostSrv := rfl
@[simp] theorem Dev.emit_chans (d : Dev) (o : Out) : (d.emit o).chans = d.chans := rfl
@[simp] theorem Dev.emit_funcs (d : Dev) (o : Out) : (d.emit o).funcs = d.funcs := rfl
@[simp] theorem Dev.emit_ports (d : Dev) (o : Out) : (d.emit o).ports = d.ports := rfl
@[simp] theorem Dev.emit_arbs (d : Dev) (o : Out) : (d.emit o).arbs = d.arbs := rfl
@[simp] theorem Dev.emit_fabDrop (d : Dev) (o : Out) : (d.emit o).fabDrop = d.fabDrop := rfl
@[simp] theorem Dev.emit_bar2 (d : Dev) (o : Out) : (d.emit o).bar2 = d.bar2 := rfl
@[simp] theorem Dev.emit_wtLast (d : Dev) (o : Out) : (d.emit o).wtLast = d.wtLast := rfl
@[simp] theorem Dev.emit_joinAs (d : Dev) (o : Out) : (d.emit o).joinAs = d.joinAs := rfl
@[simp] theorem Dev.emit_serial (d : Dev) (o : Out) : (d.emit o).serial = d.serial := rfl
@[simp] theorem Dev.emit_board (d : Dev) (o : Out) : (d.emit o).board = d.board := rfl
@[simp] theorem Dev.emit_bifur (d : Dev) (o : Out) : (d.emit o).bifur = d.bifur := rfl
@[simp] theorem Dev.emit_slot (d : Dev) (o : Out) : (d.emit o).slot = d.slot := rfl
@[simp] theorem Dev.emit_shadows (d : Dev) (o : Out) : (d.emit o).shadows = d.shadows := rfl
@[simp] theorem Dev.emit_jtag (d : Dev) (o : Out) : (d.emit o).jtag = d.jtag := rfl
@[simp] theorem Dev.emit_free (d : Dev) (o : Out) : (d.emit o).free = d.free := rfl

@[simp] theorem Dev.emit_out (d : Dev) (o : Out) : (d.emit o).out = o :: d.out := rfl

@[simp] theorem Seq.stall_regs (x : Seq) (t : SeqState) : (x.stall t).regs = x.regs := rfl
@[simp] theorem Seq.stall_pc (x : Seq) (t : SeqState) : (x.stall t).pc = x.pc := rfl
@[simp] theorem Seq.stall_haltBy (x : Seq) (t : SeqState) : (x.stall t).haltBy = x.haltBy := rfl
@[simp] theorem Seq.stall_saved (x : Seq) (t : SeqState) : (x.stall t).saved = x.saved := rfl
@[simp] theorem Seq.stall_loops (x : Seq) (t : SeqState) : (x.stall t).loops = x.loops := rfl
@[simp] theorem Seq.stall_rtn (x : Seq) (t : SeqState) : (x.stall t).rtn = x.rtn := rfl
@[simp] theorem Seq.stall_ended (x : Seq) (t : SeqState) : (x.stall t).ended = x.ended := rfl
@[simp] theorem Seq.stall_stallRun (x : Seq) (t : SeqState) : (x.stall t).stallRun = x.stallRun := rfl
@[simp] theorem Seq.stall_disp (x : Seq) (t : SeqState) : (x.stall t).disp = x.disp := rfl
@[simp] theorem Seq.stall_stalls (x : Seq) (t : SeqState) : (x.stall t).stalls = x.stalls := rfl

@[simp] theorem Seq.stall_st (x : Seq) (t : SeqState) : (x.stall t).st = t := rfl

@[simp] theorem Seq.count_regs (x : Seq) : (x.count).regs = x.regs := rfl
@[simp] theorem Seq.count_pc (x : Seq) : (x.count).pc = x.pc := rfl
@[simp] theorem Seq.count_haltBy (x : Seq) : (x.count).haltBy = x.haltBy := rfl
@[simp] theorem Seq.count_saved (x : Seq) : (x.count).saved = x.saved := rfl
@[simp] theorem Seq.count_loops (x : Seq) : (x.count).loops = x.loops := rfl
@[simp] theorem Seq.count_rtn (x : Seq) : (x.count).rtn = x.rtn := rfl
@[simp] theorem Seq.count_ended (x : Seq) : (x.count).ended = x.ended := rfl
@[simp] theorem Seq.count_stalls (x : Seq) : (x.count).stalls = x.stalls := rfl

@[simp] theorem Seq.count_st (x : Seq) : x.count.st = x.running := rfl
@[simp] theorem Seq.count_stallRun (x : Seq) : x.count.stallRun = 0 := rfl
@[simp] theorem Seq.count_disp (x : Seq) : x.count.disp = x.disp + 1 := rfl

@[simp] theorem Seq.advance_regs (x : Seq) : (x.advance).regs = x.regs := rfl
@[simp] theorem Seq.advance_haltBy (x : Seq) : (x.advance).haltBy = x.haltBy := rfl
@[simp] theorem Seq.advance_saved (x : Seq) : (x.advance).saved = x.saved := rfl
@[simp] theorem Seq.advance_rtn (x : Seq) : (x.advance).rtn = x.rtn := rfl
@[simp] theorem Seq.advance_ended (x : Seq) : (x.advance).ended = x.ended := rfl
@[simp] theorem Seq.advance_stalls (x : Seq) : (x.advance).stalls = x.stalls := rfl

@[simp] theorem Seq.advance_st (x : Seq) : x.advance.st = x.running := rfl
@[simp] theorem Seq.advance_disp (x : Seq) : x.advance.disp = x.disp + 1 := rfl

/-! ### The keyed parts: a write is read back, every other key stays -/

@[simp] theorem Dev.core_setCore (d : Dev) (k : Nat) (c : Core) : (d.setCore k c).core k = c := lk_up_same _ _ _ _
theorem Dev.core_setCore_ne (d : Dev) {k i : Nat} (h : i ≠ k) (c : Core) : (d.setCore k c).core i = d.core i :=
  lk_up_ne _ _ h _
@[simp] theorem Dev.core_updCore (d : Dev) (k : Nat) (f : Core → Core) : (d.updCore k f).core k = f (d.core k) :=
  lk_up_same _ _ _ _
theorem Dev.core_updCore_ne (d : Dev) {k i : Nat} (h : i ≠ k) (f : Core → Core) : (d.updCore k f).core i = d.core i :=
  lk_up_ne _ _ h _
@[simp] theorem Dev.part_setPart (d : Dev) (p : Nat) (t : PartTime) : (d.setPart p t).part p = t := lk_up_same _ _ _ _
theorem Dev.part_setPart_ne (d : Dev) {p i : Nat} (h : i ≠ p) (t : PartTime) : (d.setPart p t).part i = d.part i :=
  lk_up_ne _ _ h _
@[simp] theorem Dev.part_updPart (d : Dev) (p : Nat) (f : PartTime → PartTime) : (d.updPart p f).part p = f (d.part p) :=
  lk_up_same _ _ _ _
theorem Dev.part_updPart_ne (d : Dev) {p i : Nat} (h : i ≠ p) (f : PartTime → PartTime) :
    (d.updPart p f).part i = d.part i := lk_up_ne _ _ h _
@[simp] theorem Dev.func_setFunc (d : Dev) (f : Nat) (x : Func) : (d.setFunc f x).func f = x := lk_up_same _ _ _ _
theorem Dev.func_setFunc_ne (d : Dev) {f i : Nat} (h : i ≠ f) (x : Func) : (d.setFunc f x).func i = d.func i :=
  lk_up_ne _ _ h _
@[simp] theorem Dev.func_updFunc (d : Dev) (f : Nat) (g : Func → Func) : (d.updFunc f g).func f = g (d.func f) :=
  lk_up_same _ _ _ _
theorem Dev.func_updFunc_ne (d : Dev) {f i : Nat} (h : i ≠ f) (g : Func → Func) : (d.updFunc f g).func i = d.func i :=
  lk_up_ne _ _ h _
@[simp] theorem Dev.port_setPort (d : Dev) (u : Nat) (x : Port) : (d.setPort u x).port u = x := lk_up_same _ _ _ _
theorem Dev.port_setPort_ne (d : Dev) {u i : Nat} (h : i ≠ u) (x : Port) : (d.setPort u x).port i = d.port i :=
  lk_up_ne _ _ h _
@[simp] theorem Dev.port_updPort (d : Dev) (u : Nat) (g : Port → Port) : (d.updPort u g).port u = g (d.port u) :=
  lk_up_same _ _ _ _
theorem Dev.port_updPort_ne (d : Dev) {u i : Nat} (h : i ≠ u) (g : Port → Port) : (d.updPort u g).port i = d.port i :=
  lk_up_ne _ _ h _
@[simp] theorem Dev.arb_setArb (d : Dev) (a : Nat) (x : Arb) : (d.setArb a x).arb a = x := lk_up_same _ _ _ _
theorem Dev.arb_setArb_ne (d : Dev) {a i : Nat} (h : i ≠ a) (x : Arb) : (d.setArb a x).arb i = d.arb i :=
  lk_up_ne _ _ h _

/-! ### Sequencers of a core -/

@[simp] theorem Core.seq_setSeq (c : Core) (q : SeqId) (x : Seq) : (c.setSeq q x).seq q = x := by cases q <;> rfl
theorem Core.seq_setSeq_ne (c : Core) {q r : SeqId} (h : r ≠ q) (x : Seq) : (c.setSeq q x).seq r = c.seq r := by
  cases q <;> cases r <;> first | rfl | exact absurd rfl h
@[simp] theorem Core.setSeq_psWdrop (c : Core) (q : SeqId) (x : Seq) : (c.setSeq q x).psWdrop = c.psWdrop := by cases q <;> rfl
@[simp] theorem Core.setSeq_rtnOver (c : Core) (q : SeqId) (x : Seq) : (c.setSeq q x).rtnOver = c.rtnOver := by cases q <;> rfl
@[simp] theorem Core.setSeq_wdog (c : Core) (q : SeqId) (x : Seq) : (c.setSeq q x).wdog = c.wdog := by cases q <;> rfl
@[simp] theorem Core.setSeq_wdogExp (c : Core) (q : SeqId) (x : Seq) : (c.setSeq q x).wdogExp = c.wdogExp := by cases q <;> rfl
@[simp] theorem Core.setSeq_dqdir (c : Core) (q : SeqId) (x : Seq) : (c.setSeq q x).dqdir = c.dqdir := by cases q <;> rfl
@[simp] theorem Core.setSeq_syn (c : Core) (q : SeqId) (x : Seq) : (c.setSeq q x).syn = c.syn := by cases q <;> rfl
@[simp] theorem Core.setSeq_dq (c : Core) (q : SeqId) (x : Seq) : (c.setSeq q x).dq = c.dq := by cases q <;> rfl
@[simp] theorem Core.setSeq_mq (c : Core) (q : SeqId) (x : Seq) : (c.setSeq q x).mq = c.mq := by cases q <;> rfl
@[simp] theorem Core.setSeq_vq (c : Core) (q : SeqId) (x : Seq) : (c.setSeq q x).vq = c.vq := by cases q <;> rfl
@[simp] theorem Core.setSeq_tq (c : Core) (q : SeqId) (x : Seq) : (c.setSeq q x).tq = c.tq := by cases q <;> rfl
@[simp] theorem Core.setSeq_desc (c : Core) (q : SeqId) (x : Seq) : (c.setSeq q x).desc = c.desc := by cases q <;> rfl
@[simp] theorem Core.setSeq_creates (c : Core) (q : SeqId) (x : Seq) : (c.setSeq q x).creates = c.creates := by cases q <;> rfl
@[simp] theorem Core.setSeq_jobs (c : Core) (q : SeqId) (x : Seq) : (c.setSeq q x).jobs = c.jobs := by cases q <;> rfl
@[simp] theorem Core.setSeq_fgw (c : Core) (q : SeqId) (x : Seq) : (c.setSeq q x).fgw = c.fgw := by cases q <;> rfl
@[simp] theorem Core.setSeq_fgr (c : Core) (q : SeqId) (x : Seq) : (c.setSeq q x).fgr = c.fgr := by cases q <;> rfl
@[simp] theorem Core.setSeq_lsq (c : Core) (q : SeqId) (x : Seq) : (c.setSeq q x).lsq = c.lsq := by cases q <;> rfl
@[simp] theorem Core.setSeq_numFlags (c : Core) (q : SeqId) (x : Seq) : (c.setSeq q x).numFlags = c.numFlags := by cases q <;> rfl
@[simp] theorem Core.setSeq_mx (c : Core) (q : SeqId) (x : Seq) : (c.setSeq q x).mx = c.mx := by cases q <;> rfl
@[simp] theorem Core.setSeq_vec (c : Core) (q : SeqId) (x : Seq) : (c.setSeq q x).vec = c.vec := by cases q <;> rfl
@[simp] theorem Core.setSeq_cnt (c : Core) (q : SeqId) (x : Seq) : (c.setSeq q x).cnt = c.cnt := by cases q <;> rfl
@[simp] theorem Core.setSeq_digest (c : Core) (q : SeqId) (x : Seq) : (c.setSeq q x).digest = c.digest := by cases q <;> rfl

@[simp] theorem Dev.seq_setSeq (d : Dev) (k : Nat) (q : SeqId) (x : Seq) : (d.setSeq k q x).seq k q = x := by
  simp [Dev.seq, Dev.setSeq]

/-! ### Registers of a sequencer: s0 reads 0 and discards a write (R46) -/

@[simp] theorem Seq.get_zero (x : Seq) : x.get 0 = 0 := rfl
@[simp] theorem Seq.set_zero (x : Seq) (v : Word) : x.set 0 v = x := rfl
theorem Seq.get_set_same (x : Seq) (n : Nat) (v : Word) (h : n ≠ 0) : (x.set n v).get n = v := by
  simp [Seq.get, Seq.set, h]
theorem Seq.get_set_ne (x : Seq) {n i : Nat} (v : Word) (h : i ≠ n) : (x.set n v).get i = x.get i := by
  unfold Seq.get Seq.set
  by_cases hn : n = 0
  · rw [if_pos hn]
  · rw [if_neg hn]
    by_cases hi : i = 0
    · rw [if_pos hi, if_pos hi]
    · rw [if_neg hi, if_neg hi]; exact lk_up_ne _ _ h _
@[simp] theorem Seq.get_advance (x : Seq) (n : Nat) : x.advance.get n = x.get n := rfl
@[simp] theorem Seq.get_count (x : Seq) (n : Nat) : x.count.get n = x.get n := rfl
@[simp] theorem Seq.get_stall (x : Seq) (t : SeqState) (n : Nat) : (x.stall t).get n = x.get n := rfl

@[simp] theorem Seq.set_pc (x : Seq) (n : Nat) (v : Word) : (x.set n v).pc = x.pc := by unfold Seq.set; split <;> rfl
@[simp] theorem Seq.set_st (x : Seq) (n : Nat) (v : Word) : (x.set n v).st = x.st := by unfold Seq.set; split <;> rfl
@[simp] theorem Seq.set_haltBy (x : Seq) (n : Nat) (v : Word) : (x.set n v).haltBy = x.haltBy := by unfold Seq.set; split <;> rfl
@[simp] theorem Seq.set_saved (x : Seq) (n : Nat) (v : Word) : (x.set n v).saved = x.saved := by unfold Seq.set; split <;> rfl
@[simp] theorem Seq.set_loops (x : Seq) (n : Nat) (v : Word) : (x.set n v).loops = x.loops := by unfold Seq.set; split <;> rfl
@[simp] theorem Seq.set_rtn (x : Seq) (n : Nat) (v : Word) : (x.set n v).rtn = x.rtn := by unfold Seq.set; split <;> rfl
@[simp] theorem Seq.set_ended (x : Seq) (n : Nat) (v : Word) : (x.set n v).ended = x.ended := by unfold Seq.set; split <;> rfl
@[simp] theorem Seq.set_stallRun (x : Seq) (n : Nat) (v : Word) : (x.set n v).stallRun = x.stallRun := by unfold Seq.set; split <;> rfl
@[simp] theorem Seq.set_disp (x : Seq) (n : Nat) (v : Word) : (x.set n v).disp = x.disp := by unfold Seq.set; split <;> rfl
@[simp] theorem Seq.set_stalls (x : Seq) (n : Nat) (v : Word) : (x.set n v).stalls = x.stalls := by unfold Seq.set; split <;> rfl

end Sys2Proof.Machine
end

