-- ==== Sys2Proof/Laws/Ops.lean ====
section
/-! SUPPORT. What each shared operation can do, said once: the ways a meaning is lifted to the state, a sequencer's row, a
host command. -/

namespace Sys2Proof.Machine

/-! ### Memory changes in order -/

theorem memAll_wf (w : List MemOp) : (m : Memory) → m.wf → (memAll m w).wf := by
  induction w with
  | nil => exact fun _ h => h
  | cons o r ih => exact fun m h => ih _ (MemOp.onMem_wf m o h)

theorem caveAll_wf (w : List MemOp) : (m : Memory) → m.wf → (caveAll m w).wf := by
  induction w with
  | nil => exact fun _ h => h
  | cons o r ih => exact fun m h => ih _ (MemOp.onCave_wf m o h)

@[simp] theorem memAll_nil (m : Memory) : memAll m [] = m := rfl
@[simp] theorem caveAll_nil (m : Memory) : caveAll m [] = m := rfl
@[simp] theorem memAll_cons (m : Memory) (o : MemOp) (w : List MemOp) : memAll m (o :: w) = memAll (o.onMem m) w := rfl
@[simp] theorem caveAll_cons (m : Memory) (o : MemOp) (w : List MemOp) : caveAll m (o :: w) = caveAll (o.onCave m) w := rfl

/-- What every meaning may do to the parts of the state beside the device: canonical memories stay so, the queue stays. -/
def Keeps (s : State) (o : Host.Outcome State Fault Refusal) : Prop :=
  ∀ t, o = .next t → t.pending = s.pending ∧ (s.Canonical → t.Canonical)

theorem lift_keeps (f : Dev → Dev) (s : State) : Keeps s (lift f s) := by
  rintro t ⟨⟩; exact ⟨rfl, id⟩

theorem liftR_keeps (f : Memory → Memory → Dev → Dev) (s : State) : Keeps s (liftR f s) := by
  rintro t ⟨⟩; exact ⟨rfl, id⟩

theorem liftW_keeps (f : Memory → Memory → Dev → Dev × List MemOp) (s : State) : Keeps s (liftW f s) := by
  rintro t ⟨⟩; exact ⟨rfl, fun h => ⟨memAll_wf _ _ h.1, caveAll_wf _ _ h.2⟩⟩

theorem liftO_keeps (f : Memory → Memory → Dev → Res) (s : State) : Keeps s (liftO f s) := by
  intro t h
  unfold liftO at h
  split at h
  · cases h; exact ⟨rfl, fun h => ⟨memAll_wf _ _ h.1, caveAll_wf _ _ h.2⟩⟩
  · cases h
  · cases h

theorem seqOp_keeps (k : Nat) (q : SeqId) (op : Nat) (f : Memory → Dev → Nat → Res) (s : State) :
    Keeps s (seqOp k q op f s) := liftO_keeps _ s

/-- A meaning that answers changes and memory changes, as one equation. -/
theorem liftO_ok {f : Memory → Memory → Dev → Res} {s : State} {d : Dev} {w : List MemOp}
    (h : f s.mem s.cave s.dev = .ok d w) :
    liftO f s = .next { s with dev := d, mem := memAll s.mem w, cave := caveAll s.cave w } := by
  unfold liftO; rw [h]

/-! ### A sequencer's row -/

/-- A row at whose word the sequencer stands runs its body. -/
theorem seqOp_go {k : Nat} {q : SeqId} {op w : Nat} {f : Memory → Dev → Nat → Res} {s : State}
    (h : front s.mem s.dev k q op = .go w) :
    seqOp k q op f s = liftO (fun m _ d => f m d w) s := by
  simp only [seqOp, liftO, h]

/-- A row at whose word the sequencer does not stand changes nothing. -/
theorem seqOp_no {k : Nat} {q : SeqId} {op : Nat} {f : Memory → Dev → Nat → Res} {s : State}
    (h : front s.mem s.dev k q op = .no) : seqOp k q op f s = .next s := by
  simp only [seqOp, liftO, h, memAll_nil, caveAll_nil]

/-- An undefined word is refused by name (R155). -/
theorem seqOp_bad {k : Nat} {q : SeqId} {op : Nat} {f : Memory → Dev → Nat → Res} {s : State}
    (h : front s.mem s.dev k q op = .bad) : seqOp k q op f s = .refused (.undefinedWord op) := by
  simp only [seqOp, liftO, h]

/-- A word that only writes a register, in full. -/
theorem regOp_go {k : Nat} {q : SeqId} {op w : Nat} {val : Dev → Seq → Nat → Word} {s : State}
    (h : front s.mem s.dev k q op = .go w) :
    regOp k q op val s =
      .next { s with dev := s.dev.setSeq k q (((s.dev.seq k q).set (wD w) (val s.dev (s.dev.seq k q) w)).advance) } := by
  unfold regOp; rw [seqOp_go h]; rfl

/-- A dispatch into an engine queue with room, no create of a named handle running. -/
theorem enqueue_go {k : Nat} {q : SeqId} {op w : Nat} {eng : Eng} {hs rs : Nat → List Nat} {s : State}
    (h : front s.mem s.dev k q op = .go w) (hc : (decide (q = .A) && (s.dev.core k).creating (hs w)) = false)
    (hl : ((s.dev.core k).queue eng).length < 8) :
    enqueue k q op eng hs rs s =
      .next { s with dev := s.dev.setCore k (((s.dev.core k).pushEntry eng w (hs w) ((rs w).map ((s.dev.core k).seq q).get)).setSeq q
        ((s.dev.core k).seq q).advance) } := by
  unfold enqueue; rw [seqOp_go h]
  unfold liftO
  simp only [hc, Bool.false_eq_true, if_false, ge_iff_le, Nat.not_le.mpr hl, memAll_nil, caveAll_nil]

/-- A dispatch into a full queue stalls the sequencer (R47). -/
theorem enqueue_full {k : Nat} {q : SeqId} {op w : Nat} {eng : Eng} {hs rs : Nat → List Nat} {s : State}
    (h : front s.mem s.dev k q op = .go w) (hc : (decide (q = .A) && (s.dev.core k).creating (hs w)) = false)
    (hl : 8 ≤ ((s.dev.core k).queue eng).length) :
    enqueue k q op eng hs rs s = .next { s with dev := s.dev.setSeq k q (((s.dev.core k).seq q).stall .stallEq) } := by
  unfold enqueue; rw [seqOp_go h]
  unfold liftO
  simp only [hc, Bool.false_eq_true, if_false, ge_iff_le, hl, if_true, memAll_nil, caveAll_nil]

/-! ### Host commands -/

/-- A command of another opcode, or one that firmware cannot take now, changes nothing. -/
theorem takeCmd_skip {d : Dev} {f opc : Nat} {e : BitVec 512} {body : Dev → Dev × List MemOp}
    (h : d.canTake f = false ∨ (cOpc e ≠ opc ∧ cmdOpcodes.contains (cOpc e) = true)) :
    d.takeCmd f opc e body = (d, []) := by
  unfold Dev.takeCmd
  rcases h with h | ⟨h, g⟩
  · simp [h]
  · rw [if_pos]; simp [h, List.contains_iff_mem.mp g]

/-- A command that firmware takes runs its body after the head has moved past it. -/
theorem takeCmd_go {d : Dev} {f opc : Nat} {e : BitVec 512} {body : Dev → Dev × List MemOp}
    (h : d.canTake f = true) (ho : cOpc e = opc) (hr : cReserved e = true) :
    d.takeCmd f opc e body = body (d.takeHead f (cCid e)) := by
  unfold Dev.takeCmd
  simp [h, ho, hr]

/-- A taken entry with a reserved field that is not 0 completes INVALID (R339). -/
theorem takeCmd_invalid {d : Dev} {f opc : Nat} {e : BitVec 512} {body : Dev → Dev × List MemOp}
    (h : d.canTake f = true) (ho : cOpc e = opc) (hr : cReserved e = false) :
    d.takeCmd f opc e body = ((d.takeHead f (cCid e)).complete f (cCid e) stInvalid 0, []) := by
  unfold Dev.takeCmd
  simp [h, ho, hr]

/-! ### Free choices -/

/-- A choice from a list that is not empty answers one of its entries. -/
theorem pickOne_mem (c : Nat) {l : List Nat} (h : l ≠ []) : ∃ x ∈ l, pickOne c l = some x := by
  have hl : (Config.freeValue c).toNat % l.length < l.length := Nat.mod_lt _ (List.length_pos_of_ne_nil h)
  exact ⟨l[(Config.freeValue c).toNat % l.length], List.getElem_mem hl, List.getElem?_eq_getElem hl⟩

/-- Whatever is chosen is an entry of the list. -/
theorem mem_of_pickOne {c x : Nat} {l : List Nat} (h : pickOne c l = some x) : x ∈ l := List.mem_of_getElem? h

/-- Every chosen entry is an entry of the list. -/
theorem mem_of_pickMany {l : List Nat} {n c x : Nat} (h : x ∈ pickMany c n l) : x ∈ l := by
  induction n generalizing c l with
  | zero => simp [pickMany] at h
  | succ n ih =>
    unfold pickMany at h
    split at h
    · simp at h
    · next y hy =>
      rcases List.mem_cons.1 h with rfl | h
      · exact mem_of_pickOne hy
      · exact List.mem_of_mem_erase (ih h)

/-- As many entries are chosen as are asked for, as far as the list reaches. -/
theorem pickMany_length (c n : Nat) (l : List Nat) : (pickMany c n l).length = min n l.length := by
  induction n generalizing c l with
  | zero => simp [pickMany]
  | succ n ih =>
    unfold pickMany
    split
    · next h =>
      by_cases hl : l = []
      · simp [hl]
      · obtain ⟨x, _, hx⟩ := pickOne_mem c hl
        simp [hx] at h
    · next x hx =>
      have := List.length_erase_of_mem (mem_of_pickOne hx)
      have := List.length_pos_of_mem (mem_of_pickOne hx)
      simp only [List.length_cons, ih]
      omega

end Sys2Proof.Machine
end

