-- ==== Sys2Proof/Tests/Slice0.lean ====
section
/-! SUPPORT. The author's own tests: what WellFormed refuses, and for every statement with hypotheses a concrete state and
operands that meet them, clause by clause. -/

namespace Sys2Proof.Tests

open Sys2Proof Sys2Proof.Machine

/-! ### Small states -/

/-- The SRAM with these bytes from address a on. -/
def bytesAt (a : Nat) (bs : List Byte) : Memory := memAll [] (wrBytes a bs)

/-- The reset state with another device. -/
def onDev (d : Dev) : State := { State.reset with dev := d }

/-- The reset state with this core 0. -/
def onCore (c : Core) : State := onDev { Dev.reset with cores := [(0, c)] }

/-- Core 0 with the word w at word pc of sequencer q's store, that sequencer as given. -/
def standAs (q : SeqId) (x : Seq) (w : Nat) (c : Core := Core.reset) : State :=
  { onCore (c.setSeq q x) with mem := bytesAt (progBase 0 q + 8 * x.pc.toNat) (natLe w 8) }

/-- A sequencer that runs at word pc. -/
def runAt (pc : Nat) : Seq := { Seq.reset with st := .run, pc := BitVec.ofNat 13 pc }

/-- Core 0 running at word pc of sequencer q's store, where the word w lies. -/
def stand (q : SeqId) (w : Nat) (pc : Nat) (c : Core := Core.reset) : State := standAs q (runAt pc) w c

/-- Does the command answer a next state? -/
def goesOn (i : Instr) (s : State) : Bool :=
  match exec i s with
  | .next _ => true
  | _ => false

/-- Is the command refused as the undefined word op? -/
def refusedAs (i : Instr) (s : State) (op : Nat) : Bool :=
  match exec i s with
  | .refused (.undefinedWord n) => n == op
  | _ => false

/-! ### The machine as a whole -/

theorem test_hyp_StepRunsFrontCommand : { State.reset with pending := [.tqAccept 0] }.pending = .tqAccept 0 :: [] := by decide

theorem test_hyp_EmptyQueueRunsOneCycle :
    (State.reset.pending = [] ∧ State.reset.dev.rst = true ∨ State.reset.dev.rst = false) ∧
    { onDev { Dev.reset with rst := true } with pending := [] }.dev.rst = true ∧
    (let d := { Dev.reset with rst := false, cyc := 0 }; d.cyc + 1 < cyclesPerTick d.clk.step) ∧
    (let d := { Dev.reset with rst := false, cyc := cyclesPerTick 0 - 1 }; cyclesPerTick d.clk.step ≤ d.cyc + 1) := by
  decide +kernel

theorem test_hyp_EveryStepKeepsCanonicalForm :
    (match step (stand .A 0 0) with | .next _ => true | _ => false) = true ∧ (stand .A 0 0).Canonical := by decide +kernel

theorem test_hyp_WellFormedQueueNeverFaults : { State.reset with pending := [.tqAccept 0, .nop 0 .A] }.QueueOk := by
  unfold State.QueueOk; decide

theorem test_hyp_OnlyUndefinedWordsAndReservedTestsRefuse :
    (match step { State.reset with pending := [.jtagInstruction .other] } with | .refused .reservedTest => true | _ => false) = true ∧
    (match step { stand .A (2 ^ 45) 0 with pending := [.nop 0 .A] } with | .refused (.undefinedWord 0) => true | _ => false) =
      true := by decide +kernel

/-! ### Sequencers -/

theorem test_hyp_ScalarWords :
    (∀ q ∈ [SeqId.A, .E], ∀ op ∈ [0x10, 0x11, 0x12, 0x13, 0x14, 0x15, 0x16, 0x17, 0x18, 0x19, 0x1A, 0x1B, 0x1C, 0x1D, 0x1E, 0x1F],
      ∀ f ∈ [0, (31 * 2 ^ 51 + 31 * 2 ^ 46 + 31 * 2 ^ 41)], (stand q (op * 2 ^ 56 + f) 0).standsAt 0 q op (op * 2 ^ 56 + f)) ∧
    (∀ q ∈ [SeqId.A, .E], ∀ op ∈ [0x20, 0x21, 0x22, 0x23, 0x24, 0x28, 0x29, 0x2A],
      ∀ f ∈ [0, 2 ^ 46 - 1, 2 ^ 45], (stand q (op * 2 ^ 56 + f) 0).standsAt 0 q op (op * 2 ^ 56 + f)) ∧
    (∀ op ∈ [0x25, 0x26, 0x27], (stand .A (op * 2 ^ 56 + 63) 8191).standsAt 0 .A op (op * 2 ^ 56 + 63)) ∧
    (stand .E (0x2B * 2 ^ 56 + 0xFFFFFFFF) 0).standsAt 0 .E 0x2B (0x2B * 2 ^ 56 + 0xFFFFFFFF) ∧
    (stand .A (0x05 * 2 ^ 56 + 6) 0).standsAt 0 .A 0x05 (0x05 * 2 ^ 56 + 6) := by
  unfold State.standsAt; decide +kernel

theorem test_hyp_ControlWords :
    (∀ op ∈ [0x00, 0x08, 0x09, 0x0A, 0x0B, 0x0C, 0x0D, 0x0E], (stand .A (op * 2 ^ 56) 6400).standsAt 0 .A op (op * 2 ^ 56)) ∧
    (stand .A (0x01 * 2 ^ 56 + 1 * 2 ^ 32 + 3) 0).standsAt 0 .A 0x01 (0x01 * 2 ^ 56 + 1 * 2 ^ 32 + 3) ∧
    (stand .A (0x01 * 2 ^ 56 + 1 * 2 ^ 32) 0).standsAt 0 .A 0x01 (0x01 * 2 ^ 56 + 1 * 2 ^ 32) ∧
    (let l : LoopLv := ⟨0, 9, 2⟩
     let x := { runAt 0 with loops := [l, l, l, l] }
     (standAs .A x (0x01 * 2 ^ 56 + 1 * 2 ^ 32)).standsAt 0 .A 0x01 (0x01 * 2 ^ 56 + 1 * 2 ^ 32) ∧ 4 ≤ x.loops.length ∧
     refusedAs (.loop 0 .A) (standAs .A x (0x01 * 2 ^ 56 + 1 * 2 ^ 32)) 1 = true) := by
  unfold State.standsAt; decide +kernel

theorem test_hyp_LoopLevels :
    (let l : LoopLv := ⟨2, 5, 2⟩; l.last ≠ 4 ∧ l.last = 5 ∧ 1 < l.left) ∧ (let l : LoopLv := ⟨2, 5, 1⟩; l.last = 5 ∧ l.left ≤ 1) := by
  decide

/-- A running sequencer inside a routine. -/
def inRtn (r : Routine) : Seq := { runAt 6200 with rtn := some r, st := .inRoutine }

theorem test_hyp_RoutineCallReturnAndCounter :
    (let s : State := { stand .A (0x02 * 2 ^ 56) 0 with
       mem := memAll (bytesAt (progBase 0 .A) (natLe (0x02 * 2 ^ 56) 8))
         (wrBytes (progBase 0 .A + 8 * 6144) (natLe (2 ^ 50 + 100 * 2 ^ 16 + 256) 8)) }
     s.standsAt 0 .A 0x02 (0x02 * 2 ^ 56) ∧ (s.dev.seq 0 .A).rtn = none ∧ bit (fetch s.mem 0 .A 6144) 50 = true ∧
     goesOn (.call 0 .A) s = true) ∧
    (let r : Routine := ⟨3, 100, 100, 0, false, false⟩
     let s := standAs .A { inRtn r with pc := 6400 } (0x04 * 2 ^ 56)
     (s.dev.seq 0 .A).rtn = some r ∧ s.standsAt 0 .A 0x04 (0x04 * 2 ^ 56) ∧ r.cycles ≤ r.count) ∧
    (let r : Routine := ⟨3, 100, 99, 0, false, false⟩
     let s := standAs .A { inRtn r with pc := 6400 } (0x04 * 2 ^ 56)
     (s.dev.seq 0 .A).rtn = some r ∧ s.standsAt 0 .A 0x04 (0x04 * 2 ^ 56) ∧ r.expired = false ∧ r.count < r.cycles) ∧
    (∀ b ∈ [true, false], let r : Routine := ⟨3, 100, 100, 0, b, false⟩
      let x := (onCore (Core.reset.setSeq .A (inRtn r))).dev.seq 0 .A
      x.rtn = some r ∧ x.st ≠ .halted) ∧
    (let r : Routine := ⟨3, 100, 100, 0, true, false⟩
     ((onCore (Core.reset.setSeq .E { inRtn r with st := .halted })).dev.seq 0 .E).st = .halted) := by
  unfold State.standsAt; decide +kernel

theorem test_hyp_RoutineWordsComplete :
    (∀ q ∈ [SeqId.A, .E], let w := 0x02 * 2 ^ 56 + 255 * 2 ^ 48
      let s : State := { stand q w 0 with
        mem := memAll (bytesAt (progBase 0 q) (natLe w 8))
          (wrBytes (progBase 0 q + 8 * 6399) (natLe (3 * 2 ^ 50 + 3 * 2 ^ 48 + 100 * 2 ^ 16 + 256) 8)) }
      let e := fetch s.mem 0 q (BitVec.ofNat 13 (6144 + bits w 55 48))
      s.standsAt 0 q 0x02 w ∧ (s.dev.seq 0 q).rtn = none ∧ bit e (match q with | .A => 50 | .E => 51) = true ∧
      (s.dev.seq 0 q).loops.length + bits e 49 48 ≤ 4) ∧
    (∀ n ∈ [99, 100], ∀ b ∈ [true, false], let r : Routine := ⟨3, 100, n, 0, false, b⟩
      let s := standAs .E { inRtn r with pc := 6400 } (0x04 * 2 ^ 56)
      (s.dev.seq 0 .E).rtn = some r ∧ s.standsAt 0 .E 0x04 (0x04 * 2 ^ 56)) ∧
    (let r : Routine := ⟨3, 100, 100, 0, true, false⟩
     let x := (onCore (Core.reset.setSeq .E (inRtn r))).dev.seq 0 .E
     x.rtn = some r ∧ r.done = true ∧ r.expired = false ∧ r.cycles ≤ r.count ∧ x.st ≠ .halted) := by
  unfold State.standsAt; decide +kernel

theorem test_hyp_StependEntersStepWait :
    (let s := stand .E (0x03 * 2 ^ 56) 5; s.standsAt 0 .E 0x03 (0x03 * 2 ^ 56) ∧ bit (0x03 * 2 ^ 56) 55 = false) ∧
    (let w := 0x03 * 2 ^ 56 + 2 ^ 55; let s := stand .E w 5
     s.standsAt 0 .E 0x03 w ∧ bit w 55 = true ∧ (s.dev.seq 0 .E).loops = []) ∧
    (let w := 0x03 * 2 ^ 56 + 2 ^ 55; let s := standAs .E { runAt 5 with loops := [⟨4, 9, 2⟩] } w
     s.standsAt 0 .E 0x03 w ∧ bit w 55 = true ∧ (s.dev.seq 0 .E).loops ≠ []) := by
  unfold State.standsAt; decide +kernel

/-- Core 0 with n entries in data queue 0, which the access stream pushes (R49). -/
def withDq (n : Nat) (dir : BitVec 8) : Core := { Core.reset with dq := [(0, List.replicate n 0)], dqdir := dir }

theorem test_hyp_DataQueueWords :
    (∀ q ∈ [SeqId.A, .E], ∀ n ∈ [15, 16], ∃ dir ∈ [(0 : BitVec 8), 1],
      (stand q (0x30 * 2 ^ 56) 0 (withDq n dir)).standsAt 0 q 0x30 (0x30 * 2 ^ 56)) ∧
    (∀ q ∈ [SeqId.A, .E], ∀ n ∈ [0, 1], ∃ dir ∈ [(0 : BitVec 8), 1],
      (stand q (0x31 * 2 ^ 56) 0 (withDq n dir)).standsAt 0 q 0x31 (0x31 * 2 ^ 56)) ∧
    (∃ dir ∈ [(0 : BitVec 8), 1],
      (standAs .A { runAt 0 with st := .stallDqFull } (0x30 * 2 ^ 56) (withDq 15 dir)).standsAt 0 .A 0x30 (0x30 * 2 ^ 56)) ∧
    (∃ dir ∈ [(0 : BitVec 8), 1],
      (standAs .E { runAt 0 with st := .stallDqEmpty } (0x31 * 2 ^ 56) (withDq 1 dir)).standsAt 0 .E 0x31 (0x31 * 2 ^ 56)) := by
  unfold State.standsAt; decide +kernel

/-- Core 0 whose object 0 counts n. -/
def withSyn (n : Nat) : Core := { Core.reset with syn := [(0, BitVec.ofNat 32 n)] }

/-- The execute sequencer of core 0 at the word w, while the access sequencer waits at SYNWAIT of 5 of object 0, which counts n. -/
def behindA (n w : Nat) : State :=
  let a := { runAt 6 with st := .stallSyn }
  { onCore (((withSyn n).setSeq .A a).setSeq .E (runAt 0)) with
    mem := memAll (bytesAt (progBase 0 .A + 48) (natLe (0x40 * 2 ^ 56 + 5) 8)) (wrBytes (progBase 0 .E) (natLe w 8)) }

theorem test_hyp_SynchronisationObjects :
    (∀ q ∈ [SeqId.A, .E], ∀ op ∈ [0x40, 0x41, 0x42], ∀ c ∈ [4, 5, 2 ^ 32 - 1], let w := op * 2 ^ 56 + 5
      (stand q w 0 (withSyn c)).standsAt 0 q op w) ∧
    (let s := stand .E (0x40 * 2 ^ 56 + 5) 0 (withSyn 5)
     ¬ (SeqId.E = .E ∧ 0 < 5 ∧ (s.dev.core 0).accessFirst s.mem 0 0 = true)) ∧
    (∀ op ∈ [0x40, 0x41, 0x42], let w := op * 2 ^ 56 + 5
      (behindA 5 w).standsAt 0 .E op w ∧ ((behindA 5 w).dev.core 0).accessFirst (behindA 5 w).mem 0 0 = true ∧
      (behindA 4 w).standsAt 0 .E op w ∧ ((behindA 4 w).dev.core 0).accessFirst (behindA 4 w).mem 0 0 = false) ∧
    (lk (0 : BitVec 32) (withSyn 4).syn 0).toNat < 5 ∧ (lk (0 : BitVec 32) (withSyn 5).syn 0).toNat = 5 ∧
    (lk (0 : BitVec 32) (withSyn (2 ^ 32 - 5)).syn 0).toNat + 5 = 2 ^ 32 ∧
    (standAs .E { runAt 0 with st := .stallSyn } (0x40 * 2 ^ 56 + 5) (withSyn 5)).standsAt 0 .E 0x40 (0x40 * 2 ^ 56 + 5) ∧
    (lk (0 : BitVec 32) (Dev.reset.core (24575 / 32)).syn (24575 % 32)).toNat + (2 ^ 32 - 1) < 2 ^ 32 ∧
    (lk (0 : BitVec 32) Dev.reset.edge 24576).toNat + (2 ^ 32 - 1) < 2 ^ 32 ∧
    2 ^ 32 ≤ (lk (0 : BitVec 32) Dev.reset.edge 24576).toNat + 2 ^ 32 := by
  unfold State.standsAt; decide +kernel

theorem test_hyp_WatchdogHaltsBothSequencers :
    let c := { Core.reset with wdogExp := 10, a := { runAt 0 with st := .stallSyn, stallRun := 1025 } }
    let s := onCore c
    ((s.dev.core 0).seq .A).st.stalled = true ∧ 2 ^ (s.dev.core 0).wdogExp.toNat < ((s.dev.core 0).seq .A).stallRun := by
  decide +kernel

/-! ### Descriptors and engine queues -/

/-- A Mould of one device that holds partition 0, with one allocation range over core 0's local store. -/
def mould0 : Mould :=
  let tab : FabTab := { ipver := 6, replica := true, hoplim := 1, recs := [⟨0, 0, 0, 1, 0xFFFF, false, false⟩, ⟨0, 0, 0, 0, 0xFFFF, true, false⟩], valid := true }
  { pmask := 1, fpid := 5, compat := false, weights := true, devices := 1, rindMin := 0, digest := 0, keydig := 0, phase := 6,
    self := 0, owner := some 0, members := [⟨7, 1, 0⟩, ⟨8, 1, 1⟩], nbrs := [],
    ranges := [⟨0, 1, true, true, 0, 0xFFFFF⟩, ⟨0, 2, true, true, 0, 0x7FFFFF⟩, ⟨0, 3, true, true, 0, 0xFFFF⟩],
    clock := [], timing := [], syncs := [⟨2, 0, 0, 0, 0⟩, ⟨3, 0, 0, 0, 0⟩], dist := [], tabA := tab, tabB := tab, epoch := 0,
    vlast := [], switchAt := none, switching := none, early := [], fromNbr := false, coming := [], newVers := [], nbrAll := [], pairLost := false, failoverRan := false, heldFlag := false, quiet := false, hold := none,
    failover := none, t0 := 0, replay := false, results := [], lastByte := 0, req := none, go := 0, stepDone := [],
    rerun := none, serve := none, wload := none, base := 0, baseKey := 0, variants := [], subs := [], images := [],
    image := [] }

/-- A device whose region 0 is partition 0, which this Mould holds. -/
def holds (m : Mould) (d : Dev := Dev.reset) : Dev :=
  { d with moulds := [m], net := { d.net with regOwner := [(0, 0)], slcOwner := [(0, 0)] } }

/-- The image of a 16-element FP32 tensor at the start of core 0's store that may be read and written (Table 05-1). -/
def image16 : List Byte :=
  natLe (lsBase 0) 5 ++ [0, 0, 3, 1, 0, 0, 0] ++ natLe 16 3 ++ natLe 0 13 ++ natLe 1 4 ++ natLe 0 32

theorem test_hyp_DescriptorLifeCycle :
    (let w := 0x50 * 2 ^ 56 + 63 * 2 ^ 50 + 31 * 2 ^ 45
     let s := standAs .A { runAt 0 with regs := [(31, 0xFFFC0)] } w
     s.standsAt 0 .A 0x50 w ∧ (s.dev.core 0).descBusy 63 = false ∧ ((s.dev.core 0).a.get 31).toNat < 2 ^ 20 ∧
     ((s.dev.core 0).a.get 31).toNat % (if s.dev.compat 0 then 16 else 64) = 0) ∧
    (let w := 0x51 * 2 ^ 56 + 63 * 2 ^ 50
     (stand .A w 0).standsAt 0 .A 0x51 w ∧ (Core.reset).descBusy 63 = false) ∧
    (let line : BitVec 512 := BitVec.ofNat 512 (image16.foldr (fun b n => b.toNat + 256 * n) 0)
     let cr : Create := ⟨63, lsBase 0 + 0xFFFC0, 64, 0, true, 0, [((lsBase 0 + 0xFFFC0) / 64, line)]⟩
     let d := { holds mould0 with cores := [(0, { Core.reset with creates := [cr] })] }
     let bs := cr.image 0 d.free
     let f := parseDesc bs (d.compat 0)
     image16.length = 64 ∧ (d.core 0).creates = cr :: [] ∧ cr.asked = true ∧ cr.left = 0 ∧ cr.addr + cr.len ≤ lsBase 0 + 2 ^ 20 ∧
     bs = image16 ∧ validate bs f ((d.mouldOf (d.partOf 0)).elim [] (fun m => m.ranges)) (d.partOf 0) 0 = none) := by
  unfold State.standsAt; decide +kernel

theorem test_hyp_EngineWordsEnterTheirQueue :
    (∀ w ∈ [0x60 * 2 ^ 56, 0x60 * 2 ^ 56 + 2 ^ 17, 0x61 * 2 ^ 56, 0x62 * 2 ^ 56, 0x63 * 2 ^ 56, 0x64 * 2 ^ 56, 0x65 * 2 ^ 56, 0x66 * 2 ^ 56, 0x67 * 2 ^ 56],
      (stand .A w 0).standsAt 0 .A (w / 2 ^ 56) w) ∧
    (∀ op ∈ [0x81, 0x82, 0x83, 0x84, 0x85, 0x86, 0x87, 0x88, 0x89, 0x8A, 0x8B, 0x8C, 0x8D, 0x8E, 0x8F, 0x90, 0x91, 0x92, 0x93,
        0x98, 0xA0, 0xA1, 0xA2, 0xA3, 0xA8, 0xA9, 0xB0, 0xB4], (stand .E (op * 2 ^ 56) 0).standsAt 0 .E op (op * 2 ^ 56)) ∧
    (∀ op ∈ [0xB8, 0xB9], (stand .E (op * 2 ^ 56 + 2 ^ 35 + 63) 0).standsAt 0 .E op (op * 2 ^ 56 + 2 ^ 35 + 63)) ∧
    (stand .E (0xBA * 2 ^ 56) 0).standsAt 0 .E 0xBA (0xBA * 2 ^ 56) ∧
    (stand .E (0xBB * 2 ^ 56) 0 (withDq 0 1)).standsAt 0 .E 0xBB (0xBB * 2 ^ 56) ∧
    (∀ w ∈ [0xC0 * 2 ^ 56 + 2 ^ 42, 0xC1 * 2 ^ 56, 0xC1 * 2 ^ 56 + 2 ^ 40, 0xC2 * 2 ^ 56, 0xC3 * 2 ^ 56],
      (stand .E w 0).standsAt 0 .E (w / 2 ^ 56) w) := by
  unfold State.standsAt; decide +kernel

/-! ### Engines -/

/-- A queue entry. -/
def ent (w : Nat) (vals : List Word := []) (caps : List Cap := []) (vl : Nat := 0) (vtype : BitVec 8 := 0) : QEntry :=
  ⟨BitVec.ofNat 64 w, 0, caps, vals, vl, vtype⟩

/-- A one-dimensional FP32 tensor of 16 elements at the start of core 0's store, that may be read and written. -/
def vec16 : DescF :=
  { DescF.zero with base := lsBase 0, fmt := 0, r := true, w := true, ndim := 1, size := [16, 0, 0, 0, 0], stride := [1, 0, 0, 0, 0] }

/-- Core 0 with handle 1 valid. -/
def withDesc (f : DescF) (c : Core := Core.reset) : Core := { c with desc := [(1, ⟨true, 0, f, none⟩)] }

/-- Core 0 with a fill-guard entry over its whole store. -/
def busyStore (c : Core) : Core := { c with fgw := [⟨9, lsBase 0, lsBase 0 + 0xFFFFF⟩] }

theorem test_hyp_TransferQueueAcceptsItsHead :
    let e := ent (0x64 * 2 ^ 56) [0, 0]
    (∀ g ∈ [false, true],
      let c := if g then busyStore { Core.reset with tq := [e] } else { Core.reset with tq := [e] }
      let d := (onCore c).dev
      let p := d.planT 0 e
      (d.core 0).tq = e :: [] ∧ d.clocked 0 = true ∧ d.tqHeld (d.core 0) = false ∧ p.err = none ∧
      (d.core 0).guardHold p.reads p.dst = g) ∧
    (let e := ent (0x60 * 2 ^ 56) [0, 0] [⟨0, false, 0⟩, ⟨1, false, 0⟩]
     let d := (onCore { Core.reset with tq := [e] }).dev
     d.tqHeld (d.core 0) = false ∧ (d.planT 0 e).err ≠ none) := by decide +kernel

theorem test_hyp_VectorQueueAcceptsItsHead :
    (let e := ent (0xB8 * 2 ^ 56 + 2 ^ 35 + 1) [0] [⟨1, true, 0⟩] 16 0
     ∀ g ∈ [false, true],
      let c := if g then busyStore (withDesc vec16 { Core.reset with vq := [e] }) else withDesc vec16 { Core.reset with vq := [e] }
      let c := { c with vec := { c.vec with mode := 0 } }
      c.vq = e :: [] ∧ (onCore c).dev.clocked 0 = true ∧ vecHold c e = false ∧ vecErr c 0 e = none ∧
      c.guardHold (boundsOf (vecRanges c 0 e).1) (vecRanges c 0 e).2 = g) ∧
    (let e := ent (0x88 * 2 ^ 56) [] [] 16 0
     let c := { Core.reset with vq := [e] }
     vecHold c e = false ∧ vecErr c 0 e ≠ none) := by decide +kernel

/-- A BF16 tensor of 16 by 16 elements at the start of core 0's store. -/
def mat16 : DescF := { vec16 with fmt := 1, ndim := 2, size := [16, 16, 0, 0, 0], stride := [1, 16, 0, 0, 0] }

/-- An MMUL of handle 1 with itself: one array, K of one step, ZERO. -/
def mmul1 : QEntry := ent (0xC0 * 2 ^ 56) [0, 16, 0] [⟨1, true, 0⟩, ⟨1, true, 0⟩]

theorem test_hyp_MatrixQueueAcceptsItsHead :
    (∀ g ∈ [false, true],
      let c := if g then busyStore (withDesc mat16 { Core.reset with mq := [mmul1] }) else withDesc mat16 { Core.reset with mq := [mmul1] }
      let q := mkPass mmul1 mat16 mat16
      let src := (if q.aReads = [] then [] else [q.a.span]) ++ (if q.bReads = [] then [] else [q.b.span])
      c.mq = mmul1 :: [] ∧ (onCore c).dev.clocked 0 = true ∧ mqHold c mmul1 = false ∧ mqErr c 16 0 mmul1 = none ∧
      wOp mmul1.w = 0xC0 ∧ c.guardHold src none = g) ∧
    (let e := ent (0xC1 * 2 ^ 56) [0] [⟨1, true, 0⟩]
     let c := withDesc { mat16 with fmt := 0 } { Core.reset with mq := [e] }
     mqHold c e = false ∧ mqErr c 16 0 e = none ∧ bit e.w 40 = false ∧ c.guardHold [] (some (c.fields 1).span) = false) ∧
    (let e := ent (0xC1 * 2 ^ 56 + 2 ^ 40) [767]
     mqHold { Core.reset with mq := [e] } e = false ∧ mqErr { Core.reset with mq := [e] } 16 0 e = none ∧ bit e.w 40 = true) ∧
    (let e := ent (0xC2 * 2 ^ 56) [0xFFC00]
     mqHold { Core.reset with mq := [e] } e = false ∧ mqErr { Core.reset with mq := [e] } 16 0 e = none ∧
     (Core.reset).guardHold [(lsBase 0 + e.val 0, lsBase 0 + e.val 0 + 1023)] none = false) ∧
    (let e := ent (0xC3 * 2 ^ 56)
     mqHold { Core.reset with mq := [e] } e = false ∧ mqErr { Core.reset with mq := [e] } 16 0 e = none) ∧
    (let e := ent (0xC1 * 2 ^ 56) [0] [⟨0, false, 0⟩]
     mqHold { Core.reset with mq := [e] } e = false ∧ mqErr { Core.reset with mq := [e] } 16 0 e ≠ none) := by
  decide +kernel

/-- A job whose accesses are done. -/
def doneJob (eng : Eng) (kind : JobKind) (e : QEntry) : Job := { Job.new 0 eng kind e with issued := true }

theorem test_hyp_TransferCompletesWithItsCredit :
    (∀ kind ∈ [JobKind.tload, .tstore, .fill, .copy, .caveq, .hostq],
      let j := doneJob .tq kind (ent (0x60 * 2 ^ 56) [0, 0])
      let c := { Core.reset with jobs := [j] }
      c.jobs[0]? = some j ∧ j.eng = .tq ∧ j.issued = true ∧ j.rdLeft = 0 ∧ j.wrLeft = 0 ∧ j.lost = false) ∧
    (∀ h ∈ [true, false], Dev.reset.recCount h 0 < 32 ∧ Dev.reset.recCount h 15 < 32) ∧
    (∀ h ∈ [true, false], let d := { Dev.reset with net := { Dev.reset.net with recFly := [(15, 32), (31, 32)] } }
      32 ≤ d.recCount h 15) := by decide +kernel

theorem test_hyp_SetvlSetsLengthAndType :
    (∀ w ∈ [0x80 * 2 ^ 56 + 64, 0x80 * 2 ^ 56 + 2 ^ 45], (stand .E w 0).standsAt 0 .E 0x80 w) ∧
    (let s := stand .E (0x80 * 2 ^ 56 + 0x03 * 2 ^ 36) 0
     let c := s.dev.core 0
     let w := fetch s.mem 0 .E c.e.pc
     c.e.live = true ∧ s.dev.clocked 0 = true ∧ wOp w = 0x80 ∧ vtypeOk (bits w 43 36) = false) ∧
    wOp (0x80 * 2 ^ 56) = 0x80 ∧ 0x80 * 2 ^ 56 ∈ [0, 0x80 * 2 ^ 56] := by unfold State.standsAt; decide +kernel

theorem test_hyp_VectorEntryCompletes :
    (∀ op ∈ [0x81, 0xB9], let j := doneJob .vq .vec (ent (op * 2 ^ 56) [0] [] 16 0)
      let c := { Core.reset with jobs := [j] }
      c.jobs[0]? = some j ∧ j.eng = .vq ∧ j.issued = true ∧ j.rdLeft = 0 ∧ j.wrLeft = 0 ∧ j.lost = false ∧
      (onCore c).dev.clocked 0 = true ∧ wOp j.ent.w ≠ 0xBA ∧ wOp j.ent.w ≠ 0xBB) ∧
    vecDst (ent (0x81 * 2 ^ 56)).w ≠ some 31 := by decide +kernel

theorem test_hyp_IntegerLanesWrap :
    ∀ op ∈ [0x81, 0x82, 0x83, 0x8B, 0x8C, 0x8D], ∀ vt ∈ [4, 10], let w := (ent (op * 2 ^ 56)).w
      vtypeOk vt = true ∧ vtKind vt ≠ 0 ∧ wSB w = false ∧ 0 < 2048 / vtWidth vt ∧ 2048 / vtWidth vt * vtWidth vt ≤ 2048 ∧
      wOp w = op ∧ (2048 / vtWidth vt - 1 + 1) * vtWidth vt ≤ 2048 := by decide +kernel

theorem test_hyp_RegisterFileBistEnds :
    ((onCore { Core.reset with vec := { Core.reset.vec with bist := some 0 } }).dev.core 0).vec.bist = some 0 := by
  decide +kernel

theorem test_hyp_MatrixResults :
    (let j := { doneJob .mq .mmul mmul1 with active := true }
     let c := withDesc mat16 { Core.reset with jobs := [j] }
     c.jobs[0]? = some j ∧ j.kind = .mmul ∧ wOp j.ent.w = 0xC0 ∧ j.active = true ∧ j.issued = true ∧ j.rdLeft = 0 ∧ j.lost = false ∧
     (onCore c).dev.clocked 0 = true ∧ (∀ x ∈ c.jobs.take 0, mqBefore j x = false) ∧ 3 ∉ mqTiles j.ent.w) ∧
    (let u : CkDue := ⟨7, 1, [(15, 3, 3)], []⟩
     let c := { Core.reset with mx := { Core.reset.mx with due := [u], ckEn := true } }
     c.mx.due = u :: [] ∧ (∀ e ∈ u.rows, e.2.1 = e.2.2 % (2 ^ 61 - 1)) ∧ (∀ e ∈ u.cols, e.2.1 = e.2.2 % (2 ^ 61 - 1)) ∧
     u.rows = (15, 3, 3) :: [] ∧ 3 ≠ (3 + 1) % (2 ^ 61 - 1) ∧ u.cols = [] ∧ c.mx.ckEn = true) ∧
    (∀ x ∈ [(JobKind.mclr, 0xC3 * 2 ^ 56 + 2 ^ 55), (.mldacc, 0xC2 * 2 ^ 56), (.mstore, 0xC1 * 2 ^ 56), (.mstorePress, 0xC1 * 2 ^ 56 + 2 ^ 40)],
      let j := doneJob .mq x.1 (ent x.2 [0])
      let c := { Core.reset with jobs := [j] }
      c.jobs[0]? = some j ∧ j.eng = .mq ∧ j.issued = true ∧ j.rdLeft = 0 ∧ j.wrLeft = 0 ∧ j.lost = false ∧
      (onCore c).dev.clocked 0 = true ∧ (∀ y ∈ c.jobs.take 0, mqBefore j y = false) ∧ wOp j.ent.w = x.2 / 2 ^ 56) := by
  decide +kernel

/-! ### The mesh, the memories, the edge units -/

/-- A flit. -/
def flit (hdr : BitVec 64) (idx : Nat := 0) (amount : Option Nat := none) : Flit :=
  { hdr := hdr, idx := idx, data := 0, src := 0, credit := true, amount := amount, fab := none }

theorem test_hyp_MeshCarriesFlits :
    (let f := flit (mkHdr 0 0 0 31 0 0 0 0 0)
     let d := { Dev.reset with net := { Dev.reset.net with bufs := [((6 * 1 + 4) * 2, [f])] } }
     d.planeOn (regionOf 1) = true ∧ d.pickIn 1 2 0 = some (4, f) ∧ d.outs 1 4 f = [2] ∧ d.intoNode 1 f = false ∧
     neighbour 1 2 = some 2 ∧ f.vc < 2 ∧ d.barred 1 2 (inputAt 2) f = false) ∧
    (∀ x ∈ [(0, none), (0, some 4096), (1, none)],
      let f := flit (mkHdr x.1 0 0 0 0 0 3 0x3FFF 0) 0 x.2
      let d := holds mould0
      let d := { d with net := { d.net with eject := [(0, [f])] } }
      lk [] d.net.eject 0 = f :: [] ∧ d.coreAt 0 = some 0 ∧ d.clocked 0 = true ∧ (onDev d).mem.wf ∧
      (x.1 = 0 → d.partOf 0 = f.ptag ∧ f.amount = x.2) ∧ (x.1 = 1 → d.partOf 0 ≠ f.ptag ∧ f.idx = 0)) := by decide +kernel

theorem test_hyp_PressNodeSumsInPortOrder :
    let f := flit (mkHdr 0 0 2 33 0 7 0 0 15)
    let e : TreeEntry := ⟨7, true, false, 0x12, 0x04, 0, 33⟩
    let w := [(4, f), (1, f)]
    let d := { Dev.reset with net := { Dev.reset.net with trees := [e], nodes := [⟨33, 7, w, 0, []⟩] } }
    let n := d.nodeAt 33 7
    let fs := ((List.range 6).filter (fun i => bit e.inMask.toNat i)).filterMap (fun i =>
      (n.waiting.find? (fun w => w.1 == i)).map (fun w => (i, w.2)))
    d.treeAt 33 7 = some e ∧ e.press = true ∧ d.planeOn (regionOf 33) = true ∧ fs = (1, f) :: [(4, f)] ∧
    fs.length = ((List.range 6).filter (fun i => bit e.inMask.toNat i)).length ∧ (∀ x ∈ [(4, f)], x.2.flits = f.flits) ∧ d.hasCredit 33 2 f = true := by decide +kernel

theorem test_hyp_MemoryAccessesAreServed :
    (∀ x ∈ [(0, true), (0, false), (1, true)],
      let a : SlcAcc := ⟨767, 3, .vecMem, 128, x.2, [⟨128, 0xFF, 7⟩], x.1⟩
      let d := holds mould0
      let d := ({ d with net := { d.net with slcQ := [(0, [a])], slcRr := [(0, 766)] } } : Dev).issueTo 0
      d.atRetention 0 = false ∧ slcPick (lk [] d.net.slcQ 0) (lk 767 d.net.slcRr 0) = some a ∧
      (x.1 = 0 → lk 16 d.net.slcOwner 0 = a.ptag ∧ a.write = x.2) ∧ (x.1 = 1 → lk 16 d.net.slcOwner 0 ≠ a.ptag)) ∧
    (∀ x ∈ [(true, 4), (false, 8)],
      let r : LsReq := ⟨.vecMem, 0, List.range x.2, x.1, []⟩
      let d := (onCore { Core.reset with lsq := [r] }).dev
      d.clocked 0 = true ∧ ((d.core 0).askCreates 0).lsq = [r] ∧ r.serves = true ∧ r.write = x.1 ∧ r.lines.length ≤ x.2) ∧
    (let d := (onCore { Core.reset with lsq := [⟨.vecMem, 0, [0], true, []⟩] }).dev
     d.wordBusy (lsBase 0) = true ∧ d.wordBusy (lsBase 1) = false) := by decide +kernel

/-- A request record of core 0 (Tables 09-8 and 09-9). -/
def recOf (bytes : List Byte) : ReqRec := { core := 0, off := 0xFFFE0, data := bytes, part := 0 }

/-- A Cave record: OFFSET 0, DEST 0 in slice 0, RANGE 2, SYN 3, LENGTH 512. -/
def caveRec : ReqRec := recOf (natLe 0 8 ++ natLe 0 5 ++ [2] ++ natLe 3 2 ++ natLe 512 4 ++ natLe 0 12)

/-- A host record: OFFSET 0, LOCAL 64, CHAN 2, SYN 3, LENGTH 16, DIR as given. -/
def hostRec (dir : Byte) : ReqRec := recOf (natLe 0 8 ++ natLe 64 4 ++ natLe 2 2 ++ natLe 3 2 ++ natLe 16 4 ++ [dir] ++ natLe 0 11)

theorem test_hyp_CaveAndHostRecordsAreServed :
    (let d := holds mould0
     let q := { d with caveQ := [(15, [caveRec])] }
     let sv := { d with caveSrv := [(15, some ⟨caveRec, 1⟩)], flash := { d.flash with ready := true } }
     lk none q.caveSrv 15 = none ∧ lk [] q.caveQ 15 = caveRec :: [] ∧ q.caveRecOk caveRec = true ∧
     q.caveRecOk (recOf (natLe 0 32)) = false ∧ lk none sv.caveSrv 15 = some ⟨caveRec, 1⟩ ∧
     sv.caveRange caveRec = some ⟨0, 3, true, true, 0, 0xFFFF⟩ ∧ sv.clocked caveRec.core = true ∧ sv.flash.ready = true ∧
     sv.clk.sleep = []) ∧
    (∀ dir ∈ [(0 : Byte), 1],
      let r := hostRec dir
      let c : Chan := ⟨0, 9, 2, 0, 0x1000, 16, true, true, false⟩
      let d := { holds mould0 with chans := [c], hostQ := [(0, [r])] }
      let sv := { d with hostQ := [], hostSrv := [(0, some ⟨r, 1⟩)] }
      d.chanOf r = some c ∧ c.down = false ∧ lk none d.hostSrv 0 = none ∧ lk [] d.hostQ 0 = r :: [] ∧ d.hostRecOk r = true ∧
      lk none sv.hostSrv 0 = some ⟨r, 1⟩ ∧ sv.clocked r.core = true ∧ r.toHost = decide (dir = 0) ∧
      (List.replicate 16 (0 : Byte)).length = r.length) := by decide +kernel

theorem test_noSlice_atRetention : ∀ j, (holds mould0).atRetention j = false := by
  intro j
  have h : (holds mould0).clk.sleep = [] := rfl
  simp [Dev.atRetention, h, lk]

theorem test_hyp_ProgramStoreAndCoreControl :
    (onCore Core.reset).mem.wf ∧ ((onCore Core.reset).dev.core 0).quiet = true ∧
    ((onCore (Core.reset.setSeq .E (runAt 0))).dev.core 0).quiet = false ∧
    (let d := holds mould0
     d.mayCtrl none (d.partOf 0) = true ∧ d.mayCtrl (some 0) (d.partOf 0) = true ∧ d.mayCtrl (some 1) (d.partOf 0) = false ∧
     (d.core 0).a.st ≠ .halted ∧ (d.core 0).e.st ≠ .halted) := by decide +kernel

/-! ### Steps, deadlines, lock-step -/

/-- Partition 0 of a started Mould at tick 1,000, its step 3 due. -/
def dueAt (b : PartTime) (m : Mould := { mould0 with t0 := 400, go := 3 }) : Dev :=
  let d := holds m
  { d with cyc := 0, turn := { d.turn with now := 1000 }
           parts := [(0, { b with t0 := 400, period := 200, next := 3, st := .running })] }

theorem test_hyp_BoundaryStartsTheStep :
    (let d := dueAt PartTime.reset
     let b := d.part 0
     let m := { mould0 with t0 := 400, go := 3 }
     d.mouldOf 0 = some m ∧ d.boundaryDue 0 m = true ∧ d.boundaryGates 0 m = true ∧ m.heldAt b.next = false ∧
     b.breakAt b.next = false ∧ b.atBreak = false ∧ d.freqHeld b = false ∧ b.dead = false ∧ b.lock = none) ∧
    (let m := { mould0 with t0 := 400, go := 3, hold := some ⟨3, [], 0, 0, false, [], 0⟩ }
     let d := dueAt PartTime.reset m
     d.boundaryDue 0 m = true ∧ d.boundaryGates 0 m = true ∧ m.heldAt (d.part 0).next = true) ∧
    (let m := { mould0 with t0 := 400, go := 3 }
     let d := dueAt { PartTime.reset with breakEn := true, breakStep := 3 }
     d.boundaryDue 0 m = true ∧ d.boundaryGates 0 m = true ∧ m.heldAt (d.part 0).next = false ∧ (d.part 0).breakAt (d.part 0).next = true ∧
     (d.part 0).atBreak = false) ∧
    (let m := { mould0 with t0 := 400, go := 3 }
     let d := { dueAt PartTime.reset with clk := { Dev.reset.clk with change := some ⟨1, 936, false⟩ } }
     d.boundaryDue 0 m = true ∧ d.boundaryGates 0 m = true ∧ (d.part 0).breakAt (d.part 0).next = false ∧ d.freqHeld (d.part 0) = true) := by
  decide +kernel

/-- A monitor of every step, its deadline 10 ticks into the step (STREAM_END of core 0's access stream). -/
def mon10 : BitVec 64 := BitVec.ofNat 64 (2 ^ 63 + 2 ^ 60 + 2 ^ 52 + 10)

theorem test_hyp_BreaksAndDeadlines :
    (let d := holds mould0; d.mayCtrl (some 0) 0 = true ∧ d.mayCtrl (some 3) 0 = false) ∧
    (let old := mon10.toNat; bit old 63 = true) ∧
    (let x := 2 ^ 61 + 255 * 2 ^ 52 + 254 * 2 ^ 44 + 1
     bit (lk (0 : BitVec 64) PartTime.reset.dlCfg 63).toNat 63 = false ∧ bits x 61 60 ≠ 3 ∧ bits x 59 52 ≠ 0 ∧ bits x 51 44 < bits x 59 52 ∧ bits x 31 0 ≠ 0) ∧
    (∀ ended ∈ [false, true],
      let m := { mould0 with t0 := 400 }
      let d := dueAt { PartTime.reset with dlCfg := [(63, mon10)] } m
      let d := { d with turn := { d.turn with now := 810 }
                        cores := [(0, { Core.reset with a := { Seq.reset with ended := ended } })] }
      let b := d.part 0
      d.mouldOf 0 = some m ∧ d.cyc = 0 ∧ b.dlHalt = none ∧ m.t0 ≠ 0 ∧ 5 ≤ m.phase ∧ b.armedAt 63 d.turn.now.toNat = some 2 ∧
      (∀ i ∈ List.range 63, d.dlDue 0 i = none) ∧ d.dlEvent 0 63 2 = ended ∧ ((63, 2) ∉ b.missed)) ∧
    (let d := dueAt { PartTime.reset with dlCfg := [(63, mon10)], late := [⟨63, 2, 810⟩] }
     let d := { d with cores := [(0, { Core.reset with a := { Seq.reset with ended := true } })] }
     (d.part 0).late.find? (fun y => y.mon == 63) = some ⟨63, 2, 810⟩ ∧ d.dlEvent 0 63 2 = true) := by decide +kernel

theorem test_hyp_LockstepRecordsAreCompared :
    (∀ own ∈ [[], [(4, 900, [5, 5])], [(4, 900, [6, 6])]],
      let l : LockStep := ⟨1, 4, 1, 100, own, [], [2], false⟩
      let d := dueAt { PartTime.reset with lock := some l }
      (d.part 0).lock = some l ∧ 4 ∉ l.compared ∧ (∀ x ∈ l.theirs, x.1 ≠ 4)) ∧
    [(4, 900, [5, 5])].find? (fun x => x.1 == 4) = some (4, 900, [5, 5]) ∧ [6, 6] ≠ [5, 5] ∧
    (let l : LockStep := ⟨1, 4, 1, 100, [(4, 900, [5, 5])], [], [2], false⟩
     let d := dueAt { PartTime.reset with lock := some l }
     (d.part 0).dead = false ∧ ∃ x ∈ l.own, x.1 = 4 ∧ x.2.1 + l.wait ≤ d.turn.now.toNat) := by decide +kernel

/-! ### Time, clocks, power -/

/-- A device out of reset, at tick `now`, whose Turn is in state st, with port 0 up. -/
def synced (st : TurnState) (now : BitVec 64) : Dev :=
  { Dev.reset with rst := false
                   turn := { Turn.reset with st := st, now := now, prio := 0x80 }
                   ports := [(0, { Port.reset with st := .notAdmitted })] }

theorem test_hyp_TurnFollowsItsParent :
    (synced .listen 4096).rst = false ∧ ((synced .listen 4096).port 0).syncs = true ∧
    (∀ e, [(0, 0)].find? (fun (x : Nat × Nat) => x.1 == 0) = some e → e.2 + 4096 ≤ 4096) ∧
    (∀ e, [(0, 1)].find? (fun (x : Nat × Nat) => x.1 == 0) = some e → 4096 < e.2 + 4096) ∧
    (∀ st ∈ [TurnState.listen, .locked, .holdover], ∀ prio ∈ [0, 255],
      let d := synced st 4096
      let a : Dev := { d with turn := { d.turn with ann := up d.turn.ann 0 ⟨prio, 0, 0⟩ } }
      d.turn.st = st ∧ (prio = 0 → a.bestCand.code = 4) ∧ (prio = 255 → a.bestCand.code ≠ 4)) ∧
    (16384 : Int).natAbs * 4 ≤ 65536 ∧ 65536 < (16385 : Int).natAbs * 4 ∧
    (∀ b ∈ [false, true], let d := synced .locked 4096
      let t := { d.turn with root := true, anchored := b }
      t.root = true ∧ t.anchored = b ∧ t.st = .locked) := by
  refine ⟨by decide +kernel, by decide +kernel, ?_, ?_, by decide +kernel, by decide, by decide, by decide +kernel⟩
  · intro e h; cases h; decide
  · intro e h; cases h; decide

theorem test_hyp_RegionClocksAndReference :
    (let d := Dev.reset
     d.regionRuns 51 = true ∧ 51 ∉ d.clk.gated ∧ d.clk.since.find? (fun x => x.1 == 51) = none ∧
     ∀ b ∈ neighbours 51, ¬ (lk 0 d.clk.lag b + 192 < lk 0 d.clk.lag 51 + 64 ∧ d.regionRuns b = true)) ∧
    (let d := { Dev.reset with clk := { Dev.reset.clk with lag := [(1, 160), (2, 0), (5, 160), (0, 160)], since := [(1, 16)] } }
     let l := lk 0 d.clk.lag 1 + 64
     d.regionRuns 1 = true ∧ (∀ e ∈ d.clk.since.find? (fun x => x.1 == 1), 16 ≤ e.2) ∧ 2 ∈ neighbours 1 ∧
     (lk 0 d.clk.lag 2 + 192 < l ∧ d.regionRuns 2 = true) ∧
     ∀ b ∈ neighbours 1, b ≠ 2 → ¬ (lk 0 d.clk.lag b + 192 < l ∧ d.regionRuns b = true)) ∧
    (let d := { synced .locked 10 with clk := { Dev.reset.clk with gated := [1, 2], gateTick := 9 } }
     d.cyc = 0 ∧ d.clk.gated ≠ [] ∧ d.clk.gateTick < d.turn.now.toNat) ∧
    (Dev.reset.clk.holdover = false ∧ (55 < 56 ∨ 69 < 55) ∧ (70 < 56 ∨ 69 < 70)) ∧
    (let d := { synced .holdover 6250000 with clk := { Dev.reset.clk with holdover := true, lossTick := 0 } }
     d.clk.holdover = true ∧ d.clk.lossTick + 6250000 ≤ d.turn.now.toNat) := by decide +kernel

/-- A Mould with a sleep plan for partition 0: FMAX 1, FMIN 5. -/
def sleeper (mode : Nat) : Mould := { mould0 with t0 := 400, go := 3, clock := [⟨0, 5, 1, mode, 100, 20⟩] }

theorem test_hyp_FrequencyChanges :
    (let d := { synced .locked 1000 with moulds := [sleeper 1] }
     d.rst = false ∧ d.clk.change = none ∧ (∀ n ∈ [1, 5], ∀ m ∈ d.moulds, ∀ e ∈ m.clock, e.fmax ≤ n ∧ n ≤ e.fmin) ∧
     (∃ m ∈ d.moulds, ∃ e ∈ m.clock, 0 < e.fmax ∨ e.fmin < 0) ∧ (∃ m ∈ d.moulds, ∃ e ∈ m.clock, 6 < e.fmax ∨ e.fmin < 6) ∧
     (7 : BitVec 32).toNat % 8 = 7) ∧
    (let x : FChange := ⟨1, 936, false⟩
     let d := { dueAt PartTime.reset with rst := false, clk := { Dev.reset.clk with change := some x } }
     d.clk.change = some x ∧ d.clk.waiting = none ∧ d.cyc = 0 ∧ x.tick + 64 ≤ d.turn.now.toNat ∧ d.changers ≠ [] ∧
     ∀ e ∈ d.changers, d.stoppedFor x e.1 e.2 = true ∧ (d.part e.1).lock = none) ∧
    (let d := { synced .locked 7000000 with pwr := { Dev.reset.pwr with stepC := 95, tmax := 16 * 95 }
                                            clk := { Dev.reset.clk with step := 5, lastForce := 1 } }
     16 * (d.pwr.stepC.toNat : Int) ≤ d.pwr.tmax ∧ d.clk.step < 6 ∧ d.clk.change = none ∧ d.clk.lastForce + 624999 ≤ d.turn.now.toNat) ∧
    (let d := { synced .locked 6250000 with clk := { Dev.reset.clk with step := 1, req := 0, lastAbove := 0 } }
     d.clk.change = none ∧ d.clk.req.toNat < d.clk.step ∧ d.clk.lastAbove + 6250000 ≤ d.turn.now.toNat) := by decide +kernel

theorem test_hyp_TelemetryAndSleep :
    (let temps : List Int := List.replicate 54 0 ++ [16 * 90]
     let d := { synced .locked 1 with pwr := { Dev.reset.pwr with warnC := 90 } }
     d.rst = false ∧ temps.length = 55 ∧ 16 * (d.pwr.warnC.toNat : Int) ≤ temps.getD 54 0 ∧ 54 ∉ d.pwr.warned) ∧
    ((16 : Int) * 108 ≤ 1728 ∧ 54 ≤ 54) ∧
    (let m := sleeper 2
     let d := dueAt PartTime.reset m
     let d := { d with turn := { d.turn with now := 900 } }
     let b := d.part 0
     d.planOf 0 = some ⟨0, 5, 1, 2, 100, 20⟩ ∧ d.mouldOf 0 = some m ∧ m.t0 ≠ 0 ∧ 5 ≤ m.phase ∧ lk 0 d.clk.wakeStep 0 ≠ b.next + 1 ∧
     b.nominal b.next ≤ d.turn.now.toNat + 100) ∧
    (let d := dueAt PartTime.reset (sleeper 1)
     let d := { d with clk := { d.clk with wakeStep := [(0, 3)], wakeBegan := [(0, 980)] } }
     (d.part 0).next ≠ 0 ∧ lk 0 d.clk.wakeStep 0 = (d.part 0).next ∧ lk 0 d.clk.wakeBegan 0 + 20 ≤ d.turn.now.toNat ∧
     d.partDone 0 = true ∧ ∀ r ∈ d.regionsOf 0, lk Sleep.run d.clk.sleep r = .run) ∧
    (let d := { synced .locked 50 with clk := { Dev.reset.clk with sleep := [(51, .waking true 50)] } }
     lk Sleep.run d.clk.sleep 51 = .waking true 50 ∧ 50 ≤ d.turn.now.toNat) := by decide +kernel

/-! ### Power, non-volatile writes, start-up -/

/-- A device whose 36 V input and writes are as given. -/
def powered (p : Pwr) : Dev := { synced .locked 1000000 with pwr := p }

theorem test_hyp_SupplyAndHotPlug :
    (let p := { Dev.reset.pwr with st := .run }
     p.st ≠ .off ∧ p.inhibit = false ∧ 32999 < 33000 ∧ (powered p).rst = false ∧ p.st = .run ∧ 30999 < 31000 ∧ 28999 < 29000) ∧
    (let p := { Dev.reset.pwr with inhibit := true }; p.inhibit = true ∧ 33500 ≤ 33500) ∧
    (let p := { Dev.reset.pwr with st := .standby, stopRan := true, enable := true }
     p.st = .standby ∧ p.stopRan = true ∧ p.enable = true ∧ p.st ≠ .run) ∧
    (let p := { Dev.reset.pwr with st := .off, ovp := false, precharged := true }; p.st = .off ∧ p.precharged = true ∧ p.ovp = false ∧ 30000 < 30001 ∧ 42000 < 42001) ∧
    { Pwr.reset with precharged := false }.precharged = false ∧ (let p := { Dev.reset.pwr with ovp := true }; p.ovp = true ∧ 39999 < 40000) ∧
    (let p := { Dev.reset.pwr with precharged := true, ovp := false }
     p.precharged = true ∧ p.ovp = false ∧ 36000 ≤ 34000 + 2000 ∧ 34000 ≤ 36000 + 2000) := by decide +kernel

/-- A CAVE_WRITE that waits. -/
def nvReq (started : Bool) : NvReq := ⟨3, 100, started, 0, .caveWrite 0 9 4096 (List.replicate 512 1)⟩

/-- Function 0 up, ready, with one command in its queue, on a device whose firmware serves. -/
def hostUp (d : Dev) : Dev :=
  { d with rst := false, crm := { d.crm with fwReady := true, phase := .firmware, keysLoaded := true }
           flash := { d.flash with ready := true }
           funcs := [(0, { Func.reset with linkUp := true, perst := false, ready := true, en := true, sqTail := 1 })] }

theorem test_hyp_NonVolatileWrites :
    (let d := hostUp (powered Dev.reset.pwr); d.rst = false ∧ d.crm.phase = .firmware ∧ 1 ≠ 0) ∧
    (let p := { Dev.reset.pwr with nv := [nvReq false], measured := true, inhibit := false, cap := 2000000 }
     let d := hostUp (powered p)
     let e := p.cap * (25000 * 25000 - 24000 * 24000) / 2000000
     p.nv.find? (fun y => y.id == 3) = some (nvReq false) ∧ (nvReq false).started = false ∧ d.rst = false ∧ p.measured = true ∧
     d.flash.ready = true ∧ p.inhibit = false ∧ 3 * 100 + 2 * (([] : List NvReq).map (fun y => y.need)).sum ≤ 2 * e ∧
     2 * 0 < 3 * 100 ∧ p.nv.filter (fun y => y.started) = [] ∧ (nvReq false).since + 625000 ≤ d.turn.now.toNat ∧
     d.crm.attests = [] ∧ (d.func 0).left = none ∧ (d.func 0).ready = true ∧ (d.func 0).held = [] ∧ (d.func 0).cqRoom ≠ 0) ∧
    (let p := { Dev.reset.pwr with nv := [nvReq true] }
     let d := hostUp (powered p)
     p.nv.find? (fun y => y.id == 3 && y.started) = some ⟨3, 100, true, 0, .caveWrite 0 9 4096 (List.replicate 512 1)⟩ ∧
     512 ≤ 262144 ∧ d.flash.worn = false ∧ (onDev d).cave.wf) := by decide +kernel

theorem test_hyp_StartUp :
    (∀ st ∈ [PwrState.standby, .run], let d := { Dev.reset with pwr := { Dev.reset.pwr with st := st, enable := true, switch := true } }
      d.rst = true ∧ d.pwr.stopRan = false ∧ d.pwr.enable = true ∧ d.pwr.switch = true ∧ d.pwr.ovp = false ∧ d.pwr.st = st) ∧
    (let d := synced .listen 0; d.rst = false ∧ d.crm.bistDone = false) ∧
    (∀ r ∈ [true, false], let d := { synced .listen 0 with crm := { Dev.reset.crm with phase := .rom, recover := r } }
      d.rst = false ∧ d.crm.phase = .rom ∧ d.crm.recover = r ∧ d.crm.spiImage = none) ∧
    (fwCheck [] [] = 1 ∧ fwCheck [] [] ≠ 0) ∧
    (let d := { synced .listen 0 with crm := { Dev.reset.crm with phase := .firmware, bistDone := true }
                                      pwr := { Dev.reset.pwr with measured := true } }
     d.rst = false ∧ d.crm.phase = .firmware ∧ d.crm.fwReady = false ∧ d.crm.bistDone = true ∧ d.pwr.measured = true ∧
     d.flash.ready = false ∧ d.moulds = [] ∧ d.crm.waitCmds = []) ∧
    (let d := { synced .listen 0 with crm := { Dev.reset.crm with phase := .firmware, fwReady := true }
                                      flash := { Dev.reset.flash with ready := true } }
     d.flash.ready = true ∧ d.crm.keysLoaded = false ∧ d.loads = [] ∧ d.moulds = [] ∧ d.crm.waitCmds = [] ∧ d.crm.idReady = false ∧
     d.crm.idFail = false ∧ d.crm.attests = [] ∧ d.flash.sysKeys.length + d.crm.keys.length ≤ 16) ∧
    (∀ n ∈ [0, 5], let d := { hostUp Dev.reset with crm := { Dev.reset.crm with phase := .recovery, recState := n } }
     d.rst = false ∧ d.crm.phase = .recovery ∧ d.crm.recState = n ∧ (d.func 0).linkUp = true) ∧
    (Dev.reset.pwr.st ≠ .off ∧ Dev.reset.pwr.stopRan = false) ∧
    (let d := hostUp Dev.reset; d.rst = false ∧ d.crm.phase ≠ .recovery ∧ (d.func 0).linkUp = true) := by decide +kernel

/-- A firmware image passes every check exactly when its header does, its length and root key hash agree and its signature is good. -/
theorem test_hyp_StartUp_goodImage (h b : List Byte) (h1 : fwHeaderOk h = true) (h2 : b.length = fld h 8 4)
    (h3 : shake256 (fwKey h) = Config.rootKeyHash) (h4 : xmssVerify (fwKey h) (fwDigestOf h b) (fwSig h) = true) :
    fwCheck h b = 0 := by
  simp [fwCheck, h1, h2, h3, h4]

/-! ### Arbiters, host functions, registers -/

theorem test_hyp_LotteryGrants :
    (let x : Arb := { Arb.reset with reqs := 3, tkt := [(1, 0x100)] }
     let d := { hostUp Dev.reset with flash := { Dev.reset.flash with ready := true } }
     d.rst = false ∧ d.flash.ready = true ∧ x.holder = none ∧ x.contenders 1 ≠ [] ∧ (x.contenders 1).any x.urgent = true ∧
     (x.contenders 1).filter x.urgent = [1] ∧ ((([1] : List Nat).map x.tickets).sum = 0) ∧
     (∃ j ∈ x.contenders 1, j ≠ 0 ∧ x.urgent j = true) ∧ x.urgent 0 = false ∧ bit x.reqs.toNat 0 = true) ∧
    (let x : Arb := { Arb.reset with reqs := 3 }
     (x.contenders 0).any x.urgent = false ∧ ((x.contenders 0).map x.tickets).sum ≠ 0) ∧
    (1 : BitVec 32) ≠ 0 ∧
    (let g : Grant := ⟨0, false, 0⟩
     let x : Arb := { Arb.reset with reqs := 3, quantum := 4, holder := some g }
     x.holder = some g ∧ g.locked = false ∧ x.quantum ≠ 0 ∧ g.tick + x.quantum.toNat ≤ 4 ∧ ∃ j ∈ x.contenders 0, j ≠ g.req) ∧
    (let g : Grant := ⟨0, true, 0⟩
     let x : Arb := { Arb.reset with quantum := 4, holder := some g }
     x.holder = some g ∧ g.locked = true ∧ x.quantum ≠ 0 ∧ g.tick + 16 * x.quantum.toNat < 65) := by decide +kernel

/-- Context 15 of function 0, its ring of 64 entries, its queue of 16. -/
def ctx15 : Ctx :=
  { part := 0, vec := 1, ents := 64, addr := 0, moderate := 0, since := none, rHead := 0, rTail := 0, phase := true, qBase := 0,
    qSize := 0, queue := [], qHead := 0, qTail := 0, backlog := [] }

/-- The device with context 15 of function 0 open. -/
def withCtx (d : Dev) : Dev :=
  let d := hostUp d
  d.setFunc 0 { d.func 0 with ctxs := [(15, ctx15)] }

/-- A serving header (Table 17-1) and its runtime. -/
def serve0 : Serve :=
  Serve.fresh { rows := 16, genMax := 16, vocab := 100, kvBlocks := 8, kvBt := 16, vslots := 2, nvar := 2,
                planAddr := 0, outAddr := 0x10000, seqAddr := 0x20000, kvmapAddr := 0x30000 }

theorem test_hyp_DoorbellsTakeTheirIndex :
    (let d := withCtx Dev.reset
     let x := d.func 0
     d.serves 0 = true ∧ 15 < x.sqEntries ∧ x.sqEntries ≤ 16 ∧ 15 < x.cqEntries ∧ x.cqEntries ≤ 16 ∧ x.held = [] ∧ d.ctx 0 15 = some ctx15 ∧
     15 < ringEntries ctx15.qSize ∧ ringEntries ctx15.qSize ≤ 16 ∧ 63 < ctx15.ents ∧ ctx15.ents ≤ 64 ∧ ctx15.backlog = [] ∧
     d.ctx 0 14 = none) ∧
    (let l : LogRing := ⟨0, 0, 16, 0, 0, 0⟩
     let u := { serve0 with log := some l }
     let m := { mould0 with serve := some u }
     let d := hostUp (holds m)
     d.mouldLow 0 = some m ∧ m.serve = some u ∧ u.log = some l ∧ l.fn = 0 ∧ 15 < l.ents ∧ l.ents ≤ 16 ∧ l.dropped = 0) := by
  decide +kernel

theorem test_hyp_RegisterAndWindowAccesses :
    (let d := hostUp Dev.reset
     d.serves 0 = true ∧ d.crm.phase ≠ .recovery ∧ regAligned 2 4 = false ∧ bar0Known 0x4000000 = false ∧
     regAligned 0x2020 8 = true ∧ (regBlock 0x2020).isSome = true ∧ d.rst = false) ∧
    (let d := { hostUp Dev.reset with crm := { Dev.reset.crm with phase := .recovery } }
     d.rst = false ∧ d.crm.phase = .recovery ∧ (d.func 0).linkUp = true ∧ 0x20 ≤ 0x20) ∧
    ((1 : FnId) ≠ 0) ∧
    (let d := { hostUp Dev.reset with crm := { Dev.reset.crm with phase := .firmware, hartsUp := true } }
     d.crm.phase ≠ .reset ∧ d.crm.hartsUp = true ∧ ((3 : Fin 4).val = 0 ∨ d.crm.hartsUp = true)) ∧
    (3 ∉ [1, 2, 4, 8] ∧ 4 % 8 ≠ 0 ∧ 8 ∈ [1, 2, 4, 8] ∧ 0x303000000 % 8 = 0 ∧ 0x1C6000000 < 0x300000000 ∧ 0x1B0000000 < 0x1C0000000 ∧
     0x1AFFFFFF8 < 0x1B0000000 ∧ 0x1AFFFFFF8 % 8 = 0 ∧ State.reset.mem.wf) ∧
    (let d := holds mould0
     lk 16 d.net.slcOwner (0x7FFFF8 / 0x800000) < 16 ∧ d.winAsleep 0x7FFFF8 8 = false ∧
     { d with clk := { d.clk with sleep := [(0, .powerGated)] } }.winAsleep 0x7FFFF8 8 = true ∧
     d.genBytes [] 0x7FFFF8 8 = [] ∧ ∀ i ∈ List.range 8, d.winLost (0x7FFFF8 + i) = false) := by decide +kernel

theorem test_hyp_Bar2Accesses :
    (let d := hostUp (holds mould0)
     d.serves 0 = true ∧ 0x7FFFF8 < 2 ^ 37 ∧ bits 0x7FFFF8 36 34 = d.slot.toNat ∧
     d.winAsleep 0x7FFFF8 8 = false ∧ { d with clk := { d.clk with sleep := [(0, .powerGated)] } }.winAsleep 0x7FFFF8 8 = true ∧
     (∃ m ∈ d.moulds, m.owner = some 0 ∧ d.bar2Ok m 0x7FFFF8 8 true = true ∧ d.bar2Ok m 0x7FFFF8 8 false = true) ∧
     (∀ m ∈ d.moulds, d.bar2Ok m 0x7FFFF8 9 true = false) ∧
     bits (2 ^ 34 * 2) 36 34 ≠ d.slot.toNat ∧ (∀ m ∈ d.moulds, ∀ e ∈ m.members, e.slot ≠ 2 ∨ e.board ≠ d.board.toNat)) ∧
    (let m := { mould0 with members := [⟨7, 0, 1⟩] }
     let d := hostUp (holds m)
     bits (2 ^ 34) 36 34 ≠ d.slot.toNat ∧ d.moulds = [m] ∧ m.owner = some 0 ∧ m.members = [⟨7, 0, 1⟩] ∧ bits (2 ^ 34) 36 34 = 1 ∧
     0 = d.board.toNat) ∧
    (let d := { synced .locked 62500 with bar2 := [⟨0, 5, 0, false⟩, ⟨0, 6, 0, true⟩] }
     ∀ b ∈ d.bar2, b.fn = 0 ∧ b.tick + 62500 ≤ d.turn.now.toNat) ∧
    (let d := hostUp (holds mould0)
     let h : MHdr := ⟨5, 1, 1, false⟩
     d.crm.fwReady = true ∧ d.mouldFp h.fpid = some mould0 ∧ h.answer = false ∧ lk 0 d.crm.mgmtSeq (h.fpid * 65536 + h.src) < h.seq ∧
     (List.replicate 8 (0 : Byte)).length = 8) := by decide +kernel

theorem test_hyp_FunctionsComeAndGo :
    (let d := synced .listen 0; (d.func 0).perst = true ∧ d.rst = false) ∧
    (let d := hostUp Dev.reset; d.rst = false ∧ (d.func 0).perst = false ∧ d.linkOf 0 = true ∧ d.crm.phase ≠ .recovery ∧
     (d.func 0).ready = true ∧ (d.func 0).left = none ∧ (d.func 0).wedged = false ∧ d.samples = false ∧
     (∀ g, g < 4 → (d.func g).left = none) ∧
     { d with moulds := [{ mould0 with serve := some (Serve.fresh ⟨16, 16, 100, 8, 16, 2, 2, 0, 0, 0, 0⟩) }] }.samples = true ∧
     ({ Func.reset with wedged := true }.wedged = true ∧ { Func.reset with left := some 0 }.left ≠ none)) ∧
    (let d := { hostUp Dev.reset with crm := { Dev.reset.crm with phase := .recovery } }
     d.crm.phase = .recovery ∧ (d.func 0).perst = false ∧ d.linkOf 0 = true) ∧
    (let d := { hostUp Dev.reset with funcs := [(0, { Func.reset with linkUp := true, perst := false })] }
     (d.func 0).ready = false ∧ (d.func 0).perst = false ∧ d.linkOf 0 = true) ∧
    (let d := { synced .locked 6250000 with funcs := [(0, { Func.reset with left := some 0 })] }
     (d.func 0).left = some 0 ∧ 0 + 6250000 ≤ d.turn.now.toNat) := by decide +kernel

/-! ### Commands of the command queue -/

/-- Partition 0's region power-gated: its slice is at retention, its local stores have lost their bytes (R153). -/
def asleep (d : Dev := holds mould0) : Dev := { d with clk := { d.clk with sleep := [(0, .powerGated)] } }

/-- A command entry (Table 18-4): CID 9. -/
def cmd (opc : Nat) (flags ptag ctx addr len arg0 arg1 : Nat := 0) : BitVec 512 :=
  BitVec.ofNat 512 (opc + flags * 2 ^ 8 + 9 * 2 ^ 16 + ptag * 2 ^ 32 + ctx * 2 ^ 40 + addr * 2 ^ 64 + len * 2 ^ 128 + arg0 * 2 ^ 192 +
    arg1 * 2 ^ 256)

/-- Every opcode of Table 18-7 stands in an entry that function 0 has ready to be taken and answered. -/
theorem test_hyp_Entry :
    ∀ op ∈ cmdOpcodes, Entry (hostUp Dev.reset) 0 op (cmd op) ∧ Entry (withCtx (holds mould0)) 0 op (cmd op) := by
  unfold Entry CanAnswer; decide +kernel

theorem test_hyp_CommandEntriesAreChecked :
    Dev.reset.canTake 0 = false ∧ cReserved (BitVec.ofNat 512 (0x01 + 2 ^ 48)) = false ∧
    (∀ self ∈ [0, 1], ∀ owner ∈ [none, some 0, some 3], let m := { mould0 with self := self, owner := owner }
      (hostUp (holds m)).mouldLow (cPtag (cmd 0x11)) = some m ∧ m.fromNbr = false ∧ (hostUp (holds m)).loadHeld = false ∧
      (hostUp (holds m)).dumpAsleep none = false) ∧
    (asleep.dumpAsleep (some (natLe 0 5 ++ image16.drop 5)) = true ∧ (holds mould0).dumpAsleep (some (natLe 0 5 ++ image16.drop 5)) = false) := by
  decide +kernel

/-- A device with a serving Mould and context 15 of function 0. -/
def serving (v : Serve) (dead : Bool := false) : Dev :=
  { withCtx (holds { mould0 with serve := some v }) with parts := [(0, { PartTime.reset with dead := dead })] }

/-- A context descriptor (Table 17-2): context 15, partition 0, 256 entries. -/
def ctxImage : List Byte := [15, 0] ++ natLe 63 2 ++ natLe 256 4 ++ natLe 4096 8 ++ natLe 0 48

theorem test_hyp_ContextCommands :
    (let d := hostUp (holds { mould0 with serve := some serve0 })
     d.mouldLow (fld ctxImage 1 1) = some { mould0 with serve := some serve0 } ∧ ctxDescOk ctxImage (cCtx (cmd 1 0 0 15)) = true ∧
     mould0.self = 0 ∧ mould0.alive 0 = true ∧ cArg1 (cmd 1 0 0 15 0 0 0 12) ≤ 12 ∧ d.ctx 0 (cCtx (cmd 1 0 0 15)) = none) ∧
    (let d := serving serve0
     d.ctx 0 15 = some ctx15 ∧ d.ctxMould ctx15 = some { mould0 with serve := some serve0 } ∧ d.willSample { mould0 with serve := some serve0 } = true) ∧
    (let d := serving serve0 true
     d.ctx 0 15 = some ctx15 ∧ d.ctxMould ctx15 = none ∧ d.willSample { mould0 with serve := some serve0 } = false ∧
     serve0.release 4096 = none) ∧
    (let v := { serve0 with prefixes := [⟨5, 1, true, 2, [], 16, 0, 0⟩] }
     (v.release (4096 + 5)).isSome = true) ∧
    (let m := { mould0 with serve := some serve0 }
     m.self = 0 ∧ m.owner = some (0 : FnId).val ∧ serve0.draining = none ∧ m.phase = 6 ∧ serve0.log = none ∧ m.replay = false ∧
     { m with replay := true, phase := 5, owner := none, fromNbr := true }.phase ≠ 6 ∧ serve0.planned = 0 ∧ 0 < { serve0 with planned := 1 }.planned ∧
     cFlags (cmd 5 1) < 2 ∧ cArg0 (cmd 6 0 0 0 0 0 12) ≤ 12) := by decide +kernel

theorem test_hyp_DeviceCommands :
    (let d := hostUp Dev.reset
     let c := d.crm
     let key := xmssOid ++ List.replicate 64 0
     key.length = 68 ∧ key.take 4 = xmssOid ∧ (List.replicate 68 (1 : Byte)).take 4 ≠ xmssOid ∧ c.keysLoaded = true ∧ c.hasKey (shake256 key) = false ∧
     c.keys.length + d.keyWrites < 16 ∧ cFlags (cmd 0x20 1) = 1 ∧ cFlags (cmd 0x20) = 0 ∧ c.hasKey (leNat (natLe 7 32)) = false) ∧
    (let d := hostUp { Dev.reset with pwr := { Dev.reset.pwr with nv := List.replicate 16 ⟨0, 0, false, 0, .keyInstall 0 0 ⟨[], 0, true⟩⟩ } }
     16 ≤ d.crm.keys.length + d.keyWrites) ∧
    (∀ b ∈ [true, false], let k : Nat × KeyEnt := (15, ⟨[], 7, b⟩)
     [k].find? (fun x => x.2.digest == leNat (natLe 7 32)) = some k ∧ k.2.persist = b) := by decide +kernel

theorem test_hyp_DeviceCommands_more :
    (∀ x ∈ [(false, false), (false, true), (true, false)],
      let d := hostUp Dev.reset
      let d := { d with crm := { d.crm with idReady := x.1, idFail := x.2, leafNext := 9, reservedEnd := 10 } }
      d.crm.attests = [] ∧ d.reserving = false ∧ d.crm.idReady = x.1 ∧ d.crm.idFail = x.2 ∧ d.crm.leafNext < 2 ^ 40 ∧
      attLength d.attEnts.length ≤ cLen (cmd 0x22 0 0 0 0 (2 ^ 32)) ∧ d.crm.leafNext < d.crm.reservedEnd ∧ 9 ≤ d.crm.leafNext) ∧
    (832 ≤ cArg0 (cmd 0x23 0 0 0 0 0 832) ∧ cArg0 (cmd 0x23 0 0 0 0 0 831) < 832 ∧
     (let left := fun (d : Dev) => (d.goodRows (831 % 32)).filter (fun y => y ≠ 831 / 32 && !(d.retiring (831 % 32)).contains y)
      24 ≤ (left Dev.reset).length ∧ (left { Dev.reset with net := { Dev.reset.net with retired := [31, 63] } }).length < 24 ∧
      (left { Dev.reset with pwr := { Dev.reset.pwr with nv := [⟨0, 50000, true, 0, .retire 0 9 31⟩, ⟨1, 50000, false, 0, .retire 0 9 63⟩] } }).length < 24)) ∧
    (cLen (cmd 0x24 0 0 0 0 1204287) < 1204288 ∧ 1204288 ≤ cLen (cmd 0x24 0 0 0 0 1204288)) ∧
    (let e := cmd 0x26 0 0 0 0 512 (caveSize - 512)
     caveCmdOk e = true ∧ caveCmdOk (cmd 0x25 0 0 0 0 512 (caveSize - 511)) = false ∧ (List.replicate 512 (1 : Byte)).length = cLen e ∧
     (hostUp Dev.reset).flash.ready = true ∧ (hostUp Dev.reset).flash.worn = false ∧ (hostUp Dev.reset).pinned (cArg0 e) (cLen e) = false ∧
     (let x : Shard := ⟨0, 0, 0xFFFF, caveSize - 1, 1, true, 0, 0, false, false, 0, 0⟩
      let w : WLoad := { WLoad.fresh 0 with state := 3, shards := [x] }
      (hostUp (holds { mould0 with wload := some w })).pinned (cArg0 e) (cLen e) = true)) ∧
    (256 ≤ cArg0 (cmd 0x27 0 0 0 0 0 256) ∧ cArg0 (cmd 0x27 0 0 0 0 0 255) < 256) ∧
    (let e := cmd 0x30 3 15 0 4096 4096 255
     cFlags e < 4 ∧ cPtag e < 16 ∧ cArg0 e < 256 ∧ cAddr e % 4096 = 0 ∧ cLen e % 4096 = 0 ∧
     Dev.reset.logicalChan (cPtag e) (cArg0 e) = none ∧
     (let c : Chan := ⟨15, 255, 7, 0, 0, 0, true, true, false⟩
      ({ Dev.reset with chans := [c] }.logicalChan (cPtag e) (cArg0 e)).isSome = true ∧ c.part = cPtag (cmd 0x31 0 15) ∧
      c.chan = cArg0 (cmd 0x31 0 15 0 0 0 7) ∧ c.fn = (0 : FnId).val ∧ c.down = false)) := by decide +kernel

/-- Some channel of a fresh device is free, whichever the free values choose. -/
theorem test_hyp_DeviceCommands_channel : ∃ n, Dev.reset.freeChan 15 = some n :=
  (pickOne_mem _ (by decide +kernel)).elim fun n h => ⟨n, h.2⟩

/-- The header of an image for partition 0, length 64. -/
def header0 : List Byte :=
  natLe 0x444C4F4D 4 ++ natLe 1 2 ++ natLe 0 2 ++ natLe 1 2 ++ natLe 1 2 ++ natLe 5 2 ++ [0, 1] ++ natLe 64 4 ++ natLe 64 4 ++ natLe 0 40

/-- A two-member Mould whose members are each other's partners; `lost` members stand aliased to the other one. -/
def pair (lost : List Nat := []) : Mould :=
  let r := fun (i y : Nat) => (⟨0, 0xFFFF, 0xFFFF, y, if lost.contains i then y else 0xFFFF, i == 1, false⟩ : FabRec)
  let tab : FabTab := { ipver := 6, replica := true, hoplim := 1, recs := [r 0 1, r 1 0], valid := true }
  { mould0 with devices := 2, tabA := tab, tabB := tab, t0 := 400 }

/-- A fabric section for the same pair (Tables 15-2, 15-3). -/
def fabImage : List Byte :=
  natLe 2 2 ++ [6, 1, 1] ++ natLe 0 11 ++
    (natLe 0 16 ++ natLe 0xFFFF 2 ++ natLe 0xFFFF 2 ++ natLe 1 2 ++ natLe 0xFFFF 2 ++ natLe 0 8) ++
    (natLe 0 16 ++ natLe 0xFFFF 2 ++ natLe 0xFFFF 2 ++ natLe 0 2 ++ natLe 0xFFFF 2 ++ natLe 0 8)

theorem test_hyp_MouldCommands :
    (let e := cmd 0x10 2 0 0 0 64 1064
     let d := hostUp (powered Dev.reset.pwr)
     let d := { d with turn := { d.turn with now := 1000 } }
     cFlags e = 2 ∧ d.turn.now.toNat + 64 ≤ cArg0 e ∧ cArg0 (cmd 0x10 0 0 0 0 64 1063) < d.turn.now.toNat + 64 ∧ imLength header0 ≤ 536870912 ∧
     imPmask header0 ≠ 0 ∧ imLength header0 = cLen e ∧ d.loadHeld = false ∧
     { d with crm := { d.crm with waitCmds := [(0, cmd 0x10 1, none)] } }.loadHeld = true ∧ d.notFree (imPmask header0) = false ∧ (hostUp (holds mould0)).notFree (imPmask header0) = true) ∧
    (let m := { mould0 with phase := 5 }
     let d := hostUp (holds m)
     d.mouldLow 0 = some m ∧ m.owner = some (0 : FnId).val ∧ m.self = 0 ∧ m.phase = 5 ∧ m.t0 = 0 ∧ (∀ l ∈ d.loads, lowPart l.pmask ≠ 0) ∧
     d.mouldOf 0 = some m ∧ m.serve = none ∧ m.wload = none ∧ m.hold = none ∧ m.failover = none ∧ m.switching = none ∧ m.req = none ∧
     d.loadHeld = false ∧ { m with owner := none, fromNbr := true }.fromNbr = true) ∧
    (let m := { mould0 with t0 := 400, go := 3 }
     let d := hostUp (dueAt PartTime.reset m)
     m.t0 ≠ 0 ∧ d.stepAhead m 4 = true ∧ (m.tab (1 - m.epoch)).valid = true ∧ m.switching = none ∧
     changesOk (natLe 3 1 ++ natLe 0 15) 1 m.devices = true) ∧
    (∀ lost ∈ [[], [0], [1]],
      let m := pair lost
      (hostUp (holds m)).mouldLow 0 = some m ∧ m.alive 1 = !lost.contains 1 ∧ m.replica = true ∧ m.phase = 6 ∧ m.self = 0 ∧
      1 < m.devices ∧ m.livePartner 1 = (if lost = [0] then none else some 0)) ∧
    (let m := pair
     let d := hostUp (holds m)
     d.versionBusy m 0 = true ∧ d.versionBusy m 1 = false ∧ fabricOk m.members fabImage = true ∧
     headersAgree (readFabric fabImage) (m.tab 0) = true ∧ fabImage.length = 80 ∧
     (readFabric fabImage).recs.map (fun r => r.partner) = (m.tab 1).recs.map (fun r => r.partner)) ∧
    (let d := hostUp (holds mould0)
     let x := parseDesc image16 mould0.compat
     d.dumpAsleep (some image16) = false ∧ mould0.has (d.partOf 0) = true ∧ d.net.ue = [] ∧ d.net.ce = [] ∧ image16.length = 64 ∧
     validate image16 x mould0.ranges (d.partOf 0) 0 = none ∧ (dumpBytes State.reset.mem.rd x).length ≤ 64) := by decide +kernel

/-- A load in phase 1 for partition 0. -/
def load0 : Load :=
  { pmask := 1, fpid := 5, len := 64, t0 := 0, replay := false, port := none, req := none, caveOff := none, image := none, lastByte := 0,
    results := [] }

/-- The header with one section, MEMBERS of one device of serial 0. -/
def members0 : List Byte :=
  natLe 0x444C4F4D 4 ++ natLe 1 2 ++ natLe 0 2 ++ natLe 1 2 ++ natLe 1 2 ++ natLe 5 2 ++ [0, 1] ++ natLe 128 4 ++ natLe 128 4 ++ natLe 0 40 ++
    natLe 1 2 ++ natLe 0xFFFF 2 ++ natLe 80 4 ++ natLe 32 4 ++ natLe 0 4 ++ natLe 0 48

theorem test_hyp_MouldLoads :
    (let d := { hostUp Dev.reset with loads := [load0] }
     d.loads.find? (fun x => lowPart x.pmask == 0 && x.image.isNone) = some load0 ∧ load0.caveOff = none ∧
     load0.pmask = imPmask header0 ∧ d.imEarly header0 = some (2, 0) ∧ d.crm.keysLoaded = true ∧ Dev.reset.crm.keysLoaded = false) ∧
    (let d := { hostUp Dev.reset with ports := [(0, { Port.reset with st := .admitted })] }
     let h : MHdr := ⟨5, 1, 1, false⟩
     h.answer = false ∧ d.crm.fwReady = true ∧ (d.port 0).st = .admitted ∧ lk 0 d.crm.mgmtSeq (h.fpid * 65536 + h.src) < h.seq ∧
     Dev.reset.crm.fwReady = false ∧ (Dev.reset.port 0).st ≠ .admitted ∧ (Dev.reset.port 0).st ≠ .notAdmitted ∧ d.loadHeld = false ∧
     d.t0Late 0 = false ∧ d.t0Late 1 = true ∧ d.askLoad header0 (imLength header0) = none ∧
     ((hostUp (holds mould0)).askLoad header0 (imLength header0)).isSome = true) ∧
    (let o : Offer := ⟨1, 5, 0, 1, true, false, 0, 0, 0, false, header0⟩
     let d := { synced .locked 62500 with offers := [o] }
     d.offers.find? (fun x => lowPart x.pmask == 0 && x.refused) = some o ∧ o.tick + 62500 ≤ d.turn.now.toNat ∧
     d.turn.now.toNat < o.began + d.timeoutOf o.pmask) ∧
    (let d := { hostUp Dev.reset with loads := [load0] }
     let h : MHdr := ⟨5, 1, 1, false⟩
     d.loads.find? (fun x => x.fpid == h.fpid) = some load0 ∧ h.src ∉ load0.results ∧ d.mouldFp h.fpid = none ∧ 0xFFFD < 0xFFFE) ∧
    (∀ n ∈ [3, 5], let m := { mould0 with phase := n }
     let d := hostUp (holds m)
     Takes d ⟨5, 1, 1, false⟩ m ∧ Held d m ∧ m.phase = n ∧ m.t0 = 0 ∧ d.turn.now.toNat + 64 ≤ 64) ∧
    (let l := { load0 with image := some members0, t0 := 64 }
     let d := { Dev.reset with loads := [l], turn := { Turn.reset with now := 12500000 } }
     d.loads.find? (fun x => lowPart x.pmask == 0) = some l ∧ d.loads.find? (fun x => x.fpid == l.fpid) = some l ∧
     d.imSelf members0 = some 0 ∧ l.lastByte + imTimeout members0 ≤ d.turn.now.toNat ∧ l.t0 ≠ 0 ∧ l.t0 ≤ d.turn.now.toNat + 64) := by
  unfold Takes Held; decide +kernel

/-! ### Serving -/

theorem test_hyp_ServingQueues :
    (let d := withCtx Dev.reset
     d.ctx 0 15 = some ctx15 ∧ ctx15.queue.length + 1 < ringEntries ctx15.qSize ∧
     ringEntries ctx15.qSize ≤ (List.replicate 15 (⟨0, none, none⟩ : SubEntry)).length + 1 ∧ cOpc (cmd 0x41) = 0x41 ∧ cOpc (cmd 0x40) ≠ 0x41) ∧
    (let k := { ctx15 with since := some 10, moderate := 5 }
     k.since = some 10 ∧ 10 + k.moderate ≤ 15 ∧ 14 < 10 + k.moderate) ∧
    (let m := { mould0 with serve := some serve0, self := 1, devices := 2 }
     let d := hostUp (holds m)
     (onDev d).Canonical ∧ Takes d ⟨5, 0, 1, false⟩ m ∧ m.self ≠ 0 ∧ (List.replicate 16 (0 : BitVec 64)).length = serve0.hdr.rows ∧
     d.winAsleep (serve0.hdr.planBuf 4) (64 + 8 * serve0.hdr.rows) = false ∧ d.net.ue = []) := by
  unfold Takes; decide +kernel

theorem test_hyp_SamplingPointBuildsThePlan :
    (let v := { serve0 with drainSince := true }
     let m := { mould0 with t0 := 400, go := 3, serve := some v }
     let d := dueAt PartTime.reset m
     d.mouldLow 0 = some m ∧ Held d m ∧ m.failover = none ∧ m.alive m.self = true ∧ (∀ q ∈ partsOf m.pmask, (d.part q).next = 3 ∧ d.boundaryDue q m = true) ∧ m.self = 0 ∧
     v.planned ≤ 3 ∧ v.active = [] ∧ v.waiting = [] ∧ v.drainSince = true ∧ m.replica = true ∧ (∀ e ∈ d.errs.stepErrs, bit m.pmask e.1 = false) ∧
     v.hdr.outStep (bytesAt (v.hdr.outBuf 2) (natLe 2 8)) 2 = 2) ∧
    (let m := { mould0 with t0 := 400, go := 3 }
     let d := { dueAt PartTime.reset m with errs := { Dev.reset.errs with stepErrs := [(0, 2)] } }
     d.mouldLow 0 = some m ∧ Held d m ∧ m.failover = none ∧ m.alive m.self = true ∧ m.replica = true ∧ (∃ e ∈ d.errs.stepErrs, bit m.pmask e.1 = true) ∧
     m.rerun ≠ some (d.part 0).step.toNat ∧ ∀ q ∈ partsOf m.pmask, (d.part q).next = 3 ∧ d.boundaryDue q m = true) := by
  unfold Held; decide +kernel

/-! ### Weights -/

/-- A shard of 128 bytes at the start of slice 0, with this digest, on this attempt. -/
def shard0 (digest : Nat) (attempt : Nat) (cave : Bool := false) : Shard :=
  ⟨3, 0, 0xFFFF, 0, 128, cave, 0, digest, false, false, attempt, 0⟩

/-- A Mould in phase LOADING whose weight load takes shards. -/
def loading (x : Shard) (m : Mould := mould0) : Mould :=
  { m with phase := 4, wload := some { WLoad.fresh 0 with state := 2, mani := [1], shards := [x] } }

/-- A manifest of one shard, without a key that anyone knows (Tables 16-1, 16-2). -/
def manifest (kind : Nat) : List Byte :=
  natLe 0x54534E4D 4 ++ natLe 1 2 ++ natLe kind 2 ++ natLe 5 2 ++ natLe 1 2 ++ natLe 1 4 ++ natLe 0 48 ++
    (natLe 3 4 ++ natLe 0 2 ++ natLe 0xFFFF 2 ++ natLe 0 8 ++ natLe 128 4 ++ natLe 0 44) ++ natLe 0 2852

theorem test_hyp_WeightManifest :
    ∀ self ∈ [0, 1],
      let m := { mould0 with phase := 4, self := self, wload := if self = 0 then some (WLoad.fresh 0) else none }
      (holds m).mouldLow 0 = some m ∧ Held (holds m) m ∧ (m.phase = 4 ∨ m.phase = 6) ∧
      (∀ w ∈ m.wload, w.state = 1 ∧ w.mani = [] ∧ w.src = none) := by
  unfold Held; decide +kernel

theorem test_hyp_WeightManifest_formats :
    wmFormatOk [] = false ∧ wmFormatOk (manifest 1) = true ∧ wmFormatOk (manifest 0) = true := by decide +kernel

theorem test_hyp_WeightManifest_matches :
    let m := { mould0 with phase := 4, image := members0, members := [⟨0, 1, 0⟩] }
    wmMatches m (manifest 1) = false ∧ wmKind (manifest 0) = 0 ∧ wmMatches m (manifest 0) = true := by decide +kernel

theorem test_hyp_WeightManifest_targets :
    let m := { mould0 with phase := 4, image := members0 }
    (hostUp Dev.reset).crm.keysLoaded = true ∧ Dev.reset.crm.keysLoaded = false ∧
    (holds m).targetsOk m (manifest 0) = true ∧ Dev.reset.targetsOk m (manifest 0) = false := by decide +kernel

/-- No key of a fresh device is that of the manifest. -/
theorem test_hyp_WeightManifest_noKey (b : List Byte) : Dev.reset.crm.weightKey b = some 4 := by
  simp [Crm.weightKey, Dev.reset, Crm.reset, wtKeyUnknown]

/-- A manifest is accepted under a key of the table exactly as the verifier says (log entry 12). -/
theorem test_hyp_WeightManifest_goodKey (b : List Byte) (k : KeyEnt) (hk : k.digest = wmKeydig b)
    (hv : xmssVerify k.key (wmDigest b) ((b.drop (wmBody b + 32)).take 2820) = true) :
    ({ Crm.reset with keys := [(0, k)] } : Crm).weightKey b = none := by
  simp [Crm.weightKey, hk, hv]

theorem test_hyp_WeightLoad :
    (∀ x ∈ [shard0 7 0, shard0 7 1, shard0 7 5, shard0 7 1 true], let m := loading x
      let d := holds m
      d.mouldLow 0 = some m ∧ Held d m ∧
      (let w := { WLoad.fresh 0 with state := 2, mani := [1], shards := [x] }
       m.wload = some w ∧ w.taking = true ∧ w.shard 3 = some x ∧ w.src = none ∧ w.ended = false ∧ w.lastByte = 0) ∧
      x.ok = false ∧ d.winAsleep x.target x.len = false ∧ (List.replicate 128 (1 : Byte)).length = x.len ∧
      (State.reset).Canonical) ∧
    (let m := loading (shard0 7 5)
     let d := { holds m with turn := { Turn.reset with now := BitVec.ofNat 64 m.timeout } }
     0 + m.timeout ≤ d.turn.now.toNat ∧ 5 ≤ (shard0 7 5).attempt ∧ (shard0 7 5).attempt < 6 ∧
     [shard0 7 0].filter (fun y => !y.arrived && !y.ok && y.attempt == 0) = [shard0 7 0] ∧
     [shard0 7 0].filter (fun y => !y.arrived && y.attempt == 0) = [shard0 7 0] ∧ (∀ y ∈ [shard0 7 0], y.cave = false)) ∧
    (∀ y ∈ [{ shard0 7 0 with arrived := true }], y.cave = false ∧ y.arrived = true) := by
  unfold Held; decide +kernel

/-- Some digest is that of the bytes and some is not. -/
theorem test_hyp_ShardDigest (bs : List Byte) :
    shake256 bs = (shard0 (shake256 bs) 0).digest ∧ shake256 bs ≠ (shard0 (shake256 bs + 1) 0).digest :=
  ⟨rfl, Nat.ne_of_lt (Nat.lt_succ_self _)⟩

theorem test_hyp_WeightMessages :
    (∀ st ∈ [1, 2, 3], ∀ self ∈ [0, 1],
      let x := { shard0 7 0 with ok := true }
      let w := { WLoad.fresh 0 with state := st, mani := manifest 0, shards := [x], src := some (false, 0, 4096, 4096) }
      let m := { mould0 with phase := 4, self := self, wload := some w }
      let d := hostUp (holds m)
      Takes d ⟨5, 0, 1, false⟩ m ∧ Held d m ∧ m.wload = some w ∧ w.busy = true ∧ w.shard 3 = some x ∧ x.ok = true ∧ 3 ≤ 3 ∧ w.shard 4 = none ∧
      ((wmShards w.mani).find? (fun z => z.id == 3)).isSome = true ∧ (0 : Nat) ∈ (0 :: w.oks) ∧ m.devices = 1) ∧
    (let w := { WLoad.fresh 0 with state := 3, mani := manifest 0, src := some (true, 0, 4096, 4096), asked := [(1, 3)] }
     let m := { mould0 with phase := 4, devices := 2, wload := some w }
     let d := hostUp (holds m)
     Takes d ⟨5, 0, 1, false⟩ m ∧ Held d m ∧ d.mouldLow 0 = some m ∧ w.busy = true ∧ (1, 3) ∈ w.asked ∧ w.shard 3 = none ∧
     ((wmShards w.mani).find? (fun z => z.id == 3)).any (fun y => y.cave == false) = true ∧ ¬ ∀ j, j < m.devices → j ∈ 0 :: w.oks) := by
  unfold Takes Held; decide +kernel

/-! ### Members of a fabric partition -/

/-- A message from member 1, the first one. -/
def from1 : MHdr := ⟨5, 1, 1, false⟩

theorem test_hyp_MemberMessages :
    (Dev.reset.crm.fwReady = false ∧ (hostUp Dev.reset).crm.fwReady = true ∧ (∀ m ∈ (hostUp Dev.reset).moulds, m.fpid ≠ 5) ∧
     (hostUp Dev.reset).loads = []) ∧
    ((⟨5, 1, 0, false⟩ : MHdr).answer = false ∧ (⟨5, 1, 0, false⟩ : MHdr).seq ≤ lk 0 (hostUp Dev.reset).crm.mgmtSeq (5 * 65536 + 1)) ∧
    (∀ done ∈ [[], [(0, 4)]], let m := { pair with stepDone := done }
     let d := hostUp (holds m)
     Takes d from1 m ∧ m.self = 0 ∧ m.replica = true ∧ (from1.src, 4) ∉ m.stepDone ∧ m.hold = none ∧ m.alive 0 = true ∧ m.devices = 2) ∧
    (∀ done ∈ [[], [0]], let r : SwitchRun := ⟨4, 0, 9, done, false⟩
     let m := { pair with switching := some r }
     let d := hostUp (holds m)
     Takes d from1 m ∧ m.self = 0 ∧ m.switching = some r ∧ d.mouldOf (lowPart m.pmask) = some m ∧ CanAnswer d r.fn ∧ m.alive 0 = true ∧
     m.alive 1 = true ∧ m.devices = 2 ∧ (r.step < 5 ∧ ¬ r.step < 4)) ∧
    (let m := { pair with self := 1 }; Takes (hostUp (holds m)) ⟨5, 0, 1, false⟩ m ∧ m.self ≠ 0) ∧
    ({ pair with hold := some ⟨4, [], 0, 0, false, [], 0⟩ }.hold ≠ none) := by
  unfold Takes CanAnswer; decide +kernel

theorem test_hyp_FailoverRuns :
    (∀ lost ∈ [[], [0]],
      let e : Nbr := ⟨1, 0, 0, 1, 8, 1⟩
      let m := { pair lost with nbrs := [e] }
      let d := { hostUp (holds m) with ports := [(0, { Port.reset with st := .down, lost := true })] }
      d.mouldLow 0 = some m ∧ 1 < m.devices ∧ 1 ≠ m.self ∧ m.alive 1 = true ∧ m.replica = true ∧ m.phase = 6 ∧ m.linkTo 1 = some 0 ∧
      (d.port 0).st = .down ∧ (d.port 0).lost = true ∧ m.livePartner 1 = (if lost = [] then some 0 else none) ∧
      Takes d from1 m ∧ 1 ≠ 0xFFFF ∧ m.alive m.self = !lost.contains 0 ∧ (lost = [] → m.livePartner m.self = some 1) ∧ m.self ≠ 0xFFFF ∧
      m.failover = none ∧ m.coordinator = (if lost = [] then m.self else 1)) ∧
    (∀ ready ∈ [[], [(0, 7)]],
      let f : Failover := ⟨[], ready, 0, none, false⟩
      let m := { pair with failover := some f }
      let d := { hostUp (holds m) with turn := { Turn.reset with now := BitVec.ofNat 64 m.timeout } }
      m.failover = some f ∧ m.coordinator = m.self ∧ (∀ e ∈ f.ready, e.1 ≠ 1) ∧ f.since + m.timeout ≤ d.turn.now.toNat ∧ Takes d from1 m ∧
      m.alive 0 = true ∧ m.alive 1 = true ∧ (ready = [] → ∀ e ∈ (1, 7) :: f.ready.filter (fun e => e.1 ≠ 1), e.1 ≠ 0) ∧
      (ready ≠ [] → ∃ e ∈ (1, 7) :: f.ready.filter (fun e => e.1 ≠ 1), e.1 = 0)) := by
  unfold Takes; decide +kernel

theorem test_hyp_HoldsAndStateCopies :
    (∀ self ∈ [0, 1], ∀ held ∈ [[], [1]],
      let x : Hold := ⟨3, [], 0, 9, true, held, 0⟩
      let m := { pair with self := self, hold := some x, go := 3 }
      let d := hostUp (dueAt PartTime.reset m)
      let d := { d with parts := [(0, { d.part 0 with st := .stopped })], turn := { d.turn with now := BitVec.ofNat 64 (2000 + m.timeout) } }
      d.mouldLow 0 = some m ∧ m.hold = some x ∧ m.quiet = false ∧ d.fpQuiet m.fpid = true ∧
      (∀ q ∈ partsOf m.pmask, (d.part q).st = .stopped ∧ (d.part q).next = x.step) ∧ x.since + m.timeout ≤ d.turn.now.toNat ∧
      (d.part 0).nominal x.step + m.timeout ≤ d.turn.now.toNat ∧ x.host = true ∧ CanAnswer d x.fn ∧ Takes d from1 m ∧ m.alive 0 = true ∧
      m.alive 1 = true ∧ (onDev d).Canonical ∧ [(1 : Byte)] ≠ [] ∧ d.inMould m 0x1800FFFFF 1 = true ∧
      d.winAsleep 0x1800FFFFF 1 = false ∧ (d.part 0).period ≠ 0 ∧ (d.part 0).nominal (d.part 0).next ≤ d.turn.now.toNat) ∧
    pair.hold = none ∧ ((hostUp (holds pair)).part 0).restartAt = none ∧ { PartTime.reset with restartAt := some (3, 2000) }.restartAt ≠ none := by
  unfold Takes CanAnswer; decide +kernel

/-! ### Ports -/

/-- A packet for the start of slice 0 from member 1. -/
def packet (amount : Option Nat) : Packet :=
  { cls := 0, addr := 0, epoch := 0, fmt := 0, fpid := 5, syn := 3, src := 1, dst := 0, tree := 0,
    data := if amount.isSome then [] else List.replicate 64 1, amount := amount }

/-- What member 1 says of itself. -/
def ident1 : Identity := ⟨8, 1, 1, 4, 1, 2, 0, 0, [(5, 0)]⟩

/-- The pair's device, port 0 admitted with member 1 behind it and this packet arrived. -/
def arrived (pk : Packet) (m : Mould := pair) : Dev :=
  { hostUp (holds m) with ports := [(0, { Port.reset with st := .admitted, peer := some ident1, done := [pk] })] }

theorem test_hyp_FabricPacketsLeave :
    ∀ x ∈ [(false, 2 ^ 34), (false, 2 ^ 35), (true, 2 ^ 34)],
      let k : FabPkt := ⟨x.2, 0, 5, 3⟩
      let f := { flit (mkHdr 0 0 0 0 4 0 3 0 0) with fab := some k }
      let m := if x.1 then { pair with self := 1 } else pair
      let d := holds m
      let d := { d with net := { d.net with unitIn := [(4, [f])] } }
      let q := lk [] d.net.unitIn 4
      let tab := m.tab m.epoch
      gather q q = some ([f], []) ∧ d.mouldOf f.ptag = some m ∧ f.fab = some k ∧ k.cls ≠ 1 ∧
      ((tab.rec_ m.self).muted = true ∧ k.cls < 2 ↔ x.1 = true) ∧ (d.port 0).st ≠ .admitted ∧ d.offers = [] ∧
      (m.destOf tab 0 k.addr = if x.2 = 2 ^ 34 then some 1 else none) := by decide +kernel

theorem test_hyp_FabricPacketsArrive :
    (∀ amount ∈ [none, some 4096],
      let pk := packet amount
      let d := arrived pk
      (d.port 0).done.find? (fun k => k.cls == pk.cls) = some pk ∧ (d.port 0).st = .admitted ∧ pk.off = 0 ∧ pk.data.length % 64 = 0 ∧ d.mouldFp pk.fpid = some pair ∧
      d.portAdmits 0 pk.fpid pk.src = true ∧ (pair.tab pk.epoch).valid = true ∧ pk.dst = pair.self ∧ pk.cls ≠ 3 ∧ pk.cls ≠ 1 ∧ pk.amount = amount ∧
      d.fabTarget pair pk = some (.inl 0) ∧ d.fabSyn pair pk.syn = true ∧ d.atRetention 0 = false ∧ pk.syn < 24576 ∧
      (lk (0 : BitVec 32) (d.core (pk.syn / 32)).syn (pk.syn % 32)).toNat + 4096 < 2 ^ 32 ∧ (onDev d).Canonical ∧ d.net.ue = []) ∧
    (let d := { arrived (packet none) with clk := { Dev.reset.clk with sleep := [(0, .powerGated)] } }
     d.fabTarget pair (packet none) = some (.inl 0) ∧ d.atRetention 0 = true) ∧
    (arrived { packet none with fpid := 6 }).mouldFp 6 = none ∧ (arrived (packet none)).portAdmits 0 6 1 = false ∧
    (arrived (packet none)).fabTarget pair { packet none with addr := 0x800000 } = none ∧
    (arrived (packet none)).fabSyn pair 24575 = false ∧ (arrived (packet none)).fabTree pair 0 7 = none ∧
    (arrived { packet none with cls := 1 }).fabTarget pair { packet none with cls := 1 } = some (.inl 0) ∧
    (let pk := { packet none with cls := 3 }
     (arrived pk).fabTarget pair pk = some (.inl 0) ∧ (arrived pk).fabSyn pair pk.syn = true ∧ pk.cls = 3) ∧
    (let m := { pair with nbrs := [⟨0, 0, 0, 0, 0, 0⟩, ⟨1, 0, 0, 1, 8, 1⟩] }
     let d := arrived { packet none with dst := 1 } m
     1 ≠ m.self ∧ m.boardOf 1 = m.boardOf m.self ∧ m.linkTo 1 = some 1 ∧ (d.port 1).st ≠ .admitted ∧ d.offers = []) := by decide +kernel

/-- A flit with these 252 bytes, and with its CRC plus this in place of its CRC (Table 14-2). -/
def wire (v off : Nat) : BitVec 2048 := BitVec.ofNat 2048 (v + ((crc32c (natLe v 252)).toNat + off) % 2 ^ 32 * 2 ^ 2016)

theorem natLe_low (n : Nat) : ∀ v c : Nat, natLe (v + c * 256 ^ n) n = natLe v n := by
  induction n with
  | zero => intros; rfl
  | succ n ih =>
    intro v c
    have h : v + c * 256 ^ (n + 1) = v + 256 * (c * 256 ^ n) := by rw [Nat.pow_succ]; ac_rfl
    simp only [natLe, h, Nat.add_mul_div_left v _ (by decide : 0 < 256), ih]
    congr 1
    apply BitVec.eq_of_toNat_eq
    simp [Nat.add_mul_mod_self_left]

theorem add_mul_lt {v c p n : Nat} (hv : v < p) (hc : c < n) : v + c * p < n * p :=
  calc v + c * p < p + c * p := Nat.add_lt_add_right hv _
    _ = (c + 1) * p := by rw [Nat.succ_mul, Nat.add_comm]
    _ ≤ n * p := Nat.mul_le_mul_right _ hc

set_option exponentiation.threshold 2048 in
theorem wire_toNat {v : Nat} (off : Nat) (h : v < 2 ^ 2016) :
    (wire v off).toNat = v + ((crc32c (natLe v 252)).toNat + off) % 2 ^ 32 * 2 ^ 2016 := by
  have e : (2 : Nat) ^ 2048 = 2 ^ 32 * 2 ^ 2016 := by decide +kernel
  rw [wire, BitVec.toNat_ofNat, e, Nat.mod_eq_of_lt (add_mul_lt h (Nat.mod_lt _ (by decide)))]

set_option exponentiation.threshold 2048 in
theorem wire_crc {v : Nat} (off : Nat) (h : v < 2 ^ 2016) :
    flitNum (wire v off) 0xFC 4 = ((crc32c (natLe v 252)).toNat + off) % 2 ^ 32 := by
  rw [flitNum, wire_toNat off h, bits, show 8 * 0xFC = 2016 from rfl, show 8 * (0xFC + 4) - 1 + 1 - 2016 = 32 from rfl]
  rw [Nat.add_mul_div_right _ _ (Nat.two_pow_pos 2016), Nat.div_eq_of_lt h, Nat.zero_add, Nat.mod_mod]

theorem wire_num {v : Nat} (off : Nat) (h : v < 2 ^ 2016) (a n : Nat) (ha : a + n ≤ 252) (hn : 0 < n) :
    flitNum (wire v off) a n = v / 2 ^ (8 * a) % 2 ^ (8 * n) := by
  rw [flitNum, wire_toNat off h]
  have e : (2 : Nat) ^ 2016 = 2 ^ (8 * a) * (2 ^ (8 * n) * 2 ^ (2016 - 8 * (a + n))) := by
    rw [← Nat.pow_add, ← Nat.pow_add]; congr 1; omega
  show (v + _ * 2 ^ 2016) / 2 ^ (8 * a) % 2 ^ (8 * (a + n) - 1 + 1 - 8 * a) = _
  rw [e, show ∀ c x y z : Nat, c * (x * (y * z)) = x * (y * (c * z)) by intros; ac_rfl, Nat.add_mul_div_left _ _ (Nat.two_pow_pos _),
    show 8 * (a + n) - 1 + 1 - 8 * a = 8 * n by omega, Nat.add_mul_mod_self_left]

/-- The CRC of such a flit is right exactly where it was not shifted. -/
theorem wire_good {v : Nat} (off : Nat) (h : v < 2 ^ 2016) (ho : off = 0 ∨ off = 1) :
    (crc32c (natLe (wire v off).toNat 252)).toNat = flitNum (wire v off) 0xFC 4 ↔ off = 0 := by
  have e : (2 : Nat) ^ 2016 = 256 ^ 252 := by decide +kernel
  rw [wire_crc off h, wire_toNat off h, e, natLe_low]
  have := (crc32c (natLe v 252)).isLt
  obtain rfl | rfl := ho
  · simp [Nat.mod_eq_of_lt this]
  · omega

set_option exponentiation.threshold 2048 in
/-- The type and SEQ of the flits below, good or damaged (Table 14-2). -/
theorem test_hyp_flits :
    ∀ e ∈ [(1, 4095, 0), (1, 0, 0), (2, 4094, 0), (3, 0, 0), (0, 0, 0), (1, 0, 1), (3, 0, 1)],
      let f := wire (e.1 + e.2.1 * 2 ^ 16) e.2.2
      ((crc32c (natLe f.toNat 252)).toNat = flitNum f 0xFC 4 ↔ e.2.2 = 0) ∧ flitNum f 0 1 % 16 = e.1 ∧ flitNum f 0 1 / 16 % 4 = 0 ∧
      flitNum f 2 2 = e.2.1 := by
  intro e he
  have l : e.1 + e.2.1 * 2 ^ 16 < 2 ^ 32 := by revert e; decide
  have p : (2 : Nat) ^ 32 ≤ 2 ^ 2016 := Nat.pow_le_pow_right (by decide) (by decide : 32 ≤ 2016)
  have h := Nat.lt_of_lt_of_le l p
  refine ⟨wire_good _ h (by clear h l; revert e; decide), ?_⟩
  rw [wire_num _ h 0 1 (by decide) (by decide), wire_num _ h 2 2 (by decide) (by decide)]
  clear h l p; revert e; decide +kernel

/-- The flits are those of `test_hyp_flits`. -/
theorem test_hyp_BoardLinkRetry :
    (let x := { Port.reset with st := .admitted, expect := 4095 }
     x.talks = true ∧ x.carries = true ∧ x.st ≠ .quarantined ∧ x.retrain = none ∧ x.rxRetry = false ∧
     ((4095 : BitVec 12) - x.expect).toNat = 0 ∧ ((0 : BitVec 12) - x.expect).toNat = 1 ∧ 2048 ≤ ((4094 : BitVec 12) - x.expect).toNat) ∧
    (∀ runs ∈ [0, 15],
      let a : BitVec 2048 × Nat := (mkWire 1 0 true 4095 0 [], 5)
      let b : BitVec 2048 × Nat := (mkWire 1 0 true 0 0 [], 5)
      let x := { Port.reset with st := .admitted, replay := [a, b], replayRuns := runs, replaySeq := 4095 }
      x.carries = true ∧ x.retrain = none ∧ x.replay = [a] ++ b :: [] ∧ heldSeq a ≠ heldSeq b ∧ (heldSeq b - heldSeq a).toNat < 2048 ∧ heldSeq a = x.replaySeq) ∧
    (let x := { Port.reset with st := .admitted, rxRetry := true }; x.replay = [] ∧ x.rxRetry = true ∧ x.carries = true) ∧
    { Port.reset with st := .quarantined }.carries = false ∧ { Port.reset with st := .quarantined }.talks = true ∧
    (let d := { hostUp (holds mould0) with turn := { Turn.reset with now := 6250 }, ports := [(0, { Port.reset with retrain := some 0, replay := [(0, 5)] })] }
     (d.port 0).retrain = some 0 ∧ 0 + 6250 ≤ d.turn.now.toNat ∧ ∃ m ∈ d.moulds, ∃ e ∈ (d.port 0).replay, e.2 = m.fpid) := by
  decide +kernel

/-- The flits are those of `test_hyp_flits`. -/
theorem test_hyp_EthernetSegments :
    (let e : SegFlit := ⟨0xFFFFFFFF, 1, 5, ⟨6, 0, 0, 1, 0, 0, 0, 0⟩⟩
     let p : SegPeer := { SegPeer.fresh 77 with unacked := [e, { e with seq := 0 }], next := 1 }
     let x := { Port.reset with st := .admitted, peers := [p] }
     let v : BitVec 128 := segHdr 1 true false 0 0xFFFFFFFF 0
     let w : BitVec 128 := segHdr 1 false false 0 0 1
     x.identified = true ∧ x.seg 77 = p ∧ v.toNat % 2 ^ 16 = 0x5253 ∧ p.refused = none ∧ bit v.toNat 25 = false ∧ bit v.toNat 24 = true ∧
     v.toNat / 2 ^ 96 % 256 = 0 ∧ x.sendQ = [] ∧ (BitVec.ofNat 32 (v.toNat / 2 ^ 64) - e.seq).toNat < 2 ^ 31 ∧
     2 ^ 31 ≤ (BitVec.ofNat 32 (v.toNat / 2 ^ 64) - 0).toNat ∧ w.toNat / 2 ^ 96 % 256 = 1 ∧ w.toNat % 2 ^ 16 = 0x5253 ∧ bit w.toNat 25 = false ∧
     (BitVec.ofNat 32 (w.toNat / 2 ^ 32) - p.expect).toNat = 0 ∧ x.st ≠ .quarantined ∧ (0 < 2 ^ 31 ∧ 1 < 2 ^ 31) ∧
     lk 0 x.rxUsed 2 + 256 ≤ 2 ^ 18 ∧
     (BitVec.ofNat 32 ((segHdr 1 false false 1 0 1).toNat / 2 ^ 32) - p.expect).toNat = 1) ∧
    (∀ n ∈ [0, 15],
      let e : SegFlit := ⟨9, 0, 5, ⟨6, 0, 0, 1, 0, 0, 0, 0⟩⟩
      let p : SegPeer := { SegPeer.fresh 77 with unacked := [e], resends := n, from_ := 9 }
      p.refused = none ∧ p.unacked = e :: [] ∧ p.from_ = e.seq ∧
      ∀ h ∈ [(0 : BitVec 4), 1], bit h.toNat (flitNum e.flit 0 1 / 16 % 4) = (h == 1)) ∧
    (let e : SegFlit := ⟨9, 0, 5, ⟨6, 0, 0, 1, 0, 0, 0, 0⟩⟩
     let p : SegPeer := { SegPeer.fresh 77 with unacked := [e], refused := some 0 }
     [p].find? (fun p => p.refused.any (fun k => decide (k + 6250 ≤ 6250)) && !p.unacked.isEmpty) = some p) ∧
    (let x := { Port.reset with st := .admitted, pfc := 3, rxUsed := [(1, 2 ^ 20 + 1)] }
     x.talks = true ∧ bit x.pfc.toNat 1 = true ∧ 2 ^ 20 < lk 0 x.rxUsed 1) := by decide +kernel

theorem test_hyp_LinkTraining :
    (let d := synced .locked 10
     let e := { d with ports := [(8, { Port.reset with st := .training, step := 2 })] }
     d.rst = false ∧ (d.port 1).st = .down ∧ d.heldDown 1 = false ∧ (d.port 1).lost = false ∧ { d.port 1 with lost := true }.lost = true ∧ (e.port 8).st = .training ∧ (e.port 8).step ≤ 2 ∧
     d.crm.phase ≠ .firmware ∧ (hostUp d).crm.phase = .firmware ∧ (d.port 0).st ≠ .down) ∧
    (let x := { Port.reset with st := .training, step := 4, idSent := some 0 }
     x.identified = true ∧ x.idSent = some 0 ∧ 0 + 6250 ≤ 6250 ∧ x.st = .training ∧ x.step = 4 ∧ Port.reset.idSent = none) ∧
    ((Dev.reset.revision 0 ident1).isSome = true ∧ Dev.reset.revision 0 { ident1 with revMin := 3, revMax := 3 } = none) ∧
    (∀ n ∈ [6, 7], let x := { Port.reset with st := .training, step := 6, probes := List.replicate n 245760, peer := some ident1 }
     x.st = .training ∧ x.step = 6 ∧ x.probes.length = n ∧ x.retrain = none ∧ x.peer = some ident1 ∧
     (x.probes.foldl (fun a b => a + b) 0 + 245760) / 8 ≤ 245760) ∧
    (∀ n ∈ [6, 7], let g : Neg := ⟨ident1, 1, List.replicate n 245760⟩
     let x := { Port.reset with st := .admitted, negs := [g] }
     x.negs = g :: [] ∧ g.probes.length = n ∧ x.retrain = none) ∧
    245760 < ((List.replicate 7 245760).foldl (fun a b => a + b) 0 + 245768) / 8 ∧
    (Dev.reset.passes 0 ident1 = none ∧
     (let m := { mould0 with nbrs := [⟨1, 0, 4, 1, 8, 1⟩] }
      (holds m).passes 0 ident1 = some true ∧ (holds m).passes 0 { ident1 with slot := 2 } = some false)) := by decide +kernel

theorem test_hyp_BoardAndTestPort :
    (let p := { Dev.reset.pwr with st := .off }; p.st = .off ∧ Dev.reset.pwr.st ≠ .off) ∧
    (mgmtRange 0x1FC0 64 = true ∧ mgmtRange 0x1FC4 64 = false ∧ 0x1FC0 % 4 = 0 ∧ 64 ≤ 64 ∧ 4 ≤ 4 ∧ 2 % 4 ≠ 0) ∧
    (let d := hostUp (synced .locked 1)
     d.rst = false ∧ d.crm.phase = .firmware ∧ d.pwr.st ≠ .off ∧ d.board ≠ 5) ∧
    (let d := { hostUp Dev.reset with ports := [(8, { Port.reset with st := .admitted })] }
     (d.port 8).identified = true ∧ d.pwr.enable = true) ∧
    0x0000 ∉ shadowRegs := by decide +kernel


/-! ### WellFormed: one ill-formed term for each check -/

/-- A message header whose FPID does not fit. -/
def badHdr : MHdr := ⟨4096, 1, 1, false⟩

/-- A datagram is as long as its header says, and at most 8 flits; a telemetry sample has 55 temperatures. -/
theorem test_illFormed_inputs :
    (Instr.datagramReceive 7 77 true (segHdr 1 false false 0 0 2) [0]).wellFormed = false ∧
    (Instr.datagramReceive 7 77 true (segHdr 1 false false 0 0 9) (List.replicate 9 0)).wellFormed = false ∧
    (Instr.datagramReceive 7 77 true (segHdr 1 false false 0 0 1) [0]).wellFormed = true ∧
    (Instr.telemetrySample (2 ^ 16) 0 0 0 (List.replicate 55 0)).wellFormed = false ∧
    (Instr.telemetrySample 0 0 0 0 (List.replicate 54 0)).wellFormed = false ∧
    (Instr.syncWordReceive 0 256 0 0 0 0 0 0).wellFormed = false ∧ (Instr.syncWordReceive 0 0 (2 ^ 64) 0 0 0 0 0).wellFormed = false ∧
    (Instr.syncWordReceive 0 0 0 0 (2 ^ 64) 0 0 0).wellFormed = false ∧ (Instr.pfcFrameReceive 7 8 0).wellFormed = false ∧
    (Instr.refuseReceive 0 4096 0).wellFormed = false ∧ (Instr.mgmtRead 0 256).wellFormed = false := by decide +kernel

theorem test_illFormed_accesses :
    (Instr.bar0Access 0 0 3 false 0).wellFormed = false ∧ (Instr.registerWrite none 0 16 0).wellFormed = false ∧
    (Instr.hartWindowAccess 0 0 0 false 0 false).wellFormed = false ∧ (Instr.bar2Access 0 0 64 true [0]).wellFormed = false ∧
    (Instr.bar2Access 0 0 64 false [0]).wellFormed = false ∧ (Instr.msgBar2Access ⟨5, 1, 1, false⟩ 0 64 true []).wellFormed = false ∧
    (Instr.msgBar2Access badHdr 0 0 true []).wellFormed = false := by decide +kernel

theorem test_illFormed_messages :
    (∀ i ∈ [Instr.msgPlan badHdr 0 [], .msgStepdone badHdr 0, .msgGo badHdr 0, .msgReady badHdr 0, .msgHold badHdr 0, .msgSwitch badHdr 0,
        .msgStart badHdr 0, .msgRestart badHdr 0 0, .msgResume badHdr 0 [], .msgMouldOffer 0 badHdr (List.replicate 64 0) 0 false,
        .msgLoadResult badHdr 0, .msgCommit badHdr, .msgCancelled badHdr, .msgWeightsOk badHdr, .msgWeightCommit badHdr,
        .msgWeightAbandon badHdr, .msgHeld badHdr, .msgAbandon badHdr 0, .msgLost badHdr 0, .msgShardRequest badHdr 0 0,
        .msgShardFailed badHdr 0, .msgStateCopy badHdr 0 []], i.wellFormed = false) ∧
    (let h : MHdr := ⟨5, 1, 1, false⟩
     ∀ i ∈ [Instr.msgPlan h (2 ^ 64) [], .msgStepdone h (2 ^ 64), .msgGo h (2 ^ 64), .msgReady h (2 ^ 64), .msgHold h (2 ^ 64),
        .msgSwitch h (2 ^ 64), .msgStart h (2 ^ 64), .msgRestart h (2 ^ 64) 0, .msgRestart h 0 (2 ^ 64), .msgResume h (2 ^ 64) [],
        .msgResume h 0 (List.replicate 257 (0, 0, 0)), .msgMouldOffer 0 h [0] 0 false, .msgMouldOffer 0 h (List.replicate 64 0) (2 ^ 64) false,
        .msgLoadResult h 256, .msgAbandon h (2 ^ 16), .msgLost h (2 ^ 16), .msgShardRequest h (2 ^ 32) 0, .msgShardFailed h (2 ^ 32),
        .msgLockstepRecord 0 (2 ^ 64) [], .msgLockstepRecord 0 0 (List.replicate 769 0), .lsWaitExpire 0 (2 ^ 64)], i.wellFormed = false) ∧
    (Instr.msgMouldOffer 0 ⟨5, 1, 1, true⟩ [] 0 false).wellFormed = true ∧ (Instr.msgCommit ⟨5, 2 ^ 16, 1, false⟩).wellFormed = false ∧
    (Instr.msgCommit ⟨5, 1, 2 ^ 32, false⟩).wellFormed = false := by decide +kernel

theorem test_illFormed_identity :
    (∀ b ∈ [{ ident1 with serial := 2 ^ 64 }, { ident1 with board := 2 ^ 64 }, { ident1 with slot := 8 }, { ident1 with port := 256 },
        { ident1 with revMin := 256 }, { ident1 with revMax := 256 }, { ident1 with fwVersion := 2 ^ 32 }, { ident1 with state := 256 },
        { ident1 with parts := List.replicate 17 (5, 0) }], (Instr.identityReceive 0 b).wellFormed = false) ∧
    (Instr.identityReceive 0 ident1).wellFormed = true := by decide +kernel

/-- Packets with one field too wide. -/
def badPackets (k : Packet) : List Packet :=
  [{ k with cls := 4 }, { k with addr := 2 ^ 37 }, { k with epoch := 2 }, { k with fmt := 2 }, { k with fpid := 2 ^ 12 },
   { k with syn := 2 ^ 15 }, { k with tree := 256 }, { k with data := List.replicate 4097 0 }]

theorem test_illFormed_packet :
    (badPackets (packet none)).all (fun k => !(Instr.fabricPacketArrive 0 k).wellFormed) = true ∧
    (Instr.fabricPacketArrive 0 (packet none)).wellFormed = true := by decide +kernel

/-- A command row does not take an entry of another listed opcode; an opcode that Table 18-7 does not list is any row's. -/
theorem test_illFormed_entries :
    (∀ i ∈ [Instr.openCtx 0 2 none, .closeCtx 0 1, .cancel 0 1, .prefixRelease 0 1, .drain 0 1, .openLog 0 ⟨1, []⟩, .openLog 0 ⟨6, [([], none)]⟩, .closeLog 0 1,
        .loadMould 0 1 none, .start 0 1, .unload 0 1, .loadWeights 0 1, .switch 0 1, .hold 0 1 none, .substitute 0 1, .failover 0 1,
        .writeFabric 0 1 none, .dump 0 1 none, .keyInstall 0 1 none, .keyRemove 0 1 none, .attest 0 1, .retire 0 1, .distance 0 1,
        .caveRead 0 1, .caveWrite 0 1 none, .turnPrio 0 1, .openChan 0 1, .closeChan 0 1, .submit 0 0 0x41 none none,
        .submitPrefix 0 0 0x40 none none], i.wellFormed = false) ∧
    (∀ i ∈ [Instr.openCtx 0 1 none, .openCtx 0 0xFF none, .submit 0 0 0x40 none none, .submitPrefix 0 0 0x41 none none],
      i.wellFormed = true) := by decide +kernel

/-- The one ill-formed term that a meaning faults on. -/
theorem test_illFormed_faults :
    (match exec (.datagramReceive 7 77 true (segHdr 1 false false 0 0 2) [0])
        (onDev { Dev.reset with ports := [(7, { Port.reset with st := .admitted })] }) with
     | .fault .illFormed => true | _ => false) = true := by decide +kernel

/-- A store of hart 2 to a reserved range of the window: mcause 7, mepc the pc it had, mtval the hart's address, pc the base of mtvec,
MPP the user level and MPIE what MIE was (RISC-V privileged specification, machine-level trap). -/
theorem test_hart_store_fault :
    (match exec (.hartWindowAccess 2 0x1B0000000 8 true 1 false)
        (onDev { Dev.reset with rst := false, crm := { Crm.reset with
          phase := .firmware, hartsUp := true,
          harts := [(2, { Hart.reset with pc := 0x10000040, mtvec := 0x10000101, priv := 0, mstatus := 8 })] } }) with
     | .next t => lk Hart.reset t.dev.crm.harts 2 ==
         { Hart.reset with pc := 0x10000100, mepc := 0x10000040, mcause := 7, mtval := 0x5B0000000, priv := 3,
                           mtvec := 0x10000101, mstatus := 0x80 }
     | _ => false) = true := by decide +kernel

end Sys2Proof.Tests
end

/-! ## Register and window accesses -/

namespace Sys2Proof.Machine

/-! ### The register space (R410 to R412) -/

theorem lt_of_regBlock_isSome {x : Nat} (h : (regBlock x).isSome = true) : x < 0x400000 := by
  by_contra hx
  have hnone : regBlock x = none := by
    unfold regBlock
    iterate 8 rw [if_neg (by omega)]
  simp [hnone] at h

/-- BAR0 shows the register space from a multiple of 8 on, so alignment is the same on both sides (R334, R412). -/
theorem regAligned_bar0 (x size : Nat) : regAligned (0x1000000 + x) size = regAligned x size := by
  simp only [regAligned, show (0x1000000 + x) % 4 = x % 4 by omega, show (0x1000000 + x) % 8 = x % 8 by omega]

theorem bar0Known_regSpace {x : Nat} (h : (regBlock x).isSome = true) : bar0Known (0x1000000 + x) = true := by
  have hx := lt_of_regBlock_isSome h
  simp only [bar0Known, Nat.add_sub_cancel_left, h, Bool.and_true, Bool.or_eq_true, Bool.and_eq_true, decide_eq_true_eq]
  omega

/-- An 8 B read of a 64-bit register reads its whole value (R412). -/
theorem regRead_of_reg64 {d : Dev} {x n : Nat} (hx : x % 8 = 0) (hb : (regBlock x).isSome = true)
    (hb4 : (regBlock (x + 4)).isSome = true) (hr : d.regAt x = some ⟨8, n⟩) (hr4 : d.regAt (x + 4) = none) :
    d.regRead x 8 = some n := by
  have hlow : d.word32 x = some (n % 2 ^ 32) := by
    simp [Dev.word32, Option.isSome_iff_ne_none.mp hb, hr]
  have hhigh : d.word32 (x + 4) = some (n / 2 ^ 32) := by
    simp [Dev.word32, Option.isSome_iff_ne_none.mp hb4, hr4, show (x + 4) % 8 = 4 by omega, hr]
  simp only [Dev.regRead, hlow, hhigh, show ¬(8 = 4) by decide, if_false, Option.some.injEq]
  omega

/-- An 8 B write of a 64-bit register sets it to the value written (R412). -/
theorem regWrite_of_reg64 {d : Dev} {x n : Nat} (who : Option FnId) (v : Nat) (hr : d.regAt x = some ⟨8, n⟩) :
    d.regWrite who x 8 v = d.regSet who x (v % 2 ^ 64) (v % 2 ^ 64) := by
  simp [Dev.regWrite, hr]

/-- A 4 B write of a 32-bit register sets it to the value written (R412). -/
theorem regWrite_of_reg32 {d : Dev} {x n : Nat} (who : Option FnId) (v : Nat) (hr : d.regAt x = some ⟨4, n⟩) :
    d.regWrite who x 4 v = d.regSet who x (v % 2 ^ 32) (v % 2 ^ 32) := by
  simp [Dev.regWrite, Dev.wrWord, hr]

/-! ### Registers by name -/

theorem regAt_turnNow (d : Dev) : d.regAt 0x2000 = some ⟨8, d.turn.now.toNat % 2 ^ 64⟩ := rfl
theorem regAt_turnEpoch (d : Dev) : d.regAt 0x2020 = some ⟨8, d.turn.epoch.toNat % 2 ^ 64⟩ := rfl
theorem regAt_pwrLimit (d : Dev) : d.regAt 0x1118 = some ⟨4, d.pwr.limit.toNat % 2 ^ 32⟩ := rfl

theorem regRead_turnNow (d : Dev) : d.regRead 0x2000 8 = some d.turn.now.toNat := by
  have h := regRead_of_reg64 (by decide) (by decide) (by decide) (regAt_turnNow d) rfl
  rwa [Nat.mod_eq_of_lt d.turn.now.isLt] at h

/-- TURN_NOW is read-only: a write of it changes nothing. -/
theorem regWrite_turnNow (d : Dev) (who : Option FnId) (v : Nat) : d.regWrite who 0x2000 8 v = d :=
  regWrite_of_reg64 who v (regAt_turnNow d)

/-- A function's write of TURN_EPOCH, which only firmware writes, changes nothing (R413). -/
theorem regWrite_turnEpoch_func (d : Dev) (f : FnId) (v : Nat) : d.regWrite (some f) 0x2020 8 v = d :=
  regWrite_of_reg64 (some f) v (regAt_turnEpoch d)

theorem regWrite_turnEpoch_firmware (d : Dev) (v : BitVec 64) :
    d.regWrite none 0x2020 8 v.toNat = { d with turn := { d.turn with epoch := v } } := by
  have hv : BitVec.ofNat 64 (v.toNat % 2 ^ 64) = v := by simp [Nat.mod_eq_of_lt v.isLt]
  calc d.regWrite none 0x2020 8 v.toNat
      = { d with turn := { d.turn with epoch := BitVec.ofNat 64 (v.toNat % 2 ^ 64) } } :=
        regWrite_of_reg64 none v.toNat (regAt_turnEpoch d)
    _ = _ := by rw [hv]

/-- PWR_LIMIT takes a value of at most 11,000 and keeps its value otherwise (R6). -/
theorem regWrite_pwrLimit (d : Dev) (who : Option FnId) (v : BitVec 64) :
    d.regWrite who 0x1118 4 v.toNat =
      { d with pwr := { d.pwr with limit := if v.toNat % 65536 ≤ 0x2AF8 then v.setWidth 16 else d.pwr.limit } } := by
  have hset : d.regWrite who 0x1118 4 v.toNat =
      if v.toNat % 2 ^ 32 % 65536 ≤ 0x2AF8 then
        { d with pwr := { d.pwr with limit := BitVec.ofNat 16 (v.toNat % 2 ^ 32) } } else d :=
    regWrite_of_reg32 who v.toNat (regAt_pwrLimit d)
  have hlow : v.toNat % 2 ^ 32 % 65536 = v.toNat % 65536 := by omega
  have hval : BitVec.ofNat 16 (v.toNat % 2 ^ 32) = v.setWidth 16 := by
    apply BitVec.eq_of_toNat_eq; simp only [BitVec.toNat_ofNat, BitVec.toNat_setWidth]; omega
  rw [hset, hlow, hval]
  split <;> rfl

/-- ERR_IRQ_CFG of function g takes the write of function g alone (R413). -/
theorem regWrite_errIrqCfg (d : Dev) (f g : FnId) (v : Nat) :
    d.regWrite (some f) (0x10010 + 8 * g.val) 4 v =
      if f.val = g.val then
        { d with errs := { d.errs with irqVec := up d.errs.irqVec g.val (BitVec.ofNat 6 (v % 2 ^ 32 / 256)),
                                       irqEn := up d.errs.irqEn g.val (BitVec.ofNat 4 (v % 2 ^ 32)) } }
      else d := by
  have hblock : regBlock (0x10010 + 8 * g.val) = some (9, 0, 0x10 + 8 * g.val) := by fin_cases g <;> rfl
  have hindex : (0x10 + 8 * g.val - 0x10) / 8 = g.val := by omega
  have hreg : ∃ n, d.regAt (0x10010 + 8 * g.val) = some ⟨4, n⟩ := by fin_cases g <;> exact ⟨_, rfl⟩
  obtain ⟨n, hreg⟩ := hreg
  have hrange : (decide (0x10 ≤ 0x10 + 8 * g.val) && decide (0x10 + 8 * g.val < 0x30)) = true := by
    simp only [Bool.and_eq_true, decide_eq_true_eq]; omega
  rw [regWrite_of_reg32 _ _ hreg]
  simp only [Dev.regSet, hblock, Dev.wrErr, hindex, hrange, Bool.true_and, Option.all_some, beq_iff_eq]

theorem regAligned_errIrqCfg (g : FnId) : regAligned (0x10010 + 8 * g.val) 4 = true := by
  have h : (0x10010 + 8 * g.val) % 4 = 0 := by omega
  simp [regAligned, h]

/-! ### REGISTER_WRITE -/

/-- A naturally aligned REGISTER_WRITE outside device reset is a write of the register space. -/
theorem exec_registerWrite {s : State} (who : Option FnId) {x size : Nat} (v : BitVec 64) (hrst : s.dev.rst = false)
    (ha : regAligned x size = true) :
    exec (.registerWrite who x size v) s = .next { s with dev := s.dev.regWrite who x size v.toNat } := by
  simp [exec, execRegisterWrite, lift, hrst, ha]

theorem exec_registerWrite_unaligned {s : State} (who : Option FnId) {x size : Nat} (v : BitVec 64)
    (ha : regAligned x size = false) : exec (.registerWrite who x size v) s = .next s := by
  simp [exec, execRegisterWrite, lift, ha]

section NamedRegisters

variable {s : State} (v : BitVec 64) (hrst : s.dev.rst = false)
include hrst

theorem exec_registerWrite_turnNow (who : Option FnId) : exec (.registerWrite who 0x2000 8 v) s = .next s := by
  rw [exec_registerWrite who v hrst (by decide), regWrite_turnNow]

theorem exec_registerWrite_pwrLimit (who : Option FnId) :
    exec (.registerWrite who 0x1118 4 v) s = .next { s with dev := { s.dev with pwr := { s.dev.pwr with
      limit := if v.toNat % 65536 ≤ 0x2AF8 then v.setWidth 16 else s.dev.pwr.limit } } } := by
  rw [exec_registerWrite who v hrst (by decide), regWrite_pwrLimit]

theorem exec_registerWrite_turnEpoch_func (f : FnId) : exec (.registerWrite (some f) 0x2020 8 v) s = .next s := by
  rw [exec_registerWrite (some f) v hrst (by decide), regWrite_turnEpoch_func]

theorem exec_registerWrite_turnEpoch_firmware :
    exec (.registerWrite none 0x2020 8 v) s = .next { s with dev := { s.dev with turn := { s.dev.turn with epoch := v } } } := by
  rw [exec_registerWrite none v hrst (by decide), regWrite_turnEpoch_firmware]

theorem exec_registerWrite_errIrqCfg_other {f g : FnId} (h : g ≠ f) :
    exec (.registerWrite (some f) (0x10010 + 8 * g.val) 4 v) s = .next s := by
  rw [exec_registerWrite (some f) v hrst (regAligned_errIrqCfg g), regWrite_errIrqCfg,
    if_neg (fun e => h (Fin.ext e.symm))]

theorem exec_registerWrite_errIrqCfg_own (f : FnId) :
    ∃ t a b, exec (.registerWrite (some f) (0x10010 + 8 * f.val) 4 v) s = .next t ∧
      t = { s with dev := { s.dev with errs := { s.dev.errs with irqVec := a, irqEn := b } } } ∧
      lk 0 a f.val = v.extractLsb' 8 6 ∧ lk 0 b f.val = v.extractLsb' 0 4 := by
  rw [exec_registerWrite (some f) v hrst (regAligned_errIrqCfg f), regWrite_errIrqCfg, if_pos rfl]
  refine ⟨_, _, _, rfl, rfl, ?_, ?_⟩ <;>
  · rw [lk_up_same]
    apply BitVec.eq_of_toNat_eq
    simp only [BitVec.toNat_ofNat, BitVec.extractLsb'_toNat, Nat.shiftRight_eq_div_pow]
    omega

end NamedRegisters

/-! ### BAR0 (R334, R335, R366) -/

theorem rst_of_serves {d : Dev} {f : Nat} (h : d.serves f = true) : d.rst = false := by
  simp only [Dev.serves, Bool.and_eq_true, Bool.not_eq_true'] at h
  exact h.1.1.1.1

theorem exec_bar0Access (f : FnId) (x size : Nat) (wr : Bool) (v : BitVec 64) (s : State) :
    exec (.bar0Access f x size wr v) s = execBar0Access f x size wr v s := rfl

/-- In recovery only the recovery registers answer (R366). -/
theorem exec_bar0Access_recovery {s : State} {f : FnId} {x : Nat} (size : Nat) (wr : Bool) (v : BitVec 64)
    (hrst : s.dev.rst = false) (hp : s.dev.crm.phase = .recovery) (hl : (s.dev.func f).linkUp = true) (hx : 0x20 ≤ x) :
    exec (.bar0Access f x size wr v) s = .next { s with dev := s.dev.emit (.unsupported f) } := by
  by_cases ha : regAligned x size = true <;> simp [exec_bar0Access, execBar0Access, lift, hrst, hp, hl, ha, hx]

theorem bar0Write_regSpace (d : Dev) (f : FnId) (x size v : Nat) :
    d.bar0Write f (0x1000000 + x) size v = d.regWrite (some f) x size v := by
  simp [Dev.bar0Write]

theorem bar0Read_regSpace (d : Dev) (f x size : Nat) :
    d.bar0Read f (0x1000000 + x) size = (d.regRead x size).getD 0 := by
  simp [Dev.bar0Read]

section Bar0Served

variable {s : State} {f : FnId} {x size : Nat} (v : BitVec 64) (hs : s.dev.serves f = true) (hp : s.dev.crm.phase ≠ .recovery)
include hs hp

theorem exec_bar0Access_unsupported (wr : Bool) (h : regAligned x size = false ∨ bar0Known x = false) :
    exec (.bar0Access f x size wr v) s = .next { s with dev := s.dev.emit (.unsupported f) } := by
  rcases h with h | h
  · simp [exec_bar0Access, execBar0Access, lift, rst_of_serves hs, hp, hs, h]
  · by_cases ha : regAligned x size = true <;>
      simp [exec_bar0Access, execBar0Access, lift, rst_of_serves hs, hp, hs, h, ha]

theorem exec_bar0Access_write (ha : regAligned x size = true) (hk : bar0Known x = true) :
    exec (.bar0Access f x size true v) s = .next { s with dev := s.dev.bar0Write f x size v.toNat } := by
  simp [exec_bar0Access, execBar0Access, lift, rst_of_serves hs, hp, hs, ha, hk]

theorem exec_bar0Access_read (ha : regAligned x size = true) (hk : bar0Known x = true) :
    exec (.bar0Access f x size false v) s = .next { s with dev := s.dev.emit (.readData f (s.dev.bar0Read f x size)) } := by
  simp [exec_bar0Access, execBar0Access, lift, rst_of_serves hs, hp, hs, ha, hk]

/-- A read of the register space through BAR0 answers the register. -/
theorem exec_bar0Access_readReg (ha : regAligned x size = true) (hb : (regBlock x).isSome = true) :
    exec (.bar0Access f (0x1000000 + x) size false v) s =
      .next { s with dev := s.dev.emit (.readData f ((s.dev.regRead x size).getD 0)) } := by
  rw [exec_bar0Access_read v hs hp (by rwa [regAligned_bar0]) (bar0Known_regSpace hb), bar0Read_regSpace]

/-- A write of the register space through BAR0 is the function's REGISTER_WRITE. -/
theorem exec_bar0Access_writeReg (ha : regAligned x size = true) (hb : (regBlock x).isSome = true) :
    exec (.bar0Access f (0x1000000 + x) size true v) s = exec (.registerWrite (some f) x size v) s := by
  rw [exec_registerWrite _ v (rst_of_serves hs) ha,
    exec_bar0Access_write v hs hp (by rwa [regAligned_bar0]) (bar0Known_regSpace hb), bar0Write_regSpace]

theorem exec_bar0Access_readTurnNow :
    exec (.bar0Access f 0x1002000 8 false v) s = .next { s with dev := s.dev.emit (.readData f s.dev.turn.now.toNat) } := by
  have h := exec_bar0Access_readReg (x := 0x2000) (size := 8) v hs hp (by decide) (by decide)
  rwa [regRead_turnNow] at h

/-- The first doorbell word is DB_CMD_SQ_TAIL (R342, R343). -/
theorem exec_bar0Access_cmdSqTail : exec (.bar0Access f 0x1000 4 true v) s = exec (.dbCmdSqTail f (v.setWidth 32)) s := by
  show _ = execDbCmdSqTail f (v.setWidth 32) s
  rw [exec_bar0Access_write v hs hp (by decide) (by decide)]
  simp [execDbCmdSqTail, lift, hs, Dev.bar0Write, Dev.hifWrWord, Dev.doorbell]

/-- The second doorbell word is DB_CMD_CQ_HEAD (R340, R342). -/
theorem exec_bar0Access_cmdCqHead : exec (.bar0Access f 0x1004 4 true v) s = exec (.dbCmdCqHead f (v.setWidth 32)) s := by
  show _ = execDbCmdCqHead f (v.setWidth 32) s
  rw [exec_bar0Access_write v hs hp (by decide) (by decide)]
  simp [execDbCmdCqHead, lift, hs, Dev.bar0Write, Dev.hifWrWord, Dev.doorbell]

end Bar0Served

/-! ### Bytes written into the SRAM -/

@[simp] theorem natLe_length (v n : Nat) : (natLe v n).length = n := by
  induction n generalizing v with
  | zero => rfl
  | succ n ih => simp [natLe, ih]

@[simp] theorem Memory.bytes_length (m : Memory) (a n : Nat) : (m.bytes a n).length = n := by
  induction n generalizing a with
  | zero => rfl
  | succ n ih => simp [Memory.bytes, ih]

/-- Writes of the SRAM leave the Cave's flash alone. -/
@[simp] theorem caveAll_wrBytes (m : Memory) (a : Nat) (bs : List Byte) : caveAll m (wrBytes a bs) = m := by
  induction bs generalizing a with
  | nil => rfl
  | cons b r ih => exact ih (a + 1)

theorem rd_wrBytes_out (a : Nat) (bs : List Byte) (m : Memory) {x : Nat} (hx : x < a ∨ a + bs.length ≤ x) :
    (memAll m (wrBytes a bs)).rd x = m.rd x := by
  induction bs generalizing a m with
  | nil => rfl
  | cons b r ih =>
    rw [List.length_cons] at hx
    calc (memAll m (wrBytes a (b :: r))).rd x
        = (memAll (m.wr a b) (wrBytes (a + 1) r)).rd x := rfl
      _ = (m.wr a b).rd x := ih (a + 1) _ (by omega)
      _ = m.rd x := Memory.rd_wr_ne b (by omega) m

theorem rd_wrBytes_in (a : Nat) (bs : List Byte) (m : Memory) (hm : m.wf) {i : Nat} (hi : i < bs.length) :
    (memAll m (wrBytes a bs)).rd (a + i) = bs.getD i 0 := by
  induction bs generalizing a m i with
  | nil => exact absurd hi (Nat.not_lt_zero i)
  | cons b r ih =>
    have hstep : memAll m (wrBytes a (b :: r)) = memAll (m.wr a b) (wrBytes (a + 1) r) := rfl
    rw [hstep]
    cases i with
    | zero =>
      rw [rd_wrBytes_out (a + 1) r _ (by omega)]
      exact Memory.rd_wr_same b a m hm
    | succ i =>
      rw [show a + (i + 1) = a + 1 + i by omega, ih (a + 1) _ (Memory.wr_wf b a m hm) (Nat.lt_of_succ_lt_succ hi)]
      rfl

theorem written_of_wrBytes {s t : State} {a : Nat} {bs : List Byte} (hm : s.mem.wf)
    (ht : t.mem = memAll s.mem (wrBytes a bs)) : Written s t a bs :=
  ⟨fun _ hi => ht ▸ rd_wrBytes_in a bs s.mem hm hi, fun _ hx => ht ▸ rd_wrBytes_out a bs s.mem hx⟩

/-! ### The device window (R94, R153) -/

/-- Where no local store of the range has lost its bytes and no descriptor's GEN stands in it, a read shows the bytes of the memory. -/
theorem shown_eq_bytes {d : Dev} {m : Memory} {a n : Nat} (hg : d.genBytes m a n = [])
    (hl : ∀ i, i < n → d.winLost (a + i) = false) : d.shown m a n = m.bytes a n := by
  apply List.ext_getElem
  · simp [Dev.shown]
  · intro i _ hi
    have hi : i < n := by simpa using hi
    simp [Dev.shown, hg, hl i hi]

theorem winAccess_asleep {d : Dev} (m : Memory) {x : WinAcc} (h : d.winAsleep x.addr x.len = true) :
    d.winAccess m x = ({ d with net := { d.net with winQ := d.net.winQ ++ [x] } }, []) := by
  simp [Dev.winAccess, h]

/-- A write of the window that need not wait writes its bytes, and no answer is due to a hart. -/
theorem winAccess_hartWrite {d : Dev} (m : Memory) (h : Fin 4) {a n : Nat} (bs : List Byte) (ha : d.winAsleep a n = false) :
    d.winAccess m ⟨.hart h, a, n, true, bs⟩ = ((d.winStore a bs).1, wrBytes a bs) := by
  simp [Dev.winAccess, ha, Dev.winAnswer, Dev.winStore]

/-- A read of the window that need not wait answers the hart with the bytes shown. -/
theorem winAccess_hartRead {d : Dev} (m : Memory) (h : Fin 4) {a n : Nat} (bs : List Byte) (ha : d.winAsleep a n = false) :
    d.winAccess m ⟨.hart h, a, n, false, bs⟩ = ((d.winRead m a n).1.emit (.hartData h (leNat (d.shown m a n))), []) := by
  simp [Dev.winAccess, ha, Dev.winAnswer, Dev.winRead]

/-! ### Accesses of the harts (R358) -/

/-- Hart `hart` is out of reset, so its accesses of the window are carried out. -/
def Dev.HartRuns (d : Dev) (hart : Fin 4) : Prop :=
  d.rst = false ∧ d.crm.phase ≠ .reset ∧ (hart.val = 0 ∨ d.crm.hartsUp = true)

theorem hart_not_held {d : Dev} {hart : Fin 4} (h : d.HartRuns hart) :
    ¬(d.rst || d.crm.phase = .reset || (hart.val ≠ 0 && !d.crm.hartsUp)) = true := by
  obtain ⟨hr, hp, h0 | hu⟩ := h
  · simp [hr, hp, h0]
  · simp [hr, hp, hu]

section HartWindow

variable {s : State} {hart : Fin 4} {x size : Nat} {wr : Bool} {v : BitVec 64}

theorem exec_hartWindowAccess (pre : Bool) :
    exec (.hartWindowAccess hart x size wr v pre) s = execHartWindowAccess hart x size wr v pre s := rfl

theorem exec_hartWindowAccess_preempted (h : s.dev.HartRuns hart) :
    exec (.hartWindowAccess hart x size wr v true) s = .next { s with dev := s.dev.emit (.hartRestart hart) } := by
  simp only [exec_hartWindowAccess, execHartWindowAccess, liftW, if_neg (hart_not_held h), if_true, memAll_nil, caveAll_nil]

theorem badSize_iff :
    (!(size == 1 || size == 2 || size == 4 || size == 8) || decide (x % size ≠ 0)) = true ↔ size ∉ [1, 2, 4, 8] ∨ x % size ≠ 0 := by
  simp [and_assoc]

theorem not_badSize (hs : size ∈ [1, 2, 4, 8]) (ha : x % size = 0) :
    ¬(!(size == 1 || size == 2 || size == 4 || size == 8) || decide (x % size ≠ 0)) = true :=
  fun h => (badSize_iff.mp h).elim (absurd hs) (absurd ha)

/-- An access of another size or alignment faults. -/
theorem exec_hartWindowAccess_badSize (h : s.dev.HartRuns hart) (hs : size ∉ [1, 2, 4, 8] ∨ x % size ≠ 0) :
    exec (.hartWindowAccess hart x size wr v false) s = .next { s with dev := s.dev.hartFault hart wr x } := by
  simp only [exec_hartWindowAccess, execHartWindowAccess, liftW, if_neg (hart_not_held h), Bool.false_eq_true, if_false, if_pos (badSize_iff.mpr hs),
    memAll_nil, caveAll_nil]

/-- An address that holds nothing faults. -/
theorem exec_hartWindowAccess_reserved (h : s.dev.HartRuns hart) (hs : size ∈ [1, 2, 4, 8]) (ha : x % size = 0)
    (hx : 0x303000000 ≤ x ∨ 0x1C6000000 ≤ x ∧ x < 0x300000000 ∨ 0x1B0000000 ≤ x ∧ x < 0x1C0000000) :
    exec (.hartWindowAccess hart x size wr v false) s = .next { s with dev := s.dev.hartFault hart wr x } := by
  have hslice : ¬(x < 0x180000000 ∧ 16 ≤ lk 16 s.dev.net.slcOwner (x / 0x800000)) := by omega
  have hstore : ¬ x < 0x1B0000000 := by omega
  have hprog : ¬(decide (0x1C0000000 ≤ x) && decide (x < 0x1C6000000)) = true := by
    simp only [Bool.and_eq_true, decide_eq_true_eq]; omega
  have hregs : ¬(decide (0x300000000 ≤ x) && decide (x < 0x303000000)) = true := by
    simp only [Bool.and_eq_true, decide_eq_true_eq]; omega
  simp only [exec_hartWindowAccess, execHartWindowAccess, liftW, if_neg (hart_not_held h), if_neg (not_badSize hs ha), if_neg hslice, if_neg hstore,
    if_neg hprog, if_neg hregs, Bool.false_eq_true, if_false, memAll_nil, caveAll_nil]

/-- An access of a local store or of a slice with an owner is one of the device window. -/
theorem exec_hartWindowAccess_bytes (h : s.dev.HartRuns hart) (hs : size ∈ [1, 2, 4, 8]) (ha : x % size = 0)
    (hx : x < 0x1B0000000) (ho : 0x180000000 ≤ x ∨ lk 16 s.dev.net.slcOwner (x / 0x800000) < 16) :
    exec (.hartWindowAccess hart x size wr v false) s =
      liftW (fun m _ d => d.winAccess m ⟨.hart hart, x, size, wr, natLe v.toNat size⟩) s := by
  have hslice : ¬(x < 0x180000000 ∧ 16 ≤ lk 16 s.dev.net.slcOwner (x / 0x800000)) := by omega
  simp only [exec_hartWindowAccess, execHartWindowAccess, liftW, if_neg (hart_not_held h), if_neg (not_badSize hs ha), if_neg hslice, if_pos hx,
    Bool.false_eq_true, if_false]

/-- An access of a slice at retention waits (R153). -/
theorem exec_hartWindowAccess_asleep (h : s.dev.HartRuns hart) (hs : size ∈ [1, 2, 4, 8]) (ha : x % size = 0)
    (hx : x < 0x1B0000000) (ho : 0x180000000 ≤ x ∨ lk 16 s.dev.net.slcOwner (x / 0x800000) < 16)
    (hw : s.dev.winAsleep x size = true) :
    exec (.hartWindowAccess hart x size wr v false) s = .next { s with dev := { s.dev with net := { s.dev.net with
      winQ := s.dev.net.winQ ++ [⟨.hart hart, x, size, wr, natLe v.toNat size⟩] } } } := by
  rw [exec_hartWindowAccess_bytes h hs ha hx ho]
  simp only [liftW, winAccess_asleep s.mem (x := ⟨.hart hart, x, size, wr, natLe v.toNat size⟩) hw, memAll_nil, caveAll_nil]

theorem exec_hartWindowAccess_write (h : s.dev.HartRuns hart) (hs : size ∈ [1, 2, 4, 8]) (ha : x % size = 0)
    (hx : x < 0x1B0000000) (ho : 0x180000000 ≤ x ∨ lk 16 s.dev.net.slcOwner (x / 0x800000) < 16)
    (hw : s.dev.winAsleep x size = false) (hm : s.mem.wf) :
    ∃ t, exec (.hartWindowAccess hart x size true v false) s = .next t ∧ Written s t x (natLe v.toNat size) ∧
      t.cave = s.cave := by
  rw [exec_hartWindowAccess_bytes h hs ha hx ho]
  simp only [liftW, winAccess_hartWrite s.mem hart _ hw, caveAll_wrBytes]
  exact ⟨_, rfl, written_of_wrBytes hm rfl, rfl⟩

theorem exec_hartWindowAccess_read (h : s.dev.HartRuns hart) (hs : size ∈ [1, 2, 4, 8]) (ha : x % size = 0)
    (hx : x < 0x1B0000000) (ho : 0x180000000 ≤ x ∨ lk 16 s.dev.net.slcOwner (x / 0x800000) < 16)
    (hw : s.dev.winAsleep x size = false) :
    ∃ t, exec (.hartWindowAccess hart x size false v false) s = .next t ∧ t.mem = s.mem ∧
      t.dev.out.head? = some (.hartData hart (leNat (s.dev.shown s.mem x size))) := by
  rw [exec_hartWindowAccess_bytes h hs ha hx ho]
  simp only [liftW, winAccess_hartRead s.mem hart _ hw, memAll_nil, caveAll_nil]
  exact ⟨_, rfl, rfl, rfl⟩

end HartWindow

/-- What a fault does to a hart, field by field (log entry 9). -/
theorem hartFault_spec (d : Dev) (hart : Fin 4) (wr : Bool) (x : Nat) :
    ∃ y, d.hartFault hart wr x = { d with
        crm := { d.crm with harts := up d.crm.harts hart.val y }, out := .hartFault hart :: d.out } ∧
      y.pc = (lk Hart.reset d.crm.harts hart.val).mtvec &&& ~~~(3 : BitVec 64) ∧
      y.mepc = (lk Hart.reset d.crm.harts hart.val).pc ∧ y.mcause = (if wr then 7 else 5) ∧ y.priv = 3 ∧
      y.mtval = BitVec.ofNat 64 (0x400000000 + x) ∧ y.x = (lk Hart.reset d.crm.harts hart.val).x ∧
      y.f = (lk Hart.reset d.crm.harts hart.val).f :=
  ⟨(lk Hart.reset d.crm.harts hart.val).fault wr (0x400000000 + x), rfl, rfl, rfl, rfl, rfl, rfl, rfl, rfl⟩

/-- Settles O41: every clause is a case of BAR0_ACCESS, REGISTER_WRITE or HART_WINDOW_ACCESS, stated above. -/
theorem registerAndWindowAccesses : Obligations.RegisterAndWindowAccesses := by
  intro f size x v s d err
  refine ⟨fun hs hp => ⟨fun wr h => exec_bar0Access_unsupported v hs hp wr h,
      fun ha hb => ⟨exec_bar0Access_writeReg v hs hp ha hb, exec_bar0Access_readReg v hs hp ha hb⟩,
      exec_bar0Access_readTurnNow v hs hp, exec_bar0Access_cmdSqTail v hs hp, exec_bar0Access_cmdCqHead v hs hp⟩,
    fun hr hp hl hx wr => exec_bar0Access_recovery size wr v hr hp hl hx,
    fun hr who => ⟨exec_registerWrite_unaligned who v, exec_registerWrite_turnNow v hr who,
      exec_registerWrite_pwrLimit v hr who, exec_registerWrite_turnEpoch_func v hr f,
      exec_registerWrite_turnEpoch_firmware v hr, fun g h => exec_registerWrite_errIrqCfg_other v hr h,
      exec_registerWrite_errIrqCfg_own v hr f⟩,
    ?harts, fun a n hg hl => shown_eq_bytes hg hl⟩
  case harts =>
    intro hart wr pre hr hp hu tells h faults
    have hrun : d.HartRuns hart := ⟨hr, hp, hu⟩
    have hfaults : exec (.hartWindowAccess hart x size wr v pre) s = .next { s with dev := d.hartFault hart wr x } → faults := by
      obtain ⟨y, hy, hspec⟩ := hartFault_spec d hart wr x
      exact fun he => ⟨y, hy ▸ he, hspec⟩
    refine ⟨?preempted, ?badSize, ?aligned⟩
    case preempted => rintro rfl; exact exec_hartWindowAccess_preempted hrun
    case badSize => rintro rfl hs; exact hfaults (exec_hartWindowAccess_badSize hrun hs)
    case aligned =>
      rintro rfl hs ha
      refine ⟨fun hx => hfaults (exec_hartWindowAccess_reserved hrun hs ha hx), fun hx ho => ⟨?asleep, ?write, ?read⟩⟩
      case asleep => exact exec_hartWindowAccess_asleep hrun hs ha hx ho
      case write => rintro hw rfl hm; exact exec_hartWindowAccess_write hrun hs ha hx ho hw hm
      case read => rintro hw rfl; exact exec_hartWindowAccess_read hrun hs ha hx ho hw

end Sys2Proof.Machine

/-! ## Messages to hosts, error records, containment -/

namespace Sys2Proof.Machine

/-! ### Tables -/

/-- A relation that every entry keeps under a change of the entries holds of what a key reads before and after. -/
theorem lk_map_rel {α : Type} {R : α → α → Prop} {z : α} {g : Nat × α → α} (hz : R z z) (hg : ∀ e, R e.2 (g e)) (k : Nat) (m : SMap α) :
    R (lk z m k) (lk z (m.map (fun e => (e.1, g e))) k) := by
  induction m with
  | nil => exact hz
  | cons e r ih =>
    by_cases h : k = e.1
    · simpa [lk, h] using hg e
    · simpa [lk, h] using ih

/-! ### Messages to hosts (R338, R340, R344) -/

/-- Nothing but the functions' registers and the messages to their hosts changed. -/
def Dev.HostsTold (d e : Dev) : Prop := ∃ fs o, e = { d with funcs := fs, out := o }

theorem Dev.HostsTold.refl (d : Dev) : d.HostsTold d := ⟨d.funcs, d.out, rfl⟩

theorem Dev.HostsTold.trans {d e g : Dev} : d.HostsTold e → e.HostsTold g → d.HostsTold g := by
  rintro ⟨_, _, rfl⟩ ⟨fs, o, rfl⟩; exact ⟨fs, o, rfl⟩

/-- An MSI-X vector at most sets a pending bit, and no message is lost. -/
theorem msix_spec (d : Dev) (f vec : Nat) :
    ∃ fs o, d.msix f vec = { d with funcs := fs, out := o } ∧ (∀ g, ∃ p, lk Func.reset fs g = { d.func g with pba := p }) ∧ d.out ⊆ o := by
  unfold Dev.msix
  split
  · refine ⟨_, d.out, rfl, fun g => ?_, List.Subset.refl _⟩
    by_cases h : g = f
    · subst h; exact ⟨_, lk_up_same _ _ _ _⟩
    · exact ⟨(d.func g).pba, lk_up_ne _ _ h _⟩
  · exact ⟨d.funcs, _, rfl, fun g => ⟨_, rfl⟩, List.subset_cons_self _ _⟩

theorem msix_hostsTold (d : Dev) (f vec : Nat) : d.HostsTold (d.msix f vec) := by
  obtain ⟨fs, o, h, -, -⟩ := msix_spec d f vec; exact ⟨fs, o, h⟩

theorem flushHeld_hostsTold (d : Dev) (f : Nat) : d.HostsTold (d.flushHeld f) := by
  unfold Dev.flushHeld
  extract_lets x
  rcases flushCpl f x.held.length x [] with ⟨y, o⟩
  by_cases ho : o.isEmpty = true
  · simp only [ho, if_true]; exact ⟨_, _, rfl⟩
  · simp only [ho, Bool.false_eq_true, if_false]; exact .trans ⟨_, _, rfl⟩ (msix_hostsTold _ _ _)

theorem complete_hostsTold (d : Dev) (f cid status result : Nat) : d.HostsTold (d.complete f cid status result) := by
  unfold Dev.complete
  extract_lets x
  split
  · exact .refl d
  · exact .trans ⟨_, _, rfl⟩ (flushHeld_hostsTold _ _)

theorem completeOpt_hostsTold (d : Dev) (r : Option (Nat × Nat)) (status result : Nat) : d.HostsTold (d.completeOpt r status result) := by
  cases r with
  | none => exact .refl d
  | some r => exact complete_hostsTold d r.1 r.2 status result

theorem ring_hostsTold (d : Dev) (f c : Nat) (recs : List (List Byte)) : d.HostsTold (d.ring f c recs) := by
  unfold Dev.ring
  split
  · exact .refl d
  · next x _ =>
    split
    · exact .refl d
    · rcases flushRing f c (x.backlog.length + recs.length) { x with backlog := x.backlog ++ recs } [] with ⟨y, o⟩
      dsimp only
      split
      · exact ⟨_, _, rfl⟩
      · split
        · exact .trans ⟨_, _, rfl⟩ (msix_hostsTold _ _ _)
        · exact ⟨_, _, rfl⟩

theorem noSample_hostsTold (d : Dev) (w : Waiting) : d.HostsTold (d.noSample w) := by
  unfold Dev.noSample
  split
  · exact .trans ⟨_, _, rfl⟩ (complete_hostsTold _ _ _ _ _)
  · exact complete_hostsTold _ _ _ _ _
  · exact complete_hostsTold _ _ _ _ _
  · exact complete_hostsTold _ _ _ _ _

/-- One held completion leaves where the ring has room; the command ring's head stays, and no message is lost. -/
theorem flushHeld_one {d : Dev} {f : Nat} {c : Cpl} (hh : (d.func f).held = [c]) (hr : (d.func f).cqRoom ≠ 0) :
    ∃ fs o, d.flushHeld f = { d with funcs := fs, out := o } ∧ (lk Func.reset fs f).sqHead = (d.func f).sqHead ∧
      Out.cpl f ((d.func f).cqSlot (d.func f).cqTail) (c.bytes (d.func f).phase) ∈ o ∧ d.out ⊆ o := by
  have hflush : ∃ y, y.sqHead = (d.func f).sqHead ∧ d.flushHeld f = ({ d.setFunc f y with
      out := .cpl f ((d.func f).cqSlot (d.func f).cqTail) (c.bytes (d.func f).phase) :: d.out }).msix f (d.func f).cqVec := by
    refine ⟨_, ?_, by simp only [Dev.flushHeld, hh, flushCpl, List.length_singleton, if_neg hr]; rfl⟩
    rfl
  obtain ⟨y, hy, hflush⟩ := hflush
  obtain ⟨fs, o, hmsix, hf, ho⟩ := msix_spec _ f (d.func f).cqVec
  obtain ⟨p, hp⟩ := hf f
  refine ⟨fs, o, hflush.trans hmsix, ?_, ho (List.mem_cons_self ..), fun m hm => ho (List.mem_cons_of_mem _ hm)⟩
  calc (lk Func.reset fs f).sqHead
      = ((d.setFunc f y).func f).sqHead := by rw [hp]; rfl
    _ = (d.func f).sqHead := by rw [Dev.func_setFunc, hy]

/-- A function that is there and ready has its completion held, and what can be written is written. -/
theorem complete_ready {d : Dev} {f : Nat} (cid status result : Nat) (hl : (d.func f).left = none) (hr : (d.func f).ready = true) :
    d.complete f cid status result = (d.setFunc f { d.func f with
      held := (d.func f).held ++ [⟨cid, lk 0 (d.func f).sqAt cid, status, result⟩], sqAt := del (d.func f).sqAt cid }).flushHeld f := by
  unfold Dev.complete
  rw [if_neg (by simp [hl, hr])]

/-- A completion that can be written at once leaves with the head of its command, and no message is lost (R340). -/
theorem complete_now {d : Dev} {f : Nat} (cid status result : Nat) (h : CanAnswer d f) :
    ∃ fs o, d.complete f cid status result = { d with funcs := fs, out := o } ∧ (lk Func.reset fs f).sqHead = (d.func f).sqHead ∧
      (∃ slot ph, Out.cpl f ((d.func f).cqSlot slot) (Cpl.bytes ⟨cid, lk 0 (d.func f).sqAt cid, status, result⟩ ph) ∈ o) ∧ d.out ⊆ o := by
  obtain ⟨hleft, hready, hheld, hroom⟩ := h
  rw [complete_ready cid status result hleft hready, hheld, List.nil_append]
  generalize hx : ({ d.func f with held := [⟨cid, lk 0 (d.func f).sqAt cid, status, result⟩], sqAt := del (d.func f).sqAt cid } : Func) = x
  obtain ⟨fs, o, hflush, hhead, hcpl, hout⟩ := flushHeld_one (d := d.setFunc f x) (f := f)
    (c := ⟨cid, lk 0 (d.func f).sqAt cid, status, result⟩) (by rw [Dev.func_setFunc, ← hx]) (by rw [Dev.func_setFunc, ← hx]; exact hroom)
  rw [Dev.func_setFunc] at hhead hcpl
  subst hx
  exact ⟨fs, o, hflush, hhead, ⟨_, _, hcpl⟩, hout⟩

/-! ### Interrupts and error records (R404, R406) -/

/-- Signalling a class of records changes no function but for its pending bits, and no record. -/
theorem irqs_spec (d : Dev) (cls pm : Nat) :
    ∃ es fs o, d.irqs cls pm = { d with errs := es, funcs := fs, out := o } ∧ es.ring = d.errs.ring ∧
      ∀ g, ∃ p, lk Func.reset fs g = { d.func g with pba := p } := by
  unfold Dev.irqs
  refine List.foldlRecOn (motive := fun e => ∃ es fs o, e = { d with errs := es, funcs := fs, out := o } ∧ es.ring = d.errs.ring ∧
    ∀ g, ∃ p, lk Func.reset fs g = { d.func g with pba := p }) _ _ ⟨d.errs, d.funcs, d.out, rfl, rfl, fun g => ⟨_, rfl⟩⟩ ?_
  rintro _ ⟨es, fs, o, rfl, hr, hf⟩ f -
  split
  · obtain ⟨fs', o', he, hf', -⟩ := msix_spec { d with errs := { es with sent := f :: es.sent }, funcs := fs, out := o } f (lk (0 : BitVec 6) es.irqVec f).toNat
    refine ⟨_, fs', o', he, hr, fun g => ?_⟩
    obtain ⟨p, hp⟩ := hf g
    obtain ⟨q, hq⟩ := hf' g
    exact ⟨q, hq.trans (by simp only [Dev.func, hp])⟩
  · exact ⟨es, fs, o, rfl, hr, hf⟩

/-- A record put into the ring is the newest one, whether or not it coalesces (R404). -/
theorem put_newest (x : Errs) (r : ErrRec) :
    ∃ n, (x.put r).ring.head? = some n ∧ n.code = r.code ∧ n.core = r.core ∧ n.detail = r.detail := by
  unfold Errs.put
  split
  · next n rest _ =>
    split
    · next h => exact ⟨_, rfl, h.1, h.2.2.1, h.2.2.2.2⟩
    · exact ⟨r, rfl, rfl, rfl, rfl⟩
  · exact ⟨r, rfl, rfl, rfl, rfl⟩

/-- A LOG-class error leaves a record and tells the hosts. -/
theorem raise_log {d : Dev} {e : Err} (h : e.cls = 0) :
    ∃ es fs o, d.raise e = { d with errs := es, funcs := fs, out := o } ∧ ∀ g, ∃ p, lk Func.reset fs g = { d.func g with pba := p } := by
  obtain ⟨es, fs, o, he, -, hf⟩ := irqs_spec { d with errs := d.errs.put (d.mkRec e) } 0 e.pmask
  exact ⟨es, fs, o, by simpa only [Dev.raise, h] using he, hf⟩

/-! ### Containment (R400) -/

/-- The accesses and the work of a core are as before. -/
def Core.SameWork (c x : Core) : Prop := x.jobs = c.jobs ∧ x.lsq = c.lsq

/-- The networks, the error records and the work of every core are as before. -/
structure Dev.Contained (d e : Dev) : Prop where
  net : e.net = d.net
  ring : e.errs.ring = d.errs.ring
  work : ∀ k, (d.core k).SameWork (e.core k)

theorem Core.SameWork.refl (c : Core) : c.SameWork c := ⟨rfl, rfl⟩

theorem Core.SameWork.trans {a b c : Core} (h : a.SameWork b) (g : b.SameWork c) : a.SameWork c :=
  ⟨g.1.trans h.1, g.2.trans h.2⟩

theorem Dev.Contained.refl (d : Dev) : d.Contained d := ⟨rfl, rfl, fun _ => .refl _⟩

theorem Dev.Contained.trans {d e g : Dev} (h : d.Contained e) (k : e.Contained g) : d.Contained g :=
  ⟨k.net.trans h.net, k.ring.trans h.ring, fun n => (h.work n).trans (k.work n)⟩

theorem Dev.HostsTold.contained {d e : Dev} : d.HostsTold e → d.Contained e := by
  rintro ⟨_, _, rfl⟩; exact ⟨rfl, rfl, fun _ => .refl _⟩

theorem errs_contained (d : Dev) {es : Errs} (h : es.ring = d.errs.ring) : d.Contained { d with errs := es } :=
  ⟨rfl, h, fun _ => .refl _⟩

theorem haltPart_contained (d : Dev) (p : Nat) : d.Contained (d.haltPart p) := by
  refine ⟨rfl, rfl, fun k => ?_⟩
  refine lk_map_rel (R := Core.SameWork) (.refl _) (fun e => ?_) k d.cores
  split
  · exact ⟨rfl, rfl⟩
  · exact .refl _

theorem failRequests_contained (d : Dev) (p : Nat) : d.Contained (d.failRequests p) := by
  unfold Dev.failRequests
  split
  · exact .refl d
  · next m _ =>
    split
    · exact .refl d
    · next sv _ =>
      extract_lets st d1 d2
      have h1 : d.Contained d1 :=
        List.foldlRecOn (motive := d.Contained) _ _ (.refl d) fun e he f _ =>
          List.foldlRecOn (motive := d.Contained) _ _ he fun e he c _ => by
            split
            · exact (he.trans (Dev.HostsTold.contained ⟨_, _, rfl⟩)).trans (ring_hostsTold _ _ _ _).contained
            · exact he
      clear_value d1
      have h2 : d.Contained d2 := h1.trans ⟨rfl, rfl, fun _ => .refl _⟩
      have h3 : d.Contained (sv.waiting.foldl (fun d w => d.noSample w) d2) :=
        List.foldlRecOn (motive := d.Contained) _ _ h2 fun e he w _ => he.trans (noSample_hostsTold e w).contained
      exact h3.trans (completeOpt_hostsTold _ _ _ _).contained

theorem stopPart_contained (d : Dev) (p : Nat) : d.Contained (d.stopPart p) :=
  have h : (d.haltPart p).Contained ((d.haltPart p).updPart p (fun t => { t with st := .stopped, dead := true })) :=
    ⟨rfl, rfl, fun _ => .refl _⟩
  ((haltPart_contained d p).trans h).trans (failRequests_contained _ p)

theorem irqs_contained (d : Dev) (cls pm : Nat) : d.Contained (d.irqs cls pm) := by
  obtain ⟨es, fs, o, he, hr, -⟩ := irqs_spec d cls pm
  exact he ▸ ⟨rfl, hr, fun _ => .refl _⟩

/-- An error that resets nothing puts its record into the ring and leaves networks and work alone. -/
theorem raise_contained {d : Dev} {e : Err} (h : e.cls ≠ 3) : ({ d with errs := d.errs.put (d.mkRec e) } : Dev).Contained (d.raise e) := by
  unfold Dev.raise
  extract_lets r d1
  change d1.Contained _
  clear_value d1
  split
  · refine (errs_contained d1 ?_).trans (irqs_contained _ 1 e.pmask)
    rfl
  · exact .trans (List.foldlRecOn (motive := d1.Contained) _ _ (.refl d1) fun x hx p _ => hx.trans (stopPart_contained x p))
      (irqs_contained _ 2 e.pmask)
  · exact absurd ‹_› h
  · exact irqs_contained _ 0 e.pmask

theorem raise_net {d : Dev} {e : Err} (h : e.cls ≠ 3) : (d.raise e).net = d.net := (raise_contained h).net

theorem raise_work {d : Dev} {e : Err} (h : e.cls ≠ 3) (k : Nat) : (d.core k).SameWork ((d.raise e).core k) := (raise_contained h).work k

/-- The newest record is that of the error just raised. -/
theorem raise_recorded {d : Dev} {e : Err} {t : State} (h : e.cls ≠ 3) (ht : t.dev = d.raise e) : Recorded t e.code e.core e.detail := by
  obtain ⟨n, hn, hcode, hcore, hdetail⟩ := put_newest d.errs (d.mkRec e)
  exact ⟨n, by rw [ht, (raise_contained h).ring]; exact hn, hcode, hcore, hdetail⟩

/-- The error of a packet or access dropped by its tag (R38). -/
def Dev.tagErr (d : Dev) (t src pos source : Nat) : Err :=
  { code := 0x20, cls := 2, source := source, core := src, pmask := pmaskOf t, fpid := d.fpidOf t, detail := [t, src, pos] }

/-- The device with one more packet or access of a tag counted as dropped. -/
def Dev.countDrop (d : Dev) (t : Nat) : Dev :=
  { d with net := { d.net with drop := up d.net.drop t (satAdd (lk (0 : BitVec 32) d.net.drop t) 1) } }

theorem tagDrop_eq (d : Dev) (t src pos source : Nat) :
    d.tagDrop t src pos source = (d.countDrop t).raise (d.tagErr t src pos source) := rfl

/-- A dropped packet or access is counted, and nothing else of the networks changes (R38). -/
theorem tagDrop_net (d : Dev) (t src pos source : Nat) : (d.tagDrop t src pos source).net = (d.countDrop t).net :=
  raise_net (e := d.tagErr t src pos source) (by simp [Dev.tagErr])

theorem tagDrop_recorded {d : Dev} {g src pos source : Nat} {t : State} (ht : t.dev = d.tagDrop g src pos source) :
    Recorded t 0x20 src [g, src, pos] :=
  raise_recorded (e := d.tagErr g src pos source) (by simp [Dev.tagErr]) ht

end Sys2Proof.Machine

/-! ## The message mesh and its press nodes -/

namespace Sys2Proof.Machine

/-! ### Routers (R25, R27) -/

/-- The outputs N, E, S and W have a neighbour behind them, another position, whose input is one of its own six. -/
theorem neighbour_spec {p o n : Nat} (h : neighbour p o = some n) : n ≠ p ∧ inputAt o < 6 ∧ o ≠ 0 ∧ o ≠ 5 := by
  unfold neighbour at h
  split at h
  case h_5 => cases h
  all_goals
    rw [Option.ite_none_right_eq_some] at h
    obtain ⟨hc, rfl | _⟩ := h
    simp only [pxOf, pyOf] at hc
    simp only [inputAt]
    omega

/-- The head of an input from a neighbour leaves its buffer, and nothing enters in its place at once. -/
theorem popIn_neighbour (d : Dev) (pos vc : Nat) {i : Nat} (h1 : 1 ≤ i) (h4 : i ≤ 4) :
    d.popIn pos i vc = { d with net := { d.net with
      bufs := up d.net.bufs ((6 * pos + i) * 2 + vc) ((lk [] d.net.bufs ((6 * pos + i) * 2 + vc)).drop 1) } } := by
  unfold Dev.popIn
  split
  · omega
  · omega
  · rfl

/-- A flit that the input behind an output takes goes to the end of that input's buffer. -/
theorem leave_neighbour {d : Dev} {pos o n : Nat} {f : Flit} (hn : neighbour pos o = some n) (hb : d.barred pos n (inputAt o) f = false) :
    d.leave pos o f = { d with net := d.net.push n (inputAt o) f.vc f } := by
  obtain ⟨-, -, h0, h5⟩ := neighbour_spec hn
  unfold Dev.leave
  split
  · exact absurd rfl h0
  · exact absurd rfl h5
  · simp [hn, hb]

/-- ROUTER_FLIT_FORWARD of a unicast flit that an input from a neighbour offers first on VC0. -/
theorem exec_routerFlitForward {p : Pos} {o : Fin 6} {s : State} {i n : Nat} {f : Flit} (hp : s.dev.planeOn (regionOf p) = true)
    (hpick : s.dev.pickIn p o 0 = some (i, f)) (h1 : 1 ≤ i) (h4 : i ≤ 4) (ho : s.dev.outs p i f = [o.val])
    (hnode : s.dev.intoNode p f = false) (hn : neighbour p o = some n) (hb : s.dev.barred p n (inputAt o) f = false) :
    exec (.routerFlitForward p o) s = .next { s with dev := { s.dev with
      net := ({ s.dev.net with
        bufs := up s.dev.net.bufs ((6 * p.val + i) * 2) ((lk [] s.dev.net.bufs ((6 * p.val + i) * 2)).drop 1)
        rr := up s.dev.net.rr (6 * p.val + o.val) i }).push n (inputAt o) f.vc f } } := by
  show execRouterFlitForward p o s = _
  simp only [execRouterFlitForward, lift, hp, hpick, ho, hnode, popIn_neighbour _ _ _ h1 h4, List.foldl_cons, List.foldl_nil,
    Bool.not_true, Bool.false_eq_true, if_false]
  rw [leave_neighbour hn]
  · rfl
  · exact hb

/-! ### Delivery at a core (R25, R38, R168) -/

section Delivery

variable {p : Pos} {s : State} {f : Flit} {r : List Flit} {k : Nat} (he : lk [] s.dev.net.eject p = f :: r) (hk : s.dev.coreAt p = some k)
include he hk

/-- A flit with data of the core's own partition is written and credits 64 B. -/
theorem exec_meshFlitDeliver_data (ht : s.dev.partOf k = f.ptag) (hc : s.dev.clocked k = true) (ha : f.amount = none) :
    exec (.meshFlitDeliver p) s =
      .next { s with
        dev := (((({ s.dev with net := { s.dev.net with eject := up s.dev.net.eject p r } } : Dev).eccWrite
          (wholeBytes (lsBase k + 64 * ((f.lsaddr + f.idx) % 2 ^ 14)) (natLe f.data.toNat 64)) k).updCore k
            (fun c => c.lsToken .meshEject true ((f.lsaddr + f.idx) % 2 ^ 14))).creditIf f.credit f.syn 64 (0x10000 + f.src))
        mem := memAll s.mem (wrBytes (lsBase k + 64 * ((f.lsaddr + f.idx) % 2 ^ 14)) (natLe f.data.toNat 64)) } := by
  show execMeshFlitDeliver p s = _
  simp only [execMeshFlitDeliver, liftW, he, hk, ht, hc, ha, ne_eq, not_true, Bool.not_true, Bool.false_eq_true, if_false, caveAll_wrBytes]

/-- A header-only packet credits its amount. -/
theorem exec_meshFlitDeliver_amount {n : Nat} (ht : s.dev.partOf k = f.ptag) (hc : s.dev.clocked k = true) (ha : f.amount = some n) :
    exec (.meshFlitDeliver p) s = .next { s with
      dev := ({ s.dev with net := { s.dev.net with eject := up s.dev.net.eject p r } } : Dev).creditIf (f.credit && n ≠ 0) f.syn n
        (0x10000 + f.src) } := by
  show execMeshFlitDeliver p s = _
  simp only [execMeshFlitDeliver, liftW, he, hk, ht, hc, ha, ne_eq, not_true, Bool.not_true, Bool.false_eq_true, if_false, memAll_nil, caveAll_nil]

/-- A flit of another partition is dropped. -/
theorem exec_meshFlitDeliver_drop (ht : s.dev.partOf k ≠ f.ptag) :
    exec (.meshFlitDeliver p) s = .next { s with
      dev := ({ s.dev with net := { s.dev.net with eject := up s.dev.net.eject p r } } : Dev).dropFlit f p } := by
  show execMeshFlitDeliver p s = _
  simp only [execMeshFlitDeliver, liftW, he, hk, if_pos ht, memAll_nil, caveAll_nil]

end Delivery

/-- Forgetting a request record on its way touches nothing but the count of records on their way. -/
theorem recGone_eq (n : Net) (f : Flit) : ∃ m, n.recGone f = { n with recFly := m } := by
  unfold Net.recGone
  split
  · exact ⟨_, rfl⟩
  · exact ⟨n.recFly, rfl⟩

/-- The first flit of a dropped packet is counted and recorded; what else waits to be delivered stays (R38). -/
theorem dropFlit_first (d : Dev) {f : Flit} (pos : Nat) (h : f.idx = 0) :
    (d.dropFlit f pos).net.eject = d.net.eject ∧
    lk (0 : BitVec 32) (d.dropFlit f pos).net.drop f.ptag = satAdd (lk (0 : BitVec 32) d.net.drop f.ptag) 1 ∧
    ∀ t : State, t.dev = d.dropFlit f pos → Recorded t 0x20 f.src [f.ptag, f.src, pos] := by
  obtain ⟨m, hm⟩ := recGone_eq d.net f
  have hdrop : d.dropFlit f pos = ({ d with net := { d.net with recFly := m } } : Dev).tagDrop f.ptag f.src pos 13 := by
    simp only [Dev.dropFlit, hm, if_pos h]
  rw [hdrop, tagDrop_net]
  exact ⟨rfl, lk_up_same _ _ _ _, fun t ht => tagDrop_recorded ht⟩

/-- The line of a flit counted in its local store is the line of its address (R168). -/
theorem lsBase_line (k x : Nat) : lsBase k + 64 * x % 2 ^ 20 = lsBase k + 64 * (x % 2 ^ 14) ∧
    (lsBase k + 64 * (x % 2 ^ 14)) % 2 ^ 20 / 64 = x % 2 ^ 14 := by
  simp only [lsBase]; omega

/-- Settles O25: forwarding through `popIn` and `leave`, then the three ways a delivered flit can go. -/
theorem meshCarriesFlits : Obligations.MeshCarriesFlits := by
  refine ⟨?forward, ?deliver⟩
  case forward =>
    intro p o s i n f d here there hp hpick h1 h4 ho hnode hn hvc hb
    obtain ⟨hne, hin, -, -⟩ := neighbour_spec hn
    have hkeys : there ≠ here := by simp only [here, there]; omega
    refine ⟨_, _, exec_routerFlitForward hp hpick h1 h4 ho hnode hn hb, rfl, ?_, ?_, fun x hx hy => ?_⟩
    · rw [lk_up_ne _ _ hkeys.symm, lk_up_same]
    · rw [lk_up_same, lk_up_ne _ _ hkeys]
    · rw [lk_up_ne _ _ hy, lk_up_ne _ _ hx]
  case deliver =>
    intro p s f r k d d1 a he hk
    obtain ⟨ha, hline⟩ := lsBase_line k (f.lsaddr + f.idx)
    refine ⟨fun ht hc hn hm => ?data, fun n ht hc hn => exec_meshFlitDeliver_amount he hk ht hc hn, fun ht hi => ?drop⟩
    case data =>
      have ha : a = lsBase k + 64 * ((f.lsaddr + f.idx) % 2 ^ 14) := ha
      rw [ha, hline]
      exact ⟨_, exec_meshFlitDeliver_data he hk ht hc hn, rfl, written_of_wrBytes hm (by dsimp only), rfl⟩
    case drop =>
      obtain ⟨heject, hdrop, hrec⟩ := dropFlit_first d1 p.val hi
      refine ⟨_, exec_meshFlitDeliver_drop he hk ht, rfl, hrec _ rfl, ?_, hdrop⟩
      exact (congrArg (fun m => lk [] m p.val) heject).trans (lk_up_same _ _ _ _)

/-! ### Press nodes (R31) -/

/-- The flits that wait at a node, one from each input of a mask, in port order. -/
def PressNode.heads (n : PressNode) (ins : List Nat) : List (Nat × Flit) :=
  ins.filterMap (fun i => (n.waiting.find? (fun w => w.1 == i)).map (fun w => (i, w.2)))

/-- The flit a node sends for a round whose first flit is f0: the sum of all in port order (R31). -/
def TreeEntry.sum (e : TreeEntry) (f0 : Flit) (fs : List (Nat × Flit)) : Flit :=
  { f0 with data := if e.exa then pressExa (fs.map (fun x => x.2.data)) else pressFp32 (fs.map (fun x => x.2.data)) }

/-- A node with a flit from every input, whose round agrees on its length, sends the sum when its output has a credit. -/
theorem exec_pressNodeReduce {p : Pos} {tree : BitVec 8} {s : State} {e : TreeEntry} {i0 : Nat} {f0 : Flit} {r fs : List (Nat × Flit)}
    (ht : s.dev.treeAt p tree.toNat = some e) (hpress : e.press = true) (hp : s.dev.planeOn (regionOf p) = true)
    (hfs : (s.dev.nodeAt p tree.toNat).heads (maskOuts e.inMask.toNat) = fs) (hcons : fs = (i0, f0) :: r)
    (hlen : fs.length = (maskOuts e.inMask.toNat).length) (hflits : f0.idx = 0 → ∀ x ∈ r, x.2.flits = f0.flits)
    (hcredit : s.dev.hasCredit p ((maskOuts e.outMask.toNat).headD 0) (e.sum f0 fs) = true) :
    exec (.pressNodeReduce p tree) s = .next { s with
      dev := (s.dev.setNode { s.dev.nodeAt p tree.toNat with
        waiting := [], next := if f0.idx + 1 = f0.flits then 0 else f0.idx + 1 }).leave p ((maskOuts e.outMask.toNat).headD 0) (e.sum f0 fs) } := by
  have hins : (maskOuts e.inMask.toNat).isEmpty = false := by
    rw [List.isEmpty_eq_false_iff, ← List.length_pos_iff_ne_nil, ← hlen, hcons]; exact Nat.succ_pos _
  have hround : (if f0.idx = 0 then r.find? (fun x => x.2.flits ≠ f0.flits) else none) = none := by
    split
    · next h0 => exact List.find?_eq_none.mpr fun x hx => by simp [hflits h0 x hx]
    · rfl
  unfold PressNode.heads at hfs
  show execPressNodeReduce p tree s = _
  simp only [execPressNodeReduce, lift, ht, hpress, hins, hfs, hlen, hp, ne_eq, not_true, decide_false, Bool.not_true, Bool.or_self,
    Bool.false_eq_true, if_false]
  subst hcons
  simp only [hround]
  exact congrArg (fun d => Host.Outcome.next { s with dev := d }) (if_pos hcredit)

/-- Settles O26: the waiting flits of the statement are the heads of the node, and its flit is their sum. -/
theorem pressNodeSumsInPortOrder : Obligations.PressNodeSumsInPortOrder :=
  fun _ _ _ _ _ _ _ ht hpress hp hfs hlen hflits hcredit => exec_pressNodeReduce ht hpress hp rfl hfs hlen hflits hcredit

end Sys2Proof.Machine

/-! ## Accesses of the memories -/

namespace Sys2Proof.Machine

/-! ### Error correction leaves the accesses alone (R147) -/

/-- The work of every core and the accesses that wait at the slices are as before. -/
structure Dev.SameAccesses (d e : Dev) : Prop where
  work : ∀ k, (d.core k).SameWork (e.core k)
  slcQ : e.net.slcQ = d.net.slcQ
  slcRr : e.net.slcRr = d.net.slcRr

theorem Dev.SameAccesses.refl (d : Dev) : d.SameAccesses d := ⟨fun _ => .refl _, rfl, rfl⟩

theorem Dev.SameAccesses.trans {d e g : Dev} (h : d.SameAccesses e) (k : e.SameAccesses g) : d.SameAccesses g :=
  ⟨fun n => (h.work n).trans (k.work n), k.slcQ.trans h.slcQ, k.slcRr.trans h.slcRr⟩

theorem raise_sameAccesses {d : Dev} {e : Err} (h : e.cls ≠ 3) : d.SameAccesses (d.raise e) :=
  ⟨raise_work h, congrArg Net.slcQ (raise_net h), congrArg Net.slcRr (raise_net h)⟩

/-- An update of a core that keeps its work keeps the work of every core. -/
theorem updCore_work (d : Dev) (k : Nat) {g : Core → Core} (h : ∀ c : Core, c.SameWork (g c)) (n : Nat) :
    (d.core n).SameWork ((d.updCore k g).core n) := by
  by_cases hn : n = k
  · subst hn; rw [Dev.core_updCore]; exact h _
  · rw [Dev.core_updCore_ne d hn]; exact .refl _

theorem eccCe_sameAccesses (d : Dev) (w reader : Nat) : d.SameAccesses (d.eccCe w reader) := by
  unfold Dev.eccCe
  extract_lets u k d1 net d2 p
  have h1 : d.SameAccesses d1 := ⟨updCore_work d k fun _ => ⟨rfl, rfl⟩, rfl, rfl⟩
  have h2 : d1.SameAccesses d2 := ⟨fun _ => .refl _, rfl, rfl⟩
  exact (h1.trans h2).trans (raise_sameAccesses (by simp))

theorem eccUe_sameAccesses (d : Dev) (w reader : Nat) : d.SameAccesses (d.eccUe w reader) := by
  unfold Dev.eccUe
  extract_lets u p net d1
  have h1 : d.SameAccesses d1 := ⟨fun _ => .refl _, rfl, rfl⟩
  exact h1.trans (raise_sameAccesses (by simp))

theorem eccRead_sameAccesses (d : Dev) (ws : List Nat) (reader : Nat) (ce : List Nat) (ue : List (Nat × BitVec 64)) :
    d.SameAccesses (d.eccRead ws reader ce ue) :=
  List.foldlRecOn (motive := d.SameAccesses) _ _ (.refl d) fun e he w _ => by
    split
    · exact he.trans (eccUe_sameAccesses e w reader)
    · split
      · exact he.trans (eccCe_sameAccesses e w reader)
      · exact he

theorem eccWrite_sameAccesses (d : Dev) (bs : List MByte) (writer : Nat) : d.SameAccesses (d.eccWrite bs writer) :=
  List.foldlRecOn (motive := d.SameAccesses) _ _ (.refl d) fun e he w _ => by
    extract_lets net e1
    have h1 : e.SameAccesses e1 := by
      unfold e1; split
      · exact ⟨fun _ => .refl _, rfl, rfl⟩
      · exact .refl e
    clear_value e1
    split
    · exact he.trans h1
    · split
      · exact (he.trans h1).trans ⟨fun _ => .refl _, rfl, rfl⟩
      · exact (he.trans h1).trans (eccUe_sameAccesses e1 _ writer)

/-! Without an access no word is met, without an error struck none changes. -/

theorem eccWrite_nil (d : Dev) (writer : Nat) : d.eccWrite [] writer = d := rfl
theorem eccRead_nil (d : Dev) (reader : Nat) (ce : List Nat) (ue : List (Nat × BitVec 64)) : d.eccRead [] reader ce ue = d := rfl
theorem ueOps_nil (ws : List Nat) : ueOps ws [] = [] := rfl
theorem storeBytes_nil (m : Memory) : storeBytes m [] = [] := rfl

/-- Masked bytes of the SRAM leave the Cave's flash alone. -/
@[simp] theorem caveAll_storeBytes (c m : Memory) (l : List MByte) : caveAll c (storeBytes m l) = c := by
  unfold storeBytes
  induction mergeBytes l with
  | nil => rfl
  | cons e r ih => exact ih

/-! ### What a served access brings its job -/

@[simp] theorem Core.updJob_jobs (c : Core) (id : Nat) (f : Job → Job) :
    (c.updJob id f).jobs = c.jobs.map (fun j => if j.id = id then f j else j) := rfl

/-- A write served counts for its job and changes nothing else of the core's work (R149). -/
theorem writeDone_jobs (c : Core) (id : Nat) :
    (c.writeDone id).jobs = c.jobs.map (fun x => if x.id = id then { x with wrLeft := x.wrLeft - 1 } else x) := by
  unfold Core.writeDone; extract_lets c1; split <;> rfl

theorem writeDone_lsq (c : Core) (id : Nat) : (c.writeDone id).lsq = c.lsq := by
  unfold Core.writeDone; extract_lets c1; split <;> rfl

/-- Every job of that number has the lines that a served read has brought. -/
theorem got_of_readDone {c : Core} {id : Nat} {cls : LsClass} {lines : List (Nat × BitVec 512)} {x : Job}
    (hx : x ∈ (c.readDone id cls lines).jobs) (hid : x.id = id) : ∃ got, x.got = addLines got lines := by
  obtain ⟨j, -, rfl⟩ := List.mem_map.mp (show x ∈ (c.updJob id _).jobs from hx)
  by_cases h : j.id = id
  · exact ⟨j.got, by rw [if_pos h]⟩
  · rw [if_neg h] at hid; exact absurd hid h

/-- Lines that are a function of their numbers are there under those numbers. -/
theorem lk_addLines {g : Nat → BitVec 512} (lines : List (Nat × BitVec 512)) (hg : ∀ l ∈ lines, l.2 = g l.1) (got : SMap (BitVec 512)) (n : Nat) :
    lk (0 : BitVec 512) (addLines got lines) n = if n ∈ lines.map (fun l => l.1) then g n else lk (0 : BitVec 512) got n := by
  induction lines generalizing got with
  | nil => rfl
  | cons l r ih =>
    have hl : l.2 = g l.1 := hg l (List.mem_cons_self ..)
    rw [show addLines got (l :: r) = addLines (up got l.1 l.2) r from rfl, ih (fun x hx => hg x (List.mem_cons_of_mem _ hx)), lk_up, hl]
    by_cases hr : n ∈ r.map (fun l => l.1)
    · simp [hr]
    · by_cases h : n = l.1
      · simp [h]
      · simp [hr, h]

/-! ### The slices (R34, R35, R38) -/

/-- Slice j's device with the access a taken from its queue: the pointer at a's core, the others' wait counted. -/
def Dev.takeSlc (d : Dev) (j : Nat) (a : SlcAcc) : Dev :=
  ({ d with net := { d.net with slcQ := up d.net.slcQ j ((lk [] d.net.slcQ j).erase a), slcRr := up d.net.slcRr j a.core } } : Dev).updCore j
    (fun c => { c with cnt := { c.cnt with slcCont := c.cnt.slcCont + BitVec.ofNat 64 ((lk [] d.net.slcQ j).length - 1) } })

theorem takeSlc_work (d : Dev) (j : Nat) (a : SlcAcc) (n : Nat) : (d.core n).SameWork ((d.takeSlc j a).core n) :=
  updCore_work { d with net := { d.net with slcQ := up d.net.slcQ j ((lk [] d.net.slcQ j).erase a), slcRr := up d.net.slcRr j a.core } }
    j (g := fun c => { c with cnt := { c.cnt with slcCont := c.cnt.slcCont + BitVec.ofNat 64 ((lk [] d.net.slcQ j).length - 1) } })
    (fun _ => ⟨rfl, rfl⟩) n

/-- Slice j has served the access a: it has left the queue, and the pointer stands at its core. -/
def Dev.SlcServed (d : Dev) (j : Nat) (a : SlcAcc) (e : Dev) : Prop :=
  lk [] e.net.slcQ j = (lk [] d.net.slcQ j).erase a ∧ lk 767 e.net.slcRr j = a.core

/-- What keeps the accesses after one has been taken has it served. -/
theorem slcServed_of_sameAccesses {d e : Dev} {j : Nat} {a : SlcAcc} {g : Core → Core} {n : Nat}
    (h : ((d.takeSlc j a).updCore n g).SameAccesses e) : d.SlcServed j a e :=
  ⟨by rw [h.slcQ]; exact lk_up_same _ _ _ _, by rw [h.slcRr]; exact lk_up_same _ _ _ _⟩

theorem slcServed_of_tagDrop (d : Dev) (j : Nat) (a : SlcAcc) (g : Core → Core) (t src pos source : Nat) :
    d.SlcServed j a (((d.takeSlc j a).updCore a.core g).tagDrop t src pos source) := by
  unfold Dev.SlcServed
  rw [tagDrop_net]
  exact ⟨lk_up_same _ _ _ _, lk_up_same _ _ _ _⟩

section Slice

variable {s : State} {j : CoreId} {a : SlcAcc} (hr : (s.dev.issueTo j).atRetention j = false)
  (hp : slcPick (lk [] (s.dev.issueTo j).net.slcQ j) (lk 767 (s.dev.issueTo j).net.slcRr j) = some a)
include hr hp

/-- The device of a served write before its job goes on. -/
def Dev.slcWritten (d : Dev) (j : Nat) (a : SlcAcc) : Dev :=
  ((d.takeSlc j a).updCore a.core (fun c => c.writeDone a.job)).eccWrite a.bytes a.core

theorem exec_sliceAccessServe_write (ho : lk 16 (s.dev.issueTo j).net.slcOwner j = a.ptag) (hw : a.write = true) :
    exec (.sliceAccessServe j [] []) s = .next { s with
      dev := ((s.dev.issueTo j).slcWritten j a).issueJob a.core a.job
      mem := memAll s.mem (storeBytes s.mem a.bytes) } := by
  show execSliceAccessServe j [] [] s = _
  simp only [execSliceAccessServe, liftW, hr, hp, Dev.updCore_net, ho, hw, ne_eq, not_true, Bool.false_eq_true, if_false, if_true, caveAll_storeBytes]
  rfl

/-- The device of a served read before its job goes on. -/
def Dev.slcRead (d : Dev) (m : Memory) (j : Nat) (a : SlcAcc) : Dev :=
  ((d.takeSlc j a).updCore a.core (fun c => c.readDone a.job a.cls
    [(a.block / 64, lineAt m a.block), (a.block / 64 + 1, lineAt m (a.block + 64))])).eccRead (wordsOf a.block 128) a.core [] []

theorem exec_sliceAccessServe_read (ho : lk 16 (s.dev.issueTo j).net.slcOwner j = a.ptag) (hw : a.write = false) :
    exec (.sliceAccessServe j [] []) s = .next { s with
      dev := (((s.dev.issueTo j).slcRead s.mem j a).issueJob a.core a.job).updCore a.core Core.matAdvance } := by
  show execSliceAccessServe j [] [] s = _
  simp only [execSliceAccessServe, liftW, hr, hp, Dev.updCore_net, ho, hw, ne_eq, not_true, Bool.false_eq_true, if_false]
  rfl

/-- An access of another partition is dropped. -/
theorem exec_sliceAccessServe_drop (ho : lk 16 (s.dev.issueTo j).net.slcOwner j ≠ a.ptag) :
    exec (.sliceAccessServe j [] []) s = .next { s with
      dev := (((s.dev.issueTo j).takeSlc j a).updCore a.core (fun c => c.updJob a.job (fun x => { x with lost := true }))).tagDrop
        a.ptag a.core ((s.dev.issueTo j).posOf j) 14 } := by
  show execSliceAccessServe j [] [] s = _
  simp only [execSliceAccessServe, liftW, hr, hp, Dev.updCore_net, ne_eq, ho, not_false_eq_true, Bool.false_eq_true, if_false, if_true]
  rfl

end Slice

/-- A write served by a slice counts for its job. -/
theorem slcWritten_jobs (d : Dev) (j : Nat) (a : SlcAcc) : ((d.slcWritten j a).core a.core).jobs =
    (d.core a.core).jobs.map (fun x => if x.id = a.job then { x with wrLeft := x.wrLeft - 1 } else x) := by
  rw [Dev.slcWritten, ((eccWrite_sameAccesses _ a.bytes a.core).work a.core).1, Dev.core_updCore, writeDone_jobs, (takeSlc_work d j a a.core).1]

/-- A read served by a slice brings its job the two lines of the block. -/
theorem slcRead_got {d : Dev} {m : Memory} {j : Nat} {a : SlcAcc} {x : Job} (hx : x ∈ ((d.slcRead m j a).core a.core).jobs) (hid : x.id = a.job) :
    lk (0 : BitVec 512) x.got (a.block / 64) = lineAt m a.block ∧ lk (0 : BitVec 512) x.got (a.block / 64 + 1) = lineAt m (a.block + 64) := by
  rw [Dev.slcRead, ((eccRead_sameAccesses _ _ a.core [] []).work a.core).1, Dev.core_updCore] at hx
  obtain ⟨got, hgot⟩ := got_of_readDone hx hid
  rw [hgot]
  exact ⟨(lk_up_ne _ _ (by omega) _).trans (lk_up_same _ _ _ _), lk_up_same _ _ _ _⟩

/-! ### The local store (R141, R142) -/

/-- A request that waits alone is the only one offered. -/
theorem lsOffers_single (r : LsReq) : lsOffers [r] = [r] := by
  cases hc : r.cls <;> cases hw : r.write <;> simp [lsOffers, hc, hw]

/-- A request alone in its cycle that fits the ports is granted whole. -/
theorem lsTry_alone {r : LsReq} (conf : SMap (BitVec 64)) (port : BitVec 64) (h : r.lines.length ≤ if r.write then 4 else 8) :
    (lsTry ⟨[], 0, 0, [], conf, port⟩ r).granted = [r] ∧ (lsTry ⟨[], 0, 0, [], conf, port⟩ r).conf = conf ∧
      (lsTry ⟨[], 0, 0, [], conf, port⟩ r).port = port := by
  have hd : distinct [] = [] := rfl
  cases hw : r.write <;> simp_all [lsTry]

section LocalStore

variable {s : State} {k : CoreId} {r : LsReq} (hk : s.dev.clocked k = true) (hq : ((s.dev.core k).askCreates k).lsq = [r]) (hserves : r.serves = true)
include hk hq hserves

/-- The device of a granted write before its job goes on. -/
def Dev.lsWritten (d : Dev) (k : Nat) (r : LsReq) : Dev :=
  (d.setCore k (({ (d.core k).askCreates k with lsq := [] } : Core).writeDone r.job)).eccWrite r.bytes k

theorem exec_localStoreGrant_write (hw : r.write = true) (hl : r.lines.length ≤ 4) :
    exec (.localStoreGrant k [] []) s = .next { s with
      dev := ((s.dev.lsWritten k r).issueJob k r.job).updCore k Core.matAdvance
      mem := memAll s.mem (storeBytes s.mem r.bytes) } := by
  obtain ⟨hg, hc, hp⟩ := lsTry_alone ((s.dev.core k).askCreates k).cnt.lsConf ((s.dev.core k).askCreates k).cnt.lsPort
    (r := r) (by simp only [hw, if_true]; exact hl)
  show execLocalStoreGrant k [] [] s = _
  simp only [execLocalStoreGrant, liftW, hk, hq, lsOffers_single, List.foldl_cons, List.foldl_nil, hg, hc, hp, eraseReq, if_true, hw, hserves,
    List.filter_cons, List.filter_nil, Bool.not_true, Bool.and_true, Bool.false_eq_true, if_false, List.flatMap_cons, List.flatMap_nil,
    List.append_nil, List.nil_append, eccRead_nil, ueOps_nil, memAll_nil, caveAll_storeBytes]
  rfl

/-- The device of a granted read before its job goes on. -/
def Dev.lsRead (d : Dev) (m : Memory) (k : Nat) (r : LsReq) : Dev :=
  (d.setCore k (({ (d.core k).askCreates k with lsq := [] } : Core).readDone r.job r.cls
    (r.lines.map (fun l => (lsBase k / 64 + l, lineAt m (lsBase k + 64 * l)))))).eccRead
      (r.lines.flatMap (fun l => wordsOf (lsBase k + 64 * l) 64)) k [] []

theorem exec_localStoreGrant_read (hw : r.write = false) (hl : r.lines.length ≤ 8) :
    exec (.localStoreGrant k [] []) s = .next { s with
      dev := ((s.dev.lsRead s.mem k r).issueJob k r.job).updCore k Core.matAdvance } := by
  obtain ⟨hg, hc, hp⟩ := lsTry_alone ((s.dev.core k).askCreates k).cnt.lsConf ((s.dev.core k).askCreates k).cnt.lsPort
    (r := r) (by simp only [hw, Bool.false_eq_true, if_false]; exact hl)
  show execLocalStoreGrant k [] [] s = _
  simp only [execLocalStoreGrant, liftW, hk, hq, lsOffers_single, List.foldl_cons, List.foldl_nil, hg, hc, hp, eraseReq, if_true, hw, hserves,
    List.filter_cons, List.filter_nil, Bool.not_true, Bool.not_false, Bool.and_self, Bool.and_true, Bool.false_eq_true, if_false,
    List.flatMap_cons, List.flatMap_nil, List.append_nil, eccWrite_nil, ueOps_nil, storeBytes_nil, memAll_nil, caveAll_nil]
  rfl

end LocalStore

theorem lsWritten_sameAccesses (d : Dev) (k : Nat) (r : LsReq) :
    (d.setCore k (({ (d.core k).askCreates k with lsq := [] } : Core).writeDone r.job)).SameAccesses (d.lsWritten k r) :=
  eccWrite_sameAccesses _ _ _

theorem lsWritten_lsq (d : Dev) (k : Nat) (r : LsReq) : ((d.lsWritten k r).core k).lsq = [] := by
  rw [((lsWritten_sameAccesses d k r).work k).2, Dev.core_setCore, writeDone_lsq]

/-- A write granted by the local store counts for its job. -/
theorem lsWritten_jobs (d : Dev) (k : Nat) (r : LsReq) : ((d.lsWritten k r).core k).jobs =
    ((d.core k).askCreates k).jobs.map (fun x => if x.id = r.job then { x with wrLeft := x.wrLeft - 1 } else x) := by
  rw [((lsWritten_sameAccesses d k r).work k).1, Dev.core_setCore, writeDone_jobs]

theorem lsRead_lsq (d : Dev) (m : Memory) (k : Nat) (r : LsReq) : ((d.lsRead m k r).core k).lsq = [] := by
  rw [Dev.lsRead, ((eccRead_sameAccesses _ _ k [] []).work k).2, Dev.core_setCore]; rfl

/-- A read granted by the local store brings its job its lines. -/
theorem lsRead_got {d : Dev} {m : Memory} {k : Nat} {r : LsReq} {x : Job} (hx : x ∈ ((d.lsRead m k r).core k).jobs) (hid : x.id = r.job)
    {l : Nat} (hl : l ∈ r.lines) : lk (0 : BitVec 512) x.got (lsBase k / 64 + l) = lineAt m (lsBase k + 64 * l) := by
  rw [Dev.lsRead, ((eccRead_sameAccesses _ _ k [] []).work k).1, Dev.core_setCore] at hx
  obtain ⟨got, hgot⟩ := got_of_readDone hx hid
  rw [hgot, lk_addLines (g := fun n => lineAt m (lsBase k + 64 * (n - lsBase k / 64))), if_pos, Nat.add_sub_cancel_left]
  · exact List.mem_map.mpr ⟨_, List.mem_map.mpr ⟨l, hl, rfl⟩, rfl⟩
  · intro y hy
    obtain ⟨i, -, rfl⟩ := List.mem_map.mp hy
    simp only [Nat.add_sub_cancel_left]

/-! ### Write-back (R147) -/

theorem exec_eccWriteback_free {s : State} {w : Nat} (h : s.dev.wordBusy w = false) : exec (.eccWriteback w) s =
    .next { s with dev := { s.dev with net := { s.dev.net with ce := s.dev.net.ce.filter (fun x => x ≠ w) } } } := by
  show execEccWriteback w s = _
  simp only [execEccWriteback, lift, h, Bool.false_eq_true, if_false]

theorem exec_eccWriteback_busy {s : State} {w : Nat} (h : s.dev.wordBusy w = true) : exec (.eccWriteback w) s = .next s := by
  show execEccWriteback w s = _
  simp only [execEccWriteback, lift, h, if_true]

/-- Settles O27: each access by the device it leaves before its job goes on, of which the error correction changes neither the jobs
nor the accesses that wait. -/
theorem memoryAccessesAreServed : Obligations.MemoryAccessesAreServed := by
  refine ⟨?slices, ?stores⟩
  case slices =>
    intro j s a d q i served hr hp
    refine ⟨fun ho hw => ?write, fun ho hw => ?read, fun ho => ?drop⟩
    case write =>
      exact ⟨_, _, exec_sliceAccessServe_write hr hp ho hw, rfl, rfl, rfl, slcServed_of_sameAccesses (eccWrite_sameAccesses _ _ _),
        slcWritten_jobs d j a⟩
    case read =>
      exact ⟨_, _, exec_sliceAccessServe_read hr hp ho hw, rfl, rfl, rfl, slcServed_of_sameAccesses (eccRead_sameAccesses _ _ _ _ _),
        fun x hx hid => slcRead_got hx hid⟩
    case drop =>
      refine ⟨_, exec_sliceAccessServe_drop hr hp ho, rfl, rfl, tagDrop_recorded (by dsimp only), ?_⟩
      exact slcServed_of_tagDrop d j a _ a.ptag a.core (d.posOf j) 14
  case stores =>
    intro k s r w c goes
    refine ⟨fun hk hq hserves hw hl => ?write, fun hk hq hserves hw hl => ?read, exec_eccWriteback_free, exec_eccWriteback_busy⟩
    case write =>
      exact ⟨_, _, exec_localStoreGrant_write hk hq hserves hw hl, rfl, rfl, ⟨rfl, lsWritten_lsq s.dev k r⟩, lsWritten_jobs s.dev k r⟩
    case read =>
      exact ⟨_, _, exec_localStoreGrant_read hk hq hserves hw hl, rfl, rfl, ⟨rfl, lsRead_lsq s.dev s.mem k r⟩,
        fun x hx hid l hl => lsRead_got hx hid hl⟩

end Sys2Proof.Machine

/-! ## Commands on the device -/

namespace Sys2Proof.Machine

/-! ### Taking and answering an entry (R338, R340) -/

/-- A well-formed entry of its opcode runs the body of its command on the device whose head has moved past it. -/
theorem hostCmd_go {s : State} {f : FnId} {opc : Nat} {e : BitVec 512} (body : Dev → Dev) (h : Entry s.dev f opc e) :
    hostCmd f opc e body s = .next { s with dev := body (s.dev.takeHead f (cCid e)) } := by
  obtain ⟨htake, hopc, hres, -⟩ := h
  simp only [hostCmd, liftW, takeCmd_go htake hopc hres, memAll_nil, caveAll_nil]

/-- An entry taken leaves room for its answer. -/
theorem takeHead_canAnswer {d : Dev} {f cid : Nat} (h : CanAnswer d f) : CanAnswer (d.takeHead f cid) f := by
  have hf := ((d.emit (.hostRead f ((d.func f).sqSlot (d.func f).sqHead) 64))).func_setFunc f
    { d.func f with sqHead := ((d.func f).sqHead + 1) % (d.func f).sqEntries,
                    sqAt := up (d.func f).sqAt cid (((d.func f).sqHead + 1) % (d.func f).sqEntries) }
  unfold CanAnswer at h ⊢
  rw [Dev.takeHead, hf]
  exact h

/-- The completion of an entry just taken answers it, whatever else its command has done to the device. -/
theorem complete_answers {s : State} {f : Nat} {e : BitVec 512} {d : Dev} (h : CanAnswer s.dev f)
    (hd : d.funcs = (s.dev.takeHead f (cCid e)).funcs) (status result : Nat) :
    ∃ fs o, d.complete f (cCid e) status result = { d with funcs := fs, out := o } ∧ d.out ⊆ o ∧
      ∀ t : State, t.dev.funcs = fs → t.dev.out = o → Answered s t f e status result := by
  have hfun : d.func f = (s.dev.takeHead f (cCid e)).func f := congrArg (fun m => lk Func.reset m f) hd
  have hcan : CanAnswer d f := by
    have h' := takeHead_canAnswer (cid := cCid e) h
    unfold CanAnswer at h' ⊢
    rwa [hfun]
  have htaken : (s.dev.takeHead f (cCid e)).func f = { s.dev.func f with
      sqHead := ((s.dev.func f).sqHead + 1) % (s.dev.func f).sqEntries,
      sqAt := up (s.dev.func f).sqAt (cCid e) (((s.dev.func f).sqHead + 1) % (s.dev.func f).sqEntries) } := Dev.func_setFunc _ _ _
  obtain ⟨fs, o, hc, hhead, ⟨slot, ph, hcpl⟩, hout⟩ := complete_now (cCid e) status result hcan
  rw [hfun, htaken] at hhead hcpl
  rw [lk_up_same] at hcpl
  refine ⟨fs, o, hc, hout, ?_⟩
  rintro t rfl rfl
  exact ⟨hhead, slot, ph, hcpl⟩

/-- A command whose body completes answers its entry; the rest of the device is as its body left it. -/
theorem hostCmd_answers {s : State} {f : FnId} {opc : Nat} {e : BitVec 512} {body : Dev → Dev} {d : Dev} {status result : Nat}
    (h : Entry s.dev f opc e) (hb : body (s.dev.takeHead f (cCid e)) = d.complete f (cCid e) status result)
    (hd : d.funcs = (s.dev.takeHead f (cCid e)).funcs) :
    ∃ fs o, hostCmd f opc e body s = .next { s with dev := { d with funcs := fs, out := o } } ∧ d.out ⊆ o ∧
      Answered s { s with dev := { d with funcs := fs, out := o } } f e status result := by
  obtain ⟨fs, o, hc, hout, hans⟩ := complete_answers h.2.2.2 hd status result
  exact ⟨fs, o, by rw [hostCmd_go body h, hb, hc], hout, hans _ rfl rfl⟩

/-! ### The three ways a command on the device ends -/

/-- The command i is answered with a status and changes nothing else of the memories, the Creamery, the power and the channels. -/
def TellsStatus (s : State) (f : FnId) (e : BitVec 512) (i : Instr) (status : Nat) : Prop :=
  ∃ t, exec i s = .next t ∧ t.mem = s.mem ∧ t.cave = s.cave ∧ t.dev.crm = s.dev.crm ∧ t.dev.pwr = s.dev.pwr ∧
    t.dev.chans = s.dev.chans ∧ Answered s t f e status 0

/-- The command i asks for a non-volatile write. -/
def AsksWrite (s : State) (i : Instr) (need : Nat) (k : NvKind) : Prop :=
  ∃ t, exec i s = .next t ∧ t.mem = s.mem ∧ t.cave = s.cave ∧ t.dev.crm = s.dev.crm ∧
    t.dev.pwr.nv = s.dev.pwr.nv ++ [⟨s.dev.pwr.nvNext, need, false, s.dev.turn.now.toNat, k⟩]

/-- The command i writes bytes into its host's memory and is answered OK. -/
def SendsBytes (s : State) (f : FnId) (e : BitVec 512) (i : Instr) (l : List Byte) : Prop :=
  ∃ t, exec i s = .next t ∧ t.mem = s.mem ∧ t.cave = s.cave ∧ Answered s t f e 0 0 ∧ .hostWrite f (cAddr e) l ∈ t.dev.out

section Ends

variable {s : State} {f : FnId} {opc : Nat} {e : BitVec 512} {i : Instr} {body : Dev → Dev} (hi : exec i s = hostCmd f opc e body s)
  (h : Entry s.dev f opc e)
include hi h

theorem tellsStatus_of_body {status : Nat}
    (hb : body (s.dev.takeHead f (cCid e)) = (s.dev.takeHead f (cCid e)).complete f (cCid e) status 0) : TellsStatus s f e i status := by
  obtain ⟨fs, o, ht, -, hans⟩ := hostCmd_answers h hb rfl
  exact ⟨_, hi.trans ht, rfl, rfl, rfl, rfl, rfl, hans⟩

theorem asksWrite_of_body {need : Nat} {k : NvKind} (hb : body (s.dev.takeHead f (cCid e)) = (s.dev.takeHead f (cCid e)).nvAsk need k) :
    AsksWrite s i need k :=
  ⟨_, hi.trans (hostCmd_go body h), rfl, rfl, by rw [hb]; exact ⟨rfl, rfl⟩⟩

theorem sendsBytes_of_body {d : Dev} {l : List Byte} (hd : d.funcs = (s.dev.takeHead f (cCid e)).funcs)
    (hb : body (s.dev.takeHead f (cCid e)) = (d.emit (.hostWrite f (cAddr e) l)).complete f (cCid e) 0 0) : SendsBytes s f e i l := by
  obtain ⟨fs, o, ht, hout, hans⟩ := hostCmd_answers h hb hd
  exact ⟨_, hi.trans ht, rfl, rfl, hans, hout (List.mem_cons_self ..)⟩

end Ends

/-! ### The key table (R294, R295) -/

/-- A new key of a table goes beside the entries that are there. -/
theorem up_perm_of_new {α : Type} {m : SMap α} {n : Nat} (v : α) (h : ∀ e ∈ m, e.1 ≠ n) : (up m n v).Perm ((n, v) :: m) := by
  induction m with
  | nil => exact .refl _
  | cons e r ih =>
    have hne : n ≠ e.1 := (h e (List.mem_cons_self ..)).symm
    have ih := ih fun y hy => h y (List.mem_cons_of_mem _ hy)
    simp only [up, if_neg hne]
    split
    · exact .refl _
    · exact (ih.cons e).trans (.swap (n, v) e r)

theorem hasKey_iff {c : Crm} {g : Nat} : c.hasKey g = true ↔ ∃ x ∈ c.keys, x.2.digest = g := by
  simp [Crm.hasKey]

/-- A table of fewer than 16 keys has a free entry. -/
theorem freeKeys_ne_nil {c : Crm} (h : c.keys.length < 16) : c.freeKeys ≠ [] := by
  intro hnil
  have hsub : List.range 16 ⊆ c.keys.map (fun x => x.1) := fun i hi => by
    have hi := List.filter_eq_nil_iff.mp hnil i hi
    simpa using hi
  have hlen := (List.nodup_range.subperm hsub).length_le
  rw [List.length_map, List.length_range] at hlen
  omega

/-- A key put into the table stands there beside the keys that were, if an entry is free. -/
theorem addKey_cases (d : Dev) (k : KeyEnt) :
    d.addKey k = d ∨ ∃ ks i, d.addKey k = { d with crm := { d.crm with keys := ks }, free := d.free + 1 } ∧ ks.Perm ((i, k) :: d.crm.keys) := by
  cases hpick : pickOne d.free d.crm.freeKeys with
  | none => exact .inl (by simp only [Dev.addKey, hpick])
  | some i =>
    have hnew : ∀ e ∈ d.crm.keys, e.1 ≠ i := by simpa using (List.mem_filter.mp (mem_of_pickOne hpick)).2
    exact .inr ⟨up d.crm.keys i k, i, by simp only [Dev.addKey, hpick], up_perm_of_new k hnew⟩

/-- In a table of fewer than 16 keys an entry is free. -/
theorem addKey_room {d : Dev} (k : KeyEnt) (h : d.crm.keys.length < 16) :
    ∃ ks i, d.addKey k = { d with crm := { d.crm with keys := ks }, free := d.free + 1 } ∧ ks.Perm ((i, k) :: d.crm.keys) := by
  obtain hsame | hadd := addKey_cases d k
  · obtain ⟨i, -, hpick⟩ := pickOne_mem d.free (freeKeys_ne_nil h)
    simp only [Dev.addKey, hpick] at hsame
    exact absurd (congrArg Dev.free hsame) (Nat.succ_ne_self _)
  · exact hadd

/-- With a key more, its digest and every digest that was there are in the table. -/
theorem hasKey_of_perm {c c' : Crm} {i : Nat} {k : KeyEnt} (h : c'.keys.Perm ((i, k) :: c.keys)) :
    c'.hasKey k.digest = true ∧ ∀ g, c.hasKey g = true → c'.hasKey g = true := by
  simp only [hasKey_iff, h.mem_iff]
  exact ⟨⟨_, List.mem_cons_self .., rfl⟩, fun g ⟨x, hx, hg⟩ => ⟨x, List.mem_cons_of_mem _ hx, hg⟩⟩

/-- KEY_INSTALL of a key of the right length, check by check. -/
theorem keyInstall_eq (d : Dev) (f : Nat) {e : BitVec 512} {bs : List Byte} (hl : bs.length = 68) (hf : cFlags e < 2) :
    d.keyInstall f e (some bs) =
      if bs.take 4 ≠ xmssOid then d.answer f e stKeyInvalid
      else if d.crm.hasKey (shake256 bs) then d.answer f e stOk
      else if 16 ≤ d.crm.keys.length + d.keyWrites then d.answer f e stKeyFull
      else if bit (cFlags e) 0 then d.nvAsk needCave (.keyInstall f (cCid e) ⟨bs, shake256 bs, bit (cFlags e) 0⟩)
      else (d.addKey ⟨bs, shake256 bs, bit (cFlags e) 0⟩).answer f e stOk := by
  have hok : ¬(bs.length ≠ 68 ∨ 2 ≤ cFlags e) := by omega
  simp only [Dev.keyInstall, if_neg hok]

/-- What a KEY_INSTALL that need not wait for the key table does to the device (R396). -/
def keyInstallBody (f : FnId) (e : BitVec 512) (data : Option (List Byte)) (d : Dev) : Dev :=
  if bit (cFlags e) 0 && !d.crm.keysLoaded then d.holdCmd f e data else d.keyInstall f e data

section KeyInstall

variable {s : State} {f : FnId} {e : BitVec 512} {bs : List Byte} (h : Entry s.dev f 0x20 e) (hf : cFlags e < 2)
  (hload : bit (cFlags e) 0 = true → s.dev.crm.keysLoaded = true) (hl : bs.length = 68)
include hf hload hl

/-- KEY_INSTALL of a key of the right length that need not wait, check by check. -/
theorem keyInstallBody_eq : keyInstallBody f e (some bs) (s.dev.takeHead f (cCid e)) =
      if bs.take 4 ≠ xmssOid then (s.dev.takeHead f (cCid e)).answer f e stKeyInvalid
      else if s.dev.crm.hasKey (shake256 bs) then (s.dev.takeHead f (cCid e)).answer f e stOk
      else if 16 ≤ s.dev.crm.keys.length + s.dev.keyWrites then (s.dev.takeHead f (cCid e)).answer f e stKeyFull
      else if bit (cFlags e) 0 then
        (s.dev.takeHead f (cCid e)).nvAsk needCave (.keyInstall f (cCid e) ⟨bs, shake256 bs, bit (cFlags e) 0⟩)
      else ((s.dev.takeHead f (cCid e)).addKey ⟨bs, shake256 bs, bit (cFlags e) 0⟩).answer f e stOk := by
  have hgo : ¬((bit (cFlags e) 0 && !(s.dev.takeHead f (cCid e)).crm.keysLoaded) = true) := by
    intro hw
    have hw := Bool.and_eq_true_iff.mp hw
    have hk : (s.dev.takeHead f (cCid e)).crm.keysLoaded = true := hload hw.1
    simp [hk] at hw
  rw [keyInstallBody, if_neg hgo]
  exact keyInstall_eq _ f hl hf

include h

theorem keyInstall_badOid (ho : bs.take 4 ≠ xmssOid) : TellsStatus s f e (.keyInstall f e (some bs)) stKeyInvalid :=
  tellsStatus_of_body (body := keyInstallBody f e (some bs)) rfl h (by rw [keyInstallBody_eq hf hload hl, if_pos ho]; rfl)

section NewKey

variable (ho : bs.take 4 = xmssOid) (hnew : s.dev.crm.hasKey (shake256 bs) = false)
include ho hnew

theorem keyInstall_full (hfull : 16 ≤ s.dev.crm.keys.length + s.dev.keyWrites) : TellsStatus s f e (.keyInstall f e (some bs)) stKeyFull := by
  refine tellsStatus_of_body (body := keyInstallBody f e (some bs)) rfl h ?_
  rw [keyInstallBody_eq hf hload hl, if_neg (not_not.mpr ho), hnew, if_neg Bool.false_ne_true, if_pos hfull]
  rfl

theorem keyInstall_persist (hroom : s.dev.crm.keys.length + s.dev.keyWrites < 16) (hp : cFlags e = 1) :
    AsksWrite s (.keyInstall f e (some bs)) needCave (.keyInstall f (cCid e) ⟨bs, shake256 bs, bit (cFlags e) 0⟩) := by
  refine asksWrite_of_body (body := keyInstallBody f e (some bs)) rfl h ?_
  rw [keyInstallBody_eq hf hload hl, if_neg (not_not.mpr ho), hnew, if_neg Bool.false_ne_true, if_neg (Nat.not_le.mpr hroom),
    if_pos (by rw [hp]; rfl)]

theorem keyInstall_volatile (hroom : s.dev.crm.keys.length + s.dev.keyWrites < 16) (hp : cFlags e = 0) :
    ∃ t, exec (.keyInstall f e (some bs)) s = .next t ∧ t.mem = s.mem ∧ Answered s t f e 0 0 ∧ t.dev.crm.hasKey (shake256 bs) = true ∧
      ∀ g, s.dev.crm.hasKey g = true → t.dev.crm.hasKey g = true := by
  obtain ⟨ks, i, hadd, hks⟩ := addKey_room (d := s.dev.takeHead f (cCid e)) ⟨bs, shake256 bs, bit (cFlags e) 0⟩
    (Nat.lt_of_le_of_lt (Nat.le_add_right _ _) hroom)
  have hbody : keyInstallBody f e (some bs) (s.dev.takeHead f (cCid e)) = _ := keyInstallBody_eq hf hload hl
  rw [if_neg (not_not.mpr ho), hnew, if_neg Bool.false_ne_true, if_neg (Nat.not_le.mpr hroom), if_neg (by rw [hp]; decide), hadd] at hbody
  obtain ⟨fs, o, ht, -, hans⟩ := hostCmd_answers h hbody rfl
  have hkeys := hasKey_of_perm (c := s.dev.crm) (c' := { s.dev.crm with keys := ks }) hks
  exact ⟨_, ht, rfl, hans, hkeys⟩

end NewKey
end KeyInstall

/-- What KEY_REMOVE of 32 bytes does to the device. -/
def keyRemoveBody (f : FnId) (e : BitVec 512) (bs : List Byte) (d : Dev) : Dev :=
  match d.crm.keys.find? (fun k => k.2.digest == leNat bs) with
  | none => d.answer f e (if bs.length = 32 then stNotFound else stInvalid)
  | some k =>
    if bs.length ≠ 32 then d.answer f e stInvalid
    else if k.2.persist then d.nvAsk needCave (.keyRemove f (cCid e) k.2.digest)
    else ({ d with crm := { d.crm with keys := del d.crm.keys k.1 } }).answer f e stOk

section KeyRemove

variable {s : State} {f : FnId} {e : BitVec 512} {bs : List Byte} {k : Nat × KeyEnt} (hl : bs.length = 32)
include hl

theorem keyRemove_absent (h : Entry s.dev f 0x21 e) (hk : s.dev.crm.hasKey (leNat bs) = false) :
    TellsStatus s f e (.keyRemove f e (some bs)) stNotFound := by
  have hnone : s.dev.crm.keys.find? (fun k => k.2.digest == leNat bs) = none := List.find?_eq_none.mpr (by simpa [Crm.hasKey] using hk)
  have hnone : (s.dev.takeHead f (cCid e)).crm.keys.find? (fun k => k.2.digest == leNat bs) = none := hnone
  refine tellsStatus_of_body (body := keyRemoveBody f e bs) rfl h ?_
  simp only [keyRemoveBody, hnone, if_pos hl]
  rfl

variable (hk : s.dev.crm.keys.find? (fun x => x.2.digest == leNat bs) = some k)
include hk

/-- KEY_REMOVE of a key in the table. -/
theorem keyRemoveBody_found : keyRemoveBody f e bs (s.dev.takeHead f (cCid e)) =
    if k.2.persist then (s.dev.takeHead f (cCid e)).nvAsk needCave (.keyRemove f (cCid e) (leNat bs))
    else ({ s.dev.takeHead f (cCid e) with crm := { s.dev.crm with keys := del s.dev.crm.keys k.1 } } : Dev).answer f e stOk := by
  have hdigest : k.2.digest = leNat bs := by simpa using List.find?_some hk
  have hk : (s.dev.takeHead f (cCid e)).crm.keys.find? (fun x => x.2.digest == leNat bs) = some k := hk
  simp only [keyRemoveBody, hk, hl, hdigest, ne_eq, not_true, if_false]
  rfl

theorem keyRemove_persisted (h : Entry s.dev f 0x21 e) (hp : k.2.persist = true) :
    AsksWrite s (.keyRemove f e (some bs)) needCave (.keyRemove f (cCid e) (leNat bs)) :=
  asksWrite_of_body (body := keyRemoveBody f e bs) rfl h (by rw [keyRemoveBody_found hl hk, if_pos hp])

theorem keyRemove_volatile (h : Entry s.dev f 0x21 e) (hp : k.2.persist = false) : ∃ t, exec (.keyRemove f e (some bs)) s = .next t ∧ t.mem = s.mem ∧
    Answered s t f e 0 0 ∧ t.dev.crm.keys = del s.dev.crm.keys k.1 := by
  have hbody := keyRemoveBody_found (f := f) (e := e) hl hk
  rw [hp, if_neg Bool.false_ne_true] at hbody
  obtain ⟨fs, o, ht, -, hans⟩ := hostCmd_answers h hbody rfl
  exact ⟨_, ht, rfl, hans, rfl⟩

end KeyRemove

/-! ### The report (R370 to R373) -/

@[simp] theorem padTo_length (n : Nat) (bs : List Byte) : (padTo n bs).length = n := by
  simp [padTo]

@[simp] theorem AttEnt.bytes_length (e : AttEnt) : e.bytes.length = 72 := by
  simp [AttEnt.bytes]

/-- What stands before the signature of a report is LENGTH less the signature (R372). -/
theorem attBody_length (d : Dev) (nonce : Nat) : (d.attBody nonce).length + 5605 = attLength d.attEnts.length := by
  simp [Dev.attBody, attLength, List.length_flatMap]
  omega

/-- The only request that waits is worked through at once when the identity is settled and no leaf is being reserved. -/
theorem attestAll_one {d : Dev} (r : AttReq) (hr : d.reserving = false) (hid : d.crm.idReady = true ∨ d.crm.idFail = true)
    (ha : d.crm.attests = []) : ({ d with crm := { d.crm with attests := d.crm.attests ++ [r] } } : Dev).attestAll = d.attest1 r := by
  have hid : (d.crm.idReady || d.crm.idFail) = true := by simpa using hid
  have hres : ∀ c : Crm, ({ d with crm := c } : Dev).reserving = false := fun _ => hr
  have hcrm : ({ d.crm with attests := [] } : Crm) = d.crm := by rw [← ha]
  simp only [Dev.attestAll, ha, List.nil_append, List.length_singleton, attestRun, hid, hres, Bool.not_true, Bool.or_self, Bool.false_eq_true,
    if_false, hcrm]

/-- A request that comes before the identity is settled waits. -/
theorem attestAll_waits {d : Dev} (hr : d.crm.idReady = false) (hf : d.crm.idFail = false) : d.attestAll = d := by
  unfold Dev.attestAll
  cases d.crm.attests.length with
  | zero => rfl
  | succ n => simp only [attestRun, hr, hf, Bool.or_self, Bool.not_false, Bool.true_or, if_true]

/-- The request that an ATTEST makes. -/
def attReq (f : FnId) (e : BitVec 512) : AttReq := ⟨f, cCid e, cArg0 e + cArg1 e * 2 ^ 64, cAddr e, cLen e⟩

/-- What ATTEST does to the device. -/
def attestBody (f : FnId) (e : BitVec 512) (d : Dev) : Dev :=
  ({ d with crm := { d.crm with attests := d.crm.attests ++ [attReq f e] } } : Dev).attestAll

section Attest

variable {s : State} {f : FnId} {e : BitVec 512} (ha : s.dev.crm.attests = [])
include ha

theorem attest_waits (h : Entry s.dev f 0x22 e) (hr : s.dev.crm.idReady = false) (hf : s.dev.crm.idFail = false) :
    ∃ t, exec (.attest f e) s = .next t ∧ t.mem = s.mem ∧ t.dev.crm = { s.dev.crm with attests := [attReq f e] } := by
  have hgo : exec (.attest f e) s = _ := hostCmd_go (attestBody f e) h
  rw [attestBody, attestAll_waits (by exact hr) (by exact hf)] at hgo
  refine ⟨_, hgo, rfl, ?_⟩
  show ({ s.dev.crm with attests := s.dev.crm.attests ++ [attReq f e] } : Crm) = _
  rw [ha, List.nil_append]

variable (hres : s.dev.reserving = false)
include hres

/-- With the identity settled, no other request waiting and no reservation under way, an ATTEST is acted on at once. -/
theorem attestBody_settled (hid : s.dev.crm.idReady = true ∨ s.dev.crm.idFail = true) :
    attestBody f e (s.dev.takeHead f (cCid e)) = (s.dev.takeHead f (cCid e)).attest1 (attReq f e) :=
  attestAll_one (d := s.dev.takeHead f (cCid e)) (attReq f e) hres hid ha

theorem attest_refused (h : Entry s.dev f 0x22 e) (hf : s.dev.crm.idFail = true) : TellsStatus s f e (.attest f e) stRefused := by
  have hno : ((s.dev.takeHead f (cCid e)).crm.idFail || decide (leafCount ≤ (s.dev.takeHead f (cCid e)).crm.leafNext)) = true :=
    Bool.or_eq_true_iff.mpr (.inl hf)
  exact tellsStatus_of_body (body := attestBody f e) rfl h ((attestBody_settled ha hres (.inr hf)).trans (if_pos hno))

variable (hr : s.dev.crm.idReady = true) (hf : s.dev.crm.idFail = false) (hleaf : s.dev.crm.leafNext < leafCount)
  (hlen : attLength s.dev.attEnts.length ≤ cLen e)
include hr hf hleaf hlen

/-- With an identity, a leaf and room for it a report is signed, or its leaf reserved first. -/
theorem attestBody_report : attestBody f e (s.dev.takeHead f (cCid e)) =
    if s.dev.crm.leafNext < s.dev.crm.reservedEnd then (s.dev.takeHead f (cCid e)).signReport (attReq f e)
    else (s.dev.takeHead f (cCid e)).nvAsk needSpi (.leaf (attReq f e)) := by
  have hno : ¬((s.dev.takeHead f (cCid e)).crm.idFail || decide (leafCount ≤ (s.dev.takeHead f (cCid e)).crm.leafNext)) = true := by
    rw [Bool.or_eq_true_iff, decide_eq_true_iff, not_or]
    exact ⟨fun h => Bool.false_ne_true (hf.symm.trans h), Nat.not_le.mpr hleaf⟩
  have hroom : ¬(attReq f e).len < attLength (s.dev.takeHead f (cCid e)).attEnts.length := Nat.not_lt.mpr hlen
  rw [attestBody_settled ha hres (.inl hr), Dev.attest1]
  simp only [if_neg hno, if_neg hroom]
  rfl

theorem attest_reserves (h : Entry s.dev f 0x22 e) (hend : s.dev.crm.reservedEnd ≤ s.dev.crm.leafNext) :
    AsksWrite s (.attest f e) needSpi (.leaf (attReq f e)) :=
  asksWrite_of_body (body := attestBody f e) rfl h (by rw [attestBody_report ha hres hr hf hleaf hlen, if_neg (Nat.not_lt.mpr hend)])

theorem attest_signs (h : Entry s.dev f 0x22 e) (hend : s.dev.crm.leafNext < s.dev.crm.reservedEnd) :
    ∃ t l, exec (.attest f e) s = .next t ∧ t.mem = s.mem ∧ Answered s t f e 0 (attLength s.dev.attEnts.length) ∧
      t.dev.crm.leafNext = s.dev.crm.leafNext + 1 ∧ .hostWrite f (cAddr e) l ∈ t.dev.out ∧ l.length = attLength s.dev.attEnts.length := by
  have hbody := attestBody_report (f := f) ha hres hr hf hleaf hlen
  rw [if_pos hend, Dev.signReport] at hbody
  obtain ⟨fs, o, ht, hout, hans⟩ := hostCmd_answers h hbody rfl
  have hlength := attBody_length (s.dev.takeHead f (cCid e)) (attReq f e).nonce
  refine ⟨_, _, ht, rfl, ?_, rfl, hout (List.mem_cons_self ..), ?_⟩
  · rw [hlength] at hans; exact hans
  · rw [List.length_append, padTo_length]; exact hlength

end Attest

/-! ### Retirement, the distance table (R19, R40) -/

/-- The rows a column keeps when a position is retired, those being retired counted as gone (R19). -/
def Dev.rowsLeft (d : Dev) (pos : Nat) : List Nat :=
  (d.goodRows (pos % 32)).filter (fun y => y ≠ pos / 32 && !(d.retiring (pos % 32)).contains y)

/-- What RETIRE does to the device. -/
def retireBody (f : FnId) (e : BitVec 512) (d : Dev) : Dev :=
  if 832 ≤ cArg0 e then d.answer f e stInvalid
  else if (d.rowsLeft (cArg0 e)).length < 24 then d.answer f e stRefused
  else d.nvAsk needSpi (.retire f (cCid e) (cArg0 e))

section Retire

variable {s : State} {f : FnId} {e : BitVec 512} (h : Entry s.dev f 0x23 e)
include h

theorem retire_invalid (hp : 832 ≤ cArg0 e) : TellsStatus s f e (.retire f e) stInvalid :=
  tellsStatus_of_body (body := retireBody f e) rfl h (if_pos hp)

theorem retire_refused (hp : cArg0 e < 832) (hl : (s.dev.rowsLeft (cArg0 e)).length < 24) : TellsStatus s f e (.retire f e) stRefused :=
  tellsStatus_of_body (body := retireBody f e) rfl h ((if_neg (Nat.not_le.mpr hp)).trans (if_pos hl))

theorem retire_asks (hp : cArg0 e < 832) (hl : 24 ≤ (s.dev.rowsLeft (cArg0 e)).length) :
    AsksWrite s (.retire f e) needSpi (.retire f (cCid e) (cArg0 e)) :=
  asksWrite_of_body (body := retireBody f e) rfl h ((if_neg (Nat.not_le.mpr hp)).trans (if_neg (Nat.not_lt.mpr hl)))

end Retire

/-- What DISTANCE does to the device. -/
def distanceBody (f : FnId) (e : BitVec 512) (d : Dev) : Dev :=
  if cLen e < 1204288 then d.answer f e stInvalid else (d.emit (.hostWrite f (cAddr e) d.distanceTable)).answer f e stOk

theorem distance_short {s : State} {f : FnId} {e : BitVec 512} (h : Entry s.dev f 0x24 e) (hl : cLen e < 1204288) :
    TellsStatus s f e (.distance f e) stInvalid :=
  tellsStatus_of_body (body := distanceBody f e) rfl h (if_pos hl)

theorem distance_sends {s : State} {f : FnId} {e : BitVec 512} (h : Entry s.dev f 0x24 e) (hl : 1204288 ≤ cLen e) :
    SendsBytes s f e (.distance f e) s.dev.distanceTable :=
  sendsBytes_of_body (body := distanceBody f e) rfl h rfl (if_neg (Nat.not_lt.mpr hl))

/-! ### The Cave (R300 to R303) -/

/-- What CAVE_READ does to the device. -/
def caveReadBody (cave : Memory) (f : FnId) (e : BitVec 512) (d : Dev) : Dev :=
  if d.flash.ready then d.caveRead cave f e else d.holdCmd f e none

/-- What CAVE_WRITE does to the device. -/
def caveWriteBody (f : FnId) (e : BitVec 512) (data : Option (List Byte)) (d : Dev) : Dev :=
  if d.flash.ready then d.caveWrite f e data else d.holdCmd f e data

section CaveCommands

variable {s : State} {f : FnId} {e : BitVec 512} (hready : s.dev.flash.ready = true)
include hready

theorem caveRead_invalid (h : Entry s.dev f 0x25 e) (hok : caveCmdOk e = false) : TellsStatus s f e (.caveRead f e) stInvalid :=
  tellsStatus_of_body (body := caveReadBody s.cave f e) rfl h ((if_pos hready).trans (if_pos (by rw [hok]; rfl)))

theorem caveRead_sends (h : Entry s.dev f 0x25 e) (hok : caveCmdOk e = true) :
    SendsBytes s f e (.caveRead f e) (s.cave.bytes (cArg0 e) (cLen e)) :=
  sendsBytes_of_body (body := caveReadBody s.cave f e) rfl h
    (d := { s.dev.takeHead f (cCid e) with flash := { s.dev.flash with rdBytes := s.dev.flash.rdBytes + BitVec.ofNat 64 (cLen e) } }) rfl
    ((if_pos hready).trans (if_neg (by rw [hok]; decide)))

variable {bs : List Byte} (hok : caveCmdOk e = true) (hl : bs.length = cLen e)
include hok hl

/-- CAVE_WRITE of as many bytes as it says, check by check. -/
theorem caveWriteBody_eq : caveWriteBody f e (some bs) (s.dev.takeHead f (cCid e)) =
    if s.dev.pinned (cArg0 e) (cLen e) then (s.dev.takeHead f (cCid e)).answer f e stCavePinned
    else if s.dev.flash.worn then (s.dev.takeHead f (cCid e)).answer f e stRefused
    else if cLen e = 0 then (s.dev.takeHead f (cCid e)).answer f e stOk
    else (s.dev.takeHead f (cCid e)).nvAsk needCave (.caveWrite f (cCid e) (cArg0 e) bs) := by
  have hready : (s.dev.takeHead f (cCid e)).flash.ready = true := hready
  simp only [caveWriteBody, hready, if_true, Dev.caveWrite, hok, hl, Bool.not_true, ne_eq, not_true, Bool.false_eq_true, if_false]
  rfl

theorem caveWrite_pinned (h : Entry s.dev f 0x26 e) (hp : s.dev.pinned (cArg0 e) (cLen e) = true) :
    TellsStatus s f e (.caveWrite f e (some bs)) stCavePinned :=
  tellsStatus_of_body (body := caveWriteBody f e (some bs)) rfl h (by rw [caveWriteBody_eq hready hok hl, if_pos hp]; rfl)

theorem caveWrite_asks (h : Entry s.dev f 0x26 e) (hp : s.dev.pinned (cArg0 e) (cLen e) = false) (hw : s.dev.flash.worn = false)
    (hbs : bs ≠ []) :
    AsksWrite s (.caveWrite f e (some bs)) needCave (.caveWrite f (cCid e) (cArg0 e) bs) := by
  have hlen : cLen e ≠ 0 := hl ▸ fun h0 => hbs (List.length_eq_zero_iff.mp h0)
  refine asksWrite_of_body (body := caveWriteBody f e (some bs)) rfl h ?_
  rw [caveWriteBody_eq hready hok hl, hp, hw, if_neg Bool.false_ne_true, if_neg Bool.false_ne_true, if_neg hlen]

end CaveCommands

/-! ### The Turn's priority (R222) -/

/-- What TURN_PRIO does to the device. -/
def turnPrioBody (f : FnId) (e : BitVec 512) (d : Dev) : Dev :=
  if 256 ≤ cArg0 e then d.answer f e stInvalid else (d.setPrio (cArg0 e)).answer f e stOk

theorem turnPrio_invalid {s : State} {f : FnId} {e : BitVec 512} (h : Entry s.dev f 0x27 e) (hv : 256 ≤ cArg0 e) :
    TellsStatus s f e (.turnPrio f e) stInvalid :=
  tellsStatus_of_body (body := turnPrioBody f e) rfl h (if_pos hv)

/-- A priority in range is taken; the Turn does not move. -/
theorem turnPrio_sets {s : State} {f : FnId} {e : BitVec 512} (h : Entry s.dev f 0x27 e) (hv : cArg0 e < 256) :
    ∃ t, exec (.turnPrio f e) s = .next t ∧ t.mem = s.mem ∧ Answered s t f e 0 0 ∧ t.dev.turn.prio.toNat = cArg0 e ∧
      t.dev.turn.units = s.dev.turn.units := by
  have hbody : turnPrioBody f e (s.dev.takeHead f (cCid e)) = ((s.dev.takeHead f (cCid e)).setPrio (cArg0 e)).complete f (cCid e) stOk 0 :=
    if_neg (Nat.not_le.mpr hv)
  obtain ⟨fs, o, ht, -, hans⟩ := hostCmd_answers h hbody rfl
  exact ⟨_, ht, rfl, hans, Nat.mod_eq_of_lt hv, rfl⟩

/-! ### Host channels (R176) -/

/-- The channel that an OPEN_CHAN opens under the number n. -/
def newChan (f : FnId) (e : BitVec 512) (n : Nat) : Chan :=
  ⟨cPtag e, cArg0 e, n, f, cAddr e, cLen e, bit (cFlags e) 0, bit (cFlags e) 1, false⟩

/-- What OPEN_CHAN does to the device. -/
def openChanBody (f : FnId) (e : BitVec 512) (d : Dev) : Dev :=
  if 4 ≤ cFlags e ∨ 16 ≤ cPtag e ∨ 256 ≤ cArg0 e ∨ cAddr e % 4096 ≠ 0 ∨ cLen e % 4096 ≠ 0 then d.answer f e stInvalid
  else if (d.logicalChan (cPtag e) (cArg0 e)).isSome then d.answer f e stAlready
  else
    match d.freeChan (cPtag e) with
    | none => d.answer f e stRefused
    | some n =>
      ({ d with chans := d.chans.filter (fun (x : Chan) => !(x.part == cPtag e && x.chan == n)) ++ [newChan f e n], free := d.free + 1 }).complete
        f (cCid e) stOk n

section OpenChan

variable {s : State} {f : FnId} {e : BitVec 512} (h : Entry s.dev f 0x30 e) (hf : cFlags e < 4) (hp : cPtag e < 16) (hc : cArg0 e < 256)
  (ha : cAddr e % 4096 = 0) (hl : cLen e % 4096 = 0)
include h hf hp hc ha hl

theorem openChan_already (ho : (s.dev.logicalChan (cPtag e) (cArg0 e)).isSome = true) : TellsStatus s f e (.openChan f e) stAlready :=
  tellsStatus_of_body (body := openChanBody f e) rfl h ((if_neg (by omega)).trans (if_pos ho))

theorem openChan_opens {n : Nat} (ho : s.dev.logicalChan (cPtag e) (cArg0 e) = none) (hn : s.dev.freeChan (cPtag e) = some n) :
    ∃ t, exec (.openChan f e) s = .next t ∧ t.mem = s.mem ∧ Answered s t f e 0 n ∧ newChan f e n ∈ t.dev.chans := by
  have hno : ¬((s.dev.takeHead f (cCid e)).logicalChan (cPtag e) (cArg0 e)).isSome = true := by
    show ¬(s.dev.logicalChan (cPtag e) (cArg0 e)).isSome = true
    simp [ho]
  have hn : (s.dev.takeHead f (cCid e)).freeChan (cPtag e) = some n := hn
  have hbody : openChanBody f e (s.dev.takeHead f (cCid e)) = _ := (if_neg (by omega)).trans (if_neg hno)
  simp only [hn] at hbody
  obtain ⟨fs, o, ht, -, hans⟩ := hostCmd_answers h hbody rfl
  exact ⟨_, ht, rfl, hans, List.mem_append_right _ (List.mem_singleton_self _)⟩

end OpenChan

/-- Is a channel the open one that a CLOSE_CHAN names? -/
def closes (f : FnId) (e : BitVec 512) (c : Chan) : Bool := c.part == cPtag e && c.chan == cArg0 e && c.fn == f.val && !c.down

theorem closes_iff {f : FnId} {e : BitVec 512} {c : Chan} :
    closes f e c = true ↔ c.part = cPtag e ∧ c.chan = cArg0 e ∧ c.fn = f.val ∧ c.down = false := by
  simp [closes, and_assoc]

/-- What CLOSE_CHAN does to the device. -/
def closeChanBody (f : FnId) (e : BitVec 512) (d : Dev) : Dev :=
  if d.chans.any (closes f e) then ({ d with chans := d.chans.filter (fun c => !closes f e c) } : Dev).answer f e stOk
  else d.answer f e stNotFound

theorem closeChan_absent {s : State} {f : FnId} {e : BitVec 512} (h : Entry s.dev f 0x31 e) (hno : s.dev.chans.any (closes f e) = false) :
    TellsStatus s f e (.closeChan f e) stNotFound :=
  tellsStatus_of_body (body := closeChanBody f e) rfl h (if_neg (fun hc => Bool.false_ne_true (hno.symm.trans hc)))

theorem closeChan_closes {s : State} {f : FnId} {e : BitVec 512} (h : Entry s.dev f 0x31 e) (hany : s.dev.chans.any (closes f e) = true) :
    ∃ t, exec (.closeChan f e) s = .next t ∧ t.mem = s.mem ∧ Answered s t f e 0 0 ∧
      ∀ x, x ∈ t.dev.chans ↔ x ∈ s.dev.chans ∧ ¬ closes f e x = true := by
  have hbody : closeChanBody f e (s.dev.takeHead f (cCid e)) = _ := if_pos hany
  obtain ⟨fs, o, ht, -, hans⟩ := hostCmd_answers h hbody rfl
  refine ⟨_, ht, rfl, hans, fun x => ?_⟩
  exact List.mem_filter.trans (and_congr_right' (by simp))

/-- Settles O46: command by command, each clause a case of its body stated above. -/
theorem deviceCommands : Obligations.DeviceCommands := by
  intro f e bs s d c tells asks sends key
  refine ⟨?install, ?remove, ?attest, ?retire, ?distance, ?caveRead, ?caveWrite, ?prio, ?openChan, ?closeChan⟩
  case install =>
    intro h hf hload hl
    exact ⟨keyInstall_badOid h hf hload hl, fun ho hnew => ⟨keyInstall_full h hf hload hl ho hnew,
      fun hroom hp => keyInstall_persist h hf hload hl ho hnew hroom hp, fun hroom hp => keyInstall_volatile h hf hload hl ho hnew hroom hp⟩⟩
  case remove =>
    intro h hl
    exact ⟨keyRemove_absent hl h, fun k hk => ⟨keyRemove_persisted hl hk h, keyRemove_volatile hl hk h⟩⟩
  case attest =>
    intro h ha hres r
    exact ⟨attest_waits ha h, attest_refused ha hres h, fun hr hf hleaf hlen =>
      ⟨attest_reserves ha hres hr hf hleaf hlen h, attest_signs ha hres hr hf hleaf hlen h⟩⟩
  case retire => exact fun h => ⟨retire_invalid h, retire_refused h, retire_asks h⟩
  case distance => exact fun h => ⟨distance_short h, distance_sends h⟩
  case caveRead => exact fun h hready => ⟨caveRead_invalid hready h, caveRead_sends hready h⟩
  case caveWrite =>
    exact fun h hready hok hl => ⟨caveWrite_pinned hready hok hl h, caveWrite_asks hready hok hl h⟩
  case prio => exact fun h => ⟨turnPrio_invalid h, turnPrio_sets h⟩
  case openChan =>
    exact fun h hf hp hc ha hl => ⟨openChan_already h hf hp hc ha hl, fun n ho hn => openChan_opens h hf hp hc ha hl ho hn⟩
  case closeChan =>
    intro h mine
    have hmine : ∀ x, mine x ↔ closes f e x = true := fun x => closes_iff.symm
    refine ⟨fun hno => closeChan_absent h ?_, fun ⟨x, hx, hm⟩ => ?_⟩
    · exact List.any_eq_false.mpr fun x hx hc => hno x hx ((hmine x).mpr hc)
    · simp only [hmine]
      exact closeChan_closes h (List.any_eq_true.mpr ⟨x, hx, (hmine x).mp hm⟩)

end Sys2Proof.Machine

/-! ## Start-up, recovery and resets -/

namespace Sys2Proof.Machine

/-- A table with an entry for each key of a list reads that entry, and the default elsewhere. -/
theorem lk_map_keys {α : Type} (z : α) (g : Nat → α) (k : Nat) (l : List Nat) :
    lk z (l.map (fun n => (n, g n))) k = if k ∈ l then g k else z := by
  induction l with
  | nil => rfl
  | cons n r ih =>
    by_cases h : k = n
    · simp [lk, h]
    · simp [lk, h, ih]

/-- A meaning that answers changes and memory changes, as one equation. -/
theorem liftW_of_eq {f : Memory → Memory → Dev → Dev × List MemOp} {s : State} {d : Dev} {w : List MemOp} (h : f s.mem s.cave s.dev = (d, w)) :
    liftW f s = .next { s with dev := d, mem := memAll s.mem w, cave := caveAll s.cave w } := by
  unfold liftW; rw [h]

/-- A meaning that changes the device only, as one equation. -/
theorem lift_of_eq {f : Dev → Dev} {s : State} {d : Dev} (h : f s.dev = d) : lift f s = .next { s with dev := d } := by
  unfold lift; rw [h]

/-! ### The end of device reset (R365, R393) -/

/-- The device at tick 0: the straps sampled, the Turn in LISTEN, the ROM running, every port in training. -/
def Dev.released (d : Dev) (bifur : BitVec 2) (slot : BitVec 3) : Dev :=
  { d with
    rst := false
    cyc := 0
    turn := Turn.reset
    bifur := bifur
    slot := slot
    pwr := { d.pwr with st := .run }
    crm := { d.crm with phase := .rom }
    ports := (List.range 9).map (fun (u : Nat) => (u, ({ d.port u with st := PortSt.training, step := 1 } : Port))) }

/-- The links whose PERST_Nk is released train. -/
def Dev.trainLinks (d : Dev) : Dev :=
  (List.range 4).foldl (fun d f =>
    let x := d.func f
    if x.perst then d else (d.setFunc f { x with linkUp := d.linkOf f }).unmask 2 (4 + f)) d

theorem trainLinks_eq (d : Dev) : ∃ fs as, d.trainLinks = { d with funcs := fs, arbs := as } := by
  unfold Dev.trainLinks
  refine List.foldlRecOn (motive := fun e : Dev => ∃ (fs : SMap Func) (as : SMap Arb), e = { d with funcs := fs, arbs := as }) _ _ ⟨d.funcs, d.arbs, rfl⟩ ?_
  rintro _ ⟨fs, as, rfl⟩ f -
  dsimp only
  split
  · exact ⟨fs, as, rfl⟩
  · exact ⟨_, _, rfl⟩

theorem exec_deviceResetEnd {s : State} (b : BitVec 2) (l : BitVec 3) (hr : s.dev.rst = true) (hstop : s.dev.pwr.stopRan = false)
    (hen : s.dev.pwr.enable = true) (hsw : s.dev.pwr.switch = true) (hovp : s.dev.pwr.ovp = false)
    (hst : s.dev.pwr.st = .standby ∨ s.dev.pwr.st = .run) :
    exec (.deviceResetEnd b l) s = .next { s with dev := (s.dev.released b l).trainLinks } := by
  have hst : (s.dev.pwr.st == .standby || s.dev.pwr.st == .run) = true := by simpa using hst
  have hgo : ¬((!s.dev.rst || s.dev.pwr.stopRan || !s.dev.pwr.enable || !s.dev.pwr.switch || s.dev.pwr.ovp ||
      !(s.dev.pwr.st == .standby || s.dev.pwr.st == .run)) = true) := by
    rw [hr, hstop, hen, hsw, hovp, hst]; decide
  show execDeviceResetEnd b l s = _
  exact lift_of_eq (if_neg hgo)

theorem port_released (d : Dev) (b : BitVec 2) (l : BitVec 3) {u : Nat} (hu : u < 9) :
    (d.released b l).port u = { d.port u with st := PortSt.training, step := 1 } :=
  (lk_map_keys _ _ u _).trans (if_pos (List.mem_range.mpr hu))

/-! ### Memory BIST (R17, R18, R395) -/

/-- The device after memory BIST, before the default map is built. -/
def Dev.tested (d : Dev) (bad : List Pos) (routerFail : Bool) : Dev :=
  { d with
    crm := { d.crm with bistDone := true }
    net := { d.net with bad := bad.map (fun (p : Pos) => p.val), routerFail := routerFail, ce := [], ue := [] }
    cores := (List.range 768).map (fun (k : Nat) => (k, ({ d.core k with vec := (d.core k).vec.settle } : Core))) }

theorem exec_memoryBistEnd {s : State} (bad : List Pos) (r : Bool) (hr : s.dev.rst = false) (hb : s.dev.crm.bistDone = false) :
    exec (.memoryBistEnd bad r) s = .next { s with dev := (s.dev.tested bad r).rebuildMap, mem := s.mem.clr 0 (2 ^ 36 - 1) } := by
  have hgo : ¬((s.dev.rst || s.dev.crm.bistDone) = true) := by rw [hr, hb]; decide
  show execMemoryBistEnd bad r s = _
  exact liftW_of_eq (w := [.clr 0 (2 ^ 36 - 1)]) (if_neg hgo)

theorem tested_cores (d : Dev) (bad : List Pos) (r : Bool) : (d.tested bad r).cores =
    (List.range 768).map (fun (k : Nat) => (k, ({ d.core k with vec := (d.core k).vec.settle } : Core))) := by
  delta Dev.tested; dsimp only

theorem core_tested (d : Dev) (bad : List Pos) (r : Bool) {k : Nat} (hk : k < 768) :
    (d.tested bad r).core k = { d.core k with vec := (d.core k).vec.settle } := by
  rw [Dev.core, tested_cores, lk_map_keys, if_pos (List.mem_range.mpr hk)]

theorem core_rebuildMap (d : Dev) (k : Nat) : d.rebuildMap.core k = d.core k := rfl

/-- A position that failed its tests is not good (R17). -/
theorem goodPos_tested {d : Dev} {bad : List Pos} (r : Bool) {x : Pos} (hx : x ∈ bad) : (d.tested bad r).rebuildMap.goodPos x = false := by
  have h : ((d.tested bad r).rebuildMap.net.bad.contains x.val) = true :=
    List.contains_iff_mem.mpr (List.mem_map.mpr ⟨x, hx, rfl⟩)
  simp only [Dev.goodPos, h, Bool.not_true, Bool.false_and]

/-! ### The ROM's jump (R365, R366, R368) -/

section Rom

variable {s : State} (h b : List Byte) (hr : s.dev.rst = false) (hp : s.dev.crm.phase = .rom)
include hr hp

theorem rom_runs : ¬((s.dev.rst || s.dev.crm.phase ≠ .rom) = true) := by
  rw [hr, hp]; decide

theorem exec_romJump_recover (sfdp : Bool) (hrec : s.dev.crm.recover = true) : exec (.romJumpToFirmware sfdp h b) s = .next { s with
    dev := { s.dev with crm := { s.dev.crm with recover := false, phase := .recovery, recReason := 4, recState := 0 } } } := by
  show execRomJumpToFirmware sfdp h b s = _
  exact lift_of_eq ((if_neg (rom_runs hr hp)).trans (if_pos hrec))

variable (hrec : s.dev.crm.recover = false)
include hrec

theorem exec_romJump_noFlash : exec (.romJumpToFirmware false h b) s = .next { s with
    dev := { s.dev with crm := { s.dev.crm with phase := .recovery, recReason := 5, recState := 0 } } } := by
  show execRomJumpToFirmware false h b s = _
  exact lift_of_eq ((if_neg (rom_runs hr hp)).trans ((if_neg (by rw [hrec]; decide)).trans (if_pos rfl)))

end Rom

/-- A control flit leaves as messages. -/
theorem emits_eq (d : Dev) (l : List Out) : ∃ o, d.emits l = { d with out := o } := by
  unfold Dev.emits
  refine List.foldlRecOn (motive := fun e : Dev => ∃ o : List Out, e = { d with out := o }) _ _ ⟨d.out, rfl⟩ ?_
  rintro _ ⟨o, rfl⟩ x -
  exact ⟨_, rfl⟩

/-- Nothing but arbiters, ports and messages changed. -/
def Dev.LinksWoken (d e : Dev) : Prop := ∃ as ps o, e = { d with arbs := as, ports := ps, out := o }

theorem unmask_linksWoken {d e : Dev} (a i : Nat) (h : d.LinksWoken e) : d.LinksWoken (e.unmask a i) := by
  obtain ⟨as, ps, o, rfl⟩ := h; exact ⟨_, ps, o, rfl⟩

theorem sendIdentity_linksWoken {d e : Dev} (u : Nat) (x : Port) (h : d.LinksWoken e) : d.LinksWoken ((e.setPort u x).sendIdentity u) := by
  obtain ⟨as, ps, o, rfl⟩ := h
  obtain ⟨o', ho⟩ := emits_eq ((({ d with arbs := as, ports := ps, out := o } : Dev).setPort u x).updPort u
    (fun y => { y with idSent := some d.turn.now.toNat })) ((({ d with arbs := as, ports := ps, out := o } : Dev).setPort u x).identityOuts u none)
  exact ⟨as, _, o', ho⟩

/-- The device in which the ROM has checked an image of this header and body, result r. -/
def Dev.romChecked (d : Dev) (b : List Byte) (r : Nat) : Dev :=
  let d := { d with serial := Config.idSerial }
  if r = 0 ∨ r = 3 then { d with crm := { d.crm with sram := b } } else d

/-- The device that runs the firmware of a good image, its harts and ports not yet woken. -/
def Dev.romEntered (d : Dev) (h b : List Byte) : Dev :=
  { d with crm := { d.crm with phase := .firmware, hartsUp := true, harts := d.crm.enter (fld h 0xC 4),
                               secver := BitVec.ofNat 32 (fld h 0x10 4), fwver := BitVec.ofNat 32 (fld h 0x14 4),
                               fwDigest := fwDigestOf h b } }

/-- The requesters of harts 1 to 3 are unmasked, and the ports that have come so far exchange identities (R365, R394). -/
def Dev.wakeLinks (d : Dev) : Dev :=
  let d := [1, 2, 3].foldl (fun d i => d.unmask 2 i) d
  let d := [1, 2, 3, 4].foldl (fun d i => d.unmask 3 i) d
  (List.range 9).foldl (fun d u =>
    let x := d.port u
    if x.st = .training && x.step = 3 then (d.setPort u { x with step := 4 }).sendIdentity u else d) d

theorem wakeLinks_linksWoken (d : Dev) : d.LinksWoken d.wakeLinks := by
  have h0 : d.LinksWoken d := ⟨d.arbs, d.ports, d.out, rfl⟩
  have h2 := List.foldlRecOn (motive := d.LinksWoken) [1, 2, 3] (fun d i => d.unmask 2 i) h0 fun _ he i _ => unmask_linksWoken 2 i he
  have h3 := List.foldlRecOn (motive := d.LinksWoken) [1, 2, 3, 4] (fun d i => d.unmask 3 i) h2 fun _ he i _ => unmask_linksWoken 3 i he
  refine List.foldlRecOn (motive := d.LinksWoken) _ _ h3 fun e he u _ => ?_
  dsimp only
  split
  · exact sendIdentity_linksWoken u _ he
  · exact he

/-- The ROM checks an image, and runs it or goes to recovery with the reason. -/
def Dev.romLoads (d : Dev) (h b : List Byte) : Dev :=
  let r := fwCheck h b
  if r ≠ 0 then (d.romChecked b r).recover r else ((d.romChecked b r).romEntered h b).wakeLinks

/-- With flash that answers and no image programmed since, the ROM loads the image of the flash. -/
theorem exec_romJump_checks {s : State} (h b : List Byte) (hr : s.dev.rst = false) (hp : s.dev.crm.phase = .rom)
    (hrec : s.dev.crm.recover = false) (him : s.dev.crm.spiImage = none) :
    exec (.romJumpToFirmware true h b) s = .next { s with dev := s.dev.romLoads h b } := by
  show execRomJumpToFirmware true h b s = _
  refine lift_of_eq ((if_neg (rom_runs hr hp)).trans ((if_neg (by rw [hrec]; decide)).trans ((if_neg (by decide)).trans ?_)))
  show s.dev.romLoads (s.dev.crm.spiImage.elim h (fun x => x.take 4096))
    (s.dev.crm.spiImage.elim b (fun x => (x.drop 4096).take (fld (s.dev.crm.spiImage.elim h (fun x => x.take 4096)) 8 4))) = _
  rw [him, Option.elim_none, Option.elim_none]

theorem romChecked_eq (d : Dev) (b : List Byte) (r : Nat) : ∃ m, d.romChecked b r = { d with serial := Config.idSerial, crm := { d.crm with sram := m } } ∧
    (r = 0 → m = b) := by
  unfold Dev.romChecked
  by_cases h : r = 0 ∨ r = 3
  · exact ⟨b, if_pos h, fun _ => rfl⟩
  · exact ⟨d.crm.sram, if_neg h, fun h0 => absurd (.inl h0) h⟩

/-- The ROM's jump with an image of the flash: into firmware, which is now in SRAM, or into recovery with the reason. -/
theorem romJump_checks {s : State} (h b : List Byte) (hr : s.dev.rst = false) (hp : s.dev.crm.phase = .rom)
    (hrec : s.dev.crm.recover = false) (him : s.dev.crm.spiImage = none) :
    ∃ t, exec (.romJumpToFirmware true h b) s = .next t ∧ t.mem = s.mem ∧ t.cave = s.cave ∧ t.dev.serial = Config.idSerial ∧
      t.dev.crm.phase = (if fwCheck h b = 0 then .firmware else .recovery) ∧ (fwCheck h b ≠ 0 → t.dev.crm.recReason = fwCheck h b) ∧
      (fwCheck h b = 0 → t.dev.crm.hartsUp = true ∧ t.dev.crm.sram = b ∧
        (lk Hart.reset t.dev.crm.harts 0).pc = BitVec.ofNat 64 (0x10000000 + fld h 0xC 4) ∧
        t.dev.crm.secver = BitVec.ofNat 32 (fld h 0x10 4) ∧ t.dev.crm.fwDigest = shake256 (h.take 0x80 ++ b)) := by
  obtain ⟨m, hm, hsram⟩ := romChecked_eq s.dev b (fwCheck h b)
  have hexec := exec_romJump_checks h b hr hp hrec him
  by_cases hr : fwCheck h b = 0
  · obtain ⟨as, ps, o, hwoken⟩ := wakeLinks_linksWoken ((s.dev.romChecked b (fwCheck h b)).romEntered h b)
    rw [Dev.romLoads, if_neg (not_not.mpr hr), hwoken, hm] at hexec
    rw [if_pos hr]
    exact ⟨_, hexec, rfl, rfl, rfl, rfl, fun h0 => absurd hr h0, fun _ => ⟨rfl, hsram hr, congrArg Hart.pc (lk_up_same _ _ _ _), rfl, rfl⟩⟩
  · rw [Dev.romLoads, if_pos hr, hm] at hexec
    rw [if_neg hr]
    exact ⟨_, hexec, rfl, rfl, rfl, rfl, fun _ => rfl, fun h0 => absurd h0 hr⟩

/-! ### Firmware is ready (R348, R394) -/

/-- Nothing changed but error records, pending vectors, messages and the free values used. -/
def Dev.Logged (d e : Dev) : Prop :=
  ∃ es fs o n, e = { d with errs := es, funcs := fs, out := o, free := n } ∧ ∀ g, ∃ p, lk Func.reset fs g = { d.func g with pba := p }

theorem Dev.Logged.refl (d : Dev) : d.Logged d := ⟨d.errs, d.funcs, d.out, d.free, rfl, fun _ => ⟨_, rfl⟩⟩

theorem Dev.Logged.trans {d e g : Dev} : d.Logged e → e.Logged g → d.Logged g := by
  rintro ⟨es, fs, o, n, rfl, hf⟩ ⟨es', fs', o', n', rfl, hf'⟩
  refine ⟨es', fs', o', n', rfl, fun k => ?_⟩
  obtain ⟨p, hp⟩ := hf k
  obtain ⟨q, hq⟩ := hf' k
  exact ⟨q, hq.trans (by simp only [Dev.func, hp])⟩

/-- A LOG-class record of firmware or of the clock and power unit. -/
theorem raiseDev_logged (d : Dev) (n code source : Nat) (detail : List Nat) :
    d.Logged (({ d with free := n } : Dev).raiseDev code 0 source detail) := by
  obtain ⟨es, fs, o, he, hf⟩ := raise_log (d := { d with free := n })
    (e := { code := code, cls := 0, source := source, core := 0xFFFF, pmask := 0, fpid := 0xFFFF, detail := detail }) rfl
  exact ⟨es, fs, o, n, he, hf⟩

/-- Each step of a fold over functions changes its own function alone: what it makes of each is what it makes of it alone. -/
theorem func_foldl {step : Dev → Nat → Dev} {g : Func → Func} (hself : ∀ d f, (step d f).func f = g (d.func f))
    (hother : ∀ d f n, n ≠ f → (step d f).func n = d.func n) {l : List Nat} (hl : l.Nodup) (d : Dev) (f : Nat) :
    (l.foldl step d).func f = if f ∈ l then g (d.func f) else d.func f := by
  induction l generalizing d with
  | nil => rfl
  | cons n r ih =>
    obtain ⟨hn, hr⟩ := List.nodup_cons.mp hl
    rw [List.foldl_cons, ih hr]
    by_cases h : f = n
    · subst h; simp [hn, hself]
    · simp [h, hother _ _ _ h]

/-- A function that may be is ready once firmware is (R348). -/
def Func.whenReady (x : Func) : Func := if x.perst || !x.linkUp || x.wedged || x.left.isSome then x else { x with ready := true }

theorem whenReady_ready (x : Func) : x.whenReady.ready = (x.ready || (!x.perst && x.linkUp && !x.wedged && x.left.isNone)) := by
  unfold Func.whenReady
  cases x.perst <;> cases x.linkUp <;> cases x.wedged <;> cases x.left <;> simp

/-- Every function that may be becomes ready. -/
def Dev.readyFuncs (d : Dev) : Dev :=
  (List.range 4).foldl (fun d f =>
    let x := d.func f
    if x.perst || !x.linkUp || x.wedged || x.left.isSome then d else d.setFunc f { x with ready := true }) d

theorem func_readyFuncs (d : Dev) {f : Nat} (hf : f < 4) : d.readyFuncs.func f = (d.func f).whenReady := by
  refine (func_foldl (g := Func.whenReady) (fun d f => ?_) (fun d f n hn => ?_) List.nodup_range d f).trans (if_pos (List.mem_range.mpr hf))
  · dsimp only [Func.whenReady]; split
    · rfl
    · exact Dev.func_setFunc _ _ _
  · dsimp only; split
    · rfl
    · exact Dev.func_setFunc_ne _ hn _

theorem readyFuncs_eq (d : Dev) : ∃ fs, d.readyFuncs = { d with funcs := fs } := by
  unfold Dev.readyFuncs
  refine List.foldlRecOn (motive := fun e : Dev => ∃ fs : SMap Func, e = { d with funcs := fs }) _ _ ⟨d.funcs, rfl⟩ ?_
  rintro _ ⟨fs, rfl⟩ f -
  dsimp only
  split
  · exact ⟨fs, rfl⟩
  · exact ⟨_, rfl⟩

/-- Each position that failed is recorded (log entry 27). -/
def Dev.logBad (d : Dev) : Dev :=
  d.net.bad.foldl (fun d p => ({ d with free := d.free + 1 }).raiseDev ((Config.freeValue d.free).toNat % 2 ^ 16) 0 17 [p]) d

theorem logBad_logged (d : Dev) : d.Logged d.logBad :=
  List.foldlRecOn (motive := d.Logged) _ _ (.refl d) fun e he _ _ => he.trans (raiseDev_logged e _ _ _ _)

theorem exec_fwReady {s : State} (hr : s.dev.rst = false) (hp : s.dev.crm.phase = .firmware) (hf : s.dev.crm.fwReady = false)
    (hb : s.dev.crm.bistDone = true) (hm : s.dev.pwr.measured = true) :
    exec .fwReady s = .next { s with
      dev := ({ s.dev.logBad with crm := { s.dev.logBad.crm with fwReady := true } } : Dev).readyFuncs } := by
  have hgo : ¬((s.dev.rst || s.dev.crm.phase ≠ .firmware || s.dev.crm.fwReady || !s.dev.crm.bistDone || !s.dev.pwr.measured) = true) := by
    rw [hr, hp, hf, hb, hm]; decide
  show execFwReady s = _
  exact lift_of_eq (if_neg hgo)

/-- Firmware is ready, and so is every function that may be. -/
theorem fwReady_spec {s : State} (hr : s.dev.rst = false) (hp : s.dev.crm.phase = .firmware) (hf : s.dev.crm.fwReady = false)
    (hb : s.dev.crm.bistDone = true) (hm : s.dev.pwr.measured = true) :
    ∃ t, exec .fwReady s = .next t ∧ t.mem = s.mem ∧ t.dev.crm.fwReady = true ∧
      ∀ f, f < 4 → (t.dev.func f).ready = ((s.dev.func f).ready ||
        (!(s.dev.func f).perst && (s.dev.func f).linkUp && !(s.dev.func f).wedged && (s.dev.func f).left.isNone)) := by
  refine ⟨_, exec_fwReady hr hp hf hb hm, rfl, ?_, fun f hf => ?_⟩
  · obtain ⟨fs, hfs⟩ := readyFuncs_eq { s.dev.logBad with crm := { s.dev.logBad.crm with fwReady := true } }
    exact congrArg (fun d => d.crm.fwReady) hfs
  · obtain ⟨es, fs, o, n, hlog, hfuncs⟩ := logBad_logged s.dev
    obtain ⟨p, hp⟩ := hfuncs f
    have hfun : s.dev.logBad.func f = { s.dev.func f with pba := p } := by rw [hlog]; exact hp
    refine (congrArg Func.ready (func_readyFuncs _ hf)).trans ((whenReady_ready _).trans ?_)
    show ((s.dev.logBad.func f).ready || (!(s.dev.logBad.func f).perst && (s.dev.logBad.func f).linkUp && !(s.dev.logBad.func f).wedged &&
      (s.dev.logBad.func f).left.isNone)) = _
    rw [hfun]

/-! ### The Cave, the key table and the identity (R370, R374, R396) -/

theorem runWaiting_none {d : Dev} (cave : Memory) (h : d.crm.waitCmds = []) : d.runWaiting cave = (d, []) := by
  simp only [Dev.runWaiting, h, List.filter_nil, List.foldl_nil]
  rw [← h]

theorem exec_caveReady {s : State} (n : BitVec 16) (hr : s.dev.rst = false) (hp : s.dev.crm.phase = .firmware)
    (hf : s.dev.flash.ready = false) (hm : s.dev.moulds = []) (hw : s.dev.crm.waitCmds = []) :
    exec (.caveReady n) s = .next { s with dev := { s.dev with flash := { s.dev.flash with ready := true, chFail := n } } } := by
  have hgo : ¬((s.dev.rst || s.dev.crm.phase ≠ .firmware || s.dev.flash.ready) = true) := by rw [hr, hp, hf]; decide
  show execCaveReady n s = _
  refine liftW_of_eq (w := []) ((if_neg hgo).trans ?_)
  dsimp only
  rw [hm, List.map_nil, List.foldl_nil]
  exact runWaiting_none s.cave hw

/-- The key table may have new entries and has lost none; error records, pending vectors, messages and free values aside, nothing
else changed. -/
def Dev.KeysGrown (d e : Dev) : Prop :=
  (∃ ks es fs o n, e = { d with crm := { d.crm with keys := ks }, errs := es, funcs := fs, out := o, free := n }) ∧
  ∀ g, d.crm.hasKey g = true → e.crm.hasKey g = true

theorem Dev.KeysGrown.refl (d : Dev) : d.KeysGrown d := ⟨⟨d.crm.keys, d.errs, d.funcs, d.out, d.free, rfl⟩, fun _ h => h⟩

theorem Dev.KeysGrown.trans {d e g : Dev} : d.KeysGrown e → e.KeysGrown g → d.KeysGrown g := by
  rintro ⟨⟨ks, es, fs, o, n, rfl⟩, hk⟩ ⟨⟨ks', es', fs', o', n', rfl⟩, hk'⟩
  exact ⟨⟨ks', es', fs', o', n', rfl⟩, fun g h => hk' g (hk g h)⟩

/-- A key whose digest differs is dropped with a record. -/
theorem reloadKey_differs {d : Dev} {k : KeyEnt} (h : shake256 k.key ≠ k.digest) :
    d.KeysGrown (d.reloadKey k) ∧ (d.reloadKey k).crm = d.crm := by
  rw [Dev.reloadKey, if_pos h]
  obtain ⟨es, fs, o, n, he, -⟩ := raiseDev_logged d (d.free + 1) 0x02 17 [4, (Config.freeValue d.free).toNat]
  dsimp only at he ⊢
  rw [he]
  exact ⟨⟨⟨d.crm.keys, es, fs, o, n, rfl⟩, fun _ h => h⟩, rfl⟩

theorem addKey_keysGrown (d : Dev) (k : KeyEnt) : d.KeysGrown (d.addKey k) ∧ (d.addKey k).crm.keys.length ≤ d.crm.keys.length + 1 := by
  obtain hsame | ⟨ks, i, hadd, hks⟩ := addKey_cases d k
  · rw [hsame]; exact ⟨.refl d, Nat.le_succ _⟩
  · rw [hadd]
    exact ⟨⟨⟨ks, d.errs, d.funcs, d.out, d.free + 1, rfl⟩, (hasKey_of_perm (c' := { d.crm with keys := ks }) hks).2⟩, hks.length_eq.le⟩

theorem reloadKey_keysGrown (d : Dev) (k : KeyEnt) :
    d.KeysGrown (d.reloadKey k) ∧ (d.reloadKey k).crm.keys.length ≤ d.crm.keys.length + 1 := by
  by_cases hdig : shake256 k.key = k.digest
  · by_cases hold : d.crm.hasKey k.digest = true
    · rw [Dev.reloadKey, if_neg (not_not.mpr hdig), if_pos hold]; exact ⟨.refl d, Nat.le_succ _⟩
    · rw [Dev.reloadKey, if_neg (not_not.mpr hdig), if_neg hold]; exact addKey_keysGrown d k
  · obtain ⟨hgrown, hcrm⟩ := reloadKey_differs (d := d) hdig
    exact ⟨hgrown, hcrm ▸ Nat.le_succ _⟩

/-- With room in the table a key of the right digest is in it afterwards. -/
theorem hasKey_reloadKey {d : Dev} {k : KeyEnt} (hroom : d.crm.keys.length < 16) (hdig : shake256 k.key = k.digest) :
    (d.reloadKey k).crm.hasKey k.digest = true := by
  by_cases hold : d.crm.hasKey k.digest = true
  · rw [Dev.reloadKey, if_neg (not_not.mpr hdig), if_pos hold]; exact hold
  · obtain ⟨ks, i, hadd, hks⟩ := addKey_room k hroom
    rw [Dev.reloadKey, if_neg (not_not.mpr hdig), if_neg hold, hadd]
    exact (hasKey_of_perm (c' := { d.crm with keys := ks }) hks).1

theorem reloadKeys_spec (l : List KeyEnt) (d : Dev) : d.KeysGrown (l.foldl Dev.reloadKey d) ∧
    (l.length + d.crm.keys.length ≤ 16 → ∀ k ∈ l, shake256 k.key = k.digest → (l.foldl Dev.reloadKey d).crm.hasKey k.digest = true) := by
  induction l generalizing d with
  | nil => exact ⟨.refl d, fun _ k hk => absurd hk List.not_mem_nil⟩
  | cons k r ih =>
    obtain ⟨hfirst, hlen⟩ := reloadKey_keysGrown d k
    obtain ⟨hrest, hall⟩ := ih (d.reloadKey k)
    refine ⟨hfirst.trans hrest, fun hroom x hx hdig => ?_⟩
    rw [List.length_cons] at hroom
    obtain rfl | hx := List.mem_cons.mp hx
    · exact hrest.2 _ (hasKey_reloadKey (by omega) hdig)
    · exact hall (by omega) x hx hdig

/-- What goes on once the persisted keys are in the table. -/
def Dev.keysIn (d : Dev) (cave : Memory) : Dev × List MemOp :=
  let a := d.loads.foldl (fun (a : Dev × List MemOp) l =>
    let r := a.1.checkLoad l
    (r.1, a.2 ++ r.2)) (d, [])
  let d := (a.1.moulds.map (fun m => m.pmask)).foldl (fun d pm => d.checkManifest pm) a.1
  let r := d.runWaiting cave
  (r.1, a.2 ++ r.2)

theorem keysIn_none {d : Dev} (cave : Memory) (hl : d.loads = []) (hm : d.moulds = []) (hw : d.crm.waitCmds = []) :
    d.keysIn cave = (d, []) := by
  simp only [Dev.keysIn, hl, List.foldl_nil, hm, List.map_nil, runWaiting_none cave hw, List.append_nil]

/-- The persisted keys are in the table. -/
def Dev.keysReloaded (d : Dev) : Dev :=
  { d.flash.sysKeys.foldl Dev.reloadKey d with crm := { (d.flash.sysKeys.foldl Dev.reloadKey d).crm with keysLoaded := true } }

theorem exec_keyReloadEnd {s : State} (hr : s.dev.rst = false) (hp : s.dev.crm.phase = .firmware) (hf : s.dev.flash.ready = true)
    (hk : s.dev.crm.keysLoaded = false) (hl : s.dev.loads = []) (hm : s.dev.moulds = []) (hw : s.dev.crm.waitCmds = []) :
    exec .keyReloadEnd s = .next { s with dev := s.dev.keysReloaded } := by
  have hgo : ¬((s.dev.rst || s.dev.crm.phase ≠ .firmware || !s.dev.flash.ready || s.dev.crm.keysLoaded) = true) := by
    rw [hr, hp, hf, hk]; decide
  obtain ⟨⟨⟨ks, es, fs, o, n, hkeys⟩, -⟩, -⟩ := reloadKeys_spec s.dev.flash.sysKeys s.dev
  show execKeyReloadEnd s = _
  refine liftW_of_eq (w := []) ((if_neg hgo).trans ?_)
  show s.dev.keysReloaded.keysIn s.cave = _
  apply keysIn_none <;> rw [Dev.keysReloaded, hkeys] <;> assumption

theorem attestAll_none {d : Dev} (h : d.crm.attests = []) : d.attestAll = d := by
  rw [Dev.attestAll, h]; rfl

theorem exec_identityReady {s : State} (ok : Bool) (hr : s.dev.rst = false) (hf : s.dev.crm.fwReady = true)
    (hi : s.dev.crm.idReady = false) (hx : s.dev.crm.idFail = false) (ha : s.dev.crm.attests = []) :
    exec (.identityReady ok) s = .next { s with
      dev := { s.dev with
        crm := { s.dev.crm with idReady := ok, idFail := !ok, leafNext := if ok then s.dev.crm.reservedEnd else 0 } } } := by
  have hgo : ¬((s.dev.rst || !s.dev.crm.fwReady || s.dev.crm.idReady || s.dev.crm.idFail) = true) := by rw [hr, hf, hi, hx]; decide
  show execIdentityReady ok s = _
  exact lift_of_eq ((if_neg hgo).trans (attestAll_none ha))

/-! ### Recovery (R366) -/

/-- An image passes recovery's checks: it is as long as its owner and its header say, and the ROM would run it. -/
def RecGood (c : Crm) (im : List Byte) : Prop :=
  im.length = c.recLen.toNat ∧ im.length = 4096 + fld (im.take 4096) 8 4 ∧ fwCheck (im.take 4096) (im.drop 4096) = 0

section Recovery

variable {s : State} (f : FnId) (hr : s.dev.rst = false) (hp : s.dev.crm.phase = .recovery)
  (hst : s.dev.crm.recState = 0 ∨ s.dev.crm.recState = 5) (hup : (s.dev.func f).linkUp = true)
include hr hp hst hup

theorem recovery_takes : ¬((s.dev.rst || s.dev.crm.phase ≠ .recovery || !(s.dev.crm.recState = 0 || s.dev.crm.recState = 5) ||
    !(s.dev.func f).linkUp) = true) := by
  rw [hr, hp, hup]
  obtain h | h := hst <;> rw [h] <;> decide

theorem exec_recGo_unread : exec (.recGo f none) s = .next { s with
    dev := { s.dev with crm := { s.dev.crm with recOwner := f, recState := 5, recReason := 6 } } } := by
  show execRecGo f none s = _
  exact lift_of_eq (if_neg (recovery_takes f hr hp hst hup))

theorem exec_recGo_good {im : List Byte} (hgood : RecGood s.dev.crm im) : exec (.recGo f (some im)) s = .next { s with
    dev := ({ s.dev with
      crm := { s.dev.crm with sram := im.take 0x200000, recOwner := f, recState := 3, spiImage := some [] } } : Dev).nvAsk needSpi
        (.recProgram (2 * cdiv im.length 65536 - 1) im) } := by
  obtain ⟨hlen, hhdr, hfw⟩ := hgood
  have hok : ¬((!((some im).isSome && im.length == s.dev.crm.recLen.toNat && im.length == 4096 + fld (im.take 4096) 8 4 &&
      fwCheck (im.take 4096) (im.drop 4096) == 0)) = true) := by
    rw [hfw, ← hlen, ← hhdr]; simp
  show execRecGo f (some im) s = _
  exact lift_of_eq ((if_neg (recovery_takes f hr hp hst hup)).trans (if_neg hok))

theorem exec_recGo_bad {im : List Byte} (hbad : ¬ RecGood s.dev.crm im) : exec (.recGo f (some im)) s = .next { s with
    dev := { s.dev with
      crm := { s.dev.crm with sram := im.take 0x200000, recOwner := f, recState := 5, recReason := 6 } } } := by
  have hok : (!((some im).isSome && im.length == s.dev.crm.recLen.toNat && im.length == 4096 + fld (im.take 4096) 8 4 &&
      fwCheck (im.take 4096) (im.drop 4096) == 0)) = true :=
    (Bool.not_eq_true' _).mpr (Bool.eq_false_iff.mpr fun h => hbad (by simpa [RecGood, and_assoc] using h))
  show execRecGo f (some im) s = _
  exact lift_of_eq ((if_neg (recovery_takes f hr hp hst hup)).trans (if_pos hok))

end Recovery

/-! ### Resets of the device (R347) -/

theorem fullReset_restarted (s : State) (cause : Nat) : Restarted s { s with dev := s.dev.fullReset cause } cause :=
  ⟨rfl, rfl, rfl, rfl, rfl, rfl, rfl, rfl, rfl, rfl, rfl, rfl, rfl, rfl⟩

theorem exec_modRstNAssert {s : State} (hoff : s.dev.pwr.st ≠ .off) (hstop : s.dev.pwr.stopRan = false) :
    exec .modRstNAssert s = .next { s with dev := s.dev.fullReset 2 } := by
  have hgo : ¬((s.dev.pwr.st = .off || s.dev.pwr.stopRan) = true) := by rw [hstop]; simpa using hoff
  show execModRstNAssert s = _
  exact lift_of_eq (if_neg hgo)

theorem exec_hifReset_key {s : State} (f : FnId) (hr : s.dev.rst = false) (hp : s.dev.crm.phase ≠ .recovery)
    (hup : (s.dev.func f).linkUp = true) : exec (.hifReset f 0x4D525354) s = .next { s with dev := s.dev.fullReset 3 } := by
  have hgo : ¬((s.dev.rst || s.dev.crm.phase = .recovery || !(s.dev.func f).linkUp || (0x4D525354 : BitVec 32) ≠ 0x4D525354) = true) := by
    rw [hr, hup]; simpa using hp
  show execHifReset f 0x4D525354 s = _
  exact lift_of_eq (if_neg hgo)

theorem exec_hifReset_other (s : State) (f : FnId) {v : BitVec 32} (hv : v ≠ 0x4D525354) : exec (.hifReset f v) s = .next s := by
  have hgo : (s.dev.rst || s.dev.crm.phase = .recovery || !(s.dev.func f).linkUp || v ≠ 0x4D525354) = true := by
    rw [decide_eq_true hv, Bool.or_true]
  show execHifReset f v s = _
  exact lift_of_eq (if_pos hgo)

/-! ### The statement -/

/-- The end of device reset is tick 0: the ROM runs and every port is at training step 1. -/
theorem deviceResetEnd_spec {s : State} (b : BitVec 2) (l : BitVec 3) (hr : s.dev.rst = true) (hstop : s.dev.pwr.stopRan = false)
    (hen : s.dev.pwr.enable = true) (hsw : s.dev.pwr.switch = true) (hovp : s.dev.pwr.ovp = false)
    (hst : s.dev.pwr.st = .standby ∨ s.dev.pwr.st = .run) :
    ∃ t, exec (.deviceResetEnd b l) s = .next t ∧ t.mem = s.mem ∧ t.dev.rst = false ∧ t.dev.turn = Turn.reset ∧ t.dev.bifur = b ∧
      t.dev.slot = l ∧ t.dev.pwr.st = .run ∧ t.dev.crm.phase = .rom ∧
      ∀ u, u < 9 → (t.dev.port u).st = .training ∧ (t.dev.port u).step = 1 := by
  obtain ⟨fs, as, hlinks⟩ := trainLinks_eq (s.dev.released b l)
  have hexec := exec_deviceResetEnd b l hr hstop hen hsw hovp hst
  rw [hlinks] at hexec
  refine ⟨_, hexec, rfl, rfl, rfl, rfl, rfl, rfl, rfl, fun u hu => ?_⟩
  have hport := port_released s.dev b l hu
  exact ⟨congrArg Port.st hport, congrArg Port.step hport⟩

/-- Memory BIST leaves memory 0, the failed positions out of use and the vector engines out of start-up starter mode. -/
theorem memoryBistEnd_spec {s : State} (bad : List Pos) (r : Bool) (hr : s.dev.rst = false) (hb : s.dev.crm.bistDone = false) :
    ∃ t, exec (.memoryBistEnd bad r) s = .next t ∧ (∀ a, a < 2 ^ 34 → t.mem.rd a = 0) ∧ t.cave = s.cave ∧
      t.dev.crm.bistDone = true ∧ (∀ x ∈ bad, t.dev.goodPos x = false) ∧
      ∀ k, k < 768 → (t.dev.core k).vec.mode = (if (s.dev.core k).vec.starter then 2 else 0) := by
  refine ⟨_, exec_memoryBistEnd bad r hr hb, fun a ha => Memory.rd_clr_in ⟨Nat.zero_le _, by omega⟩ _, rfl, rfl,
    fun x hx => goodPos_tested r hx, fun k hk => ?_⟩
  rw [core_rebuildMap, core_tested s.dev bad r hk, Vector.settle]

/-- The persisted keys whose digests hold are in the table, which has lost none. -/
theorem keyReloadEnd_spec {s : State} (hr : s.dev.rst = false) (hp : s.dev.crm.phase = .firmware) (hf : s.dev.flash.ready = true)
    (hk : s.dev.crm.keysLoaded = false) (hl : s.dev.loads = []) (hm : s.dev.moulds = []) (hw : s.dev.crm.waitCmds = []) :
    ∃ t, exec .keyReloadEnd s = .next t ∧ t.mem = s.mem ∧ t.cave = s.cave ∧ t.dev.crm.keysLoaded = true ∧
      (∀ g, s.dev.crm.hasKey g = true → t.dev.crm.hasKey g = true) ∧
      (s.dev.flash.sysKeys.length + s.dev.crm.keys.length ≤ 16 → ∀ k ∈ s.dev.flash.sysKeys, shake256 k.key = k.digest →
        t.dev.crm.hasKey k.digest = true) := by
  obtain ⟨⟨-, hkept⟩, hall⟩ := reloadKeys_spec s.dev.flash.sysKeys s.dev
  exact ⟨_, exec_keyReloadEnd hr hp hf hk hl hm hw, rfl, rfl, rfl, hkept, hall⟩

/-- A recovery image that was read is programmed when it passes, and is refused with reason 6 when it does not. -/
theorem recGo_spec {s : State} (f : FnId) (hr : s.dev.rst = false) (hp : s.dev.crm.phase = .recovery)
    (hst : s.dev.crm.recState = 0 ∨ s.dev.crm.recState = 5) (hup : (s.dev.func f).linkUp = true) (im : List Byte) :
    ∃ t, exec (.recGo f (some im)) s = .next t ∧ t.mem = s.mem ∧ t.cave = s.cave ∧ t.dev.crm.recOwner = f ∧
      (RecGood s.dev.crm im → t.dev.crm.recState = 3 ∧ t.dev.pwr.nvNext = s.dev.pwr.nvNext + 1) ∧
      (¬ RecGood s.dev.crm im → t.dev.crm.recState = 5 ∧ t.dev.crm.recReason = 6) := by
  by_cases hgood : RecGood s.dev.crm im
  · exact ⟨_, exec_recGo_good f hr hp hst hup hgood, rfl, rfl, rfl, fun _ => ⟨rfl, rfl⟩, fun h => absurd hgood h⟩
  · exact ⟨_, exec_recGo_bad f hr hp hst hup hgood, rfl, rfl, rfl, fun h => absurd h hgood, fun _ => ⟨rfl, rfl⟩⟩

/-- Settles O38: each event of start-up by the equation of its meaning in the phase the statement names. -/
theorem startUp : Obligations.StartUp := by
  intro s d c
  refine ⟨?resetEnd, ?bist, ?rom, ?firmware, ?identity, ?recovery, ?modRst, ?hifReset⟩
  case resetEnd => exact fun b l hr hstop hen hsw hovp hst => deviceResetEnd_spec b l hr hstop hen hsw hovp hst
  case bist => exact fun bad r hr hb => memoryBistEnd_spec bad r hr hb
  case rom =>
    refine fun sfdp h b hr hp => ⟨exec_romJump_recover h b hr hp sfdp, ?_, ?_⟩
    · rintro hrec rfl
      exact exec_romJump_noFlash h b hr hp hrec
    · rintro hrec rfl him
      exact romJump_checks h b hr hp hrec him
  case firmware =>
    exact fun hr hp => ⟨fun hf hb hm => fwReady_spec hr hp hf hb hm, fun n hf hm hw => exec_caveReady n hr hp hf hm hw,
      fun hf hk hl hm hw => keyReloadEnd_spec hr hp hf hk hl hm hw⟩
  case identity => exact fun ok hr hf hi hx ha => exec_identityReady ok hr hf hi hx ha
  case recovery => exact fun f hr hp hst hup => ⟨exec_recGo_unread f hr hp hst hup, recGo_spec f hr hp hst hup⟩
  case modRst => exact fun hoff hstop => ⟨_, exec_modRstNAssert hoff hstop, fullReset_restarted s 2⟩
  case hifReset =>
    exact fun f hr hp hup => ⟨⟨_, exec_hifReset_key f hr hp hup, fullReset_restarted s 3⟩, fun v hv => exec_hifReset_other s f hv⟩

end Sys2Proof.Machine

/-! ## Control words of a sequencer -/

namespace Sys2Proof.Machine

/-! ### What a dispatched word leaves -/

theorem onlyCore_setCore (s : State) (k : Nat) (c : Core) : OnlyCore s { s with dev := s.dev.setCore k c } k c :=
  ⟨rfl, fun _ h => Dev.core_setCore_ne _ h _, Dev.core_setCore _ _ _⟩

theorem onlySeq_setSeq (s : State) (k : Nat) (q : SeqId) (y : Seq) : OnlySeq s { s with dev := s.dev.setSeq k q y } k q y :=
  onlyCore_setCore s k _

/-- The registers a word writes do not matter for where the sequencer goes on. -/
theorem runsOn_advance (x : Seq) (rs : SMap Word) : RunsOn x (Seq.advance { x with regs := rs }) := rfl

section Row
variable {k : Nat} {q : SeqId} {op w : Nat} {f : Memory → Dev → Nat → Res} {s : State} {o : Host.Outcome State Fault Refusal}

/-- A row whose body answers with a device has changed the device only. -/
theorem seqOp_ok {d : Dev} (ho : o = seqOp k q op f s) (h : s.standsAt k q op w) (hf : f s.mem s.dev w = .ok d []) :
    o = .next { s with dev := d } := by
  rw [ho, seqOp_go h]; exact liftO_ok (f := fun m _ d => f m d w) hf

theorem seqOp_refuse {r : Refusal} (ho : o = seqOp k q op f s) (h : s.standsAt k q op w) (hf : f s.mem s.dev w = .refuse r) :
    o = .refused r := by
  rw [ho, seqOp_go h, liftO, hf]

end Row

/-! ### Branches (R157, R162) -/

/-- The word a taken branch goes to. -/
def branchTarget (x : Seq) (w : Nat) : Nat := (((x.pc.toNat : Int) + sext (bits w 13 0) 14) % 8192).toNat

/-- A branch row goes to its target where its condition holds, and on where it does not. -/
theorem branchResult_of_branchOp {s : State} {k : CoreId} {q : SeqId} {op w : Nat} {i : Instr} {cond : Word → Word → Bool} {taken : Prop}
    (hi : exec i s = branchOp k q op cond s) (h : s.standsAt k q op w)
    (hc : cond ((s.dev.seq k q).get (wA w)) ((s.dev.seq k q).get (wB w)) = true ↔ taken) :
    BranchResult s k q i taken (branchTarget (s.dev.seq k q) w) := by
  refine ⟨_, _, seqOp_ok hi h rfl, onlySeq_setSeq s k q _, fun ht => ?_, fun ht => ?_⟩
  · rw [if_pos (hc.mpr ht)]; rfl
  · rw [if_neg (mt hc.mp ht)]; exact ⟨runsOn_advance _ _, rfl⟩

theorem nop_result {s : State} {k : CoreId} {q : SeqId} {w : Nat} (h : s.standsAt k q 0x00 w) : BranchResult s k q (.nop k q) False 0 :=
  ⟨_, _, seqOp_ok (o := execNop k q s) rfl h rfl, onlySeq_setSeq s k q _, False.elim, fun _ => ⟨runsOn_advance _ _, rfl⟩⟩

/-! ### Loops (R50, R51, R160) -/

section Loops
variable (w : Nat) (l : LoopLv) (r : List LoopLv)

theorem loopNext_nil : loopNext w [] = (w + 1, []) := rfl

theorem loopNext_inside (h : l.last ≠ w) : loopNext w (l :: r) = (w + 1, l :: r) := by
  rw [loopNext, if_neg h]

theorem loopNext_again (h : l.last = w) (hl : 1 < l.left) : loopNext w (l :: r) = (l.first, ⟨l.first, l.last, l.left - 1⟩ :: r) := by
  rw [loopNext, if_pos h, if_pos hl]

theorem loopNext_leaves (h : l.last = w) (hl : l.left ≤ 1) : loopNext w (l :: r) = loopNext w r := by
  rw [loopNext, if_pos h, if_neg (Nat.not_lt.mpr hl)]

end Loops

/-- The sequencer after a LOOP with END `last` and the count n. -/
def Seq.looped (x : Seq) (last n : Nat) : Seq :=
  if n = 0 then { x.count with pc := BitVec.ofNat 13 (loopNext last x.loops).1, loops := (loopNext last x.loops).2 }
  else { x.count with pc := x.pc + 1, loops := ⟨x.pc.toNat + 1, last, n⟩ :: x.loops }

section Loop
variable {s : State} {k : CoreId} {q : SeqId} {w : Nat} (h : s.standsAt k q 0x01 w)
include h

theorem exec_loop_refused (hl : 4 ≤ (s.dev.seq k q).loops.length) : exec (.loop k q) s = .refused (.undefinedWord 0x01) := by
  refine seqOp_refuse (o := execLoop k q s) rfl h ?_
  exact if_pos hl

theorem exec_loop (hl : (s.dev.seq k q).loops.length < 4) : exec (.loop k q) s =
    .next { s with dev := s.dev.setSeq k q ((s.dev.seq k q).looped (bits w 44 32) (countOf (s.dev.seq k q) w (wA w))) } := by
  refine seqOp_ok (o := execLoop k q s) rfl h ?_
  dsimp only
  rw [if_neg (Nat.not_le.mpr hl), Seq.looped]
  split <;> rfl

end Loop

/-- Settles O9: the branches by their one row, the loop levels by the cases of `loopNext`, LOOP by its two. -/
theorem controlWords : Obligations.ControlWords := by
  refine ⟨fun k q s w => ?_, fun w l r => ⟨loopNext_nil w, loopNext_inside w l r, loopNext_again w l r, loopNext_leaves w l r⟩,
    fun k q s w h => ⟨fun hl => ⟨_, _, exec_loop h hl, onlySeq_setSeq s k q _, ?_⟩, exec_loop_refused h⟩⟩
  · exact ⟨nop_result,
      fun h => branchResult_of_branchOp rfl h beq_iff_eq,
      fun h => branchResult_of_branchOp rfl h bne_iff_ne,
      fun h => branchResult_of_branchOp rfl h BitVec.slt_iff_toInt_lt,
      fun h => branchResult_of_branchOp (cond := fun a b => b.sle a) rfl h BitVec.sle_iff_toInt_le,
      fun h => branchResult_of_branchOp rfl h BitVec.ult_iff_toNat_lt,
      fun h => branchResult_of_branchOp (cond := fun a b => b.ule a) rfl h BitVec.ule_iff_toNat_le,
      fun h => branchResult_of_branchOp (cond := fun _ _ => true) rfl h ⟨fun _ => trivial, fun _ => rfl⟩⟩
  · unfold Seq.looped
    split
    · next hn => exact ⟨rfl, rfl, rfl, rfl, fun h0 => absurd hn h0, fun _ => ⟨rfl, rfl⟩⟩
    · next hn => exact ⟨rfl, rfl, rfl, rfl, fun _ => ⟨rfl, rfl⟩, fun h0 => absurd h0 hn⟩

end Sys2Proof.Machine

/-! ## Resident routines -/

namespace Sys2Proof.Machine

/-! ### CALL (R52, R161) -/

/-- The sequencer inside the routine of table entry e. -/
def Seq.entered (x : Seq) (e : Nat) : Seq :=
  { x.count with st := .inRoutine, rtn := some ⟨x.pc, bits e 47 16, 0, x.loops.length, false, false⟩,
                 pc := BitVec.ofNat 13 (6144 + bits e 10 0) }

/-- The stream bit of a table entry, as Table 03-3 numbers it. -/
theorem streamOk_eq (e : Nat) (q : SeqId) : streamOk e q = bit e (match q with | .A => 50 | .E => 51) := by
  cases q <;> rfl

/-- Library words lie below the 8,192 words of a program store. -/
theorem entered_pc (x : Seq) (e : Nat) : (x.entered e).pc.toNat = 6144 + bits e 10 0 := by
  have hlt : bits e 10 0 < 2048 := Nat.mod_lt _ (by decide)
  exact (BitVec.toNat_ofNat _ _).trans (Nat.mod_eq_of_lt (by omega))

theorem exec_call {s : State} {k : CoreId} {q : SeqId} {w : Nat} (h : s.standsAt k q 0x02 w) (hr : (s.dev.seq k q).rtn = none)
    (hs : streamOk (routineEntry s.mem k q (routineIndex w)) q = true)
    (hl : (s.dev.seq k q).loops.length + bits (routineEntry s.mem k q (routineIndex w)) 49 48 ≤ 4) : exec (.call k q) s =
      .next { s with dev := s.dev.setSeq k q ((s.dev.seq k q).entered (routineEntry s.mem k q (routineIndex w))) } := by
  refine seqOp_ok (o := execCall k q s) rfl h (if_neg ?_)
  simpa [hr, hs] using hl

/-! ### RET and the routine counter (R52, R53, R162) -/

/-- The device once the counter of routine r has reached CYCLES: a return that waits is taken, a routine still running is late. -/
def Dev.counterEnds (d : Dev) (k : Nat) (q : SeqId) (r : Routine) : Dev :=
  if r.done then d.setSeq k q ((d.seq k q).ret r)
  else d.setCore k ({ d.core k with rtnOver := true }.setSeq q { d.seq k q with rtn := some { r with expired := true } })

section Return
variable {s : State} {k : CoreId} {q : SeqId} {w : Nat} {r : Routine} (hr : (s.dev.seq k q).rtn = some r)
include hr

theorem exec_ret_returns (h : s.standsAt k q 0x04 w) (hc : r.expired = true ∨ r.cycles ≤ r.count) : exec (.ret k q) s =
    .next { s with dev := s.dev.setCore k ({ s.dev.core k with rtnOver := true }.setSeq q ((s.dev.seq k q).count.ret r)) } := by
  refine seqOp_ok (o := execRet k q s) rfl h ?_
  dsimp only
  rw [show ((s.dev.core k).seq q).rtn = some r from hr]
  exact if_pos (by simpa using hc)

theorem exec_ret_waits (h : s.standsAt k q 0x04 w) (he : r.expired = false) (hc : r.count < r.cycles) : exec (.ret k q) s =
    .next { s with dev := s.dev.setSeq k q { (s.dev.seq k q).count with rtn := some { r with done := true } } } := by
  refine seqOp_ok (o := execRet k q s) rfl h ?_
  dsimp only
  rw [show ((s.dev.core k).seq q).rtn = some r from hr]
  exact if_neg (by simpa [he] using hc)

theorem exec_expire (hh : (s.dev.seq k q).st ≠ .halted) (he : r.expired = false) (hc : r.cycles ≤ r.count) :
    exec (.routineCounterExpire k q) s = .next { s with dev := s.dev.counterEnds k q r } := by
  refine (show execRoutineCounterExpire k q s = _ from lift_of_eq ?_)
  dsimp only
  rw [show ((s.dev.core k).seq q).rtn = some r from hr]
  exact if_neg (by simpa [he, show ((s.dev.core k).seq q).st ≠ .halted from hh] using hc)

end Return

/-- The counter of a halted sequencer changes nothing. -/
theorem exec_expire_halted {s : State} {k : CoreId} {q : SeqId} (hh : (s.dev.seq k q).st = .halted) :
    exec (.routineCounterExpire k q) s = .next s := by
  refine (show execRoutineCounterExpire k q s = _ from lift_of_eq (d := s.dev) ?_)
  dsimp only
  split
  · rfl
  · exact if_pos (by simp [show ((s.dev.core k).seq q).st = .halted from hh])

/-- Settles O10: each clause is a case of CALL, RET or the counter, stated above. -/
theorem routineCallReturnAndCounter : Obligations.RoutineCallReturnAndCounter := by
  refine fun k q s w => ⟨fun h hr hs hl => ?call, fun r hr => ⟨fun h hc => ?returns, fun h he hc => ?waits, fun hh he hc hd => ?ends,
    fun hh he hc hd => ?overruns⟩, exec_expire_halted⟩
  case call => exact ⟨_, _, exec_call h hr ((streamOk_eq _ q).trans hs) hl, onlySeq_setSeq s k q _, rfl, rfl, rfl, rfl, rfl⟩
  case returns => exact ⟨_, _, exec_ret_returns hr h hc, onlyCore_setCore s k _, rfl, rfl, rfl, rfl, rfl⟩
  case waits => exact ⟨_, _, exec_ret_waits hr h he hc, onlySeq_setSeq s k q _, rfl, rfl, rfl, rfl⟩
  case ends =>
    rw [exec_expire hr hh he hc, Dev.counterEnds, if_pos hd]
    exact ⟨_, _, rfl, onlySeq_setSeq s k q _, rfl, rfl, rfl, rfl, rfl⟩
  case overruns =>
    rw [exec_expire hr hh he hc, Dev.counterEnds, if_neg (by simp [hd])]
    exact ⟨_, rfl, onlyCore_setCore s k _⟩

/-- Settles O11: a RET either finds its counter at CYCLES, and returns, or waits for it. -/
theorem routineWordsComplete : Obligations.RoutineWordsComplete := by
  refine fun k q s w r => ⟨fun h hr hs hl => ?call, fun h hr => ?ret, fun hr hd he hc hh => ?ends⟩
  case call => exact ⟨_, _, exec_call h hr ((streamOk_eq _ q).trans hs) hl, onlySeq_setSeq s k q _, rfl, rfl, entered_pc _ _⟩
  case ret =>
    by_cases hc : r.expired = true ∨ r.cycles ≤ r.count
    · exact ⟨_, _, true, exec_ret_returns hr h hc, onlyCore_setCore s k _, rfl, rfl, .inl rfl⟩
    · obtain ⟨he, hc⟩ := not_or.mp hc
      exact ⟨_, _, (s.dev.core k).rtnOver, exec_ret_waits hr h (Bool.eq_false_iff.mpr he) (Nat.not_le.mp hc), onlySeq_setSeq s k q _,
        rfl, rfl, .inr ⟨rfl, rfl⟩⟩
  case ends =>
    rw [exec_expire hr hh he hc, Dev.counterEnds, if_pos hd]
    exact ⟨_, _, rfl, onlySeq_setSeq s k q _, rfl, rfl, rfl, rfl⟩

end Sys2Proof.Machine

/-! ## Data queues -/

namespace Sys2Proof.Machine

/-! ### Bytes as a number and back (R3) -/

theorem leNat_natLe (v n : Nat) : leNat (natLe v n) = v % 256 ^ n := by
  induction n generalizing v with
  | zero => exact (Nat.mod_one v).symm
  | succ n ih => rw [natLe, leNat, ih, Nat.pow_succ', Nat.mod_mul, BitVec.toNat_ofNat]

theorem leNat_append (a b : List Byte) : leNat (a ++ b) = leNat a + 256 ^ a.length * leNat b := by
  induction a with
  | nil => simp [leNat]
  | cons x r ih => simp only [List.cons_append, leNat, ih, List.length_cons]; ring

/-- The words whose 8 bytes each stand one after the other are the 64-bit digits of the number. -/
theorem leNat_words (ws : List Nat) (h : ∀ v ∈ ws, v < 2 ^ 64) (j : Nat) :
    leNat (ws.map (fun v => natLe v 8)).flatten / 2 ^ (64 * j) % 2 ^ 64 = ws.getD j 0 := by
  induction ws generalizing j with
  | nil => simp [leNat]
  | cons v r ih =>
    have hv : v < 2 ^ 64 := h v (List.mem_cons_self ..)
    have hcons : leNat ((v :: r).map (fun v => natLe v 8)).flatten = v + 2 ^ 64 * leNat (r.map (fun v => natLe v 8)).flatten := by
      rw [List.map_cons, List.flatten_cons, leNat_append, natLe_length, leNat_natLe, show 256 ^ 8 = 2 ^ 64 by norm_num, Nat.mod_eq_of_lt hv]
    rw [hcons]
    cases j with
    | zero => rw [Nat.mul_zero, Nat.pow_zero, Nat.div_one, Nat.add_mul_mod_self_left, Nat.mod_eq_of_lt hv]; rfl
    | succ j =>
      rw [Nat.mul_succ, Nat.add_comm (64 * j), Nat.pow_add, ← Nat.div_div_eq_div_mul, Nat.add_mul_div_left _ _ (by decide),
        Nat.div_eq_of_lt hv, Nat.zero_add, ih fun x hx => h x (List.mem_cons_of_mem _ hx)]
      rfl

/-- A field that lies inside a number's width. -/
theorem extractLsb'_ofNat (v : Nat) {n lo len : Nat} (h : lo + len ≤ n) :
    ((BitVec.ofNat n v).extractLsb' lo len).toNat = v / 2 ^ lo % 2 ^ len := by
  obtain ⟨m, rfl⟩ := Nat.exists_eq_add_of_le h
  rw [BitVec.extractLsb'_toNat, BitVec.toNat_ofNat, Nat.shiftRight_eq_div_pow, Nat.add_assoc, Nat.pow_add 2 lo,
    Nat.mod_mul_right_div_self, Nat.pow_add, Nat.mod_mul_right_mod]

/-- Word j of the entry DQPUSH forms (R164). -/
theorem dqEntry_word (x : Seq) (first n : Nat) {j : Nat} (hj : j < 8) :
    (dqEntry x first n).extractLsb' (64 * j) 64 = if j < n then x.get (first + j) else 0 := by
  have hwords : (List.range 8).map (fun j => if j < n then natLe (x.get (first + j)).toNat 8 else natLe 0 8) =
      ((List.range 8).map (fun j => if j < n then (x.get (first + j)).toNat else 0)).map (fun v => natLe v 8) := by
    rw [List.map_map]
    exact List.map_congr_left fun i _ => (apply_ite (fun v => natLe v 8) (i < n) _ _).symm
  have hlt : ∀ v ∈ (List.range 8).map (fun j => if j < n then (x.get (first + j)).toNat else 0), v < 2 ^ 64 := by
    intro v hv
    obtain ⟨i, -, rfl⟩ := List.mem_map.mp hv
    split
    · exact BitVec.isLt _
    · decide
  refine BitVec.eq_of_toNat_eq ?_
  rw [dqEntry, hwords, extractLsb'_ofNat _ (by omega), leNat_words _ hlt, List.getD_eq_getElem _ _ (by simpa using hj), List.getElem_map,
    List.getElem_range]
  exact (apply_ite BitVec.toNat (j < n) (x.get (first + j)) 0).symm

/-! ### The registers a pop writes (R164) -/

theorem popRegs_regs (x : Seq) (e : BitVec 512) (first n : Nat) :
    x.popRegs e first n = { x with regs := (x.popRegs e first n).regs } := by
  induction n with
  | zero => rfl
  | succ n ih =>
    rw [Seq.popRegs, Seq.set]
    split
    · exact ih
    · rw [ih]

theorem get_popRegs (x : Seq) (e : BitVec 512) (first n i : Nat) : (x.popRegs e first n).get i =
    if first ≤ i ∧ i < first + n ∧ i ≠ 0 then e.extractLsb' (64 * (i - first)) 64 else x.get i := by
  induction n with
  | zero => rw [if_neg (by omega)]; rfl
  | succ n ih =>
    rw [Seq.popRegs]
    by_cases hi : i = first + n
    · subst hi
      by_cases h0 : first + n = 0
      · rw [h0, if_neg (by simp)]; rfl
      · rw [Seq.get_set_same _ _ _ h0, if_pos (by omega), Nat.add_sub_cancel_left]
    · rw [Seq.get_set_ne _ _ hi, ih]
      exact if_congr (by omega) rfl rfl

/-! ### DQPUSH and DQPOP, at once and out of a stall (R49) -/

section DqWords
variable {s : State} {k : CoreId} {q : SeqId} {w : Nat}

theorem dqPushed_of_room {i : Instr} (hi : exec i s = .next { s with dev := dqPush s.dev k q w })
    (hl : ((s.dev.core k).dqOf (bits w 50 48)).length < 16) : DqPushed s k q w i := by
  rw [dqPush, if_neg (Nat.not_le.mpr hl)] at hi
  refine ⟨_, _, _, _, hi, runsOn_advance _ _, rfl, onlyCore_setCore s k _, lk_up_same _ _ _ _, fun j hj => lk_up_ne _ _ hj _, fun j hj => ?_⟩
  simp only [dqEntry_word _ _ _ hj, Nat.lt_succ_iff]

theorem dqPopped_of_entry {i : Instr} {e : BitVec 512} {r : List (BitVec 512)} (hi : exec i s = .next { s with dev := dqPop s.dev k q w })
    (hd : (s.dev.core k).dqOf (bits w 50 48) = e :: r) : DqPopped s k q w i e r := by
  simp only [dqPop, hd] at hi
  refine ⟨_, _, _, hi, ?_, onlyCore_setCore s k _, lk_up_same _ _ _ _, fun j hj => lk_up_ne _ _ hj _, fun i => ?_⟩
  · rw [popRegs_regs]; exact runsOn_advance _ _
  · rw [Seq.get_advance, get_popRegs]
    exact if_congr (by omega) rfl rfl

theorem exec_dqpush (h : s.standsAt k q 0x30 w) : exec (.dqpush k q) s = .next { s with dev := dqPush s.dev k q w } :=
  seqOp_ok (o := execDqpush k q s) rfl h rfl

theorem exec_dqpop (h : s.standsAt k q 0x31 w) : exec (.dqpop k q) s = .next { s with dev := dqPop s.dev k q w } :=
  seqOp_ok (o := execDqpop k q s) rfl h rfl

theorem exec_dqStallEnd_full (h : s.standsAt k q 0x30 w) (hx : (s.dev.seq k q).st = .stallDqFull) :
    exec (.dqStallEnd k q) s = .next { s with dev := dqPush s.dev k q w } := by
  show execDqStallEnd k q s = _
  simp only [execDqStallEnd, liftR, hx, show front s.mem s.dev k q 0x30 = .go w from h]

theorem exec_dqStallEnd_empty (h : s.standsAt k q 0x31 w) (hx : (s.dev.seq k q).st = .stallDqEmpty) :
    exec (.dqStallEnd k q) s = .next { s with dev := dqPop s.dev k q w } := by
  show execDqStallEnd k q s = _
  simp only [execDqStallEnd, liftR, hx, show front s.mem s.dev k q 0x31 = .go w from h]

end DqWords

/-- Settles O13: a push and a pop do the same whether the word came now or has waited; with no room or no entry it waits. -/
theorem dataQueueWords : Obligations.DataQueueWords := by
  refine fun k q s w => ⟨fun h => ⟨dqPushed_of_room (exec_dqpush h), fun hl hx => dqPushed_of_room (exec_dqStallEnd_full h hx) hl, fun hl => ?_⟩,
    fun h => ⟨fun e r hd => dqPopped_of_entry (exec_dqpop h) hd, fun e r hd hx => dqPopped_of_entry (exec_dqStallEnd_empty h hx) hd, fun hd => ?_⟩⟩
  · rw [exec_dqpush h, dqPush, if_pos hl]
    exact ⟨_, rfl, onlySeq_setSeq s k q _⟩
  · rw [exec_dqpop h]
    simp only [dqPop, hd]
    exact ⟨_, rfl, onlySeq_setSeq s k q _⟩

end Sys2Proof.Machine

/-! ## Synchronisation objects -/

namespace Sys2Proof.Machine

/-! ### One core written twice -/

/-- The second of two writes of a key is the one that stays. -/
theorem up_up {α : Type} (n : Nat) (a b : α) (m : SMap α) : up (up m n a) n b = up m n b := by
  induction m with
  | nil => simp [up]
  | cons e r ih =>
    by_cases h : n = e.1
    · simp [up, h]
    · by_cases l : n < e.1
      · simp [up, h, l]
      · simp [up, h, l, ih]

theorem Dev.updCore_setSeq (d : Dev) (k : Nat) (q : SeqId) (x : Seq) (f : Core → Core) :
    (d.setSeq k q x).updCore k f = d.setCore k (f ((d.core k).setSeq q x)) := by
  rw [Dev.updCore, Dev.setSeq, Dev.core_setCore, Dev.setCore, Dev.setCore, up_up, Dev.setCore]

/-! ### Errors of class STEP (R400, R404) -/

/-- Such an error leaves its record as the newest; no core and no edge object changes. -/
theorem raise_stepClass {d : Dev} {e : Err} (h : e.cls = 1) : (∀ j, (d.raise e).core j = d.core j) ∧ (d.raise e).edge = d.edge ∧
    ∃ r, (d.raise e).errs.ring.head? = some r ∧ r.code = e.code ∧ r.core = e.core ∧ r.detail = e.detail := by
  have hshape : ∃ es fs o, d.raise e = { d with errs := es, funcs := fs, out := o } := by
    simp only [Dev.raise, h]
    obtain ⟨es, fs, o, he, -, -⟩ := irqs_spec { d with errs := { d.errs.put (d.mkRec e) with
      stepErrs := (d.errs.put (d.mkRec e)).stepErrs ++ (partsOf e.pmask).map (fun p => (p, (d.part p).step.toNat)) } } 1 e.pmask
    exact ⟨es, fs, o, he⟩
  have hrec : Recorded { State.reset with dev := d.raise e } e.code e.core e.detail := raise_recorded (h ▸ by decide) rfl
  obtain ⟨es, fs, o, he⟩ := hshape
  exact ⟨fun j => by rw [he]; rfl, by rw [he], hrec⟩

theorem raiseStep_spec (d : Dev) (k code : Nat) (detail : List Nat) : (∀ j, (d.raiseStep k code detail).core j = d.core j) ∧
    ∃ r, (d.raiseStep k code detail).errs.ring.head? = some r ∧ r.code = code ∧ r.core = k ∧ r.detail = detail :=
  have h := raise_stepClass (d := d) (e := { code := code, cls := 1, source := 0, core := k, pmask := pmaskOf (d.partOf k),
                                             fpid := d.fpidOf (d.partOf k), detail := detail }) rfl
  ⟨h.1, h.2.2⟩

/-- A core that is written before the error keeps what was written. -/
theorem raiseStep_setCore (d : Dev) (k : Nat) (c : Core) (code : Nat) (detail : List Nat) :
    ((d.setCore k c).raiseStep k code detail).core k = c ∧ (∀ q, ((d.setCore k c).raiseStep k code detail).seq k q = c.seq q) ∧
    ∃ r, ((d.setCore k c).raiseStep k code detail).errs.ring.head? = some r ∧ r.code = code ∧ r.core = k ∧ r.detail = detail := by
  obtain ⟨hcore, hrec⟩ := raiseStep_spec (d.setCore k c) k code detail
  have hk := (hcore k).trans (Dev.core_setCore d k c)
  exact ⟨hk, fun q => congrArg (Core.seq · q) hk, hrec⟩

/-! ### The count of an object (R54, R57) -/

/-- The device with the count of a core's object set to v. -/
def Dev.setSyn (d : Dev) (obj v : Nat) : Dev :=
  d.updCore (obj / 32) (fun x => { x with syn := up x.syn (obj % 32) (BitVec.ofNat 32 v) })

theorem lk_setSyn_same (d : Dev) (obj : Nat) {v : Nat} (hv : v < 2 ^ 32) :
    (lk (0 : BitVec 32) ((d.setSyn obj v).core (obj / 32)).syn (obj % 32)).toNat = v := by
  rw [Dev.setSyn, Dev.core_updCore, lk_up_same, BitVec.toNat_ofNat, Nat.mod_eq_of_lt hv]

theorem lk_setSyn_ne (d : Dev) (obj v : Nat) {o : Nat} (ho : o ≠ obj % 32) :
    lk (0 : BitVec 32) ((d.setSyn obj v).core (obj / 32)).syn o = lk 0 (d.core (obj / 32)).syn o := by
  rw [Dev.setSyn, Dev.core_updCore, lk_up_ne _ _ ho]

/-- Setting a count moves no sequencer. -/
theorem seq_setSyn (d : Dev) (obj v j : Nat) (q : SeqId) : (d.setSyn obj v).seq j q = d.seq j q := by
  by_cases h : j = obj / 32
  · subst h; rw [Dev.seq, Dev.setSyn, Dev.core_updCore]; cases q <;> rfl
  · rw [Dev.seq, Dev.setSyn, Dev.core_updCore_ne _ h]; rfl

/-- The number of object o of core k gives both back. -/
theorem obj_div_mod (k : Nat) {o : Nat} (ho : o < 32) : (32 * k + o) / 32 = k ∧ (32 * k + o) % 32 = o := by omega

theorem setSyn_setSeq (d : Dev) (k : Nat) (q : SeqId) (x : Seq) {o : Nat} (ho : o < 32) (v : Nat) :
    (d.setSeq k q x).setSyn (32 * k + o) v =
      d.setCore k ({ d.core k with syn := up (d.core k).syn o (BitVec.ofNat 32 v) }.setSeq q x) := by
  rw [Dev.setSyn, (obj_div_mod k ho).1, (obj_div_mod k ho).2, Dev.updCore_setSeq]
  cases q <;> rfl

section Add
variable {d : Dev} {obj n : Nat} (who : Nat)

theorem synAdd_within (h : (lk (0 : BitVec 32) (d.core (obj / 32)).syn (obj % 32)).toNat + n < 2 ^ 32) :
    d.synAdd obj n who = d.setSyn obj ((lk (0 : BitVec 32) (d.core (obj / 32)).syn (obj % 32)).toNat + n) := by
  unfold Dev.synAdd
  extract_lets k c d'
  change c + n < 2 ^ 32 at h
  rw [if_neg (by omega)]
  simp only [d', k, Nat.min_eq_left (show c + n ≤ 2 ^ 32 - 1 by omega)]
  rfl

theorem synAdd_over (h : 2 ^ 32 ≤ (lk (0 : BitVec 32) (d.core (obj / 32)).syn (obj % 32)).toNat + n) :
    d.synAdd obj n who = (d.setSyn obj (2 ^ 32 - 1)).raiseStep (obj / 32) 0x14 [obj, 1, who] := by
  unfold Dev.synAdd
  extract_lets k c d'
  change 2 ^ 32 ≤ c + n at h
  rw [if_pos (by omega)]
  simp only [d', k, Nat.min_eq_right (show 2 ^ 32 - 1 ≤ c + n by omega)]
  rfl

end Add

/-! ### Credits (R54 to R57) -/

section Credit
variable {d : Dev} {obj n : Nat} (src : Nat)

theorem credit_within (ho : obj < 24576) (h : (lk (0 : BitVec 32) (d.core (obj / 32)).syn (obj % 32)).toNat + n < 2 ^ 32) :
    d.credit obj n src = (d.countCredit obj n).setSyn obj ((lk (0 : BitVec 32) (d.core (obj / 32)).syn (obj % 32)).toNat + n) :=
  (if_pos ho).trans (synAdd_within src h)

theorem credit_over (ho : obj < 24576) (h : 2 ^ 32 ≤ (lk (0 : BitVec 32) (d.core (obj / 32)).syn (obj % 32)).toNat + n) :
    d.credit obj n src = ((d.countCredit obj n).setSyn obj (2 ^ 32 - 1)).raiseStep (obj / 32) 0x14 [obj, 1, src] :=
  (if_pos ho).trans (synAdd_over src h)

/-- The device with the count of an edge object set to v. -/
def Dev.setEdge (d : Dev) (obj v : Nat) : Dev := { d with edge := up d.edge obj (BitVec.ofNat 32 v) }

theorem lk_setEdge_same (d : Dev) (obj : Nat) {v : Nat} (hv : v < 2 ^ 32) : (lk (0 : BitVec 32) (d.setEdge obj v).edge obj).toNat = v := by
  rw [Dev.setEdge, lk_up_same, BitVec.toNat_ofNat, Nat.mod_eq_of_lt hv]

/-- The record of an edge object that is credited past its largest count. -/
def Dev.edgeOver (d : Dev) (obj src : Nat) : Err :=
  { code := 0x14, cls := 1, source := 0, core := 0xFFFF, pmask := d.edgePart obj,
    fpid := if d.edgePart obj = 0 then 0xFFFF else d.fpidOf (lowPart (d.edgePart obj)), detail := [obj, 1, src] }

theorem credit_edge_within (ho : 24576 ≤ obj) (h : (lk (0 : BitVec 32) d.edge obj).toNat + n < 2 ^ 32) :
    d.credit obj n src = (d.countCredit obj n).setEdge obj ((lk (0 : BitVec 32) d.edge obj).toNat + n) := by
  unfold Dev.credit
  extract_lets e c d'
  change (lk (0 : BitVec 32) e.edge obj).toNat + n < 2 ^ 32 at h
  rw [if_neg (Nat.not_lt.mpr ho), if_neg (by omega)]
  simp only [d', Nat.min_eq_left (show c + n ≤ 2 ^ 32 - 1 by omega)]
  rfl

theorem credit_edge_over (ho : 24576 ≤ obj) (h : 2 ^ 32 ≤ (lk (0 : BitVec 32) d.edge obj).toNat + n) :
    d.credit obj n src = ((d.countCredit obj n).setEdge obj (2 ^ 32 - 1)).raise ((d.countCredit obj n).edgeOver obj src) := by
  unfold Dev.credit
  extract_lets e c d'
  change 2 ^ 32 ≤ (lk (0 : BitVec 32) e.edge obj).toNat + n at h
  rw [if_neg (Nat.not_lt.mpr ho), if_pos (by omega)]
  simp only [d', Nat.min_eq_right (show 2 ^ 32 - 1 ≤ c + n by omega)]
  rfl

end Credit

/-! ### SYNWAIT, SYNADD, SYNSUB (R55, R56, R165) -/

/-- An operation comes after the access sequencer's where it is the execute sequencer's and asks for a count that the other waits for. -/
theorem after_eq_true_iff {c : Core} {m : Memory} {k o n : Nat} {q : SeqId} :
    c.after m k q o n = true ↔ q = .E ∧ 0 < n ∧ c.accessFirst m k o = true := by
  simp [Core.after, and_assoc]

theorem after_eq_false_iff {c : Core} {m : Memory} {k o n : Nat} {q : SeqId} :
    c.after m k q o n = false ↔ ¬(q = .E ∧ 0 < n ∧ c.accessFirst m k o = true) := by
  rw [← after_eq_true_iff, Bool.not_eq_true]

theorem syObj_lt (w : Nat) : syObj w < 32 := Nat.mod_lt _ (by decide)

/-- Object o of core k counts what it did while a sequencer of the core moves. -/
theorem synOf_setSeq (d : Dev) (k : Nat) (q : SeqId) (x : Seq) (w : Nat) :
    (lk (0 : BitVec 32) ((d.setSeq k q x).core ((32 * k + syObj w) / 32)).syn ((32 * k + syObj w) % 32)).toNat =
      (d.core k).synOf (syObj w) := by
  rw [(obj_div_mod k (syObj_lt w)).1, (obj_div_mod k (syObj_lt w)).2, Dev.setSeq, Dev.core_setCore, Core.setSeq_syn]; rfl

section SyWords
variable {s : State} {k : CoreId} {q : SeqId} {w : Nat}

/-- The core in which object o counts v and the word of sequencer q has run. -/
def Core.synDone (c : Core) (q : SeqId) (o v : Nat) : Core :=
  { c with syn := up c.syn o (BitVec.ofNat 32 v) }.setSeq q (c.seq q).advance

theorem synDone_seq (c : Core) (q : SeqId) (o v : Nat) : (c.synDone q o v).seq q = (c.seq q).advance := Core.seq_setSeq _ _ _

theorem lk_synDone (c : Core) (q : SeqId) (o : Nat) {v : Nat} (hv : v < 2 ^ 32) :
    (lk (0 : BitVec 32) (c.synDone q o v).syn o).toNat = v := by
  rw [Core.synDone, Core.setSeq_syn, lk_up_same, BitVec.toNat_ofNat, Nat.mod_eq_of_lt hv]

theorem synSet_of_synDone {i : Instr} {o v : Nat} (hv : v < 2 ^ 32)
    (hi : exec i s = .next { s with dev := s.dev.setCore k ((s.dev.core k).synDone q o v) }) : SynSet s k q i o v :=
  ⟨_, _, _, hi, runsOn_advance _ _, rfl, onlyCore_setCore s k _, by rw [lk_up_same, BitVec.toNat_ofNat, Nat.mod_eq_of_lt hv],
    fun _ hj => lk_up_ne _ _ hj _⟩

theorem synWait_covered (m : Memory) (d : Dev) (hn : syCount (d.seq k q) w ≤ (d.core k).synOf (syObj w))
    (ha : (d.core k).after m k q (syObj w) (syCount (d.seq k q) w) = false) :
    synWait m d k q w = d.setCore k ((d.core k).synDone q (syObj w) ((d.core k).synOf (syObj w) - syCount (d.seq k q) w)) :=
  if_pos ⟨hn, ha⟩

theorem synWait_waits (m : Memory) (d : Dev) (h : (d.core k).synOf (syObj w) < syCount (d.seq k q) w ∨
      (d.core k).after m k q (syObj w) (syCount (d.seq k q) w) = true) :
    synWait m d k q w = d.setSeq k q ((d.seq k q).stall .stallSyn) := by
  refine if_neg fun hc => ?_
  obtain ⟨hn, ha⟩ := hc
  rcases h with h | h
  · exact absurd hn (Nat.not_le.mpr h)
  · exact absurd (ha.symm.trans h) (by decide)

theorem exec_synwait (h : s.standsAt k q 0x40 w) : exec (.synwait k q) s = .next { s with dev := synWait s.mem s.dev k q w } :=
  seqOp_ok (o := execSynwait k q s) rfl h rfl

theorem exec_synwaitSatisfied (h : s.standsAt k q 0x40 w) (hx : (s.dev.seq k q).st = .stallSyn) :
    exec (.synwaitSatisfied k q) s = .next { s with dev := synWait s.mem s.dev k q w } := by
  show execSynwaitSatisfied k q s = _
  simp only [execSynwaitSatisfied, liftR, hx, show front s.mem s.dev k q 0x40 = .go w from h]

theorem exec_synadd_after (h : s.standsAt k q 0x41 w)
    (ha : (s.dev.core k).after s.mem k q (syObj w) (syCount (s.dev.seq k q) w) = true) : exec (.synadd k q) s = .next s :=
  seqOp_ok (o := execSynadd k q s) rfl h (if_pos ha)

section Synadd
variable (h : s.standsAt k q 0x41 w) (ha : (s.dev.core k).after s.mem k q (syObj w) (syCount (s.dev.seq k q) w) = false)
include h ha

theorem exec_synadd : exec (.synadd k q) s = .next { s with
    dev := (s.dev.setSeq k q (s.dev.seq k q).advance).synAdd (32 * k + syObj w) (syCount (s.dev.seq k q) w) (seqNo q) } :=
  seqOp_ok (o := execSynadd k q s) rfl h (if_neg (Bool.eq_false_iff.mp ha))

theorem exec_synadd_within (hn : (s.dev.core k).synOf (syObj w) + syCount (s.dev.seq k q) w < 2 ^ 32) : exec (.synadd k q) s = .next { s with
    dev := s.dev.setCore k ((s.dev.core k).synDone q (syObj w) ((s.dev.core k).synOf (syObj w) + syCount (s.dev.seq k q) w)) } := by
  rw [exec_synadd h ha, synAdd_within _ (by rwa [synOf_setSeq]), synOf_setSeq, setSyn_setSeq _ _ _ _ (syObj_lt w)]; rfl

theorem exec_synadd_over (hn : 2 ^ 32 ≤ (s.dev.core k).synOf (syObj w) + syCount (s.dev.seq k q) w) : exec (.synadd k q) s = .next { s with
    dev := (s.dev.setCore k ((s.dev.core k).synDone q (syObj w) (2 ^ 32 - 1))).raiseStep k 0x14 [32 * k + syObj w, 1, seqNo q] } := by
  rw [exec_synadd h ha, synAdd_over _ (by rwa [synOf_setSeq]), setSyn_setSeq _ _ _ _ (syObj_lt w), (obj_div_mod k (syObj_lt w)).1]; rfl

end Synadd

theorem exec_synsub_after (h : s.standsAt k q 0x42 w)
    (ha : (s.dev.core k).after s.mem k q (syObj w) (syCount (s.dev.seq k q) w) = true) : exec (.synsub k q) s = .next s :=
  seqOp_ok (o := execSynsub k q s) rfl h (if_pos ha)

theorem exec_synsub_covered (h : s.standsAt k q 0x42 w)
    (ha : (s.dev.core k).after s.mem k q (syObj w) (syCount (s.dev.seq k q) w) = false)
    (hn : syCount (s.dev.seq k q) w ≤ (s.dev.core k).synOf (syObj w)) : exec (.synsub k q) s = .next { s with
      dev := s.dev.setCore k ((s.dev.core k).synDone q (syObj w) ((s.dev.core k).synOf (syObj w) - syCount (s.dev.seq k q) w)) } :=
  seqOp_ok (o := execSynsub k q s) rfl h ((if_neg (Bool.eq_false_iff.mp ha)).trans (if_pos hn))

theorem exec_synsub_under (h : s.standsAt k q 0x42 w)
    (ha : (s.dev.core k).after s.mem k q (syObj w) (syCount (s.dev.seq k q) w) = false)
    (hn : (s.dev.core k).synOf (syObj w) < syCount (s.dev.seq k q) w) : exec (.synsub k q) s = .next { s with
      dev := (s.dev.setCore k ((s.dev.core k).setSeq q (s.dev.seq k q).advance)).raiseStep k 0x14 [32 * k + syObj w, 0, seqNo q] } :=
  seqOp_ok (o := execSynsub k q s) rfl h ((if_neg (Bool.eq_false_iff.mp ha)).trans (if_neg (Nat.not_le.mpr hn)))

end SyWords

/-- Settles O14: the words by the cases of their rows, a credit by whether the count stays below 2^32. -/
theorem synchronisationObjects : Obligations.SynchronisationObjects := by
  refine ⟨fun k q s w => ⟨?wait, ?satisfied, ?waits, ?add, ?sub, ?addAfter, ?subAfter⟩, fun k q s w => ⟨?under, ?addOver⟩,
    fun d obj n src => ⟨?core, ?edge, ?coreOver, ?edgeOver⟩⟩
  case wait =>
    refine fun h hn hm => synSet_of_synDone (by omega) ?_
    rw [exec_synwait h, synWait_covered _ _ hn (after_eq_false_iff.mpr hm)]; rfl
  case satisfied =>
    refine fun h hn hm hx => synSet_of_synDone (by omega) ?_
    rw [exec_synwaitSatisfied h hx, synWait_covered _ _ hn (after_eq_false_iff.mpr hm)]; rfl
  case waits =>
    intro h hw
    rw [exec_synwait h, synWait_waits _ _ (hw.imp id fun hm => after_eq_true_iff.mpr (not_not.mp hm))]
    exact ⟨_, rfl, onlySeq_setSeq s k q _⟩
  case add => exact fun h hm hn => synSet_of_synDone hn (exec_synadd_within h (after_eq_false_iff.mpr hm) hn)
  case sub => exact fun h hm hn => synSet_of_synDone (by omega) (exec_synsub_covered h (after_eq_false_iff.mpr hm) hn)
  case addAfter => exact fun h hm => exec_synadd_after h (after_eq_true_iff.mpr (not_not.mp hm))
  case subAfter => exact fun h hm => exec_synsub_after h (after_eq_true_iff.mpr (not_not.mp hm))
  case under =>
    intro h hm hn
    obtain ⟨hcore, hseq, r, hring, hcode, hk, hdetail⟩ := raiseStep_setCore s.dev k
      ((s.dev.core k).setSeq q (s.dev.seq k q).advance) 0x14 [32 * k + syObj w, 0, seqNo q]
    refine ⟨_, r, exec_synsub_under h (after_eq_false_iff.mpr hm) hn, rfl, hring, hcode, hk, hdetail, ?_, ?_⟩
    · dsimp only; rw [hcore, Core.setSeq_syn]
    · dsimp only; rw [hseq, Core.seq_setSeq]; exact runsOn_advance _ _
  case addOver =>
    intro h hm hn
    obtain ⟨hcore, hseq, r, hring, hcode, hk, hdetail⟩ := raiseStep_setCore s.dev k
      ((s.dev.core k).synDone q (syObj w) (2 ^ 32 - 1)) 0x14 [32 * k + syObj w, 1, seqNo q]
    refine ⟨_, r, exec_synadd_over h (after_eq_false_iff.mpr hm) hn, rfl, hring, hcode, hk, hdetail, ?_, ?_⟩
    · dsimp only; rw [hcore]; exact lk_synDone _ _ _ (by decide)
    · dsimp only; rw [hseq, synDone_seq]; exact runsOn_advance _ _
  case core =>
    intro ho hn
    rw [credit_within src ho hn]
    exact ⟨lk_setSyn_same _ _ hn, fun o ho => lk_setSyn_ne _ _ _ ho, fun j hj => Dev.core_updCore_ne _ hj _, fun j q => seq_setSyn _ _ _ _ _,
      rfl, rfl⟩
  case edge =>
    intro ho hn
    rw [credit_edge_within src ho hn]
    exact ⟨lk_setEdge_same _ _ hn, fun o ho => lk_up_ne _ _ ho _, rfl, rfl⟩
  case coreOver =>
    intro ho hn
    obtain ⟨hcore, hrec⟩ := raiseStep_spec ((d.countCredit obj n).setSyn obj (2 ^ 32 - 1)) (obj / 32) 0x14 [obj, 1, src]
    rw [credit_over src ho hn, hcore]
    exact ⟨lk_setSyn_same _ _ (by decide), hrec⟩
  case edgeOver =>
    intro ho hn
    obtain ⟨-, hedge, r, hring, hcode, -, hdetail⟩ := raise_stepClass (d := (d.countCredit obj n).setEdge obj (2 ^ 32 - 1))
      (e := (d.countCredit obj n).edgeOver obj src) rfl
    rw [credit_edge_over src ho hn, hedge]
    exact ⟨lk_setEdge_same _ _ (by decide), r, hring, hcode, hdetail⟩

end Sys2Proof.Machine

/-! ## The watchdog -/

namespace Sys2Proof.Machine

/-! ### What an error of class PARTITION leaves of the cores (R400) -/

/-- The core is as before but for sequencers that were halted meanwhile: WDOG stays, and what was halted still is. -/
def Core.StaysHalted (c x : Core) : Prop := x.wdog = c.wdog ∧ ∀ q, (c.seq q).st = .halted → (x.seq q).st = .halted

theorem Core.StaysHalted.refl (c : Core) : c.StaysHalted c := ⟨rfl, fun _ h => h⟩

theorem Core.StaysHalted.trans {a b c : Core} (h : a.StaysHalted b) (g : b.StaysHalted c) : a.StaysHalted c :=
  ⟨g.1.trans h.1, fun q hq => g.2 q (h.2 q hq)⟩

theorem halt_st (x : Seq) (b : HaltBy) : (x.halt b).st = .halted := by
  unfold Seq.halt
  split
  · next h => exact h
  · rfl

/-- A halted core has both its sequencers halted. -/
theorem halt_seq_st (c : Core) (b : HaltBy) (q : SeqId) : ((c.halt b).seq q).st = .halted := by
  cases q <;> exact halt_st _ b

theorem haltPart_staysHalted (d : Dev) (p k : Nat) : (d.core k).StaysHalted ((d.haltPart p).core k) := by
  refine lk_map_rel (R := Core.StaysHalted) (.refl _) (fun e => ?_) k d.cores
  split
  · exact ⟨rfl, fun q _ => halt_seq_st _ _ q⟩
  · exact .refl _

theorem Dev.HostsTold.cores {d e : Dev} : d.HostsTold e → e.cores = d.cores := by
  rintro ⟨_, _, rfl⟩; rfl

theorem failRequests_cores (d : Dev) (p : Nat) : (d.failRequests p).cores = d.cores := by
  unfold Dev.failRequests
  split
  · rfl
  · split
    · rfl
    · next sv _ =>
      extract_lets st d1 d2
      have h1 : d1.cores = d.cores :=
        List.foldlRecOn (motive := fun e : Dev => e.cores = d.cores) _ _ rfl fun e he f _ =>
          List.foldlRecOn (motive := fun e : Dev => e.cores = d.cores) _ _ he fun e he c _ => by
            split
            · exact (ring_hostsTold _ _ _ _).cores.trans he
            · exact he
      have h3 : (sv.waiting.foldl (fun d w => d.noSample w) d2).cores = d.cores :=
        List.foldlRecOn (motive := fun e : Dev => e.cores = d.cores) _ _ h1 fun e he w _ => (noSample_hostsTold e w).cores.trans he
      exact (completeOpt_hostsTold _ _ _ _).cores.trans h3

theorem core_eq_of_cores {d e : Dev} (h : e.cores = d.cores) (k : Nat) : e.core k = d.core k := congrArg (lk Core.reset · k) h

theorem stopPart_staysHalted (d : Dev) (p k : Nat) : (d.core k).StaysHalted ((d.stopPart p).core k) := by
  rw [Dev.stopPart, core_eq_of_cores (failRequests_cores _ p)]
  exact haltPart_staysHalted d p k

theorem irqs_cores (d : Dev) (cls pm : Nat) : (d.irqs cls pm).cores = d.cores := by
  obtain ⟨es, fs, o, he, -, -⟩ := irqs_spec d cls pm
  rw [he]

theorem raise_partClass {d : Dev} {e : Err} (h : e.cls = 2) (k : Nat) : (d.core k).StaysHalted ((d.raise e).core k) := by
  simp only [Dev.raise, h]
  rw [core_eq_of_cores (irqs_cores _ 2 e.pmask)]
  exact List.foldlRecOn (motive := fun x : Dev => (d.core k).StaysHalted (x.core k)) _ _ (.refl _)
    fun x hx p _ => hx.trans (stopPart_staysHalted x p k)

/-! ### The expiry (R59) -/

/-- What the watchdog of sequencer q of core k records. -/
def Dev.wdogErr (d : Dev) (k : Nat) (q : SeqId) : Err :=
  { code := 0x15, cls := 2, source := 0, core := k, pmask := pmaskOf (d.partOf k), fpid := d.fpidOf (d.partOf k),
    detail := [seqNo q, (d.seq k q).st.code] }

theorem exec_watchdog {s : State} {k : CoreId} {q : SeqId} (hs : ((s.dev.core k).seq q).st.stalled = true)
    (hr : 2 ^ (s.dev.core k).wdogExp.toNat < ((s.dev.core k).seq q).stallRun) : exec (.watchdog k q) s = .next { s with
      dev := (s.dev.setCore k { (s.dev.core k).halt .error with wdog := true }).raise (s.dev.wdogErr k q) } := by
  refine (show execWatchdog k q s = _ from lift_of_eq ?_)
  exact if_pos (by rw [hs, decide_eq_true hr]; rfl)

/-- Settles O15: both sequencers are halted before the error is raised, and stopping the partition leaves them so. -/
theorem watchdogHaltsBothSequencers : Obligations.WatchdogHaltsBothSequencers := by
  intro k q s c x hs hr
  have hstays := raise_partClass (d := s.dev.setCore k { c.halt .error with wdog := true }) (e := s.dev.wdogErr k q) rfl k
  rw [Dev.core_setCore] at hstays
  obtain ⟨r, hring, hcode, hcore, hdetail⟩ := raise_recorded (d := s.dev.setCore k { c.halt .error with wdog := true })
    (e := s.dev.wdogErr k q) (t := { s with dev := _ }) (by simp [Dev.wdogErr]) rfl
  exact ⟨_, r, exec_watchdog hs hr, rfl, hstays.1, hstays.2 .A (halt_seq_st c .error .A), hstays.2 .E (halt_seq_st c .error .E), hring, hcode,
    hcore, hdetail⟩

end Sys2Proof.Machine

/-! ## Dispatch into the engine queues -/

namespace Sys2Proof.Machine

/-- A word with room in its queue, and no create of a handle it names running in the access stream, enters the queue (R47, R88, R90). -/
theorem dispatched_of_enqueue {s : State} {k : CoreId} {q : SeqId} {op w : Nat} {eng : Eng} {i : Instr} {hs rs : Nat → List Nat}
    (hi : exec i s = enqueue k q op eng hs rs s) (h : s.standsAt k q op w) (hl : ((s.dev.core k).queue eng).length < 8)
    (hfree : q = .A → ∀ cr ∈ (s.dev.core k).creates, cr.h ∉ hs w) : Dispatched s k q w eng i (hs w) (rs w) := by
  have hc : (decide (q = .A) && (s.dev.core k).creating (hs w)) = false := by
    simpa [Core.creating] using hfree
  exact ⟨_, _, hi.trans (enqueue_go h hc hl), runsOn_advance _ _, rfl, onlyCore_setCore s k _⟩

section Queues
variable {s : State} {k : CoreId} {op w : Nat} (i : Instr) {hs rs : Nat → List Nat}

theorem dispatched_tq (h : s.standsAt k .A op w) (hl : (s.dev.core k).tq.length < 8) (hfree : ∀ cr ∈ (s.dev.core k).creates, cr.h ∉ hs w)
    (hi : exec i s = enqueue k .A op .tq hs rs s) : Dispatched s k .A w .tq i (hs w) (rs w) :=
  dispatched_of_enqueue hi h hl fun _ => hfree

/-- A transfer word that names no handle. -/
theorem dispatched_tq_noHandle (h : s.standsAt k .A op w) (hl : (s.dev.core k).tq.length < 8)
    (hi : exec i s = enqueue k .A op .tq (fun _ => []) rs s) : Dispatched s k .A w .tq i [] (rs w) :=
  dispatched_tq i h hl (fun _ _ => List.not_mem_nil) hi

/-! The execute stream waits for no create. -/

theorem dispatched_vq (h : s.standsAt k .E op w) (hl : (s.dev.core k).vq.length < 8) (hi : exec i s = enqueue k .E op .vq hs rs s) :
    Dispatched s k .E w .vq i (hs w) (rs w) := dispatched_of_enqueue hi h hl nofun

theorem dispatched_mq (h : s.standsAt k .E op w) (hl : (s.dev.core k).mq.length < 8) (hi : exec i s = enqueue k .E op .mq hs rs s) :
    Dispatched s k .E w .mq i (hs w) (rs w) := dispatched_of_enqueue hi h hl nofun

end Queues

/-- The word a row stands at is the one fetched, and has the row's opcode. -/
theorem fetched_of_standsAt {s : State} {k : Nat} {q : SeqId} {op w : Nat} (h : s.standsAt k q op w) :
    fetch s.mem k q (s.dev.seq k q).pc = w ∧ wOp w = op := by
  unfold State.standsAt front at h
  extract_lets x v at h
  split_ifs at h with hno
  · obtain rfl := Front.go.inj h
    simp only [Bool.not_eq_true', Bool.not_eq_false, Bool.and_eq_true, beq_iff_eq] at hno
    exact ⟨rfl, hno.2⟩

/-! ### The vector words (R178, R179) -/

/-- The vector commands with their opcodes (Table 10-2). -/
def vecWords (k : CoreId) : List (Nat × Instr) :=
  [(0x81, Instr.vadd k), (0x82, .vsub k), (0x83, .vmul k), (0x84, .vfma k), (0x85, .vfnma k), (0x86, .vmin k),
   (0x87, .vmax k), (0x88, .vsadd k), (0x89, .vssub k), (0x8A, .vmulh k), (0x8B, .vand k), (0x8C, .vor k),
   (0x8D, .vxor k), (0x8E, .vshl k), (0x8F, .vshr k), (0x90, .vshrr k), (0x91, .vcmp k), (0x92, .vsel k),
   (0x93, .vidx k), (0x98, .vcvt k), (0xA0, .vredsum k), (0xA1, .vredmax k), (0xA2, .vredmin k), (0xA3, .vredargmax k),
   (0xA8, .vperm k), (0xA9, .vslide k), (0xB0, .vfn k), (0xB4, .vacc k), (0xB8, .vld k), (0xB9, .vst k),
   (0xBA, .vpop k), (0xBB, .vpush k)]

/-- Every vector command is the one dispatch into VQ, at its opcode. -/
theorem exec_vecWord {k : CoreId} {op : Nat} {i : Instr} (s : State) (h : (op, i) ∈ vecWords k) : exec i s = vqOp k op s :=
  List.map_inj_left.mp (show (vecWords k).map (fun x => exec x.2 s) = (vecWords k).map (fun x => vqOp k x.1 s) from rfl) (op, i) h

/-! ### MSTORE and MSTORE_PRESS (R199, R200) -/

section Mstore
variable {s : State} {k : CoreId} {w : Nat} (h : s.standsAt k .E 0xC1 w)
include h

theorem mstoreMode_of_standsAt : mstoreMode s k = bit w 40 := congrArg (bit · 40) (fetched_of_standsAt h).1

theorem exec_mstore (hb : bit w 40 = false) :
    exec (.mstore k) s = enqueue k .E 0xC1 .mq (fun w => [bits w 51 46]) (fun w => [bits w 45 41]) s :=
  if_neg (by rw [mstoreMode_of_standsAt h, hb]; decide)

theorem exec_mstorePress (hb : bit w 40 = true) :
    exec (.mstorePress k) s = enqueue k .E 0xC1 .mq (fun _ => []) (fun w => [bits w 45 41]) s :=
  if_pos ((mstoreMode_of_standsAt h).trans hb)

end Mstore

/-- Settles O17: every word is the one dispatch, with the queue, handles and registers of its row. -/
theorem engineWordsEnterTheirQueue : Obligations.EngineWordsEnterTheirQueue := by
  refine ⟨fun k s w hl => ?transfer, fun k s w op i hl h hm => ?vector, fun k s w hl => ?matrix⟩
  case transfer =>
    refine ⟨fun h hb hf => ?_, fun h hb hf => ?_, fun h hf => dispatched_tq (.tstore k) h hl hf rfl,
      fun h hf => dispatched_tq (.fill k) h hl hf rfl, fun h hf => dispatched_tq (.copy k) h hl hf rfl,
      fun h => dispatched_tq_noHandle (.msend k) h hl rfl, fun h => dispatched_tq_noHandle (.fsend k) h hl rfl,
      fun h => dispatched_tq_noHandle (.caveq k) h hl rfl, fun h => dispatched_tq_noHandle (.hostq k) h hl rfl⟩
    · have hs : tloadHandles w = [bits w 49 44, bits w 55 50] := if_neg (Bool.eq_false_iff.mp hb)
      exact hs ▸ dispatched_tq (hs := tloadHandles) (.tload k) h hl (hs ▸ hf) rfl
    · have hs : tloadHandles w = [bits w 49 44] := if_pos hb
      exact hs ▸ dispatched_tq (hs := tloadHandles) (.tload k) h hl (hs ▸ hf) rfl
  case vector =>
    obtain ⟨-, rfl⟩ := fetched_of_standsAt h
    exact dispatched_vq i h hl (exec_vecWord s hm)
  case matrix =>
    exact ⟨fun h => dispatched_mq (.mmul k) h hl rfl, fun h hb => dispatched_mq (.mstore k) h hl (exec_mstore h hb),
      fun h hb => dispatched_mq (.mstorePress k) h hl (exec_mstorePress h hb), fun h => dispatched_mq (.mldacc k) h hl rfl,
      fun h => dispatched_mq (.mclr k) h hl rfl⟩

end Sys2Proof.Machine

/-! ## Program stores and control of a core -/

namespace Sys2Proof.Machine

/-! ### Messages to the members of a fabric partition leave the cores alone -/

theorem emits_cores (d : Dev) (l : List Out) : (d.emits l).cores = d.cores := by
  obtain ⟨o, h⟩ := emits_eq d l
  rw [h]

theorem sendSome_cores (d : Dev) (u : Nat) (k : Packet) (n : Nat) : (d.sendSome u k n).1.cores = d.cores := by
  unfold Dev.sendSome
  extract_lets x
  split
  · exact emits_cores _ _
  · split
    · rfl
    · exact emits_cores _ _

theorem sendLoop_cores (u : Nat) (l : List Packet) (d : Dev) (bl : List Nat) (kept : List Packet) : (d.sendLoop u l bl kept).cores = d.cores := by
  induction l generalizing d bl kept with
  | nil => rfl
  | cons k r ih =>
    rw [Dev.sendLoop]
    split
    · exact ih d _ _
    · have hs := sendSome_cores d u k (lk 0 (d.port u).sent k.cls)
      dsimp only
      generalize d.sendSome u k (lk 0 (d.port u).sent k.cls) = sent at hs ⊢
      split
      · exact (ih _ _ _).trans hs
      · exact (ih _ _ _).trans hs

theorem enqueue_cores (d : Dev) (u : Nat) (k : Packet) : (d.enqueue u k).cores = d.cores := sendLoop_cores u _ _ _ _

theorem transfer_cores (d : Dev) (fpid epoch self u dst cls : Nat) (bs : List Byte) : (d.transfer fpid epoch self u dst cls bs).cores = d.cores :=
  List.foldlRecOn (motive := fun e : Dev => e.cores = d.cores) _ _ rfl fun _ he _ _ => (enqueue_cores _ _ _).trans he

theorem mgmtPacket_cores (d : Dev) (via : Option Nat) (fpid dst mtype : Nat) (answer : Bool) (seq arg : Nat) (body : List Byte) :
    (d.mgmtPacket via fpid dst mtype answer seq arg body).cores = d.cores := by
  unfold Dev.mgmtPacket
  split
  · rfl
  · split
    · rfl
    · exact transfer_cores _ _ _ _ _ _ _ _

theorem sendMgmt_cores (d : Dev) (fpid dst mtype arg : Nat) : (d.sendMgmt fpid dst mtype arg).cores = d.cores :=
  mgmtPacket_cores _ _ _ _ _ _ _ _ _

theorem sendAll_cores (d : Dev) (m : Mould) (mtype arg : Nat) : (d.sendAll m mtype arg).cores = d.cores :=
  List.foldlRecOn (motive := fun e : Dev => e.cores = d.cores) _ _ rfl fun _ he _ _ => (sendMgmt_cores _ _ _ _ _).trans he

theorem stepDoneIn_cores (d : Dev) (m : Mould) (x step : Nat) : (d.stepDoneIn m x step).cores = d.cores := by
  unfold Dev.stepDoneIn
  extract_lets l all
  split
  · exact sendAll_cores _ _ _ _
  · rfl

/-! ### The end of a step (R136, R231, R286) -/

theorem afterStepEnd_running {d : Dev} {k : Nat} (h : (d.core k).stepDone = false) : d.afterStepEnd k = d :=
  if_pos (by rw [h]; rfl)

/-- What follows the end of a step changes no more of the cores than that the register-file BIST of core k starts. -/
theorem afterStepEnd_cores (d : Dev) (k : Nat) :
    (d.afterStepEnd k).cores = d.cores ∨ (d.afterStepEnd k).cores = (d.setCore k (d.core k).startBist).cores := by
  by_cases h : (d.core k).stepDone = false
  · exact .inl (congrArg Dev.cores (afterStepEnd_running h))
  · refine .inr ?_
    rw [Dev.afterStepEnd, if_neg (by simpa using h)]
    extract_lets e p g
    have hg : g.cores = e.cores := by
      simp only [g]; split <;> rfl
    split
    · exact hg
    · split
      · extract_lets st
        split
        · exact (stepDoneIn_cores _ _ _ _).trans hg
        · exact (sendMgmt_cores _ _ _ _ _).trans hg
      · exact hg

theorem startBist_seq (c : Core) (q : SeqId) : c.startBist.seq q = c.seq q := by
  unfold Core.startBist
  split
  · cases q <;> rfl
  · rfl

/-- No sequencer moves by what follows the end of a step. -/
theorem afterStepEnd_seq (d : Dev) (k : Nat) (q : SeqId) : (d.afterStepEnd k).seq k q = d.seq k q := by
  rcases afterStepEnd_cores d k with h | h
  · exact congrArg (Core.seq · q) (core_eq_of_cores h k)
  · calc (d.afterStepEnd k).seq k q
        = ((d.setCore k (d.core k).startBist).core k).seq q := congrArg (Core.seq · q) (core_eq_of_cores h k)
      _ = d.seq k q := by rw [Dev.core_setCore, startBist_seq]; rfl

/-! ### CORE_CTRL (R60, R413) -/

section Ctrl
variable {d : Dev} {who : Option FnId} {k : Nat}

theorem coreCtrl_barred (h : d.mayCtrl who (d.partOf k) = false) (halt resume : Bool) : d.coreCtrl who k halt resume = d :=
  if_neg (by rw [h]; decide)

/-- A write that leaves a sequencer out of STEP_WAIT ends no step. -/
theorem coreCtrl_running {halt resume : Bool} (h : d.mayCtrl who (d.partOf k) = true) (hc : ((d.core k).ctrl halt resume).stepDone = false) :
    d.coreCtrl who k halt resume = d.updCore k (fun c => c.ctrl halt resume) := by
  have hend : (d.updCore k (fun c => c.ctrl halt resume)).afterStepEnd k = d.updCore k (fun c => c.ctrl halt resume) :=
    afterStepEnd_running (by rwa [Dev.core_updCore])
  rw [Dev.coreCtrl, if_pos h]
  dsimp only
  rw [hend, ite_self]

/-- The sequencers after a write are those that the write leaves. -/
theorem coreCtrl_seq (h : d.mayCtrl who (d.partOf k) = true) (halt resume : Bool) (q : SeqId) :
    (d.coreCtrl who k halt resume).seq k q = ((d.core k).ctrl halt resume).seq q := by
  have hupd : (d.updCore k (fun c => c.ctrl halt resume)).seq k q = ((d.core k).ctrl halt resume).seq q := by
    rw [Dev.seq, Dev.core_updCore]
  rw [Dev.coreCtrl, if_pos h]
  dsimp only
  split
  · exact hupd
  · rw [afterStepEnd_seq, hupd]

end Ctrl

theorem halt_of_ne {x : Seq} (h : x.st ≠ .halted) (b : HaltBy) : x.halt b = { x with st := .halted, haltBy := b, saved := x.st, stallRun := 0 } := by
  unfold Seq.halt
  split
  · next hx => exact absurd hx h
  · rfl

/-- A halted sequencer waits for no step, so a halted core has not ended its step. -/
theorem stepDone_halt (c : Core) (b : HaltBy) : (c.halt b).stepDone = false := by
  have ha : (c.halt b).a.st = .halted := halt_seq_st c b .A
  rw [Core.stepDone, ha]; rfl

theorem ctrl_resume_seq (c : Core) (q : SeqId) : (c.ctrl false true).seq q = (c.seq q).resume := by
  cases q <;> rfl

/-- A resume gives back the state of a sequencer that HALT stopped, and nothing else (R60). -/
theorem resume_spec (x : Seq) : x.resume.st = (if x.st = .halted ∧ x.haltBy = .ctrl then x.saved else x.st) ∧
    x.resume.regs = x.regs ∧ x.resume.pc = x.pc := by
  unfold Seq.resume
  split
  · next hst hby => exact ⟨(if_pos ⟨hst, hby⟩).symm, rfl, rfl⟩
  · next h => exact ⟨(if_neg fun hx => h hx.1 hx.2).symm, rfl, rfl⟩

/-! ### The commands (R43, R60, R135) -/

theorem exec_programStoreWrite_quiet {s : State} {k : CoreId} (q : SeqId) (n : BitVec 13) (v : Word) (h : (s.dev.core k).quiet = true) :
    exec (.programStoreWrite k q n v) s =
      .next { s with mem := memAll s.mem (wrBytes (progBase k q + 8 * n.toNat) (natLe v.toNat 8)) } := by
  refine (show execProgramStoreWrite k q n v s = _ from (liftW_of_eq (if_pos h)).trans ?_)
  rw [caveAll_wrBytes]

theorem exec_programStoreWrite_busy {s : State} {k : CoreId} (q : SeqId) (n : BitVec 13) (v : Word) (h : (s.dev.core k).quiet = false) :
    exec (.programStoreWrite k q n v) s = .next { s with dev := s.dev.setCore k { s.dev.core k with psWdrop := true } } := by
  refine (show execProgramStoreWrite k q n v s = _ from liftW_of_eq (w := []) ?_)
  exact if_neg (Bool.eq_false_iff.mp h)

theorem exec_coreHalt {s : State} {who : Option FnId} {k : CoreId} (h : s.dev.mayCtrl who (s.dev.partOf k) = true) :
    exec (.coreHalt who k) s = .next { s with dev := s.dev.setCore k ((s.dev.core k).halt .ctrl) } :=
  show execCoreHalt who k s = _ from lift_of_eq (coreCtrl_running h (stepDone_halt _ _))

theorem exec_vecStarterWrite (s : State) (k : CoreId) (v : Bool) :
    exec (.vecStarterWrite k v) s = .next { s with dev := s.dev.setCore k ((s.dev.core k).starterWrite v) } := rfl

/-- The mode that a write of STARTER leaves: start-up and recovery keep theirs (R135). -/
theorem starterWrite_quiet {c : Core} (v : Bool) (h : c.quiet = true) : c.starterWrite v = { c with vec := { c.vec with
    starter := v, mode := if c.vec.mode = 1 ∨ c.vec.mode = 3 then c.vec.mode else if v then 2 else 0 } } := by
  rw [Core.starterWrite, if_pos h]
  dsimp only
  split <;> rfl

theorem starterWrite_busy {c : Core} (v : Bool) (h : c.quiet = false) : c.starterWrite v = c := if_neg (Bool.eq_false_iff.mp h)

/-- Settles O29: the store's write by whether the core is quiet, HALT and RESUME by `coreCtrl`, STARTER by its two cases. -/
theorem programStoreAndCoreControl : Obligations.ProgramStoreAndCoreControl := by
  refine ⟨fun k q n v s hm => ⟨fun hq => ?store, fun hq => ?drop⟩,
    fun who k s v => ⟨fun h => ⟨fun ha he => ?halt, ?resume⟩, fun h => ⟨?barHalt, ?barResume⟩, fun hq => ?starter, fun hq => ?ignored⟩⟩
  case store =>
    refine ⟨_, exec_programStoreWrite_quiet q n v hq, rfl, rfl, ?_⟩
    cases q <;> exact written_of_wrBytes hm rfl
  case drop => exact ⟨_, exec_programStoreWrite_busy q n v hq, onlyCore_setCore s k _⟩
  case halt =>
    rw [← halt_of_ne ha .ctrl, ← halt_of_ne he .ctrl]
    exact ⟨_, exec_coreHalt h, onlyCore_setCore s k _⟩
  case resume =>
    refine ⟨_, (rfl : execCoreResume who k s = _), rfl, fun q => ?_⟩
    dsimp only
    rw [coreCtrl_seq h, ctrl_resume_seq]
    exact resume_spec _
  case barHalt => exact show execCoreHalt who k s = _ from lift_of_eq (coreCtrl_barred h _ _)
  case barResume => exact show execCoreResume who k s = _ from lift_of_eq (coreCtrl_barred h _ _)
  case starter =>
    rw [exec_vecStarterWrite, starterWrite_quiet v hq]
    exact ⟨_, rfl, onlyCore_setCore s k _⟩
  case ignored =>
    rw [exec_vecStarterWrite, starterWrite_busy v hq]
    exact ⟨_, rfl, onlyCore_setCore s k _⟩

end Sys2Proof.Machine

/-! ## Creating and retiring descriptors -/

namespace Sys2Proof.Machine

/-! ### Step 2 of R88 -/

section Step2
variable (c : Core) (h : Nat)

/-- GEN counts on and VALID is clear; the fields of the last descriptor stay (R87). -/
theorem lk_descStep2_same : lk DescEntry.reset (c.descStep2 h).desc h =
    { lk DescEntry.reset c.desc h with valid := false, gen := (lk DescEntry.reset c.desc h).gen + 1 } := lk_up_same _ _ _ _

theorem lk_descStep2_ne {i : Nat} (hi : i ≠ h) : lk DescEntry.reset (c.descStep2 h).desc i = lk DescEntry.reset c.desc i :=
  lk_up_ne _ _ hi _

end Step2

/-! ### Asking for images (R89, R166) -/

/-- What a create is to read, and for which handle: this stays while its image is asked for and comes. -/
def Create.wants (x : Create) : Nat × Nat × Nat := (x.h, x.addr, x.len)

/-- The core t is c with image reads asked for: TQ-read requests stand behind those there, and every create wants what it wanted. -/
def Core.AskedImages (c t : Core) : Prop :=
  ∃ cs rq, t = { c with creates := cs, lsq := c.lsq ++ rq } ∧ cs.map Create.wants = c.creates.map Create.wants ∧
    ∀ r ∈ rq, r.cls = .tqRead ∧ r.write = false

theorem Core.AskedImages.refl (c : Core) : c.AskedImages c :=
  ⟨c.creates, [], by rw [List.append_nil], rfl, List.forall_mem_nil _⟩

/-- One more image read asked for: only whether and what is awaited of the creates changes. -/
theorem Core.AskedImages.ask {c t : Core} (h : c.AskedImages t) (id : Nat) (ls : List Nat) : c.AskedImages { t with
    lsq := t.lsq ++ [⟨.tqRead, id, ls, false, []⟩],
    creates := t.creates.map (fun y => if y.id = id then { y with asked := true, left := 1 } else y) } := by
  obtain ⟨cs, rq, rfl, hcs, hrq⟩ := h
  refine ⟨_, rq ++ [⟨.tqRead, id, ls, false, []⟩], by rw [← List.append_assoc], ?_, ?_⟩
  · rw [← hcs, List.map_map]
    refine List.map_congr_left fun y _ => ?_
    dsimp only [Function.comp]
    split <;> rfl
  · exact List.forall_mem_append.mpr ⟨hrq, List.forall_mem_singleton.mpr ⟨rfl, rfl⟩⟩

theorem askCreates_askedImages (c : Core) (k : Nat) : c.AskedImages (c.askCreates k) :=
  List.foldlRecOn (motive := fun t => c.AskedImages t) _ _ (.refl c) fun t ht x _ => by
    dsimp only
    split
    · exact ht
    · exact ht.ask x.id _

/-! ### The words and the arrival of an image -/

/-- Core k once the word w has started its create, before any image is asked for. -/
def Dev.createStarted (d : Dev) (k w : Nat) : Core :=
  let c := d.core k
  { c.descStep2 (bits w 55 50) with
    a := c.a.advance
    creates := c.creates ++
      [⟨bits w 55 50, lsBase k + (c.a.get (bits w 49 45)).toNat, if d.compat k then 48 else 64, c.newJob, false, 0, []⟩] }

section Words
variable {s : State} {k : CoreId} {w : Nat}

theorem exec_dcreate_starts (h : s.standsAt k .A 0x50 w) (hb : (s.dev.core k).descBusy (bits w 55 50) = false)
    (hv : ((s.dev.core k).a.get (bits w 49 45)).toNat < 2 ^ 20)
    (ha : ((s.dev.core k).a.get (bits w 49 45)).toNat % (if s.dev.compat k then 16 else 64) = 0) :
    exec (.dcreate k) s = .next { s with dev := s.dev.setCore k ((s.dev.createStarted k w).askCreates k) } := by
  refine seqOp_ok (o := execDcreate k s) rfl h ?_
  dsimp only
  rw [if_neg (Bool.eq_false_iff.mp hb), if_neg (not_or.mpr ⟨Nat.not_le.mpr hv, not_not.mpr ha⟩)]
  rfl

theorem exec_dretire_free (h : s.standsAt k .A 0x51 w) (hb : (s.dev.core k).descBusy (bits w 55 50) = false) :
    exec (.dretire k) s = .next { s with
      dev := s.dev.setCore k { (s.dev.core k).descStep2 (bits w 55 50) with a := (s.dev.core k).a.advance } } := by
  refine seqOp_ok (o := execDretire k s) rfl h ?_
  exact if_neg (Bool.eq_false_iff.mp hb)

theorem exec_dcreateComplete_valid {cr : Create} {rest : List Create} (hc : (s.dev.core k).creates = cr :: rest)
    (hasked : cr.asked = true) (hleft : cr.left = 0) (hend : cr.addr + cr.len ≤ lsBase k + 2 ^ 20)
    (hval : validate (cr.image k s.dev.free) (parseDesc (cr.image k s.dev.free) (s.dev.compat k))
      ((s.dev.mouldOf (s.dev.partOf k)).elim [] (fun m => m.ranges)) (s.dev.partOf k) k = none) :
    exec (.dcreateComplete k) s = .next { s with dev := s.dev.setCore k { s.dev.core k with
      creates := rest,
      desc := up (s.dev.core k).desc cr.h { lk DescEntry.reset (s.dev.core k).desc cr.h with
        valid := true, f := parseDesc (cr.image k s.dev.free) (s.dev.compat k), img := some cr.addr } } } := by
  refine (show execDcreateComplete k s = _ from lift_of_eq ?_)
  simp only [hc, hasked, hleft, if_pos hend, hval]
  exact if_neg (by decide)

end Words

/-- Settles O16: both words do step 2 at once; DCREATE's new create then asks for its image like every create, and the image's
arrival writes the handle's entry. -/
theorem descriptorLifeCycle : Obligations.DescriptorLifeCycle := by
  refine fun k s w => ⟨fun h hb hv ha => ?create, fun h hb => ?retire, fun cr rest hc hasked hleft hend hval => ?complete⟩
  case create =>
    have hexec := exec_dcreate_starts h hb hv ha
    obtain ⟨cs, rq, ht, hcs, hrq⟩ := askCreates_askedImages (s.dev.createStarted k w) k
    rw [ht] at hexec
    exact ⟨_, _, _, cs, rq, hexec, runsOn_advance _ _, rfl, onlyCore_setCore s k _, hcs.trans List.map_append, hrq,
      lk_descStep2_same _ _, fun i hi => lk_descStep2_ne _ _ hi⟩
  case retire =>
    exact ⟨_, _, _, exec_dretire_free h hb, runsOn_advance _ _, rfl, onlyCore_setCore s k _, lk_descStep2_same _ _,
      fun i hi => lk_descStep2_ne _ _ hi⟩
  case complete =>
    exact ⟨_, _, exec_dcreateComplete_valid hc hasked hleft hend hval, onlyCore_setCore s k _, lk_up_same _ _ _ _,
      fun i hi => lk_up_ne _ _ hi _⟩

end Sys2Proof.Machine

/-! ## Jobs in flight -/

namespace Sys2Proof.Machine

/-! ### What the progress of a job leaves of its core -/

/-- What a job was made as: its number, its engine, its kind and its entry. -/
def Job.made (j : Job) : Nat × Eng × JobKind × QEntry := (j.id, j.eng, j.kind, j.ent)

/-- The core x is c with its work further on: the same jobs, with what they have read, asked for and sent. -/
def Core.GoesOn (c x : Core) : Prop :=
  x = { c with jobs := x.jobs, fgr := x.fgr, lsq := x.lsq, slcWant := x.slcWant, digest := x.digest } ∧
    x.jobs.map Job.made = c.jobs.map Job.made

/-- The core x is c with its work further on, in the arrays too: their stationary registers and cells may hold other tiles (R114). -/
structure Core.Advances (c x : Core) : Prop where
  rest : x = { c with jobs := x.jobs, fgr := x.fgr, lsq := x.lsq, slcWant := x.slcWant, digest := x.digest, mx := x.mx }
  jobs : x.jobs.map Job.made = c.jobs.map Job.made
  mx : x.mx = { c.mx with statActive := x.mx.statActive, statShadow := x.mx.statShadow, cellActive := x.mx.cellActive,
                          cellShadow := x.mx.cellShadow }

theorem Core.GoesOn.refl (c : Core) : c.GoesOn c := ⟨rfl, rfl⟩

theorem Core.GoesOn.trans {a b c : Core} (h : a.GoesOn b) (g : b.GoesOn c) : a.GoesOn c :=
  ⟨g.1.trans (by rw [h.1]), g.2.trans h.2⟩

theorem Core.GoesOn.advances {c x : Core} (h : c.GoesOn x) : c.Advances x := ⟨h.1.trans (by rw [h.1]), h.2, by rw [h.1]⟩

theorem Core.Advances.refl (c : Core) : c.Advances c := ⟨rfl, rfl, rfl⟩

theorem Core.Advances.trans {a b c : Core} (h : a.Advances b) (g : b.Advances c) : a.Advances c :=
  ⟨g.rest.trans (by rw [h.rest]), g.jobs.trans h.jobs, g.mx.trans (by rw [h.mx])⟩

/-- Changing a job, but not what it was made as, leaves what every job was made as. -/
theorem made_updJob (c : Core) (id : Nat) {f : Job → Job} (hf : ∀ j, (f j).made = j.made) :
    (c.updJob id f).jobs.map Job.made = c.jobs.map Job.made := by
  rw [Core.updJob_jobs, List.map_map]
  refine List.map_congr_left fun j _ => ?_
  dsimp only [Function.comp]
  split
  · exact hf j
  · rfl

theorem updJob_goesOn (c : Core) (id : Nat) {f : Job → Job} (hf : ∀ j, (f j).made = j.made) : c.GoesOn (c.updJob id f) :=
  ⟨rfl, made_updJob c id hf⟩

/-! ### MMULs become active (R114) -/

theorem stageJob_advances (c : Core) (j : Job) : c.Advances (c.stageJob j) where
  rest := rfl
  jobs := made_updJob _ _ fun _ => rfl
  mx := by
    unfold Core.stageJob Core.updJob
    dsimp only
    split <;> rfl

theorem startPass_advances (c : Core) (j : Job) : c.Advances (c.startPass j) where
  rest := rfl
  jobs := made_updJob _ _ fun _ => rfl
  mx := by
    unfold Core.startPass Core.updJob
    dsimp only
    split
    · rfl
    · split <;> rfl

theorem advanceMmul_advances (c : Core) (id : Nat) : c.Advances (c.advanceMmul id) := by
  unfold Core.advanceMmul
  split
  · exact .refl c
  · next j _ =>
    split
    · exact .refl c
    · extract_lets c1
      have h1 : c.Advances c1 := by
        unfold c1; split
        · exact .refl c
        · exact stageJob_advances c j
      clear_value c1
      split
      · exact h1
      · exact h1.trans (startPass_advances c1 j)

theorem matAdvance_advances (c : Core) : c.Advances c.matAdvance :=
  List.foldlRecOn (motive := c.Advances) _ _ (.refl c) fun x hx j _ => hx.trans (advanceMmul_advances x j.id)

end Sys2Proof.Machine

/-! ## Results of the matrix unit -/

namespace Sys2Proof.Machine

/-! ### Tiles and credits of the words (R116, R196, R202, R203) -/

theorem mem_mqTiles_mmul {w t : Nat} (h : wOp w = 0xC0) :
    t ∈ mqTiles w ↔ ∃ j < 2 ^ bits w 41 40, 2 * (bits w 39 37 + j) + bits w 36 36 = t := by
  simp [mqTiles, h]

theorem mem_mqTiles_mclr {w t : Nat} (h : wOp w = 0xC3) : t ∈ mqTiles w ↔ t < 16 ∧ bit (bits w 55 40) t = true := by
  simp [mqTiles, h]

/-- A credit of 1 that a bit of the word asks for (R116, R202). -/
theorem creditPair_one (d : Dev) (b : Bool) (o : Nat) : d.creditPair (if b then some (o, 1) else none) = d.creditIf b o 1 4 := by
  cases b <;> rfl

theorem mqCredit_mmul {e : QEntry} (f : DescF) (h : wOp e.w = 0xC0) :
    mqCredit e f = if bit e.w 15 then some (bits e.w 14 0, 1) else none := by
  simp only [mqCredit, h]

theorem mqCredit_press {e : QEntry} (f : DescF) (h : wOp e.w = 0xC1) (hp : bit e.w 40 = true) : mqCredit e f = none := by
  simp [mqCredit, h, hp]

theorem mqCredit_mldacc {e : QEntry} (f : DescF) (h : wOp e.w = 0xC2) :
    mqCredit e f = if bit e.w 28 then some (bits e.w 43 29, 1) else none := by
  simp only [mqCredit, h]

theorem mqCredit_mclr {e : QEntry} (f : DescF) (h : wOp e.w = 0xC3) : mqCredit e f = none := by
  simp only [mqCredit, h]

/-! ### The effects (R196, R202, R203) -/

/-- A pass leaves everything but the matrix unit and the numeric flags, and in that the tiles that are not of its gang. -/
theorem mmulRun_leaves {c : Core} {j : Job} (hw : wOp j.ent.w = 0xC0) :
    c.mmulRun j = { c with mx := (c.mmulRun j).mx, numFlags := (c.mmulRun j).numFlags } ∧
    ∀ t, t ∉ mqTiles j.ent.w → lk Tile.reset (c.mmulRun j).mx.acc t = lk Tile.reset c.mx.acc t := by
  refine List.foldlRecOn (motive := fun x : Core => x = { c with mx := x.mx, numFlags := x.numFlags } ∧
    ∀ t, t ∉ mqTiles j.ent.w → lk Tile.reset x.mx.acc t = lk Tile.reset c.mx.acc t) _ _ ⟨rfl, fun _ _ => rfl⟩ ?_
  intro x hx i hi
  obtain ⟨hrest, htiles⟩ := hx
  extract_lets ar st t
  split
  next tile f _ =>
  extract_lets mx1 mx2 mx3
  have hacc : mx3.acc = up x.mx.acc t tile := by
    unfold mx3 mx2; split <;> split <;> rfl
  clear_value mx3
  refine ⟨by rw [hrest]; rfl, fun n hn => ?_⟩
  have hne : n ≠ t := fun h => hn ((mem_mqTiles_mmul hw).mpr ⟨i, List.mem_range.mp hi, h.symm⟩)
  exact (congrArg (lk Tile.reset · n) hacc).trans ((lk_up_ne _ _ hne _).trans (htiles n hn))

/-- A load of one tile writes that tile, with the tag of its word, and no other. -/
theorem lk_mldaccRun (c : Core) (k : Nat) (j : Job) :
    (lk Tile.reset (c.mldaccRun k j).mx.acc (bits j.ent.w 55 52)).tag = bits j.ent.w 51 50 ∧
    ∀ x, x ≠ bits j.ent.w 55 52 → lk Tile.reset (c.mldaccRun k j).mx.acc x = lk Tile.reset c.mx.acc x :=
  ⟨congrArg Tile.tag (lk_up_same _ _ _ _), fun _ hx => lk_up_ne _ _ hx _⟩

/-- One value written under each key of a list. -/
theorem lk_foldl_up {α : Type} (z v : α) (l : List Nat) (m : SMap α) (x : Nat) :
    lk z (l.foldl (fun m t => up m t v) m) x = if x ∈ l then v else lk z m x := by
  induction l generalizing m with
  | nil => rfl
  | cons t r ih =>
    rw [List.foldl_cons, ih, lk_up]
    by_cases hr : x ∈ r
    · simp [hr]
    · simp [hr]

/-- A clear writes its masked tiles, and no other. -/
theorem lk_mclrRun (c : Core) {w : Nat} (h : wOp w = 0xC3) (x : Nat) : lk Tile.reset (c.mclrRun w).mx.acc x =
    if x < 16 ∧ bit (bits w 55 40) x then ⟨bits w 39 38, []⟩ else lk Tile.reset c.mx.acc x := by
  simp only [Core.mclrRun, lk_foldl_up, mem_mqTiles_mclr h]

/-! ### The commands -/

/-- A core written and then changed is written once. -/
theorem Dev.updCore_setCore (d : Dev) (k : Nat) (c : Core) (f : Core → Core) : (d.setCore k c).updCore k f = d.setCore k (f c) := by
  rw [Dev.updCore, Dev.core_setCore, Dev.setCore, Dev.setCore, up_up, Dev.setCore]

/-- The core once the job of that number has ended, with every MMUL that has waited for its tiles gone on. -/
def Core.ended (c : Core) (id : Nat) : Core := (c.endJob id).matAdvance

theorem ended_leaves (c : Core) (id : Nat) : (c.ended id).mx.acc = c.mx.acc ∧ (c.ended id).a = c.a ∧ (c.ended id).e = c.e ∧
    (c.ended id).vec = c.vec ∧ (c.ended id).fgw = c.fgw.filter (fun g => g.job ≠ id) := by
  obtain ⟨h, -, hmx⟩ := matAdvance_advances (c.endJob id)
  exact ⟨congrArg (·.acc) hmx, congrArg (·.a) h, congrArg (·.e) h, congrArg (·.vec) h, congrArg (·.fgw) h⟩

/-- Where every job of a list may be passed, none of them is in the way. -/
theorem any_mqBefore {j : Job} {l : List Job} (h : ∀ x ∈ l, mqBefore j x = false) : l.any (mqBefore j) = false :=
  List.any_eq_false.mpr fun x hx => Bool.eq_false_iff.mp (h x hx)

/-- The core after the effect of an MSTORE, MLDACC or MCLR whose accesses are done; a press store has none (R202 to R204). -/
def Core.accRun (c : Core) (k : Nat) (j : Job) : Core :=
  match j.kind with
  | .mldacc => c.mldaccRun k j
  | .mclr => c.mclrRun j.ent.w
  | .mstore => c.mstoreFlags j
  | _ => c

section Complete
variable {s : State} {k : CoreId} {i : Nat} {j : Job} (hj : (s.dev.core k).jobs[i]? = some j) (hissued : j.issued = true)
  (hrd : j.rdLeft = 0) (hlost : j.lost = false) (hk : s.dev.clocked k = true)
  (hfirst : ∀ x ∈ (s.dev.core k).jobs.take i, mqBefore j x = false)
include hj hissued hrd hlost hk hfirst

theorem exec_mmulComplete (hkind : j.kind = .mmul) (hactive : j.active = true) : exec (.mmulComplete k i) s = .next { s with
    dev := (s.dev.setCore k (((s.dev.core k).mmulRun j).ended j.id)).creditPair (mqCredit j.ent DescF.zero) } := by
  refine (show execMmulComplete k i s = _ from lift_of_eq ?_)
  simp only [hj, hkind, hactive, hissued, hrd, hlost, hk, any_mqBefore hfirst]
  rfl

theorem exec_accTransferComplete (heng : j.eng = .mq) (hwr : j.wrLeft = 0) (hkind : j.kind ≠ .mmul) :
    exec (.accTransferComplete k i) s = .next { s with
      dev := (s.dev.setCore k (((s.dev.core k).accRun k j).ended j.id)).creditPair (mqCredit j.ent (j.descs.getD 0 DescF.zero)) } := by
  refine (show execAccTransferComplete k i s = _ from lift_of_eq ?_)
  simp only [hj, heng, hkind, hissued, hrd, hwr, hlost, hk, any_mqBefore hfirst]
  rfl

end Complete

section Checksum
variable {s : State} {k : CoreId} {u : CkDue} {rest : List CkDue} (hdue : (s.dev.core k).mx.due = u :: rest)
include hdue

/-- A comparison in which every sum agrees only goes. -/
theorem exec_checksumCompare_agree (hrows : ∀ e ∈ u.rows, e.2.1 = e.2.2 % (2 ^ 61 - 1)) (hcols : ∀ e ∈ u.cols, e.2.1 = e.2.2 % (2 ^ 61 - 1)) :
    exec (.checksumCompare k []) s = .next { s with
      dev := s.dev.setCore k { s.dev.core k with mx := { (s.dev.core k).mx with due := rest } } } := by
  have hnone {l : List (Nat × Nat × Nat)} (h : ∀ e ∈ l, e.2.1 = e.2.2 % (2 ^ 61 - 1)) :
      l.find? (fun e => decide (e.2.1 ≠ e.2.2 % (2 ^ 61 - 1))) = none :=
    List.find?_eq_none.mpr fun e he => by rw [decide_eq_true_eq]; exact not_not.mpr (h e he)
  refine (show execChecksumCompare k [] s = _ from lift_of_eq ?_)
  simp only [hdue, List.filter_nil, List.map_nil, List.sum_nil, Nat.add_zero, hnone hrows, hnone hcols]
  rfl

/-- The core once the oldest comparison has gone and its array's error bit is set. -/
def Core.ckFailed (c : Core) (u : CkDue) (rest : List CkDue) : Core :=
  { c with mx := { c.mx with due := rest, ckErr := c.mx.ckErr ||| BitVec.ofNat 8 (2 ^ u.array) } }

/-- A first row that differs is recorded where the sums are checked. -/
theorem exec_checksumCompare_row {row err want got : Nat} {more : List (Nat × Nat × Nat)} (hrows : u.rows = (row, want, got) :: more)
    (hne : want ≠ (got + err) % (2 ^ 61 - 1)) (hcols : u.cols = []) (hen : (s.dev.core k).mx.ckEn = true) :
    exec (.checksumCompare k [(true, row, err)]) s = .next { s with
      dev := (s.dev.setCore k ((s.dev.core k).ckFailed u rest)).raiseStep k 0x16 [u.array, u.df, row, 0xFF] } := by
  have hfind : u.rows.find? (fun e => decide (e.2.1 ≠
      (e.2.2 + (([(true, row, err)].filter (fun f => f.1 == true && f.2.1 == e.1)).map (fun f => f.2.2)).sum) % (2 ^ 61 - 1))) =
      some (row, want, got) := by
    rw [hrows]; exact List.find?_cons_of_pos (by simpa using hne)
  refine (show execChecksumCompare k [(true, row, err)] s = _ from lift_of_eq ?_)
  simp only [hdue, hcols, hfind, List.find?_nil]
  refine (if_pos hen).trans ?_
  rw [Dev.updCore_setCore]
  rfl

end Checksum

/-- Settles O24: the three completions by their equations, the rest by what the effects leave. -/
theorem matrixResults : Obligations.MatrixResults := by
  refine ⟨?mmul, ?checksum, ?transfer⟩
  case mmul =>
    intro k i s j c w hj hkind hw hactive hissued hrd hlost hk hfirst
    obtain ⟨hrest, htiles⟩ := mmulRun_leaves (c := c) hw
    have hexec := exec_mmulComplete hj hissued hrd hlost hk hfirst hkind hactive
    rw [mqCredit_mmul _ hw, creditPair_one] at hexec
    exact ⟨hexec, (ended_leaves _ j.id).1, htiles, congrArg (·.a) hrest, congrArg (·.e) hrest, congrArg (·.vec) hrest,
      congrArg (·.jobs) hrest, congrArg (·.syn) hrest⟩
  case checksum =>
    intro k s u rest c m hdue
    refine ⟨fun hrows hcols => ⟨_, exec_checksumCompare_agree hdue hrows hcols, onlyCore_setCore s k _⟩,
      fun row err want got more hrows hne hcols hen => ?row⟩
    obtain ⟨hcore, -, r, hring, hcode, hk, hdetail⟩ := raiseStep_setCore s.dev k (c.ckFailed u rest) 0x16 [u.array, u.df, row, 0xFF]
    refine ⟨_, r, exec_checksumCompare_row hdue hrows hne hcols hen, rfl, ?_, ?_, ?_, hring, hcode, hk, hdetail⟩
    all_goals
      dsimp only
      rw [hcore]
      rfl
  case transfer =>
    intro k i s j c w f ended hj heng hissued hrd hwr hlost hk hfirst
    have hexec := exec_accTransferComplete hj hissued hrd hlost hk hfirst heng hwr
    refine ⟨fun hkind hw => ?mclr, fun hkind hw => ?mldacc, fun hkind => ?mstore, fun hkind hw hp => ?press, fun x => ended_leaves x j.id⟩
    all_goals
      replace hexec := hexec (by rw [hkind]; decide)
      simp only [Core.accRun, hkind] at hexec
    case mclr =>
      rw [mqCredit_mclr _ hw] at hexec
      exact ⟨_, _, hexec, onlyCore_setCore s k _, lk_mclrRun c hw⟩
    case mldacc =>
      rw [mqCredit_mldacc _ hw, creditPair_one] at hexec
      exact ⟨hexec, lk_mldaccRun c k j⟩
    case mstore => exact ⟨hexec, rfl, rfl⟩
    case press =>
      rw [mqCredit_press _ hw hp] at hexec
      exact ⟨_, hexec, onlyCore_setCore s k _⟩

end Sys2Proof.Machine

/-! ## Acceptance of engine instructions -/

namespace Sys2Proof.Machine

/-! ### What a device does for a job of one core -/

/-- On the device the work of core k went on: no error is recorded, and every other core is as before. -/
structure Dev.GoesOn (k : Nat) (d e : Dev) : Prop where
  errs : e.errs = d.errs
  others : ∀ j, j ≠ k → e.core j = d.core j
  core : (d.core k).GoesOn (e.core k)

section GoesOn
variable {k : Nat}

theorem Dev.GoesOn.refl (d : Dev) : d.GoesOn k d := ⟨rfl, fun _ _ => rfl, .refl _⟩

theorem Dev.GoesOn.trans {d e g : Dev} (h : d.GoesOn k e) (i : e.GoesOn k g) : d.GoesOn k g :=
  ⟨i.errs.trans h.errs, fun j hj => (i.others j hj).trans (h.others j hj), h.core.trans i.core⟩

theorem setCore_goesOn {d : Dev} {c : Core} (h : (d.core k).GoesOn c) : d.GoesOn k (d.setCore k c) :=
  ⟨rfl, fun _ hj => Dev.core_setCore_ne _ hj _, by rwa [Dev.core_setCore]⟩

theorem updCore_goesOn (d : Dev) {f : Core → Core} (h : ∀ c : Core, c.GoesOn (f c)) : d.GoesOn k (d.updCore k f) := setCore_goesOn (h _)

/-- The networks are no core's. -/
theorem net_goesOn (d : Dev) (n : Net) : d.GoesOn k { d with net := n } := ⟨rfl, fun _ _ => rfl, .refl _⟩

end GoesOn

/-! ### Injection (R24, R27, R201) -/

theorem pressSent_goesOn (c : Core) : c.GoesOn c.pressSent := by
  unfold Core.pressSent
  split
  · exact updJob_goesOn c _ fun _ => rfl
  · exact .refl c

theorem feedL_goesOn (k vc n : Nat) (d : Dev) : d.GoesOn k (d.feedL k vc n) := by
  induction n generalizing d with
  | zero => exact .refl d
  | succ n ih =>
    unfold Dev.feedL
    extract_lets pos
    split
    · exact .refl d
    · split
      · exact (net_goesOn d _).trans (ih _)
      · split
        · extract_lets d1
          have h1 : d.GoesOn k d1 := net_goesOn d _
          refine (h1.trans ?_).trans (ih _)
          split
          · exact .refl d1
          · exact updCore_goesOn d1 pressSent_goesOn
        · exact .refl d

theorem feed_goesOn (d : Dev) (k : Nat) : d.GoesOn k (d.feed k) := (feedL_goesOn k 0 4 d).trans (feedL_goesOn k 1 4 _)

theorem inject_goesOn (d : Dev) (k : Nat) (l : List Flit) : d.GoesOn k (d.inject k l) := (net_goesOn d _).trans (feed_goesOn _ k)

theorem injectM_goesOn (d : Dev) (k : Nat) (l : List Flit) : d.GoesOn k (d.injectM k l) := (net_goesOn d _).trans (feed_goesOn _ k)

theorem sendRoute_goesOn (d : Dev) (k : Nat) (e : QEntry) (mk : BitVec 64 → List Flit) (n : Nat) : d.GoesOn k (d.sendRoute k e mk n) := by
  unfold Dev.sendRoute
  extract_lets r port direct hdr
  split
  · exact net_goesOn d _
  · exact inject_goesOn d k _

/-! ### Reads and writes (R34, R142, R235) -/

theorem digestAdd_goesOn (d : Dev) (k : Nat) (items : List (Nat × List Byte)) : d.GoesOn k (d.digestAdd k items) := by
  unfold Dev.digestAdd
  split
  · exact updCore_goesOn d fun c => ⟨rfl, rfl⟩
  · exact .refl d

theorem wantSlices_goesOn (d : Dev) (k : Nat) (cls : LsClass) (l : List SlcAcc) : d.GoesOn k (d.wantSlices k cls l) := by
  unfold Dev.wantSlices
  split
  · exact net_goesOn d _
  · exact updCore_goesOn d fun c => ⟨rfl, rfl⟩

theorem issueReads_goesOn (d : Dev) (k id : Nat) (cls : LsClass) (n : Nat) (addrs : List Nat) : d.GoesOn k (d.issueReads k id cls n addrs) := by
  unfold Dev.issueReads
  extract_lets rs ss m
  refine (updCore_goesOn d fun c => ?_).trans (wantSlices_goesOn _ k cls ss)
  exact ⟨rfl, made_updJob _ _ fun _ => rfl⟩

theorem issueStores_goesOn (d : Dev) (k id : Nat) (cls : LsClass) (n : Nat) (last : Bool) (groups : List (List MByte)) :
    d.GoesOn k (d.issueStores k id cls n last groups) := by
  unfold Dev.issueStores
  extract_lets rs ss d1
  have h1 : d.GoesOn k d1 := updCore_goesOn d fun c => ⟨rfl, made_updJob _ _ fun _ => rfl⟩
  exact (h1.trans (digestAdd_goesOn d1 k _)).trans (wantSlices_goesOn _ k cls ss)

/-! ### A job whose reads are in (R145, R151) -/

theorem copyStep_goesOn (d : Dev) (k : Nat) (j : Job) : d.GoesOn k (d.copyStep k j) := by
  unfold Dev.copyStep
  extract_lets ms last d1
  have h1 : d.GoesOn k d1 := updCore_goesOn d fun c => ⟨rfl, made_updJob _ _ fun _ => rfl⟩
  clear_value d1
  split
  · exact .refl d
  · split
    · exact .refl d
    · split
      · exact issueReads_goesOn d k _ _ _ _
      · exact h1.trans (issueStores_goesOn d1 k _ _ _ _ _)

theorem issueJob_goesOn (d : Dev) (k id : Nat) : d.GoesOn k (d.issueJob k id) := by
  unfold Dev.issueJob
  extract_lets c d1
  have h1 : d.GoesOn k d1 := setCore_goesOn ⟨rfl, made_updJob _ _ fun _ => rfl⟩
  clear_value d1
  split
  · exact .refl d
  · next j _ =>
    split
    · exact .refl d
    · split
      · exact copyStep_goesOn d k j
      · refine h1.trans ?_
        split
        case h_5 => exact updCore_goesOn d1 fun c => updJob_goesOn c id fun _ => rfl
        case h_6 => exact inject_goesOn d1 k _
        case h_7 => exact (digestAdd_goesOn d1 k _).trans (sendRoute_goesOn _ k _ _ _)
        case h_8 => exact .refl d1
        all_goals exact issueStores_goesOn d1 k id _ _ _ _

/-! ### An instruction becomes a job (R149, R151) -/

/-- Taking a job in writes its queue, the jobs and the fill guard. -/
theorem startJob_leaves (c : Core) (j : Job) (src : List (Nat × Nat)) (dst : Option (Nat × Nat)) :
    (c.startJob j src dst).queue j.eng = (c.queue j.eng).drop 1 ∧
    c.startJob j src dst = { c with
      tq := (c.startJob j src dst).tq, vq := (c.startJob j src dst).vq, mq := (c.startJob j src dst).mq
      jobs := c.jobs ++ [j], fgr := (c.startJob j src dst).fgr, fgw := c.fgw ++ dst.toList.map (fun r => ⟨j.id, r.1, r.2⟩) } := by
  unfold Core.startJob
  cases j.eng <;> exact ⟨rfl, rfl⟩

/-- What the core keeps, and where the job is, once it has been taken in and its work is on the way. -/
theorem Core.Advances.of_startJob {c x : Core} {j : Job} {src : List (Nat × Nat)} {dst : Option (Nat × Nat)}
    (h : (c.startJob j src dst).Advances x) :
    x = { c with
      tq := x.tq, vq := x.vq, mq := x.mq, jobs := x.jobs, fgr := x.fgr, fgw := c.fgw ++ dst.toList.map (fun r => ⟨j.id, r.1, r.2⟩)
      lsq := x.lsq, slcWant := x.slcWant, digest := x.digest, mx := x.mx } ∧
    x.mx = { c.mx with statActive := x.mx.statActive, statShadow := x.mx.statShadow, cellActive := x.mx.cellActive,
                       cellShadow := x.mx.cellShadow } ∧
    x.queue j.eng = (c.queue j.eng).drop 1 ∧ ∃ y ∈ x.jobs, y.made = j.made := by
  obtain ⟨hrest, hjobs, hmx⟩ := h
  obtain ⟨hqueue, hstart⟩ := startJob_leaves c j src dst
  have hin : j.made ∈ x.jobs.map Job.made := by
    rw [hjobs, hstart]; simp
  refine ⟨?_, ?_, ?_, List.mem_map.mp hin⟩
  · rw [hrest, hstart]
  · rw [hmx, hstart]
  · rw [← hqueue, hrest]
    cases j.eng <;> rfl

section Accepted
variable {s : State} {k : CoreId} {i : Instr} {eng : Eng} {e : QEntry} {r : List QEntry} {kind : JobKind} {j : Job}
  {src : List (Nat × Nat)} {dst : Option (Nat × Nat)} {d : Dev} (hexec : exec i s = .next { s with dev := d })
  (hq : (s.dev.core k).queue eng = e :: r) (hmade : j.made = ((s.dev.core k).newJob, eng, kind, e))
include hexec hq hmade

/-- A head whose job the core has taken in, with its work on the way, is accepted. -/
theorem accepted_of_advances (herrs : d.errs = s.dev.errs) (hothers : ∀ n, n ≠ k.val → d.core n = s.dev.core n)
    (hcore : ((s.dev.core k).startJob j src dst).Advances (d.core k)) : Accepted s k i eng e r kind dst := by
  obtain ⟨hrest, hmx, hqueue, y, hy, hyj⟩ := hcore.of_startJob
  obtain ⟨hid, rfl, -, -⟩ : j.id = (s.dev.core k).newJob ∧ j.eng = eng ∧ j.kind = kind ∧ j.ent = e := by
    simpa [Job.made] using hmade
  have hyj : y.id = (s.dev.core k).newJob ∧ y.eng = j.eng ∧ y.kind = kind ∧ y.ent = e := by
    simpa [Job.made] using hyj.trans hmade
  have hfgw : (d.core k).fgw = (s.dev.core k).fgw ++ dst.toList.map (fun x => ⟨(s.dev.core k).newJob, x.1, x.2⟩) := by
    rw [← hid]; exact congrArg (·.fgw) hrest
  have hrestq : (d.core k).queue j.eng = r := by
    rw [hqueue, hq, List.drop_one, List.tail_cons]
  exact ⟨_, hexec, rfl, rfl, herrs, ⟨y, hy, hyj⟩, hrestq, hfgw, congrArg (·.a) hrest, congrArg (·.e) hrest, congrArg (·.syn) hrest,
    congrArg (·.dq) hrest, congrArg (·.desc) hrest, congrArg (·.vec) hrest, congrArg (·.acc) hmx,
    congrArg (·.due) hmx, congrArg (·.ckErr) hmx, congrArg (·.freeze) hmx, hothers⟩

theorem accepted_of_goesOn (h : (s.dev.setCore k ((s.dev.core k).startJob j src dst)).GoesOn k d) : Accepted s k i eng e r kind dst := by
  have hcore := h.core.advances
  rw [Dev.core_setCore] at hcore
  exact accepted_of_advances hexec hq hmade h.errs (fun n hn => (h.others n hn).trans (Dev.core_setCore_ne _ hn _)) hcore

end Accepted

/-! ### An instruction fails at acceptance (R431) -/

/-- The core x has the queues, the jobs, the fill guard, the vector engine and the matrix unit of c. -/
structure Core.Spared (c x : Core) : Prop where
  queue : ∀ eng, x.queue eng = c.queue eng
  jobs : x.jobs.map (fun j => j.id) = c.jobs.map (fun j => j.id)
  fgw : x.fgw = c.fgw
  vec : x.vec = c.vec
  mx : x.mx = c.mx

/-- The newest record is still in the ring, though it may have coalesced, and core k is spared. -/
structure Dev.Spares (k : Nat) (d e : Dev) : Prop where
  newest : ∀ n, d.errs.ring.head? = some n → ∃ m ∈ e.errs.ring, m.code = n.code ∧ m.detail = n.detail
  core : (d.core k).Spared (e.core k)

theorem Core.Spared.refl (c : Core) : c.Spared c := ⟨fun _ => rfl, rfl, rfl, rfl, rfl⟩

theorem Core.GoesOn.spared {c x : Core} (h : c.GoesOn x) : c.Spared x := by
  obtain ⟨hrest, hjobs⟩ := h
  refine ⟨fun eng => ?_, ?_, congrArg (·.fgw) hrest, congrArg (·.vec) hrest, congrArg (·.mx) hrest⟩
  · rw [hrest]; cases eng <;> rfl
  · simpa [Job.made, Function.comp_def] using congrArg (List.map Prod.fst) hjobs

/-- Where no error was recorded the newest record is there. -/
theorem spares_of_errs {k : Nat} {d e : Dev} (herrs : e.errs = d.errs) (h : (d.core k).Spared (e.core k)) : d.Spares k e :=
  ⟨fun n hn => ⟨n, by rw [herrs]; exact List.mem_of_mem_head? hn, rfl, rfl⟩, h⟩

theorem Dev.GoesOn.spares {k : Nat} {d e : Dev} (h : d.GoesOn k e) : d.Spares k e := spares_of_errs h.errs h.core.spared

theorem Dev.Spares.refl (k : Nat) (d : Dev) : d.Spares k d := (Dev.GoesOn.refl d).spares

/-- One more record drops none but the oldest of a full ring (R404). -/
theorem put_keeps_newest (x : Errs) (r : ErrRec) {n : ErrRec} (h : x.ring.head? = some n) :
    ∃ m ∈ (x.put r).ring, m.code = n.code ∧ m.detail = n.detail := by
  obtain ⟨rest, hring⟩ : ∃ rest, x.ring = n :: rest := List.head?_eq_some_iff.mp h
  unfold Errs.put
  rw [hring]
  dsimp only
  split
  · exact ⟨_, List.mem_cons_self .., rfl, rfl⟩
  · exact ⟨n, List.mem_cons_of_mem _ (List.mem_cons_self ..), rfl, rfl⟩

/-- An error of class STEP that follows a change of core k. -/
theorem raise_spares {k : Nat} {d e : Dev} {x : Err} (hx : x.cls = 1) (herrs : e.errs = d.errs) (h : (d.core k).Spared (e.core k)) :
    d.Spares k (e.raise x) := by
  refine ⟨fun n hn => ?_, by rwa [(raise_stepClass hx).1 k]⟩
  rw [(raise_contained (by rw [hx]; decide)).ring]
  exact put_keeps_newest _ _ (by rw [herrs]; exact hn)

theorem setSyn_spared (d : Dev) (obj v k : Nat) : (d.core k).Spared ((d.setSyn obj v).core k) := by
  by_cases hk : k = obj / 32
  · subst hk; rw [Dev.setSyn, Dev.core_updCore]; exact ⟨fun eng => by cases eng <;> rfl, rfl, rfl, rfl, rfl⟩
  · rw [Dev.setSyn, Dev.core_updCore_ne _ hk]; exact .refl _

/-- A credit reaches an object only, and records an error at most. -/
theorem credit_spares (d : Dev) (obj n src k : Nat) : d.Spares k (d.credit obj n src) := by
  rcases Nat.lt_or_ge obj 24576 with ho | ho
  · rcases Nat.lt_or_ge ((lk (0 : BitVec 32) (d.core (obj / 32)).syn (obj % 32)).toNat + n) (2 ^ 32) with hn | hn
    · rw [credit_within src ho hn]
      exact spares_of_errs rfl (setSyn_spared (d.countCredit obj n) _ _ k)
    · rw [credit_over src ho hn]
      exact raise_spares rfl rfl (setSyn_spared (d.countCredit obj n) _ _ k)
  · rcases Nat.lt_or_ge ((lk (0 : BitVec 32) d.edge obj).toNat + n) (2 ^ 32) with hn | hn
    · rw [credit_edge_within src ho hn]
      exact spares_of_errs rfl (.refl _)
    · rw [credit_edge_over src ho hn]
      exact raise_spares rfl rfl (.refl _)

/-- A device that is left as it is under a condition, or but for one. -/
theorem Dev.Spares.ite {k : Nat} {d e : Dev} (p : Prop) [Decidable p] (h : d.Spares k e) :
    d.Spares k (if p then e else d) ∧ d.Spares k (if p then d else e) := by
  by_cases hp : p
  · rw [if_pos hp, if_pos hp]; exact ⟨h, .refl k d⟩
  · rw [if_neg hp, if_neg hp]; exact ⟨.refl k d, h⟩

theorem creditIf_spares (d : Dev) (b : Bool) (obj n src k : Nat) : d.Spares k (d.creditIf b obj n src) :=
  ((credit_spares d obj n src k).ite _).1

theorem creditOpt_spares (d : Dev) (o : Option Nat) (n k : Nat) : d.Spares k (d.creditOpt o n) := by
  cases o with
  | none => exact .refl k d
  | some obj => exact ((credit_spares d obj n 2 k).ite _).2

theorem creditPair_spares (d : Dev) (o : Option (Nat × Nat)) (k : Nat) : d.Spares k (d.creditPair o) := by
  cases o with
  | none => exact .refl k d
  | some x => exact ((credit_spares d x.1 x.2 4 k).ite _).2

theorem failCredit_spares (d : Dev) (k : Nat) (e : QEntry) (p : TPlan) : d.Spares k (d.failCredit k e p) := by
  unfold Dev.failCredit
  split
  · exact ((inject_goesOn d k _).spares.ite _).2
  · exact ((sendRoute_goesOn d k e _ 1).spares.ite _).1
  · exact creditOpt_spares d _ _ k

theorem failMq_spares (d : Dev) (k : Nat) (e : QEntry) (code : Nat) : d.Spares k (d.failMq k e code) := by
  unfold Dev.failMq
  extract_lets c
  split
  · exact ((injectM_goesOn d k _).spares.ite _).2
  · exact creditPair_spares d _ k

/-- Dropping a queue's head writes that queue. -/
theorem dropHead_leaves (c : Core) (eng : Eng) : (c.dropHead eng).queue eng = (c.queue eng).drop 1 ∧
    c.dropHead eng = { c with tq := (c.dropHead eng).tq, vq := (c.dropHead eng).vq, mq := (c.dropHead eng).mq } := by
  cases eng <;> exact ⟨rfl, rfl⟩

/-- A head that ends with its record, and then its credit, has failed at acceptance. -/
theorem failedAtAcceptance_of_spares {s : State} {k : CoreId} {i : Instr} {eng : Eng} {e : QEntry} {r : List QEntry} {x : Nat × List Nat}
    {d : Dev} (hexec : exec i s = .next { s with dev := d }) (hq : (s.dev.core k).queue eng = e :: r)
    (h : ((s.dev.setCore k ((s.dev.core k).dropHead eng)).raiseFail k x).Spares k d) : FailedAtAcceptance s k i eng r x := by
  obtain ⟨hcore, -, n, hring, hcode, -, hdetail⟩ := raiseStep_setCore s.dev k ((s.dev.core k).dropHead eng) x.1 x.2
  obtain ⟨hnewest, hspared⟩ := h
  rw [Dev.raiseFail, hcore] at hspared
  obtain ⟨m, hm, hmcode, hmdetail⟩ := hnewest n hring
  obtain ⟨hqueue, hdrop⟩ := dropHead_leaves (s.dev.core k) eng
  have hrestq : ((s.dev.core k).dropHead eng).queue eng = r := by
    rw [hqueue, hq, List.drop_one, List.tail_cons]
  exact ⟨_, hexec, rfl, rfl, ⟨m, hm, hmcode.trans hcode, hmdetail.trans hdetail⟩, (hspared.queue eng).trans hrestq,
    hspared.jobs.trans (congrArg (fun c => c.jobs.map (fun j => j.id)) hdrop), hspared.fgw.trans (congrArg (·.fgw) hdrop),
    hspared.vec.trans (congrArg (·.vec) hdrop), hspared.mx.trans (congrArg (·.mx) hdrop)⟩

/-! ### The operands of an MMUL at the head of MQ (R114, R151) -/

/-- The copy an MQ word takes of descriptor n that it names. -/
def Core.mqDesc (c : Core) (e : QEntry) (n : Nat) : DescF := (e.caps.map (fun h => c.fields h.h)).getD n DescF.zero

/-- The pass of an MMUL at the head of MQ. -/
def Core.mqPass (c : Core) (e : QEntry) : Pass := mkPass e (c.mqDesc e 0) (c.mqDesc e 1)

/-- The ranges a pass reads (R151). -/
def Pass.sources (q : Pass) : List (Nat × Nat) :=
  (if q.aReads = [] then [] else [q.a.span]) ++ (if q.bReads = [] then [] else [q.b.span])

/-- The bytes that the stationary and the streaming feeder of a pass read. -/
def Pass.feeds (q : Pass) : List Nat × List Nat :=
  if q.aStat then (q.a.feed q.aReads, q.b.feed q.bReads) else (q.b.feed q.bReads, q.a.feed q.aReads)

/-- The device once the MMUL of that number has asked for its operands. -/
def Dev.mmulReads (d : Dev) (k id : Nat) (q : Pass) : Dev :=
  ((d.issueReads k id .matStationary 4 q.feeds.1).issueReads k id .matStreaming 4 q.feeds.2).issueJob k id

theorem mmulReads_goesOn (d : Dev) (k id : Nat) (q : Pass) : d.GoesOn k (d.mmulReads k id q) :=
  ((issueReads_goesOn d k id _ _ _).trans (issueReads_goesOn _ k id _ _ _)).trans (issueJob_goesOn _ k id)

/-- The job of an MMUL at the head of MQ. -/
def Core.mmulJob (c : Core) (e : QEntry) : Job := { Job.new c.newJob .mq .mmul e with descs := e.caps.map (fun h => c.fields h.h) }

/-! ### The heads of the three queues (R112, R130, R150, R151, R167) -/

section Heads
variable {s : State} {k : CoreId} {e : QEntry} {r : List QEntry} (hk : s.dev.clocked k = true)
include hk

section Tq
variable (hq : (s.dev.core k).tq = e :: r) (hheld : s.dev.tqHeld (s.dev.core k) = false)
include hq hheld

theorem tqAccept_fails {x : Nat × List Nat} (herr : (s.dev.planT k e).err = some x) : FailedAtAcceptance s k (.tqAccept k) .tq r x := by
  refine failedAtAcceptance_of_spares (show execTqAccept k s = _ from lift_of_eq rfl) hq ?_
  simp only [hq, hk, hheld, herr]
  exact failCredit_spares _ k e _

theorem tqAccept_withheld (herr : (s.dev.planT k e).err = none)
    (hg : (s.dev.core k).guardHold (s.dev.planT k e).reads (s.dev.planT k e).dst = true) : exec (.tqAccept k) s = .next s := by
  refine (show execTqAccept k s = _ from lift_of_eq ?_)
  simp only [hq, hk, hheld, herr, hg]
  rfl

theorem tqAccept_accepts (herr : (s.dev.planT k e).err = none)
    (hg : (s.dev.core k).guardHold (s.dev.planT k e).reads (s.dev.planT k e).dst = false) :
    Accepted s k (.tqAccept k) .tq e r (s.dev.planT k e).kind (s.dev.planT k e).dst := by
  refine accepted_of_goesOn (j := { Job.new (s.dev.core k).newJob .tq (s.dev.planT k e).kind e with descs := (s.dev.planT k e).descs })
    (src := (s.dev.planT k e).reads) (show execTqAccept k s = _ from lift_of_eq rfl) hq rfl ?_
  simp only [hq, hk, hheld, herr, hg, Bool.not_true, Bool.or_self, Bool.false_eq_true, if_false]
  refine .trans ?_ (issueJob_goesOn _ k _)
  split
  · exact .refl _
  · exact issueReads_goesOn _ k _ _ _ _

end Tq

section Vq
variable (hq : (s.dev.core k).vq = e :: r) (hheld : vecHold (s.dev.core k) e = false)
include hq hheld

theorem vqAccept_fails {x : Nat × List Nat} {p : Option (Nat × Nat)} (herr : vecErr (s.dev.core k) k e = some x) :
    FailedAtAcceptance s k (.vqAccept k p) .vq r x := by
  refine failedAtAcceptance_of_spares (show execVqAccept k p s = _ from lift_of_eq rfl) hq ?_
  simp only [hq, hk, hheld, herr]
  exact creditIf_spares _ _ _ _ 3 k

variable (herr : vecErr (s.dev.core k) k e = none)
include herr

theorem vqAccept_withheld
    (hg : (s.dev.core k).guardHold (boundsOf (vecRanges (s.dev.core k) k e).1) (vecRanges (s.dev.core k) k e).2 = true) :
    exec (.vqAccept k none) s = .next s := by
  refine (show execVqAccept k none s = _ from lift_of_eq ?_)
  simp only [hq, hk, hheld, herr, hg]
  rfl

theorem vqAccept_accepts
    (hg : (s.dev.core k).guardHold (boundsOf (vecRanges (s.dev.core k) k e).1) (vecRanges (s.dev.core k) k e).2 = false) :
    Accepted s k (.vqAccept k none) .vq e r .vec (vecRanges (s.dev.core k) k e).2 := by
  refine accepted_of_goesOn (j := vecJob (s.dev.core k) e) (src := boundsOf (vecRanges (s.dev.core k) k e).1)
    (show execVqAccept k none s = _ from lift_of_eq rfl) hq rfl ?_
  simp only [hq, hk, hheld, herr, hg, Bool.not_true, Bool.or_self, Bool.false_eq_true, if_false]
  split
  · exact (issueReads_goesOn _ k _ _ _ _).trans (issueJob_goesOn _ k _)
  · exact issueStores_goesOn _ k _ _ _ _ _
  · exact updCore_goesOn _ fun c => updJob_goesOn c _ fun _ => rfl
  · exact issueJob_goesOn _ k _

end Vq

section Mq
variable (hq : (s.dev.core k).mq = e :: r) (hheld : mqHold (s.dev.core k) e = false)
include hq hheld

theorem mqAccept_fails {x : Nat × List Nat} (herr : mqErr (s.dev.core k) (s.dev.partOf k) k e = some x) :
    FailedAtAcceptance s k (.mqAccept k) .mq r x := by
  refine failedAtAcceptance_of_spares (show execMqAccept k s = _ from lift_of_eq rfl) hq ?_
  simp only [hq, hk, hheld, herr]
  exact failMq_spares _ k e x.1

variable (herr : mqErr (s.dev.core k) (s.dev.partOf k) k e = none)
include herr

theorem mqAccept_mstorePress (hw : wOp e.w = 0xC1) (hp : bit e.w 40 = true) : Accepted s k (.mqAccept k) .mq e r .mstorePress none := by
  refine accepted_of_goesOn (j := { Job.new (s.dev.core k).newJob .mq .mstorePress e with
      tiles := [lk Tile.reset (s.dev.core k).mx.acc (bits e.w 55 52)], issued := true
      wrLeft := (pressSend s.dev k e (lk Tile.reset (s.dev.core k).mx.acc (bits e.w 55 52))).length })
    (src := []) (show execMqAccept k s = _ from lift_of_eq rfl) hq rfl ?_
  simp only [hq, hk, hheld, herr, hw, hp, Bool.not_true, Bool.or_self, Bool.false_eq_true, if_false, if_true]
  exact injectM_goesOn _ k _

theorem mqAccept_mclr (hw : wOp e.w = 0xC3) : Accepted s k (.mqAccept k) .mq e r .mclr none := by
  refine accepted_of_goesOn (j := Job.new (s.dev.core k).newJob .mq .mclr e) (src := []) (show execMqAccept k s = _ from lift_of_eq rfl) hq rfl ?_
  simp only [hq, hk, hheld, herr, hw, Bool.not_true, Bool.or_self, Bool.false_eq_true, if_false]
  exact issueJob_goesOn _ k _

theorem mqAccept_mldacc (hw : wOp e.w = 0xC2)
    (hg : (s.dev.core k).guardHold [(lsBase k + e.val 0, lsBase k + e.val 0 + mldaccBytes e.w - 1)] none = false) :
    Accepted s k (.mqAccept k) .mq e r .mldacc none := by
  refine accepted_of_goesOn (j := Job.new (s.dev.core k).newJob .mq .mldacc e)
    (src := [(lsBase k + e.val 0, lsBase k + e.val 0 + mldaccBytes e.w - 1)]) (show execMqAccept k s = _ from lift_of_eq rfl) hq rfl ?_
  simp only [hq, hk, hheld, herr, hw, hg, Bool.not_true, Bool.or_self, Bool.false_eq_true, if_false]
  exact (issueReads_goesOn _ k _ _ _ _).trans (issueJob_goesOn _ k _)

theorem mqAccept_mstore {dst : Option (Nat × Nat)} (hw : wOp e.w = 0xC1) (hp : bit e.w 40 = false)
    (hdst : (if guarded k ((s.dev.core k).mqDesc e 0).span then some ((s.dev.core k).mqDesc e 0).span else none) = dst)
    (hg : (s.dev.core k).guardHold [] dst = false) : Accepted s k (.mqAccept k) .mq e r .mstore dst := by
  refine accepted_of_goesOn (j := { Job.new (s.dev.core k).newJob .mq .mstore e with
      descs := e.caps.map (fun h => (s.dev.core k).fields h.h)
      tiles := [lk Tile.reset (s.dev.core k).mx.acc (bits e.w 55 52)] })
    (src := []) (show execMqAccept k s = _ from lift_of_eq rfl) hq rfl ?_
  unfold Core.mqDesc at hdst
  simp only [hq, hk, hheld, herr, hw, hp, hdst, hg, Bool.not_true, Bool.or_self, Bool.false_eq_true, if_false]
  exact issueStores_goesOn _ k _ _ _ _ _

theorem mqAccept_mmul_withheld (hw : wOp e.w = 0xC0)
    (hg : (s.dev.core k).guardHold ((s.dev.core k).mqPass e).sources none = true) : exec (.mqAccept k) s = .next s := by
  unfold Core.mqPass Core.mqDesc Pass.sources at hg
  refine (show execMqAccept k s = _ from lift_of_eq ?_)
  simp only [hq, hk, hheld, herr, hw, hg]
  rfl

/-- An MMUL that is not withheld is taken in and its operands are asked for; then every MMUL in flight goes on (R114). -/
theorem exec_mqAccept_mmul (hw : wOp e.w = 0xC0) (hg : (s.dev.core k).guardHold ((s.dev.core k).mqPass e).sources none = false) :
    exec (.mqAccept k) s = .next { s with dev := ((s.dev.setCore k ((s.dev.core k).startJob ((s.dev.core k).mmulJob e)
      ((s.dev.core k).mqPass e).sources none)).mmulReads k (s.dev.core k).newJob ((s.dev.core k).mqPass e)).updCore k Core.matAdvance } := by
  unfold Core.mqPass Core.mqDesc Pass.sources at hg
  refine (show execMqAccept k s = _ from lift_of_eq ?_)
  simp only [hq, hk, hheld, herr, hw, hg, Bool.not_true, Bool.or_self, Bool.false_eq_true, if_false]
  rfl

theorem mqAccept_mmul (hw : wOp e.w = 0xC0) (hg : (s.dev.core k).guardHold ((s.dev.core k).mqPass e).sources none = false) :
    Accepted s k (.mqAccept k) .mq e r .mmul none := by
  have hgo := mmulReads_goesOn (s.dev.setCore k ((s.dev.core k).startJob ((s.dev.core k).mmulJob e) ((s.dev.core k).mqPass e).sources none))
    k (s.dev.core k).newJob ((s.dev.core k).mqPass e)
  have hcore := hgo.core.advances.trans (matAdvance_advances _)
  rw [Dev.core_setCore, ← Dev.core_updCore _ k Core.matAdvance] at hcore
  refine accepted_of_advances (exec_mqAccept_mmul hk hq hheld herr hw hg) hq rfl hgo.errs (fun n hn => ?_) hcore
  rw [Dev.core_updCore_ne _ hn, hgo.others n hn, Dev.core_setCore_ne _ hn]

end Mq

end Heads

/-- Settles O18: each queue's head by whether a check fails, the fill guard withholds it, or it becomes a job. -/
theorem queuesAcceptTheirHead : Obligations.QueuesAcceptTheirHead := by
  refine ⟨?tq, ?vq, ?mq⟩
  case tq =>
    intro k s e r c p hq hk hheld
    exact ⟨tqAccept_accepts hk hq hheld, tqAccept_withheld hk hq hheld, fun x => tqAccept_fails hk hq hheld⟩
  case vq =>
    intro k s e r c g hq hk hheld
    exact ⟨vqAccept_accepts hk hq hheld, vqAccept_withheld hk hq hheld, fun x p => vqAccept_fails hk hq hheld⟩
  case mq =>
    intro k s e r c w f0 f1 q src dst i hq hk hheld
    refine ⟨fun x => mqAccept_fails hk hq hheld, fun herr => ?_⟩
    exact ⟨mqAccept_mmul hk hq hheld herr, mqAccept_mmul_withheld hk hq hheld herr,
      fun hw hp => mqAccept_mstore hk hq hheld herr hw hp rfl, mqAccept_mstorePress hk hq hheld herr, mqAccept_mldacc hk hq hheld herr,
      mqAccept_mclr hk hq hheld herr⟩

end Sys2Proof.Machine

/-! ## The vector engine's lanes -/

namespace Sys2Proof.Machine

/-! ### One lane of a register (R126) -/

theorem lane_lt (w i : Nat) (r : BitVec 2048) : lane w i r < 2 ^ w := Nat.mod_lt _ (Nat.two_pow_pos w)

/-- Bit n of lane i is bit w·i + n of the register. -/
theorem testBit_lane (w i n : Nat) (r : BitVec 2048) : (lane w i r).testBit n = (decide (n < w) && r.getLsbD (w * i + n)) := by
  rw [lane, Nat.testBit_mod_two_pow, Nat.testBit_div_two_pow, Nat.add_comm]; rfl

/-- `setLane` exchanges the lane's digit and keeps what stands above and below it. -/
theorem setLane_eq_ofNat (w i x : Nat) (r : BitVec 2048) : setLane w i x r =
    BitVec.ofNat 2048 (2 ^ (w * i) * (2 ^ w * (r.toNat / 2 ^ (w * i) / 2 ^ w) + x % 2 ^ w) + r.toNat % 2 ^ (w * i)) := by
  rw [setLane, lane]
  congr 1
  generalize hq : r.toNat / 2 ^ (w * i) = q
  have hr : r.toNat = 2 ^ (w * i) * (2 ^ w * (q / 2 ^ w) + q % 2 ^ w) + r.toNat % 2 ^ (w * i) := by
    rw [Nat.div_add_mod, ← hq, Nat.div_add_mod]
  rw [Nat.mul_add] at hr ⊢
  rw [Nat.mul_comm (q % 2 ^ w), Nat.mul_comm (x % 2 ^ w)]
  omega

theorem getLsbD_setLane {w i : Nat} (h : (i + 1) * w ≤ 2048) (x n : Nat) (r : BitVec 2048) : (setLane w i x r).getLsbD n =
    if w * i ≤ n ∧ n < w * i + w then x.testBit (n - w * i) else r.getLsbD n := by
  have hend : w * i + w ≤ 2048 := by rwa [← Nat.mul_succ, Nat.mul_comm]
  rw [setLane_eq_ofNat, BitVec.getLsbD_ofNat, Nat.testBit_two_pow_mul_add _ (Nat.mod_lt _ (Nat.two_pow_pos _)),
    Nat.testBit_two_pow_mul_add _ (Nat.mod_lt _ (Nat.two_pow_pos _))]
  by_cases hlo : n < w * i
  · have hn : n < 2048 := by omega
    simp [hlo, hn, Nat.testBit_mod_two_pow, Nat.not_le.2 hlo, BitVec.getLsbD]
  · by_cases hhi : n - w * i < w
    · have hin : w * i ≤ n ∧ n < w * i + w := by omega
      have hn : n < 2048 := by omega
      simp [hlo, hhi, hin, hn, Nat.testBit_mod_two_pow]
    · have hout : ¬(w * i ≤ n ∧ n < w * i + w) := by omega
      have hpos : n - w * i - w + w + w * i = n := by omega
      rw [if_neg hlo, if_neg hhi, if_neg hout, Nat.testBit_div_two_pow, Nat.testBit_div_two_pow, hpos]
      by_cases hn : n < 2048
      · simp [hn, BitVec.getLsbD]
      · simp [hn, BitVec.getLsbD_of_ge _ _ (Nat.le_of_not_lt hn)]

/-- A lane reads what was written to it last. -/
theorem lane_setLane_same {w i : Nat} (h : (i + 1) * w ≤ 2048) (x : Nat) (r : BitVec 2048) : lane w i (setLane w i x r) = x % 2 ^ w := by
  refine Nat.eq_of_testBit_eq fun n => ?_
  rw [testBit_lane, getLsbD_setLane h, Nat.testBit_mod_two_pow]
  by_cases hn : n < w <;> simp [hn]

/-- Writing a lane leaves every other lane. -/
theorem lane_setLane_ne {w i k : Nat} (h : (i + 1) * w ≤ 2048) (hk : k ≠ i) (x : Nat) (r : BitVec 2048) :
    lane w k (setLane w i x r) = lane w k r := by
  refine Nat.eq_of_testBit_eq fun n => ?_
  rw [testBit_lane, testBit_lane, getLsbD_setLane h]
  by_cases hn : n < w
  · have hout : ¬(w * i ≤ w * k + n ∧ w * k + n < w * i + w) := by
      rintro ⟨hlo, hhi⟩
      have hik : i < k + 1 := Nat.lt_of_mul_lt_mul_left (a := w) (by rw [Nat.mul_succ]; omega)
      have hki : k < i + 1 := Nat.lt_of_mul_lt_mul_left (a := w) (by rw [Nat.mul_succ]; omega)
      omega
    rw [if_neg hout]
  · simp [hn]

/-! ### The lanes of a result -/

theorem apply_ofList_range_succ (w n : Nat) (g : Nat → Nat × NFlags) (r : BitVec 2048) :
    (VRes.ofList w ((List.range (n + 1)).map g)).apply r = setLane w n (g n).1 ((VRes.ofList w ((List.range n).map g)).apply r) := by
  simp [VRes.apply, VRes.ofList, List.range_succ, List.zipIdx_append]

/-- Writing n lane results gives each of the lanes 0 to n − 1 its result and leaves the others. -/
theorem lane_apply_ofList_range {w n : Nat} (h : n * w ≤ 2048) (g : Nat → Nat × NFlags) (r : BitVec 2048) (i : Nat) :
    lane w i ((VRes.ofList w ((List.range n).map g)).apply r) = if i < n then (g i).1 % 2 ^ w else lane w i r := by
  induction n with
  | zero => rfl
  | succ n ih =>
    have ih := ih (le_trans (Nat.mul_le_mul_right w n.le_succ) h)
    rw [apply_ofList_range_succ]
    by_cases hi : i = n
    · subst hi
      rw [lane_setLane_same h, if_pos i.lt_succ_self]
    · have hlt : i < n + 1 ↔ i < n := by omega
      rw [lane_setLane_ne h hi, ih]
      simp only [hlt]

/-! ### What an ALU word writes (opcodes 0x81 to 0x92) -/

theorem reg_setReg_same (v : Vector) (st : Bool) (n : Nat) (x : BitVec 2048) : (v.setReg st n x).reg st n = x := by
  cases st <;> exact lk_up_same _ _ _ _

/-- Lane i of the result, of two vector sources. -/
def Job.aluAt (j : Job) (i : Nat) : Nat × NFlags :=
  let vt := j.ent.vtype.toNat
  let src := fun n => lane (vtWidth vt) i (j.srcs.getD n 0)
  aluLane (wOp j.ent.w) (wSub j.ent.w) vt (wSat j.ent.w) (src 0) (src 1) (src 2)

section Alu
variable {j : Job} (hlo : 0x81 ≤ wOp j.ent.w) (hhi : wOp j.ent.w ≤ 0x92)
include hlo hhi

theorem vecDst_alu : vecDst j.ent.w = some (wD j.ent.w) := by
  unfold vecDst
  generalize wOp j.ent.w = op at hlo hhi
  interval_cases op <;> rfl

theorem vecRes_alu (hsb : wSB j.ent.w = false) :
    j.vecRes = VRes.ofList (vtWidth j.ent.vtype.toNat) ((List.range j.ent.vl).map j.aluAt) := by
  unfold Job.vecRes
  dsimp only
  split
  case h_15 =>
    rw [if_neg (by rw [hsb]; decide)]
    simp only [lanes, List.zip_map', List.map_map]
    rfl
  all_goals omega

theorem lane_vecWrite_alu (c : Core) (hsb : wSB j.ent.w = false) (hvl : 0 < j.ent.vl) (hmax : j.ent.vl * vtWidth j.ent.vtype.toNat ≤ 2048)
    (i : Nat) : lane (vtWidth j.ent.vtype.toNat) i ((c.vecWrite j).vec.reg j.starter (wD j.ent.w)) =
      if i < j.ent.vl then (j.aluAt i).1 % 2 ^ vtWidth j.ent.vtype.toNat
      else lane (vtWidth j.ent.vtype.toNat) i (c.vec.reg j.starter (wD j.ent.w)) := by
  have hreg : (c.vecWrite j).vec.reg j.starter (wD j.ent.w) = j.vecRes.apply (c.vec.reg j.starter (wD j.ent.w)) := by
    rw [Core.vecWrite, if_neg hvl.ne', vecDst_alu hlo hhi]
    exact reg_setReg_same _ _ _ _
  rw [hreg, vecRes_alu hlo hhi hsb, lane_apply_ofList_range hmax]

end Alu

/-! ### Integer lanes wrap (R184) -/

/-- The integer of a lane differs from its bits by a multiple of 2^w. -/
theorem laneInt_modEq (v b : Nat) : laneInt v b ≡ (b : Int) [ZMOD 2 ^ vtWidth v] := by
  have hb : ((b % 2 ^ vtWidth v : Nat) : Int) ≡ (b : Int) [ZMOD 2 ^ vtWidth v] := by
    push_cast
    exact Int.mod_modEq _ _
  unfold laneInt bitsInt
  extract_lets b'
  split
  · exact (Int.modEq_sub_modulus_iff.2 hb.symm).symm
  · exact hb

/-- Integers that differ by a multiple of 2^w have the same w low bits. -/
theorem intBits_of_modEq {n : Int} {m w : Nat} (h : n ≡ (m : Int) [ZMOD 2 ^ w]) : intBits n w = m % 2 ^ w := by
  rw [intBits, h]
  exact_mod_cast Int.toNat_natCast _

section IntLane
variable {v : Nat} (hv : vtKind v ≠ 0) (sub x y z : Nat) (sat : Bool)
include hv

theorem aluLane_vadd : (aluLane 0x81 sub v sat x y z).1 = (x + y) % 2 ^ vtWidth v := by
  refine (congrArg Prod.fst (if_neg hv)).trans (intBits_of_modEq ?_)
  exact_mod_cast (laneInt_modEq v x).add (laneInt_modEq v y)

theorem aluLane_vsub (hy : y < 2 ^ vtWidth v) : (aluLane 0x82 sub v sat x y z).1 = (x + 2 ^ vtWidth v - y) % 2 ^ vtWidth v := by
  refine (congrArg Prod.fst (if_neg hv)).trans (intBits_of_modEq (((laneInt_modEq v x).sub (laneInt_modEq v y)).trans ?_))
  rw [Nat.cast_sub (by omega), Nat.cast_add, add_sub_right_comm]
  exact_mod_cast Int.modEq_add_modulus_iff.2 rfl

theorem aluLane_vmul : (aluLane 0x83 sub v sat x y z).1 = x * y % 2 ^ vtWidth v := by
  refine (congrArg Prod.fst (if_neg hv)).trans (intBits_of_modEq ?_)
  exact_mod_cast (laneInt_modEq v x).mul (laneInt_modEq v y)

end IntLane

/-- Settles O22: the lanes of an ALU word by `lane_vecWrite_alu`, then its one operation on a lane. -/
theorem integerLanesWrap : Obligations.IntegerLanesWrap := by
  intro c j f w vt b _ hkind hsb hvl hmax hop i _
  have hx := lane_lt b i (j.srcs.getD 0 0)
  have hy := lane_lt b i (j.srcs.getD 1 0)
  have hrange : 0x81 ≤ wOp w ∧ wOp w ≤ 0x92 := by omega
  have hlane : (j.aluAt i).1 % 2 ^ b = f (2 ^ b) (lane b i (j.srcs.getD 0 0)) (lane b i (j.srcs.getD 1 0)) := by
    unfold Job.aluAt
    obtain ⟨h, rfl⟩ | ⟨h, rfl⟩ | ⟨h, rfl⟩ | ⟨h, rfl⟩ | ⟨h, rfl⟩ | ⟨h, rfl⟩ := hop <;> rw [h]
    · rw [aluLane_vadd hkind]; exact Nat.mod_mod _ _
    · rw [aluLane_vsub hkind _ _ _ _ _ hy]; exact Nat.mod_mod _ _
    · rw [aluLane_vmul hkind]; exact Nat.mod_mod _ _
    · exact Nat.mod_eq_of_lt (Nat.and_lt_two_pow _ hy)
    · exact Nat.mod_eq_of_lt (Nat.or_lt_two_pow hx hy)
    · exact Nat.mod_eq_of_lt (Nat.xor_lt_two_pow hx hy)
  rw [lane_vecWrite_alu hrange.1 hrange.2 c hsb hvl hmax i, hlane]

end Sys2Proof.Machine

/-! ## The end of the register-file BIST -/

namespace Sys2Proof.Machine

/-! ### What an error of class PARTITION leaves of a core that is halted already (R400) -/

theorem Seq.halt_error_halt_error (x : Seq) : (x.halt .error).halt .error = x.halt .error := by
  unfold Seq.halt
  cases x.st <;> rfl

theorem Core.halt_error_halt_error (c : Core) : (c.halt .error).halt .error = c.halt .error := by
  simp only [Core.halt, Seq.halt_error_halt_error]

theorem haltPart_core_of_halted {d : Dev} {k : Nat} (h : (d.core k).halt .error = d.core k) (p : Nat) : (d.haltPart p).core k = d.core k := by
  refine lk_map_rel (R := fun c x => c.halt .error = c → x = c) (fun _ => rfl) (fun e => ?_) k d.cores h
  split
  · exact id
  · exact fun _ => rfl

theorem raise_core_of_halted {d : Dev} {e : Err} {k : Nat} (hcls : e.cls = 2) (h : (d.core k).halt .error = d.core k) :
    (d.raise e).core k = d.core k := by
  simp only [Dev.raise, hcls]
  rw [core_eq_of_cores (irqs_cores _ 2 e.pmask)]
  refine List.foldlRecOn (motive := fun x : Dev => x.core k = d.core k) _ _ rfl fun x hx p _ => ?_
  rw [Dev.stopPart, core_eq_of_cores (failRequests_cores _ p)]
  exact (haltPart_core_of_halted (by rw [hx, h]) p).trans hx

/-! ### The two ends (R135, R136) -/

/-- The core whose BIST has failed: both sequencers halted by the error. -/
def Core.bistFailed (c : Core) : Core := { c.halt .error with vec := { c.vec with bist := none } }

theorem Core.halt_bistFailed (c : Core) : c.bistFailed.halt .error = c.bistFailed :=
  congrArg (fun x : Core => { x with vec := { c.vec with bist := none } }) c.halt_error_halt_error

/-- What the failed BIST of core k records. -/
def Dev.bistErr (d : Dev) (k : Nat) : Err :=
  { code := 0x02, cls := 2, source := 0, core := k, pmask := pmaskOf (d.partOf k), fpid := d.fpidOf (d.partOf k), detail := [3] }

section Bist
variable {s : State} {k : CoreId} (h : (s.dev.core k).vec.bist = some 0)
include h

theorem exec_vrfBistEnd_pass : exec (.vrfBistEnd k true) s = .next { s with dev := s.dev.setCore k { s.dev.core k with
    vec := { (s.dev.core k).vec with regs := [], bist := none, passed := true } } } := by
  refine (show execVrfBistEnd k true s = _ from lift_of_eq ?_)
  simp only [h]
  rfl

theorem exec_vrfBistEnd_fail : exec (.vrfBistEnd k false) s =
    .next { s with dev := (s.dev.setCore k (s.dev.core k).bistFailed).raise (s.dev.bistErr k) } := by
  refine (show execVrfBistEnd k false s = _ from lift_of_eq ?_)
  simp only [h]
  rfl

end Bist

/-- Settles O23: a pass writes the one core; a failure halts the core before its error is raised, which then finds nothing more to
halt there. -/
theorem registerFileBistEnds : Obligations.RegisterFileBistEnds := by
  intro k s c hb
  refine ⟨⟨_, exec_vrfBistEnd_pass hb, onlyCore_setCore s k _⟩, ?_⟩
  have hcore : ((s.dev.setCore k c.bistFailed).raise (s.dev.bistErr k)).core k = c.bistFailed := by
    rw [raise_core_of_halted rfl, Dev.core_setCore]
    rw [Dev.core_setCore, Core.halt_bistFailed]
  have hseq (q : SeqId) : (((s.dev.setCore k c.bistFailed).raise (s.dev.bistErr k)).seq k q).st = .halted := by
    rw [Dev.seq, hcore]
    cases q <;> exact halt_st _ .error
  obtain ⟨r, hring, hcode, hat, hdetail⟩ := raise_recorded (d := s.dev.setCore k c.bistFailed)
    (e := s.dev.bistErr k) (t := { s with dev := _ }) (by simp [Dev.bistErr]) rfl
  exact ⟨_, r, exec_vrfBistEnd_fail hb, rfl, hseq .A, hseq .E, congrArg (fun x : Core => x.vec.bist) hcore, hring, hcode, hat, hdetail⟩

end Sys2Proof.Machine

/-! ## Every command keeps the memories canonical -/

namespace Sys2Proof.Machine

/-! ### The shared shapes of a row -/

theorem next_keeps (s : State) : Keeps s (.next s) := by
  rintro t ⟨⟩; exact ⟨rfl, id⟩

theorem ite_keeps {s : State} {p : Prop} [Decidable p] {x y : Host.Outcome State Fault Refusal} (hx : Keeps s x) (hy : Keeps s y) :
    Keeps s (if p then x else y) := by
  split
  · exact hx
  · exact hy

theorem regOp_keeps (k : Nat) (q : SeqId) (op : Nat) (val : Dev → Seq → Nat → Word) (s : State) : Keeps s (regOp k q op val s) :=
  seqOp_keeps _ _ _ _ s

theorem rrOp_keeps (k : Nat) (q : SeqId) (op : Nat) (f : Word → Word → Word) (s : State) : Keeps s (rrOp k q op f s) :=
  regOp_keeps _ _ _ _ s

theorem riOp_keeps (k : Nat) (q : SeqId) (op : Nat) (f : Word → Word → Word) (s : State) : Keeps s (riOp k q op f s) :=
  regOp_keeps _ _ _ _ s

theorem branchOp_keeps (k : Nat) (q : SeqId) (op : Nat) (cond : Word → Word → Bool) (s : State) : Keeps s (branchOp k q op cond s) :=
  seqOp_keeps _ _ _ _ s

theorem enqueue_keeps (k : Nat) (q : SeqId) (op : Nat) (eng : Eng) (hs rs : Nat → List Nat) (s : State) :
    Keeps s (enqueue k q op eng hs rs s) := seqOp_keeps _ _ _ _ s

theorem vqOp_keeps (k op : Nat) (s : State) : Keeps s (vqOp k op s) := enqueue_keeps _ _ _ _ _ _ s

theorem hostCmd_keeps (f : FnId) (opc : Nat) (e : BitVec 512) (body : Dev → Dev) (s : State) : Keeps s (hostCmd f opc e body s) :=
  liftW_keeps _ s

theorem onMsg1_keeps (h : MHdr) (body : Dev → Mould → Dev) (s : State) : Keeps s (onMsg1 h body s) := liftW_keeps _ s

/-! ### The rows -/

theorem openLog_keeps (f : FnId) (q : OpenLogCmd) (s : State) : Keeps s (execOpenLog f q s) := by
  unfold execOpenLog
  extract_lets e
  exact liftW_keeps _ s

/-- Every row has one of the shared shapes, and MSTORE's two forms stand aside for each other by the mode of the word (R196). -/
theorem exec_keeps (i : Instr) (s : State) : Keeps s (exec i s) := by
  unfold exec
  cases i with
  | nop | loop | call | stepend | ret | dqpush | dqpop | synwait | synadd | synsub | dcreate | dretire | setvl =>
    exact seqOp_keeps _ _ _ _ s
  | rdsys | sel | lih => exact regOp_keeps _ _ _ _ s
  | add | sub | mul | mulhs | mulhu | and | or | xor | shl | shr | sra | slt | sltu | min | max =>
    exact rrOp_keeps _ _ _ _ s
  | addi | muli | andi | ori | xori | shli | shri | srai | slti | sltiu | li =>
    exact riOp_keeps _ _ _ _ s
  | beq | bne | blt | bge | bltu | bgeu | j =>
    exact branchOp_keeps _ _ _ _ s
  | tload | tstore | fill | copy | msend | fsend | caveq | hostq | mmul | mldacc | mclr =>
    exact enqueue_keeps _ _ _ _ _ _ s
  | vadd | vsub | vmul | vfma | vfnma | vmin | vmax | vsadd | vssub | vmulh | vand | vor | vxor | vshl | vshr | vshrr | vcmp | vsel | vidx | vcvt
    | vredsum | vredmax | vredmin | vredargmax | vperm | vslide | vfn | vacc | vld | vst | vpop | vpush =>
    exact vqOp_keeps _ _ s
  | mstore => exact ite_keeps (next_keeps s) (enqueue_keeps _ _ _ _ _ _ s)
  | mstorePress => exact ite_keeps (enqueue_keeps _ _ _ _ _ _ s) (next_keeps s)
  | datagramReceive | jtagInstruction => exact liftO_keeps _ s
  | dqStallEnd | synwaitSatisfied | msgMouldOffer | holdQuiet => exact liftR_keeps _ s
  | dcreateComplete | tqAccept | transferComplete | vqAccept | vqEntryComplete | vrfBistEnd | mqAccept | mmulComplete | checksumCompare
    | accTransferComplete | routineCounterExpire | watchdog | routerFlitForward | pressNodeReduce | eccWriteback | caveRecordTake
    | hostRecordTake | coreHalt | coreResume | vecStarterWrite | stepBoundary | ptBreakWrite | deadlineMonitorTest | deadlineEventLate
    | dlCfgWrite | msgLockstepRecord | lsWaitExpire | syncExchangeSend | syncWordReceive | ptpMessage | droopStretch | xingRestart | refLoss
    | refclkRestored | refLossTimeout | clkFstepWrite | freqSwitch | thermalForce | freqRaise | telemetrySample | thermalTrip | supplyInhibit
    | supplyInhibitRelease | orderlyStop | supplyRecover | uvloOn | overvoltageRecover | prechargeMate | inputSwitchClose | enableBreak
    | holdupMeasure | nvWriteStart | holdupLow | regionWakeEnd | regionSleep | deviceResetEnd | fwReady | identityReady | modRstNAssert
    | hifReset | recGo | perstDeassert | configRequest | functionLeave | functionWedged | bar0Access | registerWrite | bar2ForwardTimeout
    | dbCmdSqTail | dbCmdCqHead | dbCtxSqTail | dbTokenRingHead | dbLogRingHead | hifCtrlEn | submit | submitPrefix | moderateExpire
    | mouldOfferRetry | weightLoadTimeout | holdTimeout | portUnitTake | flitReceive | nakReceive | replayTimeout | retrainWindowExpire
    | segmentTimeout | pfcFrameReceive | pfcRepeat | linkTrainRetry | linkLoss | lnkRetrain | lnkDisable | identityReceive | identityResend
    | rttProbeReceive | rttReplyReceive | refuseReceive | arbRequest | quantumExpire | arbLockDrop | arbMask | mgmtRead | mgmtWriteBoard
    | shadowRefresh | pcsAlignmentFecLock | romJumpToFirmware | longLock | shardAttemptTimeout =>
    exact lift_keeps _ s
  | meshFlitDeliver | sliceAccessServe | localStoreGrant | caveRecordComplete | hostRecordComplete | programStoreWrite | uvloOff | overvoltage
    | regionWakeStart | memoryBistEnd | keyReloadEnd | bar2Access | hartWindowAccess | prefixRelease | drain | closeLog | loadMould | start
    | unload | loadWeights | switch | hold | substitute | failover | writeFabric | dump | caveRead | samplingPoint | msgPlan | mouldLastByte
    | msgLoadResult | msgAbandon | msgCancelled | mouldLoadTimeout | startLate | weightManifestArrive | shardComplete | weightEndMarker
    | msgShardRequest | memberLost | msgLost | msgReady | msgRestart | survivorTimeout | msgHeld | msgResume | msgStateCopy | msgBar2Access
    | fabricPacketArrive | nvWriteComplete | caveReady =>
    exact liftW_keeps _ s
  | openCtx | closeCtx | cancel | keyInstall | keyRemove | attest | retire | distance | caveWrite | turnPrio | openChan | closeChan =>
    exact hostCmd_keeps _ _ _ _ s
  | msgCommit | msgStart | msgWeightsOk | msgShardFailed | msgWeightCommit | msgWeightAbandon | msgStepdone | msgGo | msgHold | msgSwitch =>
    exact onMsg1_keeps _ _ s
  | openLog => exact openLog_keeps _ _ s

/-- Settles O5: an idle cycle changes the device alone, and a command is run on the state with the rest of the queue. -/
theorem everyStepKeepsCanonicalForm : Obligations.EveryStepKeepsCanonicalForm := by
  intro s t hstep
  unfold step at hstep
  split at hstep
  case h_1 hnil =>
    obtain ⟨hqueue, hcanon⟩ := lift_keeps _ s t hstep
    exact ⟨hcanon, by rw [hqueue, hnil]; rfl⟩
  case h_2 c rest hcons =>
    obtain ⟨hqueue, hcanon⟩ := exec_keeps c _ t hstep
    exact ⟨hcanon, by rw [hqueue, hcons]; rfl⟩

end Sys2Proof.Machine

/-! ## Transfers complete -/

namespace Sys2Proof.Machine

/-! ### A record on its way to its request queue (R167, R174, R176) -/

/-- The injection changes neither the request queues nor the records on their way to them. -/
theorem feedL_sent (k vc n : Nat) (d : Dev) : (d.feedL k vc n).caveQ = d.caveQ ∧ (d.feedL k vc n).hostQ = d.hostQ ∧
    (d.feedL k vc n).net.recFly = d.net.recFly := by
  induction n generalizing d with
  | zero => exact ⟨rfl, rfl, rfl⟩
  | succ n ih =>
    unfold Dev.feedL
    extract_lets pos
    split
    · exact ⟨rfl, rfl, rfl⟩
    · split
      · exact ih _
      · split
        · split
          · exact ih _
          · exact ih _
        · exact ⟨rfl, rfl, rfl⟩

theorem inject_sent (d : Dev) (k : Nat) (l : List Flit) : (d.inject k l).caveQ = d.caveQ ∧ (d.inject k l).hostQ = d.hostQ ∧
    (d.inject k l).net.recFly = d.net.recFly := by
  unfold Dev.inject Dev.feed
  simp only [feedL_sent, and_self]

/-- A record sent is one more on its way to its queue: no queue holds it yet, and no error is recorded. -/
theorem sendRec_spec (d : Dev) (k : Nat) (host : Bool) (n off : Nat) (bs : List Byte) :
    (d.sendRec k host n off bs).recCount host n = d.recCount host n + 1 ∧ (d.sendRec k host n off bs).caveQ = d.caveQ ∧
    (d.sendRec k host n off bs).hostQ = d.hostQ ∧ (d.sendRec k host n off bs).errs = d.errs := by
  unfold Dev.sendRec
  extract_lets unit key f
  refine ⟨?_, (inject_sent _ k _).1, (inject_sent _ k _).2.1, (inject_goesOn _ k _).errs⟩
  simp only [Dev.recCount, inject_sent]
  rw [Nat.add_assoc]
  exact congrArg _ (lk_up_same _ _ _ _)

/-! ### TRANSFER_COMPLETE -/

section Transfer
variable {s : State} {k : CoreId} {i : Nat} {j : Job} (hj : (s.dev.core k).jobs[i]? = some j) (heng : j.eng = .tq) (hissued : j.issued = true)
  (hrd : j.rdLeft = 0) (hwr : j.wrLeft = 0) (hlost : j.lost = false)
include hj heng hissued hrd hwr hlost

theorem exec_transferComplete_move (hkind : j.kind = .tload ∨ j.kind = .tstore) : exec (.transferComplete k i) s = .next { s with
    dev := (s.dev.setCore k ((s.dev.core k).endJob j.id)).creditOpt (tqSyn j.ent.w)
      (moveBytes (j.descs.getD 0 DescF.zero) (j.ent.window (j.descs.getD 0 DescF.zero)).1 (j.ent.window (j.descs.getD 0 DescF.zero)).2.2) } := by
  refine (show execTransferComplete k i s = _ from lift_of_eq ?_)
  rcases hkind with hkind | hkind
  · simp only [hj, heng, hkind, hissued, hrd, hwr, hlost]; rfl
  · simp only [hj, heng, hkind, hissued, hrd, hwr, hlost]; rfl

/-- A fill and a copy credit the bytes of their destination. -/
theorem exec_transferComplete_fill (hkind : j.kind = .fill) : exec (.transferComplete k i) s = .next { s with
    dev := (s.dev.setCore k ((s.dev.core k).endJob j.id)).creditOpt (tqSyn j.ent.w)
      ((j.descs.getD 0 DescF.zero).bytesOf (j.descs.getD 0 DescF.zero).elems) } := by
  refine (show execTransferComplete k i s = _ from lift_of_eq ?_)
  simp only [hj, heng, hkind, hissued, hrd, hwr, hlost]
  rfl

theorem exec_transferComplete_copy (hkind : j.kind = .copy) : exec (.transferComplete k i) s = .next { s with
    dev := (s.dev.setCore k ((s.dev.core k).endJob j.id)).creditOpt (tqSyn j.ent.w)
      ((j.descs.getD 1 DescF.zero).bytesOf (j.descs.getD 1 DescF.zero).elems) } := by
  refine (show execTransferComplete k i s = _ from lift_of_eq ?_)
  simp only [hj, heng, hkind, hissued, hrd, hwr, hlost]
  rfl

/-- A record leaves while its queue, those on their way to it included, holds fewer than 32, and waits else. -/
theorem exec_transferComplete_record (host : Bool) (hkind : j.kind = if host then .hostq else .caveq) :
    exec (.transferComplete k i) s = if 32 ≤ s.dev.recCount host (bits j.ent.w 50 47) then .next s else .next { s with
      dev := (s.dev.setCore k ((s.dev.core k).endJob j.id)).sendRec k host (bits j.ent.w 50 47) (j.ent.val 0) (j.record k) } := by
  split
  next hfull =>
    refine (show execTransferComplete k i s = _ from lift_of_eq ?_)
    cases host
    · simp only [hj, heng, hkind, hissued, hrd, hwr, hlost, hfull]; rfl
    · simp only [hj, heng, hkind, hissued, hrd, hwr, hlost, hfull]; rfl
  next hroom =>
    refine (show execTransferComplete k i s = _ from lift_of_eq ?_)
    cases host
    · simp only [hj, heng, hkind, hissued, hrd, hwr, hlost, hroom]; rfl
    · simp only [hj, heng, hkind, hissued, hrd, hwr, hlost, hroom]; rfl

end Transfer

/-- Settles O19: a transfer by the credit of its kind, a record by whether its queue has room. -/
theorem transferCompletesWithItsCredit : Obligations.TransferCompletesWithItsCredit := by
  intro k i s j d c x n ended hj heng hissued hrd hwr hlost
  have hrecord := fun host => exec_transferComplete_record hj heng hissued hrd hwr hlost host
  refine ⟨exec_transferComplete_move hj heng hissued hrd hwr hlost, exec_transferComplete_fill hj heng hissued hrd hwr hlost,
    exec_transferComplete_copy hj heng hissued hrd hwr hlost, fun host hkind hroom => ?leaves, fun host hkind hfull => ?waits⟩
  case leaves =>
    obtain ⟨hcount, hcave, hhost, herrs⟩ := sendRec_spec ended k host n (j.ent.val 0) (j.record k)
    exact ⟨(hrecord host hkind).trans (if_neg (Nat.not_le.mpr hroom)), hcount, hcave, hhost, herrs⟩
  case waits => exact (hrecord host hkind).trans (if_pos hfull)

end Sys2Proof.Machine

/-! ## Clocks, telemetry and sleep -/

namespace Sys2Proof.Machine

/-! ### A step code is requested (R382) -/

theorem codeOk_iff (d : Dev) (n : Nat) : d.codeOk n = true ↔ ∀ m ∈ d.moulds, ∀ e ∈ m.clock, e.fmax ≤ n ∧ n ≤ e.fmin := by
  simp [Dev.codeOk]

/-- With no change in progress a code from 0 to 6 is judged at once. -/
theorem fstepWrite_judged {d : Dev} {v : Nat} (h : v % 8 ≠ 7) (hc : d.clk.change = none) : d.fstepWrite v =
    if d.codeOk (v % 8) then
      { d with clk := { d.clk with req := BitVec.ofNat 3 (v % 8), change := some ⟨v % 8, d.turn.now.toNat, false⟩ } }
    else { d with clk := { d.clk with req := BitVec.ofNat 3 (v % 8), refused := true } } := by
  have hreq : BitVec.ofNat 3 v = BitVec.ofNat 3 (v % 8) := BitVec.eq_of_toNat_eq (by simp)
  rw [Dev.fstepWrite, if_neg h, hreq]
  exact if_pos (Option.isNone_iff_eq_none.mpr hc)

section FstepWrite
variable {s : State} {v : BitVec 32} (hrst : s.dev.rst = false)
include hrst

theorem exec_clkFstepWrite : exec (.clkFstepWrite v) s = .next { s with dev := s.dev.fstepWrite v.toNat } :=
  (show execClkFstepWrite v s = _ from lift_of_eq (if_neg (by rw [hrst]; decide)))

theorem exec_clkFstepWrite_reserved (h : v.toNat % 8 = 7) : exec (.clkFstepWrite v) s = .next s := by
  rw [exec_clkFstepWrite hrst, Dev.fstepWrite, if_pos h]

variable (h : v.toNat % 8 ≠ 7) (hc : s.dev.clk.change = none)
include h hc

/-- A code that every clock plan admits begins its change at this tick. -/
theorem exec_clkFstepWrite_begun (hok : ∀ m ∈ s.dev.moulds, ∀ e ∈ m.clock, e.fmax ≤ v.toNat % 8 ∧ v.toNat % 8 ≤ e.fmin) :
    exec (.clkFstepWrite v) s = .next { s with dev := { s.dev with clk := { s.dev.clk with
      req := BitVec.ofNat 3 (v.toNat % 8), change := some ⟨v.toNat % 8, s.dev.turn.now.toNat, false⟩ } } } := by
  rw [exec_clkFstepWrite hrst, fstepWrite_judged h hc, if_pos ((codeOk_iff _ _).mpr hok)]

/-- A code outside the limits of one plan is refused. -/
theorem exec_clkFstepWrite_refused (hbad : ∃ m ∈ s.dev.moulds, ∃ e ∈ m.clock, v.toNat % 8 < e.fmax ∨ e.fmin < v.toNat % 8) :
    exec (.clkFstepWrite v) s = .next { s with dev := { s.dev with clk := { s.dev.clk with
      req := BitVec.ofNat 3 (v.toNat % 8), refused := true } } } := by
  obtain ⟨m, hm, e, he, hout⟩ := hbad
  have hno : ¬s.dev.codeOk (v.toNat % 8) = true := fun hok => by
    have := (codeOk_iff _ _).mp hok m hm e he
    omega
  rw [exec_clkFstepWrite hrst, fstepWrite_judged h hc, if_neg hno]

end FstepWrite

/-! ### Records of the clock unit and of firmware (R404) -/

/-- What the clock unit or firmware reports: it names no core and no partition. -/
def devErr (code cls source : Nat) (detail : List Nat) : Err :=
  { code := code, cls := cls, source := source, core := 0xFFFF, pmask := 0, fpid := 0xFFFF, detail := detail }

/-- A LOG-class record goes into the ring, and the hosts are told. -/
theorem raiseDev_log (d : Dev) (code source : Nat) (detail : List Nat) :
    ∃ es fs o, d.raiseDev code 0 source detail = { d with errs := es, funcs := fs, out := o } ∧
      es.ring = (d.errs.put (d.mkRec (devErr code 0 source detail))).ring := by
  obtain ⟨es, fs, o, he, hring, -⟩ := irqs_spec { d with errs := d.errs.put (d.mkRec (devErr code 0 source detail)) } 0 0
  exact ⟨es, fs, o, he, hring⟩

theorem raiseDev_recorded {d : Dev} {code source : Nat} {detail : List Nat} {t : State} (ht : t.dev = d.raiseDev code 0 source detail) :
    Recorded t code 0xFFFF detail :=
  raise_recorded (e := devErr code 0 source detail) (by simp [devErr]) ht

theorem irqs_lastDev (d : Dev) (cls pm : Nat) : (d.irqs cls pm).errs.lastDev = d.errs.lastDev := by
  refine List.foldlRecOn (motive := fun e : Dev => e.errs.lastDev = d.errs.lastDev) _ _ rfl fun e he f _ => ?_
  split
  · obtain ⟨fs, o, h⟩ := msix_hostsTold ({ e with errs := { e.errs with sent := f :: e.errs.sent } }) f
      (lk (0 : BitVec 6) e.errs.irqVec f).toNat
    exact (congrArg (fun x : Dev => x.errs.lastDev) h).trans he
  · exact he

/-- A DEVICE-class error resets the device and stays in ERR_LASTDEV (R400, R409). -/
theorem raiseDev_resets (s : State) (code source : Nat) (detail : List Nat) :
    ResetByError s { s with dev := s.dev.raiseDev code 3 source detail } code detail :=
  ⟨rfl, rfl, rfl, rfl, rfl, rfl, rfl, rfl, _, irqs_lastDev _ _ _, rfl, rfl⟩

/-! ### Limits of temperature and power (R383) -/

/-- The device with a forced change to the next slower code begun at this tick. -/
def Dev.slowed (d : Dev) : Dev :=
  { d with clk := { d.clk with lastForce := d.turn.now.toNat + 1, change := some ⟨d.clk.step + 1, d.turn.now.toNat, true⟩ } }

theorem exec_thermalForce {s : State} (hrst : s.dev.rst = false)
    (hlimit : 16 * (s.dev.pwr.stepC.toNat : Int) ≤ s.dev.pwr.tmax ∨ s.dev.pwr.limit.toNat < s.dev.pwr.pavg) (hstep : s.dev.clk.step < 6)
    (hchange : s.dev.clk.change = none) (hlast : s.dev.clk.lastForce = 0 ∨ s.dev.clk.lastForce + 624999 ≤ s.dev.turn.now.toNat) :
    exec .thermalForce s = .next { s with
      dev := s.dev.slowed.raiseDev 0x72 0 17 [if s.dev.tooHot then 1 else 2, s.dev.pwr.sensor, s.dev.clk.step + 1] } := by
  have hgo : (s.dev.tooHot || s.dev.tooMuch) = true := by simpa [Dev.tooHot, Dev.tooMuch] using hlimit
  have hdue : ¬(s.dev.clk.lastForce ≠ 0 ∧ s.dev.turn.now.toNat < s.dev.clk.lastForce - 1 + 625000) := by omega
  refine (show execThermalForce s = _ from lift_of_eq ?_)
  dsimp only
  rw [if_neg (by simpa [hrst, hgo, hstep] using hdue)]
  simp only [Dev.fRequest, Dev.beginChange, hchange]
  rfl

theorem exec_freqRaise {s : State} (hrst : s.dev.rst = false) (hchange : s.dev.clk.change = none)
    (hreq : s.dev.clk.req.toNat < s.dev.clk.step) (hlast : s.dev.clk.lastAbove + 6250000 ≤ s.dev.turn.now.toNat) :
    exec .freqRaise s = .next { s with dev := { s.dev with clk := { s.dev.clk with
      lastAbove := s.dev.turn.now.toNat, change := some ⟨s.dev.clk.step - 1, s.dev.turn.now.toNat, true⟩ } } } := by
  refine (show execFreqRaise s = _ from lift_of_eq ?_)
  dsimp only
  rw [if_neg (by simp [hrst, hchange, hreq, hlast])]

/-! ### Telemetry (R392) -/

theorem hottest_none {n : Nat} {l : List Int} (h : hottest n l = none) : l = [] := by
  cases l with
  | nil => rfl
  | cons x r =>
    rw [hottest] at h
    split at h
    · cases h
    · split at h <;> cases h

/-- The hottest reading is one of the readings, and none is above it. -/
theorem hottest_spec {n k : Nat} {x : Int} {l : List Int} (h : hottest n l = some (x, k)) :
    n ≤ k ∧ l[k - n]? = some x ∧ ∀ y ∈ l, y ≤ x := by
  induction l generalizing n k x with
  | nil => cases h
  | cons z r ih =>
    rw [hottest] at h
    split at h
    case h_1 hnone =>
      obtain ⟨rfl, rfl⟩ : z = x ∧ n = k := by simpa using h
      rw [hottest_none hnone]
      simp
    case h_2 y j hsome =>
      obtain ⟨hj, hget, hmax⟩ := ih hsome
      split at h
      next hle =>
        obtain ⟨rfl, rfl⟩ : z = x ∧ n = k := by simpa using h
        exact ⟨le_rfl, by simp, List.forall_mem_cons.mpr ⟨le_rfl, fun w hw => (hmax w hw).trans hle⟩⟩
      next hgt =>
        obtain ⟨rfl, rfl⟩ : y = x ∧ j = k := by simpa using h
        refine ⟨by omega, ?_, List.forall_mem_cons.mpr ⟨(not_le.mp hgt).le, hmax⟩⟩
        rw [show j - n = (j - (n + 1)) + 1 by omega]
        exact hget

theorem hottest_some {l : List Int} (h : l ≠ []) (n : Nat) : ∃ x k, hottest n l = some (x, k) := by
  obtain ⟨⟨x, k⟩, hx⟩ := Option.ne_none_iff_exists'.mp (mt hottest_none h)
  exact ⟨x, k, hx⟩

/-- Among the n newest records is one of this code and detail. -/
def Errs.Tells (x : Errs) (n code : Nat) (detail : List Nat) : Prop := ∃ r ∈ x.ring.take n, r.code = code ∧ r.detail = detail

theorem put_tells (x : Errs) (r : ErrRec) : (x.put r).Tells 1 r.code r.detail := by
  obtain ⟨n, hn, hcode, -, hdetail⟩ := put_newest x r
  exact ⟨n, by rw [List.take_one, hn]; simp, hcode, hdetail⟩

/-- A record is pushed out only by 256 newer ones (R404). -/
theorem Errs.Tells.put {x : Errs} {n code : Nat} {detail : List Nat} (h : x.Tells n code detail) (hn : n < 256) (r : ErrRec) :
    (x.put r).Tells (n + 1) code detail := by
  obtain ⟨y, hy, hcode, hdetail⟩ := h
  unfold Errs.put
  split
  case h_1 m rest hring =>
    rw [hring] at hy
    split
    · cases n with
      | zero => simp at hy
      | succ n =>
        rcases List.mem_cons.mp (List.take_succ_cons ▸ hy) with rfl | hy
        · exact ⟨_, List.mem_cons_self .., hcode, hdetail⟩
        · refine ⟨y, List.mem_cons_of_mem _ ?_, hcode, hdetail⟩
          exact List.take_subset_take_left _ (by omega) hy
    · refine ⟨y, ?_, hcode, hdetail⟩
      rw [List.take_take, Nat.min_eq_left (by omega), hring]
      exact List.mem_cons_of_mem _ hy
  case h_2 hring => rw [hring] at hy; simp at hy

/-- Each sensor of a list that newly reaches WARN_C has its record. -/
theorem warn_tells (l : List Nat) (hl : l.length ≤ 256) (d : Dev) :
    ∃ es fs o, l.foldl (fun (e : Dev) i => e.raiseDev 0x72 0 17 [0, i, e.clk.step]) d = { d with errs := es, funcs := fs, out := o } ∧
      ∀ i ∈ l, es.Tells l.length 0x72 [0, i, d.clk.step] := by
  induction l using List.reverseRecOn with
  | nil => exact ⟨_, _, _, rfl, by simp⟩
  | append_singleton l i ih =>
    rw [List.length_append, List.length_singleton] at hl ⊢
    obtain ⟨es, fs, o, hd, htells⟩ := ih (by omega)
    obtain ⟨es', fs', o', he, hring⟩ := raiseDev_log { d with errs := es, funcs := fs, out := o } 0x72 17 [0, i, d.clk.step]
    refine ⟨es', fs', o', by rw [List.foldl_append, hd]; exact he, fun j hj => ?_⟩
    rw [Errs.Tells, hring]
    rcases List.mem_append.mp hj with hj | hj
    · exact (htells j hj).put (by omega) _
    · obtain rfl := List.mem_singleton.mp hj
      obtain ⟨r, hr, h⟩ := put_tells es (Dev.mkRec { d with errs := es, funcs := fs, out := o } (devErr 0x72 0 17 [0, j, d.clk.step]))
      exact ⟨r, List.take_subset_take_left _ (by omega) hr, h⟩

/-- The sensors that read WARN_C or more. -/
def Dev.warm (d : Dev) (temps : List Int) : List Nat :=
  (List.range 55).filter (fun i => decide (16 * (d.pwr.warnC.toNat : Int) ≤ temps.getD i 0))

/-- The tick of the last reading near a limit, once a sample is in (R383). -/
def Dev.sampledAbove (d : Dev) (pavg : Nat) (tmax : Int) : Nat :=
  if decide (16 * ((d.pwr.stepC.toNat : Int) - 5) ≤ tmax) || decide (19 * d.pwr.limit.toNat ≤ 20 * pavg) then d.turn.now.toNat
  else d.clk.lastAbove

/-- The device with the readings in its registers. -/
def Dev.sampled (d : Dev) (vin iin pin pavg : Nat) (temps : List Int) (tmax : Int) (k : Nat) : Dev :=
  { d with
    pwr := { d.pwr with vin := vin, iin := iin, pin := pin, pavg := pavg, tmax := tmax, sensor := k, warned := d.warm temps }
    clk := { d.clk with lastAbove := d.sampledAbove pavg tmax } }

section Telemetry
variable {s : State} (hrst : s.dev.rst = false)
include hrst

theorem exec_telemetrySample (vin iin pin pavg : Nat) {temps : List Int} {tmax : Int} {k : Nat} (hlen : temps.length = 55)
    (hmax : hottest 0 temps = some (tmax, k)) : exec (.telemetrySample vin iin pin pavg temps) s = .next { s with
      dev := ((s.dev.warm temps).filter (fun i => !s.dev.pwr.warned.contains i)).foldl
        (fun (e : Dev) i => e.raiseDev 0x72 0 17 [0, i, e.clk.step]) (s.dev.sampled vin iin pin pavg temps tmax k) } := by
  refine (show execTelemetrySample vin iin pin pavg temps s = _ from lift_of_eq ?_)
  simp only [hmax]
  exact if_neg (by simp [hrst, hlen])

theorem exec_thermalTrip {n : Nat} {x : Int} (hx : 16 * 108 ≤ x) (hn : n ≤ 54) :
    exec (.thermalTrip n x) s = .next { s with dev := s.dev.raiseDev 0x72 3 15 [3, n, s.dev.clk.step] } := by
  refine (show execThermalTrip n x s = _ from lift_of_eq (if_neg ?_))
  simpa [hrst] using And.intro hx hn

end Telemetry

/-! ### Sleep and wake (R388, R389) -/

theorem exec_regionWakeEnd {s : State} {r : RegionId} {b : Bool} {e : Nat} (h : lk Sleep.run s.dev.clk.sleep r = .waking b e)
    (he : e ≤ s.dev.turn.now.toNat) :
    exec (.regionWakeEnd r) s = .next { s with dev := { s.dev with clk := { s.dev.clk with sleep := del s.dev.clk.sleep r } } } := by
  refine (show execRegionWakeEnd r s = _ from lift_of_eq ?_)
  simp only [h, if_pos he]

theorem exec_regionSleep {s : State} {p : PartId} {c : ClockEnt} (hplan : s.dev.planOf p = some c) (hsleep : c.sleep ≠ 0)
    (hnext : (s.dev.part p).next ≠ 0) (hstep : lk 0 s.dev.clk.wakeStep p = (s.dev.part p).next)
    (hawake : lk 0 s.dev.clk.wakeBegan p + c.awake ≤ s.dev.turn.now.toNat) (hdone : s.dev.partDone p = true)
    (hrun : ∀ r ∈ s.dev.regionsOf p, lk Sleep.run s.dev.clk.sleep r = .run) :
    exec (.regionSleep p) s = .next { s with dev := { s.dev with clk := { s.dev.clk with
      sleep := (s.dev.regionsOf p).foldl (fun m r => up m r (if c.sleep = 1 then .clockGated else .powerGated)) s.dev.clk.sleep } } } := by
  have hall : (s.dev.regionsOf p).all s.dev.regionRuns = true := by simpa [Dev.regionRuns] using hrun
  refine (show execRegionSleep p s = _ from lift_of_eq ?_)
  simp only [hplan]
  exact if_neg (by simp [hsleep, hnext, hstep, hawake, hdone, hall])

/-- A region wakes once: one that wakes already is left as it is. -/
theorem wakeRegion_wakeRegion (now code : Nat) (x : Sleep) : wakeRegion now code (wakeRegion now code x) = wakeRegion now code x := by
  cases x <;> rfl

theorem lk_foldl_wake (now code : Nat) (rs : List Nat) (m : SMap Sleep) (r : Nat) :
    lk Sleep.run (rs.foldl (fun m r => up m r (wakeRegion now code (lk .run m r))) m) r =
      if r ∈ rs then wakeRegion now code (lk .run m r) else lk .run m r := by
  induction rs generalizing m with
  | nil => rfl
  | cons x rs ih =>
    rw [List.foldl_cons, ih, lk_up]
    by_cases hx : r = x
    · subst hx; simp [wakeRegion_wakeRegion]
    · simp [hx]

/-- The changes that write the local stores of some cores with 0 (R153). -/
def clearStores (ks : List Nat) : List MemOp := ks.map (fun k => MemOp.clr (lsBase k) (lsBase k + 0xFFFFF))

theorem rd_clearStores (ks : List Nat) (m : Memory) (a : Nat) :
    (memAll m (clearStores ks)).rd a = if ∃ k ∈ ks, lsBase k ≤ a ∧ a ≤ lsBase k + 0xFFFFF then 0 else m.rd a := by
  induction ks generalizing m with
  | nil => simp [clearStores]
  | cons k ks ih =>
    rw [clearStores, List.map_cons, memAll_cons, ← clearStores, ih, MemOp.onMem]
    by_cases hin : lsBase k ≤ a ∧ a ≤ lsBase k + 0xFFFFF
    · rw [Memory.rd_clr_in hin, ite_self, if_pos ⟨k, List.mem_cons_self .., hin⟩]
    · rw [Memory.rd_clr_out (by omega)]
      simp [hin]

theorem caveAll_clearStores (ks : List Nat) (c : Memory) : caveAll c (clearStores ks) = c := by
  induction ks with
  | nil => rfl
  | cons k ks ih => exact ih

/-- The cores in those regions of a partition that are power-gated. -/
def Dev.darkCores (d : Dev) (p : Nat) : List Nat :=
  d.coresOf ((d.regionsOf p).filter (fun r => lk Sleep.run d.clk.sleep r == .powerGated))

theorem wakeRegions_clears (d : Dev) (p : Nat) : (d.wakeRegions (d.regionsOf p)).2 = clearStores (d.darkCores p) := by
  simp only [Dev.wakeRegions, clearStores, Dev.darkCores]

/-- The device once partition p begins to wake for the step after its running one. -/
def Dev.woken (d : Dev) (p : Nat) : Dev :=
  let e := (d.wakeRegions (d.regionsOf p)).1
  { e with clk := { e.clk with wakeBegan := up e.clk.wakeBegan p d.turn.now.toNat, wakeStep := up e.clk.wakeStep p ((d.part p).next + 1) } }

theorem exec_regionWakeStart {s : State} {p : PartId} {c : ClockEnt} {m : Mould} (hplan : s.dev.planOf p = some c)
    (hmould : s.dev.mouldOf p = some m) (hsleep : c.sleep ≠ 0) (ht0 : m.t0 ≠ 0) (hphase : 5 ≤ m.phase)
    (hstep : lk 0 s.dev.clk.wakeStep p ≠ (s.dev.part p).next + 1)
    (hlead : (s.dev.part p).nominal (s.dev.part p).next ≤ s.dev.turn.now.toNat + c.wakeLead) :
    exec (.regionWakeStart p) s = .next { s with
      dev := s.dev.woken p
      mem := memAll s.mem (clearStores (s.dev.darkCores p)) } := by
  have hgo : ¬((c.sleep = 0 || m.t0 = 0 || m.phase < 5 || lk 0 s.dev.clk.wakeStep p == (s.dev.part p).next + 1 ||
      decide (s.dev.turn.now.toNat + c.wakeLead < (s.dev.part p).nominal (s.dev.part p).next)) = true) := by
    simp [hsleep, ht0, hphase, hstep, hlead]
  have hexec : exec (.regionWakeStart p) s = .next { s with
      dev := s.dev.woken p
      mem := memAll s.mem (clearStores (s.dev.darkCores p))
      cave := caveAll s.cave (clearStores (s.dev.darkCores p)) } := by
    refine (show execRegionWakeStart p s = _ from liftW_of_eq ?_)
    rw [← wakeRegions_clears]
    simp only [hplan, hmould]
    rw [if_neg hgo]
    rfl
  rwa [caveAll_clearStores] at hexec

end Sys2Proof.Machine

/-! ## Boundaries that partitions take together -/

namespace Sys2Proof.Machine

/-! ### What a message between members leaves of the partitions -/

/-- Nothing but the ports and what left the device changed. -/
def Dev.PortsSent (d e : Dev) : Prop := ∃ ps o, e = { d with ports := ps, out := o }

theorem Dev.PortsSent.trans {d e g : Dev} : d.PortsSent e → e.PortsSent g → d.PortsSent g := by
  rintro ⟨_, _, rfl⟩ ⟨ps, o, rfl⟩; exact ⟨ps, o, rfl⟩

theorem setPort_emits_portsSent (d : Dev) (u : Nat) (x : Port) (l : List Out) : d.PortsSent ((d.setPort u x).emits l) := by
  obtain ⟨o, h⟩ := emits_eq (d.setPort u x) l
  exact ⟨_, o, h⟩

theorem sendSome_portsSent (d : Dev) (u : Nat) (k : Packet) (n : Nat) : d.PortsSent (d.sendSome u k n).1 := by
  unfold Dev.sendSome
  extract_lets x
  split
  · exact setPort_emits_portsSent _ _ _ _
  · split
    · exact ⟨_, _, rfl⟩
    · exact setPort_emits_portsSent _ _ _ _

theorem sendLoop_portsSent (u : Nat) (l : List Packet) (d : Dev) (bl : List Nat) (kept : List Packet) : d.PortsSent (d.sendLoop u l bl kept) := by
  induction l generalizing d bl kept with
  | nil => exact ⟨_, _, rfl⟩
  | cons k r ih =>
    rw [Dev.sendLoop]
    split
    · exact ih d _ _
    · have hs := sendSome_portsSent d u k (lk 0 (d.port u).sent k.cls)
      dsimp only
      generalize d.sendSome u k (lk 0 (d.port u).sent k.cls) = sent at hs ⊢
      split
      · exact (hs.trans ⟨_, _, rfl⟩).trans (ih _ _ _)
      · exact (hs.trans ⟨_, _, rfl⟩).trans (ih _ _ _)

theorem enqueue_portsSent (d : Dev) (u : Nat) (k : Packet) : d.PortsSent (d.enqueue u k) :=
  .trans ⟨_, _, rfl⟩ (sendLoop_portsSent u _ _ _ _)

/-- The clocks and the time blocks are as before, and each partition is loaded or not as before. -/
structure Dev.SameTimes (d e : Dev) : Prop where
  clk : e.clk = d.clk
  parts : e.parts = d.parts
  loaded : ∀ p, (e.mouldOf p).isSome = (d.mouldOf p).isSome

theorem Dev.SameTimes.refl (d : Dev) : d.SameTimes d := ⟨rfl, rfl, fun _ => rfl⟩

theorem Dev.SameTimes.trans {d e g : Dev} (h : d.SameTimes e) (k : e.SameTimes g) : d.SameTimes g :=
  ⟨k.clk.trans h.clk, k.parts.trans h.parts, fun p => (k.loaded p).trans (h.loaded p)⟩

theorem Dev.PortsSent.sameTimes {d e : Dev} : d.PortsSent e → d.SameTimes e := by
  rintro ⟨_, _, rfl⟩; exact ⟨rfl, rfl, fun _ => rfl⟩

theorem Dev.HostsTold.sameTimes {d e : Dev} : d.HostsTold e → d.SameTimes e := by
  rintro ⟨_, _, rfl⟩; exact ⟨rfl, rfl, fun _ => rfl⟩

/-- A change of a Mould that keeps its PMASK. -/
theorem updMould_sameTimes (d : Dev) (pm : Nat) {f : Mould → Mould} (hf : ∀ m, (f m).pmask = m.pmask) : d.SameTimes (d.updMould pm f) := by
  refine ⟨rfl, rfl, fun p => ?_⟩
  have hpred : (fun m : Mould => bit m.pmask p) ∘ (fun m => if m.pmask = pm then f m else m) = fun m => bit m.pmask p := by
    funext m
    by_cases h : m.pmask = pm
    · simp [h, hf]
    · simp [h]
  rw [Dev.mouldOf, Dev.updMould, List.find?_map, hpred, Option.isSome_map]
  rfl

theorem transfer_sameTimes (d : Dev) (fpid epoch self u dst cls : Nat) (bs : List Byte) : d.SameTimes (d.transfer fpid epoch self u dst cls bs) :=
  List.foldlRecOn (motive := d.SameTimes) _ _ (.refl d) fun e he _ _ =>
    have hfree : e.SameTimes { e with free := e.free + 1 } := ⟨rfl, rfl, fun _ => rfl⟩
    (he.trans hfree).trans (enqueue_portsSent _ _ _).sameTimes

theorem mgmtPacket_sameTimes (d : Dev) (via : Option Nat) (fpid dst mtype : Nat) (answer : Bool) (seq arg : Nat) (body : List Byte) :
    d.SameTimes (d.mgmtPacket via fpid dst mtype answer seq arg body) := by
  unfold Dev.mgmtPacket
  split
  · exact .refl d
  · split
    · exact .refl d
    · refine .trans ?_ (transfer_sameTimes _ _ _ _ _ _ _ _)
      exact updMould_sameTimes d _ fun _ => rfl

theorem sendMgmt_sameTimes (d : Dev) (fpid dst mtype arg : Nat) : d.SameTimes (d.sendMgmt fpid dst mtype arg) := by
  unfold Dev.sendMgmt Dev.sendMgmtVia
  extract_lets n crm e
  have he : d.SameTimes e := ⟨rfl, rfl, fun _ => rfl⟩
  exact he.trans (mgmtPacket_sameTimes _ _ _ _ _ _ _ _ _)

/-! ### Epochs (R283) -/

theorem switchCheck_sameTimes (d : Dev) (m : Mould) : d.SameTimes (d.switchCheck m) := by
  unfold Dev.switchCheck
  split
  · exact .refl d
  · split
    · refine .trans ?_ (complete_hostsTold _ _ _ _ _).sameTimes
      exact updMould_sameTimes d _ fun _ => rfl
    · exact .refl d

theorem switchedIn_sameTimes (d : Dev) (m : Mould) (i n : Nat) : d.SameTimes (d.switchedIn m i n) := by
  refine .trans ?_ (switchCheck_sameTimes _ m)
  exact updMould_sameTimes d _ fun _ => rfl

theorem switchEpoch_sameTimes (d : Dev) (m : Mould) (n : Nat) : d.SameTimes (d.switchEpoch m n) := by
  unfold Dev.switchEpoch
  split
  · exact .refl d
  · split
    · extract_lets e
      have he : d.SameTimes e := updMould_sameTimes d _ fun _ => rfl
      split
      · exact he.trans (switchedIn_sameTimes _ _ _ _)
      · exact he.trans (sendMgmt_sameTimes _ _ _ _ _)
    · exact .refl d

/-! ### One partition takes its boundary (R220) -/

theorem reseedArbs_sameTimes (d : Dev) (p n : Nat) : d.SameTimes (d.reseedArbs p n) :=
  List.foldlRecOn (motive := d.SameTimes) _ _ (.refl d) fun e he a _ => by
    split
    · exact he.trans ⟨rfl, rfl, fun _ => rfl⟩
    · exact he

/-- The time block of a partition that has taken its boundary. -/
def PartTime.taken (t : PartTime) : PartTime :=
  { t with step := BitVec.ofNat 64 t.next, next := t.next + 1, st := .running, atBreak := false, stepEnd := false, restartAt := none,
           earliest := 0, snaps := up t.snaps t.next t.credits, load := BitVec.ofNat 64 (t.load.toNat / 8 * 8 + 6) }

theorem sendLockRecord_alone {d : Dev} {p : Nat} (h : (d.part p).lock = none) (step : Nat) : d.sendLockRecord p step = d := by
  simp only [Dev.sendLockRecord, h]

/-- A partition without a lock-step partner that has not stopped for good takes its boundary: no other time block changes. -/
theorem takeBoundary_sameTimes {d : Dev} {p : Nat} (m : Mould) (hlock : (d.part p).lock = none) (hdead : (d.part p).dead = false) :
    (d.updPart p PartTime.taken).SameTimes (d.takeBoundary p m) := by
  unfold Dev.takeBoundary
  extract_lets t n d0 turn d1 d2 errs d3 d4
  have h0 : d0 = d := by simp only [d0, sendLockRecord_alone hlock, ite_self]
  clear_value d0
  subst h0
  rw [if_neg (by rw [hdead]; decide)]
  have h3 : (d0.updPart p PartTime.taken).SameTimes d3 := ⟨rfl, rfl, fun _ => rfl⟩
  have h4 : d3.SameTimes d4 := by
    refine .trans (reseedArbs_sameTimes d3 p n) ?_
    exact updMould_sameTimes _ _ fun _ => rfl
  split
  · refine (h3.trans h4).trans (.trans ?_ (switchEpoch_sameTimes _ m n))
    exact updMould_sameTimes _ _ fun _ => rfl
  · exact h3.trans h4

/-! ### The switch of the frequency (R230, R382) -/

/-- Partition p takes its boundary, where it is loaded. -/
def Dev.takeAt (d : Dev) (p : Nat) : Dev :=
  match d.mouldOf p with
  | some m => d.takeBoundary p m
  | none => d

theorem takeAt_sameTimes {d : Dev} {p : Nat} (hload : (d.mouldOf p).isSome) (hlock : (d.part p).lock = none)
    (hdead : (d.part p).dead = false) : (d.updPart p PartTime.taken).SameTimes (d.takeAt p) := by
  obtain ⟨m, hm⟩ := Option.isSome_iff_exists.mp hload
  simp only [Dev.takeAt, hm]
  exact takeBoundary_sameTimes m hlock hdead

/-- Different partitions that are ready take their boundaries one after the other, and none is in another's way. -/
theorem foldl_takeAt {l : List Nat} (hl : l.Nodup) {d : Dev}
    (hready : ∀ p ∈ l, (d.mouldOf p).isSome ∧ (d.part p).lock = none ∧ (d.part p).dead = false) :
    (l.foldl Dev.takeAt d).clk = d.clk ∧ ∀ q, (l.foldl Dev.takeAt d).part q = if q ∈ l then (d.part q).taken else d.part q := by
  induction l generalizing d with
  | nil => simp
  | cons p l ih =>
    obtain ⟨hp, hl⟩ := List.nodup_cons.mp hl
    obtain ⟨⟨hload, hlock, hdead⟩, hready⟩ := List.forall_mem_cons.mp hready
    obtain ⟨hclk, hparts, hloaded⟩ := takeAt_sameTimes hload hlock hdead
    have hpart (q : Nat) : (d.takeAt p).part q = if q = p then (d.part p).taken else d.part q := by
      rw [Dev.part, hparts]
      exact lk_up _ _ _ _ _
    obtain ⟨hclk', hpart'⟩ := ih hl (d := d.takeAt p) fun q hq => by
      rw [hpart, if_neg (fun h : q = p => hp (h ▸ hq)), hloaded]
      exact hready q hq
    refine ⟨hclk'.trans hclk, fun q => ?_⟩
    rw [List.foldl_cons, hpart', hpart]
    by_cases hq : q = p
    · subst hq; simp [hp]
    · simp [hq]

/-- Partition p with its Mould, where it takes part in a change: RUNNING or HELD (R382). -/
def Dev.changer (d : Dev) (p : Nat) : Option (Nat × Mould) :=
  match d.mouldOf p with
  | some m => if (d.part p).st == .running || (d.part p).st == .held then some (p, m) else none
  | none => none

theorem changers_eq (d : Dev) : d.changers = (List.range 16).filterMap d.changer := rfl

theorem changer_some {d : Dev} {p : Nat} {e : Nat × Mould} (h : d.changer p = some e) : e.1 = p ∧ d.mouldOf e.1 = some e.2 := by
  unfold Dev.changer at h
  split at h
  next m hm =>
    split at h
    · cases h; exact ⟨rfl, hm⟩
    · cases h
  next => cases h

theorem mouldOf_of_mem_changers {d : Dev} {e : Nat × Mould} (h : e ∈ d.changers) : d.mouldOf e.1 = some e.2 := by
  obtain ⟨p, -, hp⟩ := List.mem_filterMap.mp (changers_eq d ▸ h)
  exact (changer_some hp).2

theorem changers_nodup (d : Dev) : (d.changers.map Prod.fst).Nodup := by
  rw [List.Nodup, List.pairwise_map, changers_eq, List.pairwise_filterMap]
  refine List.nodup_range.imp fun hne e he f hf => ?_
  rwa [(changer_some he).1, (changer_some hf).1]

theorem dead_of_stoppedFor {d : Dev} {c : FChange} {p : Nat} {m : Mould} (h : d.stoppedFor c p m = true) : (d.part p).dead = false := by
  simp only [Dev.stoppedFor, Dev.boundaryDue, Bool.and_eq_true, Bool.not_eq_true'] at h
  tauto

/-- The clocks at the step code x asks for. -/
def Clk.switched (c : Clk) (x : FChange) : Clk :=
  { c with step := x.code, change := none, waiting := none, forcedNow := x.forced && decide (c.req.toNat < x.code) }

theorem exec_freqSwitch {s : State} {x : FChange} (hchange : s.dev.clk.change = some x) (hwait : s.dev.clk.waiting = none)
    (hcyc : s.dev.cyc = 0) (htick : x.tick + 64 ≤ s.dev.turn.now.toNat)
    (hstopped : ∀ e ∈ s.dev.changers, s.dev.stoppedFor x e.1 e.2 = true) :
    exec .freqSwitch s = .next { s with
      dev := (s.dev.changers.map Prod.fst).foldl Dev.takeAt { s.dev with clk := s.dev.clk.switched x } } := by
  have hall : s.dev.changers.all (fun e => s.dev.stoppedFor x e.1 e.2) = true := List.all_eq_true.mpr hstopped
  refine (show execFreqSwitch s = _ from lift_of_eq ?_)
  simp only [hchange, hwait]
  rw [List.foldl_map]
  exact if_neg (by simp [hcyc, htick, hall])

/-- Every region changes, and each stopped partition without a lock-step partner takes its boundary. -/
theorem freqSwitch_takes {s : State} {x : FChange} (hchange : s.dev.clk.change = some x) (hwait : s.dev.clk.waiting = none)
    (hcyc : s.dev.cyc = 0) (htick : x.tick + 64 ≤ s.dev.turn.now.toNat)
    (hstopped : ∀ e ∈ s.dev.changers, s.dev.stoppedFor x e.1 e.2 = true ∧ (s.dev.part e.1).lock = none) :
    ∃ t, exec .freqSwitch s = .next t ∧ t.mem = s.mem ∧ t.dev.clk = s.dev.clk.switched x ∧
      ∀ e ∈ s.dev.changers, t.dev.part e.1 = (s.dev.part e.1).taken := by
  have hready : ∀ p ∈ s.dev.changers.map Prod.fst,
      (s.dev.mouldOf p).isSome ∧ (s.dev.part p).lock = none ∧ (s.dev.part p).dead = false := by
    refine List.forall_mem_map.mpr fun e he => ?_
    obtain ⟨hstop, hlock⟩ := hstopped e he
    exact ⟨Option.isSome_of_eq_some (mouldOf_of_mem_changers he), hlock, dead_of_stoppedFor hstop⟩
  obtain ⟨hclk, hpart⟩ := foldl_takeAt (changers_nodup s.dev) (d := { s.dev with clk := s.dev.clk.switched x }) hready
  exact ⟨_, exec_freqSwitch hchange hwait hcyc htick fun e he => (hstopped e he).1, rfl, hclk,
    fun e he => (hpart e.1).trans (if_pos (List.mem_map_of_mem he))⟩

end Sys2Proof.Machine

/-! ## The statement of frequency, telemetry and sleep -/

namespace Sys2Proof.Machine

/-- A forced code begins its change and is recorded; the clocks are else as they were. -/
theorem thermalForce_forces {s : State} (hrst : s.dev.rst = false)
    (hlimit : 16 * (s.dev.pwr.stepC.toNat : Int) ≤ s.dev.pwr.tmax ∨ s.dev.pwr.limit.toNat < s.dev.pwr.pavg) (hstep : s.dev.clk.step < 6)
    (hchange : s.dev.clk.change = none) (hlast : s.dev.clk.lastForce = 0 ∨ s.dev.clk.lastForce + 624999 ≤ s.dev.turn.now.toNat) :
    ∃ t, exec .thermalForce s = .next t ∧ t.mem = s.mem ∧ t.dev.clk = s.dev.slowed.clk ∧
      Recorded t 0x72 0xFFFF [if 16 * (s.dev.pwr.stepC.toNat : Int) ≤ s.dev.pwr.tmax then 1 else 2, s.dev.pwr.sensor, s.dev.clk.step + 1] := by
  obtain ⟨es, fs, o, hraise, -⟩ := raiseDev_log s.dev.slowed 0x72 17 [if s.dev.tooHot then 1 else 2, s.dev.pwr.sensor, s.dev.clk.step + 1]
  refine ⟨_, exec_thermalForce hrst hlimit hstep hchange hlast, rfl, by rw [hraise], ?_⟩
  simpa only [Dev.tooHot, decide_eq_true_eq] using raiseDev_recorded rfl

/-- The readings stand in the registers, and every sensor that newly reaches WARN_C has its record. -/
theorem telemetrySample_reads {s : State} (hrst : s.dev.rst = false) (vin iin pin pavg : Nat) {temps : List Int} (hlen : temps.length = 55) :
    ∃ t, exec (.telemetrySample vin iin pin pavg temps) s = .next t ∧ t.mem = s.mem ∧
      t.dev.pwr.vin = vin ∧ t.dev.pwr.iin = iin ∧ t.dev.pwr.pin = pin ∧ t.dev.pwr.pavg = pavg ∧
      t.dev.pwr.nv = s.dev.pwr.nv ∧ t.dev.pwr.st = s.dev.pwr.st ∧ t.dev.cores = s.dev.cores ∧
      temps[t.dev.pwr.sensor]? = some t.dev.pwr.tmax ∧ (∀ x ∈ temps, x ≤ t.dev.pwr.tmax) ∧
      ∀ i, i < 55 → 16 * (s.dev.pwr.warnC.toNat : Int) ≤ temps.getD i 0 → i ∉ s.dev.pwr.warned →
        ∃ r ∈ t.dev.errs.ring, r.code = 0x72 ∧ r.detail = [0, i, s.dev.clk.step] := by
  obtain ⟨tmax, k, hmax⟩ := hottest_some (l := temps) (by rintro rfl; cases hlen) 0
  obtain ⟨-, hget, hle⟩ := hottest_spec hmax
  have hnew : ((s.dev.warm temps).filter (fun i => !s.dev.pwr.warned.contains i)).length ≤ 55 :=
    calc _ ≤ (s.dev.warm temps).length := List.length_filter_le ..
      _ ≤ (List.range 55).length := List.length_filter_le ..
      _ = 55 := List.length_range
  obtain ⟨es, fs, o, hd, htells⟩ := warn_tells _ (hnew.trans (by decide)) (s.dev.sampled vin iin pin pavg temps tmax k)
  have hexec := exec_telemetrySample hrst vin iin pin pavg hlen hmax
  rw [hd] at hexec
  refine ⟨_, hexec, rfl, rfl, rfl, rfl, rfl, rfl, rfl, rfl, hget, hle, fun i hi hwarm hnot => ?_⟩
  have hnewly : i ∈ (s.dev.warm temps).filter (fun i => !s.dev.pwr.warned.contains i) := by
    simpa [Dev.warm, hi, hnot] using hwarm
  obtain ⟨r, hr, h⟩ := htells i hnewly
  exact ⟨r, List.mem_of_mem_take hr, h⟩

/-- The regions of a partition that wakes wake by their state; the local stores of those that were power-gated are 0, and no other byte changes. -/
theorem regionWakeStart_wakes {s : State} {p : PartId} {c : ClockEnt} {m : Mould} (hplan : s.dev.planOf p = some c)
    (hmould : s.dev.mouldOf p = some m) (hsleep : c.sleep ≠ 0) (ht0 : m.t0 ≠ 0) (hphase : 5 ≤ m.phase)
    (hstep : lk 0 s.dev.clk.wakeStep p ≠ (s.dev.part p).next + 1)
    (hlead : (s.dev.part p).nominal (s.dev.part p).next ≤ s.dev.turn.now.toNat + c.wakeLead) :
    ∃ t, exec (.regionWakeStart p) s = .next t ∧ t.cave = s.cave ∧ t.dev.cores = s.dev.cores ∧
      (∀ r, lk Sleep.run t.dev.clk.sleep r = if r ∈ s.dev.regionsOf p then
        wakeRegion s.dev.turn.now.toNat s.dev.clk.step (lk .run s.dev.clk.sleep r) else lk .run s.dev.clk.sleep r) ∧
      ∀ a, t.mem.rd a = if ∃ k ∈ s.dev.darkCores p, lsBase k ≤ a ∧ a ≤ lsBase k + 0xFFFFF then 0 else s.mem.rd a := by
  refine ⟨_, exec_regionWakeStart hplan hmould hsleep ht0 hphase hstep hlead, rfl, rfl, fun r => ?_, fun a => ?_⟩
  · exact lk_foldl_wake _ _ _ _ _
  · rw [rd_clearStores]

/-- Settles O35: frequency changes by `fstepWrite_judged`, the switch by `foldl_takeAt`, the records by the ring, and sleep by region. -/
theorem frequencyTelemetryAndSleep : Obligations.FrequencyTelemetryAndSleep := by
  constructor
  · intro s v d c now n hrst
    refine ⟨exec_clkFstepWrite_reserved hrst, fun hn hc => ⟨exec_clkFstepWrite_begun hrst hn hc, exec_clkFstepWrite_refused hrst hn hc⟩,
      fun x hx hwait hcyc htick hstopped => ?_, thermalForce_forces hrst, exec_freqRaise hrst⟩
    obtain ⟨t, hexec, hmem, hclk, hpart⟩ := freqSwitch_takes hx hwait hcyc htick hstopped
    refine ⟨t, hexec, hmem, hclk.trans ?_, fun e he => ?_⟩
    · rw [Clk.switched, ← hwait]
    · rw [hpart e he]; exact ⟨rfl, rfl, rfl⟩
  · intro s d now state
    refine ⟨fun vin iin pin pavg temps hrst hlen => telemetrySample_reads hrst vin iin pin pavg hlen,
      fun n x hrst hx hn => ⟨_, exec_thermalTrip hrst hx hn, raiseDev_resets s _ _ _⟩, ?partition,
      fun r b e hwaking he => ⟨_, exec_regionWakeEnd hwaking he, fun x => ?ends⟩⟩
    case partition =>
      intro p c m hplan hmould hsleep b
      refine ⟨fun ht0 hphase hstep hlead => ?wake, fun hnext hstep hawake hdone hrun => ?sleep⟩
      case wake =>
        obtain ⟨t, hexec, hcave, hcores, hstates, hbytes⟩ := regionWakeStart_wakes hplan hmould hsleep ht0 hphase hstep hlead
        refine ⟨t, hexec, hcave, hcores, fun r => ?_, hbytes⟩
        rw [ite_not]
        exact hstates r
      case sleep =>
        refine ⟨_, exec_regionSleep hplan hsleep hnext hstep hawake hdone hrun, fun r => ?_⟩
        rw [ite_not]
        exact lk_foldl_up _ _ _ _ r
    case ends =>
      by_cases h : x = r.val
      · rw [if_pos h, h, lk_del_same]
      · rw [if_neg h, lk_del_ne _ h]

end Sys2Proof.Machine

/-! ## Scalar words -/

namespace Sys2Proof.Machine

/-! ### A word whose only effect is one register (R46, R156) -/

theorem runsOn_set (x : Seq) (n : Nat) (v : Word) : RunsOn x (x.set n v).advance := by
  unfold Seq.set
  split
  · exact runsOn_advance x x.regs
  · exact runsOn_advance x _

theorem writesReg_set (x : Seq) (n : Nat) (v : Word) : WritesReg x (x.set n v).advance n v := by
  refine ⟨?_, fun i hi => x.get_set_ne v hi⟩
  rw [Seq.get_advance]
  split
  · next hn => rw [hn, Seq.get_zero]
  · next hn => exact x.get_set_same n v hn

section Value
variable {s : State} {k : CoreId} {q : SeqId} {op w : Nat} {i : Instr} {v : Word}

theorem scalarResult_of_regOp (val : Dev → Seq → Nat → Word) (hi : exec i s = regOp k q op val s)
    (hv : val s.dev (s.dev.seq k q) w = v) (h : s.standsAt k q op w) : ScalarResult s k q w i v :=
  ⟨_, _, hi.trans (regOp_go h), onlySeq_setSeq s k q _, runsOn_set _ _ _, hv ▸ writesReg_set _ _ _⟩

theorem scalarResult_of_rrOp (f : Word → Word → Word) (hi : exec i s = rrOp k q op f s)
    (hf : f ((s.dev.seq k q).get (wA w)) ((s.dev.seq k q).get (wB w)) = v) (h : s.standsAt k q op w) : ScalarResult s k q w i v :=
  scalarResult_of_regOp _ hi hf h

theorem scalarResult_of_riOp (f : Word → Word → Word) (hi : exec i s = riOp k q op f s)
    (hf : f ((s.dev.seq k q).get (wA w)) (immS w) = v) (h : s.standsAt k q op w) : ScalarResult s k q w i v :=
  scalarResult_of_regOp _ hi hf h

end Value

/-! ### The values of Table 04-4 and R158 by the integers they stand for -/

theorem mulHS_eq (a b : Word) : mulHS a b = BitVec.ofInt 64 (a.toInt * b.toInt / 2 ^ 64) :=
  congrArg (BitVec.ofInt 64) (Int.fdiv_eq_ediv_of_nonneg _ (by decide))

theorem sshiftRight_eq_ofInt (a : Word) (n : Nat) : a.sshiftRight n = BitVec.ofInt 64 (a.toInt / 2 ^ n) :=
  congrArg (BitVec.ofInt 64) ((Int.shiftRight_eq_div_pow _ _).trans (by norm_num))

theorem flag64_slt (a b : Word) : flag64 (a.slt b) = if a.toInt < b.toInt then 1 else 0 := by
  simp only [flag64, BitVec.slt_iff_toInt_lt]

theorem flag64_ult (a b : Word) : flag64 (a.ult b) = if a.toNat < b.toNat then 1 else 0 := by
  simp only [flag64, BitVec.ult_iff_toNat_lt]

theorem min_eq_ofInt (a b : Word) : (if a.sle b then a else b) = BitVec.ofInt 64 (min a.toInt b.toInt) := by
  simp only [BitVec.sle_iff_toInt_le, min_def, apply_ite (BitVec.ofInt 64), BitVec.ofInt_toInt]

theorem max_eq_ofInt (a b : Word) : (if b.sle a then a else b) = BitVec.ofInt 64 (max a.toInt b.toInt) := by
  simp only [BitVec.sle_iff_toInt_le, max_comm a.toInt, max_def, apply_ite (BitVec.ofInt 64), BitVec.ofInt_toInt]

/-! ### The amount of an immediate shift (R158) -/

/-- The extension by the sign of bit 45 leaves the low six bits of the immediate as they are. -/
theorem immS_amount (w : Nat) : (immS w).toNat % 64 = bits w 5 0 := by
  have hsext : sext (wImm w) 46 % 64 = ((wImm w % 64 : Nat) : Int) := by
    unfold sext
    split <;> omega
  have hlow : wImm w % 64 = bits w 5 0 := by
    simp only [wImm, bits]; omega
  rw [immS, BitVec.toNat_ofInt]
  omega

/-! ### Fields that a defined word leaves 0 (R155, R158) -/

theorem wordOk_of_standsAt {s : State} {k : Nat} {q : SeqId} {op w : Nat} (h : s.standsAt k q op w) :
    wordOk q (s.dev.seq k q).pc.toNat (s.dev.core k).dqdir.toNat w = true := by
  unfold State.standsAt front at h
  extract_lets x v at h
  split_ifs at h with hno hok
  obtain rfl := Front.go.inj h
  exact hok

theorem shiftAmount_of_standsAt {s : State} {k : Nat} {q : SeqId} {w : Nat}
    (h : s.standsAt k q 0x25 w ∨ s.standsAt k q 0x26 w ∨ s.standsAt k q 0x27 w) : bits w 45 6 = 0 := by
  rcases h with h | h | h
  all_goals
    have hok := wordOk_of_standsAt h
    simpa only [wordOk, (fetched_of_standsAt h).2, beq_iff_eq] using hok

theorem lihImmediate_of_standsAt {s : State} {k : Nat} {q : SeqId} {w : Nat} (h : s.standsAt k q 0x2B w) : bits w 45 32 = 0 := by
  have hok := wordOk_of_standsAt h
  simpa only [wordOk, (fetched_of_standsAt h).2, beq_iff_eq] using hok

/-- Settles O8: every word is the one register write of its form, with the value of its operation. -/
theorem scalarWords : Obligations.ScalarWords := by
  refine ⟨fun k q s w => ?registers, fun k q s w => ?immediates⟩
  case registers =>
    exact ⟨scalarResult_of_rrOp (· + ·) rfl rfl, scalarResult_of_rrOp (· - ·) rfl rfl, scalarResult_of_rrOp (· * ·) rfl rfl,
      scalarResult_of_rrOp mulHS rfl (mulHS_eq _ _), scalarResult_of_rrOp mulHU rfl rfl, scalarResult_of_rrOp (· &&& ·) rfl rfl,
      scalarResult_of_rrOp (· ||| ·) rfl rfl, scalarResult_of_rrOp (· ^^^ ·) rfl rfl, scalarResult_of_rrOp shl64 rfl rfl,
      scalarResult_of_rrOp shr64 rfl rfl, scalarResult_of_rrOp sra64 rfl (sshiftRight_eq_ofInt _ _),
      scalarResult_of_rrOp (fun a b => flag64 (a.slt b)) rfl (flag64_slt _ _),
      scalarResult_of_rrOp (fun a b => flag64 (a.ult b)) rfl (flag64_ult _ _),
      scalarResult_of_rrOp (fun a b => if a.sle b then a else b) rfl (min_eq_ofInt _ _),
      scalarResult_of_rrOp (fun a b => if b.sle a then a else b) rfl (max_eq_ofInt _ _),
      scalarResult_of_regOp (fun _ x w => if x.get (wC w) ≠ 0 then x.get (wA w) else x.get (wB w)) rfl rfl⟩
  case immediates =>
    have hamount := immS_amount w
    exact ⟨scalarResult_of_riOp (· + ·) rfl rfl, scalarResult_of_riOp (· * ·) rfl rfl, scalarResult_of_riOp (· &&& ·) rfl rfl,
      scalarResult_of_riOp (· ||| ·) rfl rfl, scalarResult_of_riOp (· ^^^ ·) rfl rfl,
      scalarResult_of_riOp shl64 rfl (by rw [shl64, hamount]), scalarResult_of_riOp shr64 rfl (by rw [shr64, hamount]),
      scalarResult_of_riOp sra64 rfl (by rw [sra64, hamount, sshiftRight_eq_ofInt]),
      scalarResult_of_riOp (fun a i => flag64 (a.slt i)) rfl (flag64_slt _ _),
      scalarResult_of_riOp (fun a i => flag64 (a.ult i)) rfl (flag64_ult _ _), scalarResult_of_riOp (fun _ i => i) rfl rfl,
      scalarResult_of_regOp (fun _ x w => BitVec.ofNat 64 (bits w 31 0 * 2 ^ 32 + (x.get (wA w)).toNat % 2 ^ 32)) rfl rfl,
      shiftAmount_of_standsAt, lihImmediate_of_standsAt,
      scalarResult_of_regOp (fun d _ w => BitVec.ofNat 64 (d.sysValue k (wImm w))) rfl rfl, rfl, rfl, rfl, rfl⟩

end Sys2Proof.Machine

/-! ## The end of a sequencer's step -/

namespace Sys2Proof.Machine

/-- What follows the end of core k's step changes no other core. -/
theorem afterStepEnd_core_ne (d : Dev) {k j : Nat} (h : j ≠ k) : (d.afterStepEnd k).core j = d.core j := by
  rcases afterStepEnd_cores d k with hc | hc
  · exact core_eq_of_cores hc j
  · exact (core_eq_of_cores hc j).trans (Dev.core_setCore_ne d h _)

theorem Dev.seq_setSeq_ne (d : Dev) (k : Nat) {q r : SeqId} (h : r ≠ q) (x : Seq) : (d.setSeq k q x).seq k r = d.seq k r := by
  rw [Dev.seq, Dev.setSeq, Dev.core_setCore, Core.seq_setSeq_ne _ h, Dev.seq]

/-- The sequencer in STEP_WAIT after a STEPEND, to go on at the next word or, with WRAP, at word 0. -/
def Seq.stepEnded (x : Seq) (wrap : Bool) : Seq :=
  { x.advance with st := .stepWait, ended := true, pc := if wrap then 0 else x.advance.pc }

section Stepend
variable {s : State} {k : CoreId} {q : SeqId} {w : Nat} (h : s.standsAt k q 0x03 w)
include h

theorem exec_stepend (hw : bit w 55 = true → (s.dev.seq k q).loops = []) : exec (.stepend k q) s =
    .next { s with dev := (s.dev.setSeq k q ((s.dev.seq k q).stepEnded (bit w 55))).afterStepEnd k } := by
  refine seqOp_ok (o := execStepend k q s) rfl h (if_neg ?_)
  simpa using hw

theorem exec_stepend_refused (hw : bit w 55 = true) (hl : (s.dev.seq k q).loops ≠ []) :
    exec (.stepend k q) s = .refused (.undefinedWord 0x03) := by
  refine seqOp_refuse (o := execStepend k q s) rfl h (if_pos ?_)
  simpa [hw] using hl

end Stepend

/-- Settles O12: what follows the end of the step moves no sequencer and no other core. -/
theorem stependEntersStepWait : Obligations.StependEntersStepWait := by
  intro k q s w h x
  refine ⟨fun hw => ⟨_, exec_stepend h hw, rfl, rfl, ?_⟩, exec_stepend_refused h⟩
  dsimp only
  simp only [afterStepEnd_seq, Dev.seq_setSeq]
  exact ⟨rfl, rfl, rfl, rfl, fun r hr => Dev.seq_setSeq_ne _ _ hr _,
    fun j hj => (afterStepEnd_core_ne _ hj).trans (Dev.core_setCore_ne _ hj _)⟩

end Sys2Proof.Machine

/-! ## Records served at the edge units -/

namespace Sys2Proof.Machine

/-! ### What errors and credits leave of the edge units -/

/-- The records in service at the edge units are as before, and no message to a host is lost. -/
structure Dev.EdgesKept (d e : Dev) : Prop where
  caveSrv : e.caveSrv = d.caveSrv
  hostSrv : e.hostSrv = d.hostSrv
  out : d.out ⊆ e.out

theorem Dev.EdgesKept.refl (d : Dev) : d.EdgesKept d := ⟨rfl, rfl, List.Subset.refl _⟩

theorem Dev.EdgesKept.trans {d e g : Dev} (h : d.EdgesKept e) (k : e.EdgesKept g) : d.EdgesKept g :=
  ⟨k.caveSrv.trans h.caveSrv, k.hostSrv.trans h.hostSrv, List.Subset.trans h.out k.out⟩

theorem edgesKept_of_eq {d e : Dev} (hc : e.caveSrv = d.caveSrv) (hh : e.hostSrv = d.hostSrv) (ho : e.out = d.out) : d.EdgesKept e :=
  ⟨hc, hh, fun _ hm => ho.symm ▸ hm⟩

/-- What comes before may change anything else. -/
theorem Dev.EdgesKept.after {d e g : Dev} (h : e.EdgesKept g) (hc : e.caveSrv = d.caveSrv) (hh : e.hostSrv = d.hostSrv)
    (ho : e.out = d.out) : d.EdgesKept g := (edgesKept_of_eq hc hh ho).trans h

/-- Messages in front of those that were there. -/
theorem edgesKept_emits (d : Dev) (fs : SMap Func) (o : List Out) : d.EdgesKept { d with funcs := fs, out := o ++ d.out } :=
  ⟨rfl, rfl, List.subset_append_right _ _⟩

theorem msix_edgesKept (d : Dev) (f vec : Nat) : d.EdgesKept (d.msix f vec) := by
  obtain ⟨fs, o, h, -, ho⟩ := msix_spec d f vec
  rw [h]; exact ⟨rfl, rfl, ho⟩

theorem flushHeld_edgesKept (d : Dev) (f : Nat) : d.EdgesKept (d.flushHeld f) := by
  unfold Dev.flushHeld
  extract_lets x
  rcases flushCpl f x.held.length x [] with ⟨y, o⟩
  dsimp only
  split
  · exact edgesKept_emits d _ o
  · exact (edgesKept_emits d _ o).trans (msix_edgesKept _ _ _)

theorem complete_edgesKept (d : Dev) (f cid status result : Nat) : d.EdgesKept (d.complete f cid status result) := by
  unfold Dev.complete
  extract_lets x
  split
  · exact .refl d
  · exact (flushHeld_edgesKept _ f).after rfl rfl rfl

theorem completeOpt_edgesKept (d : Dev) (r : Option (Nat × Nat)) (status result : Nat) : d.EdgesKept (d.completeOpt r status result) := by
  cases r with
  | none => exact .refl d
  | some r => exact complete_edgesKept d r.1 r.2 status result

theorem ring_edgesKept (d : Dev) (f c : Nat) (recs : List (List Byte)) : d.EdgesKept (d.ring f c recs) := by
  unfold Dev.ring
  split
  · exact .refl d
  · next x _ =>
    split
    · exact .refl d
    · rcases flushRing f c (x.backlog.length + recs.length) { x with backlog := x.backlog ++ recs } [] with ⟨y, o⟩
      dsimp only
      split
      · exact edgesKept_emits d _ o
      · split
        · exact (edgesKept_emits d _ o).trans (msix_edgesKept _ _ _)
        · exact edgesKept_emits d _ o

theorem noSample_edgesKept (d : Dev) (w : Waiting) : d.EdgesKept (d.noSample w) := by
  unfold Dev.noSample
  split
  · exact (complete_edgesKept _ _ _ _ _).after rfl rfl rfl
  all_goals exact complete_edgesKept d _ _ _ _

theorem failRequests_edgesKept (d : Dev) (p : Nat) : d.EdgesKept (d.failRequests p) := by
  unfold Dev.failRequests
  split
  · exact .refl d
  · next m _ =>
    split
    · exact .refl d
    · next sv _ =>
      extract_lets st d1 d2
      have h1 : d.EdgesKept d1 :=
        List.foldlRecOn (motive := d.EdgesKept) _ _ (.refl d) fun e he f _ =>
          List.foldlRecOn (motive := d.EdgesKept) _ _ he fun e he c _ => by
            split
            · exact he.trans ((ring_edgesKept _ _ _ _).after rfl rfl rfl)
            · exact he
      clear_value d1
      have h2 : d1.EdgesKept d2 := edgesKept_of_eq rfl rfl rfl
      clear_value d2
      have h3 : d2.EdgesKept (sv.waiting.foldl (fun d w => d.noSample w) d2) :=
        List.foldlRecOn (motive := d2.EdgesKept) _ _ (.refl d2) fun e he w _ => he.trans (noSample_edgesKept e w)
      exact ((h1.trans h2).trans h3).trans (completeOpt_edgesKept _ _ _ _)

theorem stopPart_edgesKept (d : Dev) (p : Nat) : d.EdgesKept (d.stopPart p) :=
  (failRequests_edgesKept _ p).after rfl rfl rfl

theorem irqs_edgesKept (d : Dev) (cls pm : Nat) : d.EdgesKept (d.irqs cls pm) :=
  List.foldlRecOn (motive := d.EdgesKept) _ _ (.refl d) fun e he f _ => by
    split
    · exact he.trans ((msix_edgesKept _ f _).after rfl rfl rfl)
    · exact he

/-- An error that resets nothing leaves the edge units alone (R400). -/
theorem raise_edgesKept {e : Err} (h : e.cls ≠ 3) (d : Dev) : d.EdgesKept (d.raise e) := by
  unfold Dev.raise
  extract_lets r d1
  have h1 : d.EdgesKept d1 := edgesKept_of_eq rfl rfl rfl
  refine h1.trans ?_
  clear_value d1
  split
  · exact (irqs_edgesKept _ 1 e.pmask).after rfl rfl rfl
  · exact .trans (List.foldlRecOn (motive := d1.EdgesKept) _ _ (.refl d1) fun x hx p _ => hx.trans (stopPart_edgesKept x p))
      (irqs_edgesKept _ 2 e.pmask)
  · exact absurd ‹_› h
  · exact irqs_edgesKept d1 0 e.pmask

/-! The accesses that serve a record: error correction (R147), the lock-step digest (R235), the credit (R54 to R57). -/

theorem eccUe_edgesKept (d : Dev) (w reader : Nat) : d.EdgesKept (d.eccUe w reader) := by
  unfold Dev.eccUe
  extract_lets u p net d1
  exact (raise_edgesKept (by simp) d1).after rfl rfl rfl

theorem eccWrite_edgesKept (d : Dev) (bs : List MByte) (writer : Nat) : d.EdgesKept (d.eccWrite bs writer) :=
  List.foldlRecOn (motive := d.EdgesKept) _ _ (.refl d) fun e he w _ => by
    extract_lets net e1
    have h1 : e.EdgesKept e1 := by
      unfold e1; split
      · exact edgesKept_of_eq rfl rfl rfl
      · exact .refl e
    refine (he.trans h1).trans ?_
    split
    · exact .refl e1
    · split
      · exact edgesKept_of_eq rfl rfl rfl
      · exact eccUe_edgesKept e1 _ writer

theorem digestAdd_edgesKept (d : Dev) (k : Nat) (items : List (Nat × List Byte)) : d.EdgesKept (d.digestAdd k items) := by
  unfold Dev.digestAdd
  split
  · exact edgesKept_of_eq rfl rfl rfl
  · exact .refl d

theorem synAdd_edgesKept (d : Dev) (obj n who : Nat) : d.EdgesKept (d.synAdd obj n who) := by
  unfold Dev.synAdd
  extract_lets k c d1
  have h1 : d.EdgesKept d1 := edgesKept_of_eq rfl rfl rfl
  split
  · exact h1.trans (raise_edgesKept (by simp) d1)
  · exact h1

theorem credit_edgesKept (d : Dev) (obj n src : Nat) : d.EdgesKept (d.credit obj n src) := by
  unfold Dev.credit
  extract_lets d1 c d2
  have h1 : d.EdgesKept d1 := edgesKept_of_eq rfl rfl rfl
  have h2 : d1.EdgesKept d2 := edgesKept_of_eq rfl rfl rfl
  refine h1.trans ?_
  split
  · exact synAdd_edgesKept d1 obj n src
  · split
    · exact h2.trans (raise_edgesKept (by simp) d2)
    · exact h2

theorem recordEnd_edgesKept (d : Dev) (unit : Nat) (r : ReqRec) : d.EdgesKept (d.recordEnd unit r) := by
  unfold Dev.recordEnd
  split
  · exact credit_edgesKept d _ _ _
  · exact .refl d

/-- A meaning that stores two runs of bytes, one after the other. -/
theorem liftW_stores {f : Memory → Memory → Dev → Dev × List MemOp} {s : State} {d : Dev} {a b : List MByte}
    (h : f s.mem s.cave s.dev = (d, storeBytes s.mem a ++ storeBytes s.mem b)) :
    liftW f s = .next { s with dev := d, mem := memAll (memAll s.mem (storeBytes s.mem a)) (storeBytes s.mem b) } := by
  have hmem : memAll s.mem (storeBytes s.mem a ++ storeBytes s.mem b) = memAll (memAll s.mem (storeBytes s.mem a)) (storeBytes s.mem b) :=
    List.foldl_append
  have hcave : caveAll s.cave (storeBytes s.mem a ++ storeBytes s.mem b) = s.cave :=
    List.foldl_append.trans ((caveAll_storeBytes _ s.mem b).trans (caveAll_storeBytes _ s.mem a))
  rw [liftW_of_eq h, hmem, hcave]

/-! ### Records of the Cave (R175) -/

/-- The device with the head record of the Cave unit n in service, with its STATUS. -/
def Dev.caveTaken (d : Dev) (n : Nat) (r : ReqRec) (q : List ReqRec) (st : Nat) : Dev :=
  { d with caveQ := up d.caveQ n q, caveSrv := up d.caveSrv n (some ⟨r, st⟩) }

section CaveTake
variable {s : State} {n : Fin 16} {r : ReqRec} {q : List ReqRec} (hsrv : lk none s.dev.caveSrv n = none)
  (hq : lk [] s.dev.caveQ n = r :: q)
include hsrv hq

theorem exec_caveRecordTake_good (hok : s.dev.caveRecOk r = true) :
    exec (.caveRecordTake n) s = .next { s with dev := s.dev.caveTaken n r q 1 } := by
  refine (show execCaveRecordTake n s = _ from lift_of_eq ?_)
  simp only [hsrv, hq, hok, if_true, Dev.caveTaken]

theorem exec_caveRecordTake_bad (hok : s.dev.caveRecOk r = false) :
    exec (.caveRecordTake n) s = .next { s with dev := (s.dev.caveTaken n r q 2).recRange r 19 } := by
  refine (show execCaveRecordTake n s = _ from lift_of_eq ?_)
  simp only [hsrv, hq, hok, Bool.false_eq_true, if_false, Dev.caveTaken]

end CaveTake

/-- Refusing a record records DESC_RANGE and leaves the records in service. -/
theorem recRange_spec (d : Dev) (r : ReqRec) (check : Nat) : (d.recRange r check).caveSrv = d.caveSrv ∧
    ∀ t : State, t.dev = d.recRange r check → Recorded t 0x11 r.core [r.off, check] := by
  unfold Dev.recRange
  exact ⟨(raise_edgesKept (by simp) d).caveSrv, fun _ => raise_recorded (by simp)⟩

/-- The device once a Cave record is served: its unit is free, the bytes and then STATUS are written, SYN is credited. -/
def Dev.caveServed (d : Dev) (n : Nat) (r : ReqRec) (bytes : List MByte) : Dev :=
  (((({ d with caveSrv := up d.caveSrv n none, flash := { d.flash with rdBytes := d.flash.rdBytes + BitVec.ofNat 64 r.length } } : Dev).digestAdd
    r.core (accessItems bytes)).eccWrite bytes r.core).eccWrite (statusBytes r 1) r.core).recordEnd 3 r

theorem caveServed_free (d : Dev) (n : Nat) (r : ReqRec) (bytes : List MByte) : lk none (d.caveServed n r bytes).caveSrv n = none := by
  rw [Dev.caveServed, (recordEnd_edgesKept _ 3 r).caveSrv, (eccWrite_edgesKept _ (statusBytes r 1) r.core).caveSrv,
    (eccWrite_edgesKept _ bytes r.core).caveSrv, (digestAdd_edgesKept _ r.core _).caveSrv]
  exact lk_up_same _ _ _ _

/-- A good record is served once the Cave is ready and no slice of its destination is at retention. -/
theorem exec_caveRecordComplete_good {s : State} {n : Fin 16} {r : ReqRec} {g : Range} (hsrv : lk none s.dev.caveSrv n = some ⟨r, 1⟩)
    (hg : s.dev.caveRange r = some g) (hc : s.dev.clocked r.core = true) (hready : s.dev.flash.ready = true)
    (hret : ∀ j, s.dev.atRetention j = false) {bytes : List MByte}
    (hb : wholeBytes r.dest (s.cave.bytes (g.first + r.offset) r.length) = bytes) :
    exec (.caveRecordComplete n false) s = .next { s with
      dev := s.dev.caveServed n r bytes
      mem := memAll (memAll s.mem (storeBytes s.mem bytes)) (storeBytes s.mem (statusBytes r 1)) } := by
  subst hb
  refine (show execCaveRecordComplete n false s = _ from liftW_stores ?_)
  simp only [hsrv, hg, hc, Bool.not_true, Bool.false_eq_true, if_false, if_true]
  exact if_neg (by simp [hready, hret])

/-! ### Records of host channels (R177) -/

/-- The device with the head record of the host unit n in service, with its STATUS. -/
def Dev.hostTaken (d : Dev) (n : Nat) (r : ReqRec) (q : List ReqRec) (st : Nat) : Dev :=
  { d with hostQ := up d.hostQ n q, hostSrv := up d.hostSrv n (some ⟨r, st⟩) }

/-- The device once a host record ends well: its unit is free, STATUS is written, SYN is credited. -/
def Dev.hostServed (d : Dev) (n : Nat) (r : ReqRec) : Dev :=
  (({ d with hostSrv := up d.hostSrv n none } : Dev).eccWrite (statusBytes r 1) r.core).recordEnd 1 r

theorem hostServed_free (d : Dev) (n : Nat) (r : ReqRec) : lk none (d.hostServed n r).hostSrv n = none := by
  rw [Dev.hostServed, (recordEnd_edgesKept _ 1 r).hostSrv, (eccWrite_edgesKept _ (statusBytes r 1) r.core).hostSrv]
  exact lk_up_same _ _ _ _

theorem hostServed_out (d : Dev) (n : Nat) (r : ReqRec) : d.out ⊆ (d.hostServed n r).out :=
  ((eccWrite_edgesKept { d with hostSrv := up d.hostSrv n none } _ r.core).trans (recordEnd_edgesKept _ 1 r)).out

/-- The device after the read of a record's bytes, which have left for its channel's memory. -/
def Dev.hostSent (d : Dev) (c : Chan) (r : ReqRec) (a : Nat) (bs : List Byte) : Dev :=
  ((d.eccRead (wordsOf a r.length) r.core [] []).digestAdd r.core (hostItems c r bs)).emit (.hostWrite c.fn (c.addr + r.offset) bs)

section Host
variable {s : State} {n : Fin 16} {r : ReqRec} {c : Chan} (hchan : s.dev.chanOf r = some c) (hopen : c.down = false)
include hchan hopen

/-- A good record starts its DMA: with DIR to the device the host's memory is asked for the bytes. -/
theorem exec_hostRecordTake_good {q : List ReqRec} (hsrv : lk none s.dev.hostSrv n = none) (hq : lk [] s.dev.hostQ n = r :: q)
    (hok : s.dev.hostRecOk r = true) : exec (.hostRecordTake n) s = .next { s with dev := { s.dev.hostTaken n r q 1 with
      out := (if r.toHost then [] else [.hostRead c.fn (c.addr + r.offset) r.length]) ++ s.dev.out } } := by
  unfold Dev.chanOf at hchan
  refine (show execHostRecordTake n s = _ from lift_of_eq ?_)
  cases hdir : r.toHost
  · simp only [hsrv, hq, hok, Dev.chanOf, hchan, Option.elim_some, hopen, hdir]; rfl
  · simp only [hsrv, hq, hok, Dev.chanOf, hchan, Option.elim_some, hopen, hdir]; rfl

section Complete
variable (hsrv : lk none s.dev.hostSrv n = some ⟨r, 1⟩) (hc : s.dev.clocked r.core = true)
include hsrv hc

theorem exec_hostRecordComplete_toHost (hdir : r.toHost = true) : exec (.hostRecordComplete n none) s = .next { s with
    dev := (s.dev.hostSent c r (lsBase r.core + r.local_) (s.mem.bytes (lsBase r.core + r.local_) r.length)).hostServed n r
    mem := memAll s.mem (storeBytes s.mem (statusBytes r 1)) } := by
  show execHostRecordComplete n none s = _
  simp only [execHostRecordComplete, liftW, hsrv, hc, hchan, hopen, hdir, Bool.not_true, Bool.false_eq_true, if_false, if_true,
    ne_eq, not_true, List.nil_append, caveAll_storeBytes]
  rfl

theorem exec_hostRecordComplete_toDevice (hdir : r.toHost = false) {bs : List Byte} (hl : bs.length = r.length) :
    exec (.hostRecordComplete n (some bs)) s = .next { s with
      dev := (s.dev.eccWrite (wholeBytes (lsBase r.core + r.local_) bs) r.core).hostServed n r
      mem := memAll (memAll s.mem (storeBytes s.mem (wholeBytes (lsBase r.core + r.local_) bs))) (storeBytes s.mem (statusBytes r 1)) } := by
  refine (show execHostRecordComplete n (some bs) s = _ from liftW_stores ?_)
  simp only [hsrv, hc, hchan, hopen, hdir, hl, Bool.not_true, Bool.false_eq_true, if_false, ne_eq, not_true]
  rfl

end Complete
end Host

/-- Settles O28: each clause is one way a record is taken or served, and what serving it meets leaves the edge units alone. -/
theorem caveAndHostRecordsAreServed : Obligations.CaveAndHostRecordsAreServed := by
  refine ⟨?cave, ?host⟩
  case cave =>
    intro n s r d
    refine ⟨fun q hsrv hq => ⟨exec_caveRecordTake_good hsrv hq, fun hok => ?refused⟩, fun g hsrv hg hc hready hret => ?served⟩
    case refused =>
      obtain ⟨hkept, hrec⟩ := recRange_spec (s.dev.caveTaken n r q 2) r 19
      exact ⟨_, exec_caveRecordTake_bad hsrv hq hok, rfl, hrec _ rfl, (congrArg (lk none · n.val) hkept).trans (lk_up_same _ _ _ _)⟩
    case served => exact ⟨_, exec_caveRecordComplete_good hsrv hg hc hready hret rfl, rfl, caveServed_free _ n r _, rfl⟩
  case host =>
    intro n s r c d a st hchan hopen
    refine ⟨fun q hsrv hq hok => ?taken, fun hsrv hc => ⟨fun hdir => ?toHost, fun bs hdir hl => ?toDevice⟩⟩
    case taken => exact ⟨_, exec_hostRecordTake_good hchan hopen hsrv hq hok, rfl, lk_up_same _ _ _ _, lk_up_same _ _ _ _, rfl⟩
    case toHost =>
      exact ⟨_, exec_hostRecordComplete_toHost hchan hopen hsrv hc hdir, rfl, rfl, hostServed_free _ n r,
        hostServed_out _ n r (List.mem_cons_self ..)⟩
    case toDevice => exact ⟨_, exec_hostRecordComplete_toDevice hchan hopen hsrv hc hdir hl, rfl, rfl, hostServed_free _ n r⟩

end Sys2Proof.Machine

/-! ## SETVL -/

namespace Sys2Proof.Machine

/-! ### Where the word is defined (R128, R155, R182) -/

/-- SETVL is defined for the execute sequencer alone, with its fixed fields 0 and a VTYPE that is not reserved. -/
theorem wordOk_setvl {w : Nat} (h : wOp w = 0x80) (q : SeqId) (pc dqdir : Nat) : wordOk q pc dqdir w =
    (!decide (q = .A) && !bit w 44 && bits w 35 32 == 0 && vtypeOk (bits w 43 36) &&
      (if bit w 45 then bits w 31 0 == 0 else wA w == 0)) := by
  simp only [wordOk, h]

theorem wordOk_setvl_access {w : Nat} (h : wOp w = 0x80) (pc dqdir : Nat) : wordOk .A pc dqdir w = false := by
  simp [wordOk_setvl h]

theorem wordOk_setvl_reserved {w : Nat} (h : wOp w = 0x80) (hv : vtypeOk (bits w 43 36) = false) (q : SeqId) (pc dqdir : Nat) :
    wordOk q pc dqdir w = false := by
  simp [wordOk_setvl h, hv]

/-- The program check refuses an image that holds a word its stream never defines (R45). -/
theorem programOk_eq_false_of_mem {q : SeqId} {dqdir w : Nat} {ws : List Nat} (hw : w ∈ ws) (hbad : ∀ pc, wordOk q pc dqdir w = false)
    (replica : Bool) (lib : List Nat) : programOk q dqdir replica lib ws = false := by
  obtain ⟨n, hn⟩ := List.mem_iff_getElem?.mp hw
  have hmem : (w, n) ∈ ws.zipIdx := List.mem_zipIdx_iff_getElem?.mpr hn
  refine Bool.eq_false_iff.mpr fun hok => ?_
  simp only [programOk, Bool.and_eq_true, List.all_eq_true] at hok
  obtain ⟨⟨-, hall⟩, -⟩ := hok
  obtain ⟨⟨hword, -⟩, -⟩ := hall _ hmem
  exact Bool.false_ne_true ((hbad n).symm.trans hword)

/-- A sequencer that could dispatch stops at an undefined word of the row's opcode (R155). -/
theorem front_of_undefined {m : Memory} {d : Dev} {k : Nat} {q : SeqId} {op : Nat} (hlive : (d.seq k q).live = true) (hk : d.clocked k = true)
    (hop : wOp (fetch m k q (d.seq k q).pc) = op)
    (hbad : wordOk q (d.seq k q).pc.toNat (d.core k).dqdir.toNat (fetch m k q (d.seq k q).pc) = false) : front m d k q op = .bad := by
  rw [Dev.seq] at hlive hop hbad
  simp only [front, hlive, hk, hop, hbad, beq_self_eq_true, Bool.and_true, Bool.not_true, Bool.false_eq_true, if_false]

/-- The length that the word w gives: the wanted one (COUNT, or the low 32 bits of register A), as far as a register has lanes. -/
def Seq.setvlLength (x : Seq) (w : Nat) : Nat :=
  min (if bit w 45 then (x.get (wA w)).toNat % 2 ^ 32 else bits w 31 0) (vlMax (bits w 43 36))

theorem exec_setvl {s : State} {k : CoreId} {w : Nat} (h : s.standsAt k .E 0x80 w) : exec (.setvl k) s = .next { s with
    dev := s.dev.setCore k { s.dev.core k with
      e := ((s.dev.core k).e.set (wD w) (BitVec.ofNat 64 ((s.dev.core k).e.setvlLength w))).advance
      vec := { (s.dev.core k).vec with vl := (s.dev.core k).e.setvlLength w, vtype := BitVec.ofNat 8 (bits w 43 36) } } } :=
  seqOp_ok (o := execSetvl k s) rfl h rfl

theorem exec_setvl_bad {s : State} {k : CoreId} (h : front s.mem s.dev k .E 0x80 = .bad) :
    exec (.setvl k) s = .refused (.undefinedWord 0x80) :=
  show execSetvl k s = _ from seqOp_bad h

/-- Settles O20: a defined word is the one register write beside VL and VTYPE; a reserved VTYPE and the access stream are two of the
conditions under which the word is undefined. -/
theorem setvlSetsLengthAndType : Obligations.SetvlSetsLengthAndType := by
  refine ⟨fun k s w h => ?defined, fun k s hlive hk hop hv => ?reserved, fun w hop => ⟨?access, fun dqdir replica lib ws hw => ?program⟩⟩
  case defined => exact ⟨_, _, exec_setvl h, runsOn_set _ _ _, writesReg_set _ _ _, onlyCore_setCore s k _⟩
  case reserved => exact exec_setvl_bad (front_of_undefined hlive hk hop (wordOk_setvl_reserved hop hv _ _ _))
  case access => exact wordOk_setvl_access hop
  case program => exact programOk_eq_false_of_mem hw (wordOk_setvl_access hop · dqdir) replica lib

end Sys2Proof.Machine

/-! ## The end of a vector entry -/

namespace Sys2Proof.Machine

/-! ### What the write of a result leaves (R126, R134) -/

/-- A register read after another register was written, in either register file. -/
theorem reg_setReg_ne (v : Vector) {m n : Nat} (h : m ≠ n) (st st' : Bool) (x : BitVec 2048) : (v.setReg st n x).reg st' m = v.reg st' m := by
  cases st <;> cases st'
  · exact lk_up_ne _ _ h _
  · rfl
  · rfl
  · exact lk_up_ne _ _ h _

/-- The entry's result changes the vector engine and the numeric flags of the core in which its job has ended. -/
theorem vecWrite_leaves (c : Core) (j : Job) :
    c.vecWrite j = { c.endJob j.id with vec := (c.vecWrite j).vec, numFlags := (c.vecWrite j).numFlags } := by
  unfold Core.vecWrite
  split <;> rfl

/-- No register but the entry's destination changes. -/
theorem reg_vecWrite_ne (c : Core) (j : Job) {m : Nat} (h : vecDst j.ent.w ≠ some m) (st : Bool) :
    (c.vecWrite j).vec.reg st m = c.vec.reg st m := by
  unfold Core.vecWrite
  split
  · rfl
  · split
    next n hn =>
      have hmn : m ≠ n := fun hm => h (hn.trans (congrArg some hm.symm))
      exact reg_setReg_ne c.vec hmn j.starter st _
    next => rfl

/-! ### VQ_ENTRY_COMPLETE (R180) -/

/-- The amount of a finished entry's credit, where it is no VPUSH: the bytes of a VST, else 1. -/
def Job.vecCredit (j : Job) : Nat :=
  if wOp j.ent.w = 0xB9 then vstBytes (j.descs.getD 0 DescF.zero) (vecCount j.ent.w j.ent.vl) else 1

/-- An entry that moves no data-queue words completes at once. -/
theorem exec_vqEntryComplete {s : State} {k : CoreId} {i : Nat} {j : Job} (hj : (s.dev.core k).jobs[i]? = some j) (heng : j.eng = .vq)
    (hissued : j.issued = true) (hrd : j.rdLeft = 0) (hwr : j.wrLeft = 0) (hlost : j.lost = false) (hk : s.dev.clocked k = true)
    (hpop : wOp j.ent.w ≠ 0xBA) (hpush : wOp j.ent.w ≠ 0xBB) : exec (.vqEntryComplete k i) s = .next { s with
      dev := (s.dev.setCore k ((s.dev.core k).vecWrite j)).creditIf (wVCr j.ent.w && j.vecCredit ≠ 0) (wVSyn j.ent.w) j.vecCredit 3 } := by
  refine (show execVqEntryComplete k i s = _ from lift_of_eq ?_)
  by_cases hst : wOp j.ent.w = 0xB9
  · simp only [hj, heng, hissued, hrd, hwr, hlost, hk, hst, Job.vecCredit]
    rfl
  · simp only [hj, heng, hissued, hrd, hwr, hlost, hk, hst, hpop, hpush, Job.vecCredit]
    rfl

/-- Settles O21: an entry that is no VPOP and no VPUSH completes at once, and its write is held to the flags and its destination. -/
theorem vectorEntryCompletes : Obligations.VectorEntryCompletes := by
  intro k i s j c w n hj heng hissued hrd hwr hlost hk hpop hpush
  refine ⟨exec_vqEntryComplete hj heng hissued hrd hwr hlost hk hpop hpush, ?_⟩
  rw [vecWrite_leaves]
  exact ⟨rfl, rfl, rfl, rfl, rfl, rfl, fun _ hm st => reg_vecWrite_ne c j hm st⟩

end Sys2Proof.Machine

/-! ## Loading a Mould -/

namespace Sys2Proof.Machine

/-! ### What messages and link changes leave of the loads -/

/-- The networks, the time blocks, the loads and the loaded Moulds are as before. -/
structure Dev.LoadsKept (d e : Dev) : Prop where
  net : e.net = d.net
  parts : e.parts = d.parts
  loads : e.loads = d.loads
  moulds : e.moulds = d.moulds

theorem Dev.LoadsKept.refl (d : Dev) : d.LoadsKept d := ⟨rfl, rfl, rfl, rfl⟩

theorem Dev.LoadsKept.trans {d e g : Dev} (h : d.LoadsKept e) (k : e.LoadsKept g) : d.LoadsKept g :=
  ⟨k.net.trans h.net, k.parts.trans h.parts, k.loads.trans h.loads, k.moulds.trans h.moulds⟩

theorem Dev.HostsTold.loadsKept {d e : Dev} : d.HostsTold e → d.LoadsKept e := by
  rintro ⟨_, _, rfl⟩; exact ⟨rfl, rfl, rfl, rfl⟩

theorem Dev.PortsSent.loadsKept {d e : Dev} : d.PortsSent e → d.LoadsKept e := by
  rintro ⟨_, _, rfl⟩; exact ⟨rfl, rfl, rfl, rfl⟩

theorem Dev.LoadsKept.part {d e : Dev} (h : d.LoadsKept e) (q : Nat) : e.part q = d.part q :=
  congrArg (lk PartTime.reset · q) h.parts

theorem updPort_loadsKept (d : Dev) (u : Nat) (g : Port → Port) : d.LoadsKept (d.updPort u g) := ⟨rfl, rfl, rfl, rfl⟩

theorem foldl_loadsKept {α : Type} {f : Dev → α → Dev} (hf : ∀ (d : Dev) x, d.LoadsKept (f d x)) (l : List α) (d : Dev) :
    d.LoadsKept (l.foldl f d) :=
  List.foldlRecOn (motive := d.LoadsKept) _ _ (.refl d) fun e he x _ => he.trans (hf e x)

theorem sendIdentity_portsSent (d : Dev) (u : Nat) : d.PortsSent (d.sendIdentity u) := setPort_emits_portsSent d u _ _

/-- A message of a load or about a start that is no packet (R361): it is only noted and sent. -/
theorem sendMgmt_eq (d : Dev) (fpid dst : Nat) {mtype : Nat} (arg : Nat) (h : mtype ≤ 5) : d.sendMgmt fpid dst mtype arg = { d with
    crm := { d.crm with mgmtOut := up d.crm.mgmtOut fpid (lk 0 d.crm.mgmtOut fpid + 1) }
    out := .mgmt dst mtype fpid (lk 0 d.crm.mgmtOut fpid + 1) arg false :: d.out } := if_pos h

theorem sendMgmt_loadsKept (d : Dev) (fpid dst : Nat) {mtype : Nat} (arg : Nat) (h : mtype ≤ 5) :
    d.LoadsKept (d.sendMgmt fpid dst mtype arg) := by
  rw [sendMgmt_eq d fpid dst arg h]; exact ⟨rfl, rfl, rfl, rfl⟩

theorem tellAll_loadsKept (d : Dev) (fp n self : Nat) {mtype : Nat} (arg : Nat) (h : mtype ≤ 5) :
    d.LoadsKept (d.tellAll fp n self mtype arg) :=
  foldl_loadsKept (fun e i => sendMgmt_loadsKept e fp i arg h) _ d

theorem passOn_loadsKept (d : Dev) (m : Mould) {mtype : Nat} (arg : Nat) (h : mtype ≤ 5) : d.LoadsKept (d.passOn m mtype arg) := by
  unfold Dev.passOn
  split
  · exact sendMgmt_loadsKept d _ _ arg h
  · exact .refl d

/-! A port that settles, and the ports of a device whose committed Moulds have changed (R261, R269 to R273). -/

/-- What settles a port writes its XOFF field, may send its identity block again, and may send one IDLE flit. -/
theorem settled_portsSent (d d0 : Dev) (u : Nat) (again : Bool) : d.PortsSent (d.settled d0 u again) := by
  unfold Dev.settled
  extract_lets a e1 e2 b news
  have h1 : d.PortsSent e1 := ⟨_, _, rfl⟩
  have h2 : d.PortsSent e2 := by
    unfold e2
    split
    · exact h1.trans (sendIdentity_portsSent e1 u)
    · exact h1
  split
  · exact h2.trans ⟨_, _, rfl⟩
  · exact h2

theorem raisePort_loadsKept (d : Dev) (u code : Nat) (detail : List Nat) : d.LoadsKept (d.raisePort u code detail) := by
  unfold Dev.raisePort
  obtain ⟨es, fs, o, he, -⟩ := raise_log (d := d)
    (e := { code := code, cls := 0, source := u + 4, core := 0xFFFF, pmask := 0, fpid := 0xFFFF, detail := detail }) rfl
  rw [he]; exact ⟨rfl, rfl, rfl, rfl⟩

theorem portDown_loadsKept (d : Dev) (u : Nat) : d.LoadsKept (d.portDown u) := by
  unfold Dev.portDown
  extract_lets e1 e2
  split <;> exact ⟨rfl, rfl, rfl, rfl⟩

theorem letIn_loadsKept (d : Dev) (u : Nat) : d.LoadsKept (d.letIn u) := by
  unfold Dev.letIn
  split
  · exact .refl d
  · split
    · exact updPort_loadsKept d u _
    · split
      · exact .refl d
      · exact (updPort_loadsKept d u _).trans (raisePort_loadsKept _ u _ _)
    · extract_lets e bad
      have he : d.LoadsKept e := updPort_loadsKept d u _
      split
      · exact (he.trans (updPort_loadsKept e u _)).trans (raisePort_loadsKept _ u _ _)
      · exact he

theorem identityChanged_loadsKept (d : Dev) : d.LoadsKept d.identityChanged :=
  foldl_loadsKept (fun e u => by
    split
    · exact (sendIdentity_portsSent e u).loadsKept
    · exact .refl e) _ d

theorem recheckPorts_loadsKept (d : Dev) (min0 : Nat) (max0 : Nat → Nat) : d.LoadsKept (d.recheckPorts min0 max0) := by
  unfold Dev.recheckPorts
  extract_lets e
  have he : d.LoadsKept e := foldl_loadsKept (fun e u => by
    extract_lets x
    split
    · split
      · exact .refl e
      · exact portDown_loadsKept e u
    · split
      · exact .refl e
      · split
        · exact updPort_loadsKept e u _
        · split
          · exact .refl e
          · exact (updPort_loadsKept e u _).trans (letIn_loadsKept _ u)) _ d
  exact (he.trans (foldl_loadsKept (fun e u => updPort_loadsKept e u _) _ e)).trans (identityChanged_loadsKept _)

/-! ### The time blocks of a PMASK -/

theorem partsOf_nodup (pm : Nat) : (partsOf pm).Nodup := List.nodup_range.filter _

/-- Changing some partitions' time blocks changes nothing else. -/
theorem foldl_updPart_eq (g : Nat → PartTime → PartTime) (l : List Nat) (d : Dev) :
    ∃ ps, l.foldl (fun d p => d.updPart p (g p)) d = { d with parts := ps } := by
  refine List.foldlRecOn (motive := fun e : Dev => ∃ ps : SMap PartTime, e = { d with parts := ps }) _ _ ⟨d.parts, rfl⟩ ?_
  rintro _ ⟨ps, rfl⟩ p -
  exact ⟨_, rfl⟩

/-- Each time block of a list without repeats changes once. -/
theorem part_foldl_updPart (g : Nat → PartTime → PartTime) {l : List Nat} (hl : l.Nodup) (d : Dev) (q : Nat) :
    (l.foldl (fun d p => d.updPart p (g p)) d).part q = if q ∈ l then g q (d.part q) else d.part q := by
  induction l generalizing d with
  | nil => rfl
  | cons p r ih =>
    obtain ⟨hp, hr⟩ := List.nodup_cons.mp hl
    rw [List.foldl_cons, ih hr]
    by_cases hq : q = p
    · subst hq; simp [hp]
    · simp [hq, Dev.part_updPart_ne d hq]

theorem setLoad_eq (d : Dev) (pm member sect status phase : Nat) : ∃ ps, d.setLoad pm member sect status phase = { d with parts := ps } :=
  foldl_updPart_eq _ _ d

theorem setPhase_eq (d : Dev) (pm phase : Nat) : ∃ ps, d.setPhase pm phase = { d with parts := ps } :=
  foldl_updPart_eq _ _ d

theorem setPhase_loads (d : Dev) (pm phase : Nat) : (d.setPhase pm phase).loads = d.loads := by
  obtain ⟨ps, hps⟩ := setPhase_eq d pm phase
  rw [hps]

theorem load_setLoad (d : Dev) {pm q : Nat} (h : q ∈ partsOf pm) (member sect status phase : Nat) :
    ((d.setLoad pm member sect status phase).part q).load = loadReg member sect status phase := by
  rw [Dev.setLoad, part_foldl_updPart _ (partsOf_nodup pm), if_pos h]

theorem load_setPhase (d : Dev) {pm q : Nat} (h : q ∈ partsOf pm) (phase : Nat) :
    ((d.setPhase pm phase).part q).load = BitVec.ofNat 64 ((d.part q).load.toNat / 8 * 8 + phase) := by
  rw [Dev.setPhase, part_foldl_updPart _ (partsOf_nodup pm), if_pos h]

/-! ### The end of a load (R249, R251, R253) -/

/-- The load is over: none with its PMASK is left, and PT_LOAD of its partitions tells the status in phase 0 (Table 13-8). -/
def Dev.LoadEnded (e : Dev) (l : Load) (member sect status : Nat) : Prop :=
  (∀ x ∈ e.loads, x.pmask ≠ l.pmask) ∧ ∀ q ∈ partsOf l.pmask, (e.part q).load = loadReg member sect status 0

theorem Dev.LoadEnded.after {e g : Dev} {l : Load} {member sect status : Nat} (h : e.LoadEnded l member sect status) (k : e.LoadsKept g) :
    g.LoadEnded l member sect status :=
  ⟨fun x hx => h.1 x (k.loads ▸ hx), fun q hq => (congrArg PartTime.load (k.part q)).trans (h.2 q hq)⟩

theorem endOffer_portsSent (d : Dev) (port : Option Nat) : d.PortsSent (d.endOffer port) := by
  unfold Dev.endOffer
  split
  · exact ⟨_, _, rfl⟩
  · exact .trans ⟨_, _, rfl⟩ (settled_portsSent _ d _ _)

theorem endLoad_ended (d : Dev) (l : Load) (member sect status : Nat) :
    (d.endLoad l member sect status).LoadEnded l member sect status := by
  unfold Dev.endLoad
  extract_lets e
  have hset : (e.setLoad l.pmask member sect status 0).LoadEnded l member sect status := by
    refine ⟨fun x hx => ?_, fun q hq => load_setLoad e hq _ _ _ _⟩
    obtain ⟨ps, hps⟩ := setLoad_eq e l.pmask member sect status 0
    rw [hps] at hx
    exact of_decide_eq_true (List.mem_filter.mp hx).2
  exact (hset.after (endOffer_portsSent _ _).loadsKept).after (completeOpt_hostsTold _ _ _ _).loadsKept

/-- Where a load with the FPID waits, it is the one that ends. -/
theorem abandonFp_loading {d : Dev} {fp : Nat} {l : Load} (h : d.loads.find? (fun x => x.fpid == fp) = some l) (status member : Nat) :
    d.abandonFp fp status member = (d.endLoad l member 0xFF status, []) := by
  simp only [Dev.abandonFp, h]

/-- Ending a load everywhere ends it here. -/
theorem abandonAll_loading {d : Dev} {fp : Nat} {l : Load} (h : d.loads.find? (fun x => x.fpid == fp) = some l) (n arg status member : Nat) :
    ∃ e, d.abandonAll fp n arg status member = (e, []) ∧ e.LoadEnded l member 0xFF status := by
  have htold := tellAll_loadsKept d fp n ((d.mouldFp fp).elim 0 (fun m => m.self)) (mtype := 4) arg (by decide)
  exact ⟨_, abandonFp_loading (htold.loads ▸ h) status member, endLoad_ended _ l _ _ _⟩

theorem refuseLoad_ended (d : Dev) (l : Load) (b : List Byte) (r : LoadFail) : (d.refuseLoad l b r).LoadEnded l 0xFFFF r.2 r.1 := by
  unfold Dev.refuseLoad
  extract_lets src e
  have he : e.LoadEnded l 0xFFFF r.2 r.1 := (endLoad_ended d l 0xFFFF r.2 r.1).after ⟨rfl, rfl, rfl, rfl⟩
  clear_value e
  split
  · exact he.after (tellAll_loadsKept e _ _ _ _ (by omega))
  · exact he.after (sendMgmt_loadsKept e _ _ _ (by omega))
  · exact he.after (sendMgmt_loadsKept e _ _ _ (by omega))

/-! ### The messages of a load in progress (R249, R251, R253, R361) -/

/-- A message for a Mould that is loaded or loading, or an offer, is taken when its SEQ is new, and its SEQ is noted (R361). -/
theorem mgmtIn_taken {d : Dev} {h : MHdr} {offer : Bool} (hfw : d.crm.fwReady = true)
    (hknown : (d.moulds.any (fun m => m.fpid == h.fpid) || d.loads.any (fun l => l.fpid == h.fpid) || offer) = true)
    (hans : h.answer = false) (hseq : lk 0 d.crm.mgmtSeq (h.fpid * 65536 + h.src) < h.seq) :
    d.mgmtIn h offer = (true, d.heard h) := by
  unfold Dev.mgmtIn
  extract_lets key known
  have hdrop : (!(known || offer) || (!h.answer && decide (h.seq ≤ lk 0 d.crm.mgmtSeq key))) = false := by
    simp [known, key, hknown, hans, hseq]
  rw [if_neg (by simp [hfw]), if_neg (by rw [hdrop]; decide), if_neg (by simp [hans])]
  rfl

/-- A message whose FPID is that of a load in progress, with a new SEQ. -/
def TakesLoad (d : Dev) (h : MHdr) (l : Load) : Prop :=
  d.crm.fwReady = true ∧ d.loads.find? (fun x => x.fpid == h.fpid) = some l ∧ h.answer = false ∧
    lk 0 d.crm.mgmtSeq (h.fpid * 65536 + h.src) < h.seq

/-- A search that finds something shows that there is one. -/
theorem any_of_find? {α : Type} {p : α → Bool} {l : List α} {x : α} (h : l.find? p = some x) : l.any p = true :=
  List.any_eq_true.mpr ⟨x, List.mem_of_find?_eq_some h, List.find?_some h⟩

theorem TakesLoad.mgmtIn {d : Dev} {h : MHdr} {l : Load} : TakesLoad d h l → d.mgmtIn h false = (true, d.heard h) := by
  rintro ⟨hfw, hl, hans, hseq⟩
  exact mgmtIn_taken hfw (by rw [any_of_find? hl, Bool.or_true, Bool.true_or]) hans hseq

theorem Takes.mgmtIn {d : Dev} {h : MHdr} {m : Mould} : Takes d h m → d.mgmtIn h false = (true, d.heard h) := by
  rintro ⟨hfw, hm, hans, hseq⟩
  exact mgmtIn_taken hfw (by rw [any_of_find? hm, Bool.true_or, Bool.true_or]) hans hseq

/-- The command ends the load l on this device, with this MEMBER and status, and no byte of memory changes. -/
def EndsLoad (s : State) (i : Instr) (l : Load) (status member : Nat) : Prop :=
  ∃ t, exec i s = .next t ∧ t.mem = s.mem ∧ t.dev.LoadEnded l member 0xFF status

/-- A meaning that answers the device with the load ended, and no memory change. -/
theorem endsLoad_of_liftW {s : State} {i : Instr} {l : Load} {status member : Nat} {f : Memory → Memory → Dev → Dev × List MemOp}
    (hi : exec i s = liftW f s) (hf : ∃ e, f s.mem s.cave s.dev = (e, []) ∧ e.LoadEnded l member 0xFF status) : EndsLoad s i l status member := by
  obtain ⟨e, hf, he⟩ := hf
  exact ⟨_, hi.trans (liftW_of_eq hf), rfl, he⟩

section Messages
variable {s : State} {h : MHdr} {l : Load} (ht : TakesLoad s.dev h l)
include ht

/-- The device that has heard the message still holds the load. -/
theorem TakesLoad.heard_find : (s.dev.heard h).loads.find? (fun x => x.fpid == h.fpid) = some l := ht.2.1

/-- Member 0 notes an acceptance in its load (R249). -/
theorem exec_msgLoadResult_ok (hr : h.src ∉ l.results) : ∃ t, exec (.msgLoadResult h 1) s = .next t ∧ t.mem = s.mem ∧
    { l with results := h.src :: l.results } ∈ t.dev.loads ∧ t.dev.parts = s.dev.parts := by
  have hexec : exec (.msgLoadResult h 1) s = .next { s with dev := { s.dev.heard h with
      loads := (s.dev.heard h).loads.map (fun x =>
        if x.pmask = l.pmask ∧ !x.results.contains h.src then { x with results := h.src :: x.results } else x) } } := by
    refine (show execMsgLoadResult h 1 s = _ from liftW_of_eq (w := []) ?_)
    simp only [ht.mgmtIn, ht.heard_find]
    rfl
  refine ⟨_, hexec, rfl, List.mem_map.mpr ⟨l, List.mem_of_find?_eq_some ht.2.1, ?_⟩, rfl⟩
  simp [hr]

/-- A refusal ends the load, everywhere where this device leads it (R249). -/
theorem msgLoadResult_ends {status : Nat} (hs : status ≠ 1) : EndsLoad s (.msgLoadResult h status) l 15 h.src := by
  refine endsLoad_of_liftW (show exec _ s = execMsgLoadResult h status s from rfl) ?_
  simp only [ht.mgmtIn, ht.heard_find, if_neg (show status ≠ ldOk from hs)]
  split
  · exact abandonAll_loading ht.heard_find _ _ _ _
  · exact ⟨_, rfl, endLoad_ended _ l _ _ _⟩

theorem msgAbandon_ends {x : Nat} (hx : x < 0xFFFE) : EndsLoad s (.msgAbandon h x) l 15 x := by
  refine endsLoad_of_liftW (show exec _ s = execMsgAbandon h x s from rfl) ⟨_, ?_, endLoad_ended (s.dev.heard h) l x 0xFF 15⟩
  have hcode : abandonCode x = (15, x) := by
    rw [abandonCode, if_neg (by omega), if_neg (by omega)]; rfl
  simp only [ht.mgmtIn, hcode]
  exact abandonFp_loading ht.heard_find 15 x

/-- A cancellation ends the load, and member 0 spreads it (R253). -/
theorem msgCancelled_ends (hm : s.dev.mouldFp h.fpid = none) : EndsLoad s (.msgCancelled h) l 18 0xFFFF := by
  have hnone : (s.dev.heard h).mouldFp h.fpid = none := hm
  refine endsLoad_of_liftW (show exec _ s = execMsgCancelled h s from rfl) ?_
  simp only [ht.mgmtIn, hnone, Option.any_none, Bool.false_eq_true, if_false]
  split
  next n _ =>
    have htold := tellAll_loadsKept (s.dev.heard h) h.fpid n 0 (mtype := 5) 0 (by omega)
    exact ⟨_, abandonFp_loading (htold.loads ▸ ht.heard_find) 18 0xFFFF, endLoad_ended _ l _ _ _⟩
  next => exact ⟨_, abandonFp_loading ht.heard_find 18 0xFFFF, endLoad_ended _ l _ _ _⟩

end Messages

/-! ### LOAD_TIMEOUT and a start that is late (R249, R251) -/

section Late
variable {s : State} {p : PartId} {l : Load} {b : List Byte} (hl : s.dev.loads.find? (fun x => lowPart x.pmask == p.val) = some l)
  (hb : l.image = some b) (hfp : s.dev.loads.find? (fun x => x.fpid == l.fpid) = some l)
include hl hb hfp

theorem mouldLoadTimeout_ends (hself : s.dev.imSelf b = some 0) (hlate : l.lastByte + imTimeout b ≤ s.dev.turn.now.toNat) :
    EndsLoad s (.mouldLoadTimeout p) l 16 0xFFFF := by
  refine endsLoad_of_liftW (show exec _ s = execMouldLoadTimeout p s from rfl) ?_
  simp only [hl, hb, hself, hlate, beq_self_eq_true, decide_true, Bool.and_true, Bool.or_true, if_true]
  exact abandonAll_loading hfp _ _ _ _

theorem startLate_ends (h0 : l.t0 ≠ 0) (hlate : l.t0 ≤ s.dev.turn.now.toNat + 64) : EndsLoad s (.startLate p) l 17 0xFFFF := by
  refine endsLoad_of_liftW (show exec _ s = execStartLate p s from rfl) ?_
  have hno : ¬(l.t0 = 0 ∨ s.dev.turn.now.toNat + 64 < l.t0) := by omega
  simp only [hl, hb, hno, if_false, Option.elim_some]
  exact abandonAll_loading hfp _ _ _ _

end Late

/-! ### COMMIT and START of a Mould (R249, R251) -/

/-- A change of Moulds that a search does not see is made to what it finds. -/
theorem find?_updMould (P : Mould → Bool) (f : Mould → Mould) (hf : ∀ m, P (f m) = P m) (d : Dev) (pm : Nat) :
    (d.updMould pm f).moulds.find? P = (d.moulds.find? P).map (fun m => if m.pmask = pm then f m else m) := by
  have hP : P ∘ (fun m => if m.pmask = pm then f m else m) = P := by
    funext m
    by_cases h : m.pmask = pm
    · simp [h, hf]
    · simp [h]
  rw [Dev.updMould, List.find?_map, hP]

/-- A taken message for a loaded Mould that changes no memory. -/
theorem onMsg1_takes {s : State} {h : MHdr} {m : Mould} (ht : Takes s.dev h m) (body : Dev → Mould → Dev) :
    onMsg1 h body s = .next { s with dev := body (s.dev.heard h) m } := by
  refine liftW_of_eq (w := []) ?_
  have hm : (s.dev.heard h).mouldFp h.fpid = some m := ht.2.1
  simp only [Dev.onMsg, ht.mgmtIn, hm]

/-- The phase that a commit of the Mould brings: 4 where it waits for weights, else 5 (Table 13-7). -/
def Mould.commitPhase (m : Mould) : Nat := if m.weights then 4 else 5

/-- What a commit writes into the Mould itself. -/
def Mould.committedAs (ph : Nat) (m : Mould) : Mould := { m with phase := ph, results := [], req := if ph = 5 then none else m.req }

/-- The device with the Mould m committed and its new phase in PT_LOAD, its ports and requester not yet told. -/
def Dev.committing (d : Dev) (m : Mould) : Dev :=
  let e := d.updMould m.pmask (Mould.committedAs m.commitPhase)
  if m.commitPhase = 5 then e.setLoad m.pmask 0xFFFF 0xFF ldOk 5 else e.setPhase m.pmask 4

theorem commitMould_loadsKept (d : Dev) (m : Mould) : (d.committing m).LoadsKept (d.commitMould m) := by
  unfold Dev.commitMould
  extract_lets min0 max0 ph e1 e2 e3 e4 e5 e6
  change e2.LoadsKept _
  clear_value e2
  have h3 : e2.LoadsKept e3 := passOn_loadsKept e2 m 0 (by omega)
  clear_value e3
  have h4 : e3.LoadsKept e4 := recheckPorts_loadsKept e3 min0 max0
  clear_value e4
  have h5 : e4.LoadsKept e5 := foldl_loadsKept (fun e u => (sendLoop_portsSent u _ e _ _).loadsKept) _ e4
  clear_value e5
  have h6 : e5.LoadsKept e6 := by
    unfold e6
    split
    · exact ⟨rfl, rfl, rfl, rfl⟩
    · exact .refl e5
  have hall := ((h3.trans h4).trans h5).trans h6
  split
  · exact hall.trans (completeOpt_hostsTold _ _ _ _).loadsKept
  · exact hall

theorem committing_eq (d : Dev) (m : Mould) :
    ∃ ps, d.committing m = { d.updMould m.pmask (Mould.committedAs m.commitPhase) with parts := ps } := by
  unfold Dev.committing
  extract_lets e
  split
  · exact setLoad_eq e _ _ _ _ _
  · exact setPhase_eq e _ _

/-- PT_LOAD tells the phase that the commit brought. -/
theorem load_committing (d : Dev) {m : Mould} {q : Nat} (hq : q ∈ partsOf m.pmask) :
    ((d.committing m).part q).load.toNat % 8 = m.commitPhase := by
  unfold Dev.committing
  extract_lets e
  split
  next h => rw [load_setLoad e hq, h]; rfl
  next h =>
    have h4 : m.commitPhase = 4 := by
      rw [Mould.commitPhase] at h ⊢; split <;> simp_all
    rw [load_setPhase e hq, h4, BitVec.toNat_ofNat]
    omega

/-- COMMIT takes a Mould from phase 3 on (R249). -/
theorem exec_msgCommit {s : State} {h : MHdr} {m : Mould} (ht : Takes s.dev h m) (hm : Held s.dev m) (hph : m.phase = 3) :
    ∃ t n, exec (.msgCommit h) s = .next t ∧ t.mem = s.mem ∧ t.dev.moulds.find? (fun x => x.pmask == m.pmask) = some n ∧
      n.phase = m.commitPhase ∧ ∀ q ∈ partsOf m.pmask, (t.dev.part q).load.toNat % 8 = n.phase := by
  have hkept := commitMould_loadsKept (s.dev.heard h) m
  have hexec : exec (.msgCommit h) s = .next { s with dev := (s.dev.heard h).commitMould m } := by
    refine (show execMsgCommit h s = _ from (onMsg1_takes ht _).trans ?_)
    rw [if_pos hph]
  refine ⟨_, m.committedAs m.commitPhase, hexec, rfl, ?_, rfl, fun q hq => ?_⟩
  · obtain ⟨ps, hps⟩ := committing_eq (s.dev.heard h) m
    have hfind : (s.dev.heard h).moulds.find? (fun x => x.pmask == m.pmask) = some m := hm
    calc ((s.dev.heard h).commitMould m).moulds.find? (fun x => x.pmask == m.pmask)
        = ((s.dev.heard h).updMould m.pmask (Mould.committedAs m.commitPhase)).moulds.find? (fun x => x.pmask == m.pmask) := by
          rw [hkept.moulds, hps]
      _ = some (m.committedAs m.commitPhase) := by
          rw [find?_updMould _ (Mould.committedAs m.commitPhase) (fun _ => rfl), hfind]; simp
  · rw [hkept.part]; exact load_committing _ hq

/-- Every loaded Mould is found by its FPID as before, but for the ticks at which its packets passed a port last. -/
def Dev.MouldsSent (d e : Dev) : Prop := ∀ fp m, d.mouldFp fp = some m → ∃ k, e.mouldFp fp = some k ∧ k.AsSent m

theorem mouldsSent_of_moulds {d e : Dev} (h : e.moulds = d.moulds) : d.MouldsSent e :=
  fun _ m hm => ⟨m, (congrArg (List.find? _) h).trans hm, rfl⟩

theorem stampV_mouldsSent (d : Dev) (m : Mould) (v : Nat) : d.MouldsSent (d.stampV m v) := by
  intro fp x hx
  refine ⟨_, (find?_updMould _ (fun x => { x with vlast := up x.vlast v d.turn.now }) (fun _ => rfl) d m.pmask).trans
    (congrArg (Option.map _) hx), ?_⟩
  dsimp only
  split <;> rfl

theorem transfer_moulds (d : Dev) (fpid epoch self u dst cls : Nat) (bs : List Byte) :
    (d.transfer fpid epoch self u dst cls bs).moulds = d.moulds :=
  List.foldlRecOn (motive := fun e : Dev => e.moulds = d.moulds) _ _ rfl fun _ he _ _ => (enqueue_portsSent _ _ _).loadsKept.moulds.trans he

theorem mgmtPacket_mouldsSent (d : Dev) (via : Option Nat) (fpid dst mtype : Nat) (answer : Bool) (seq arg : Nat) (body : List Byte) :
    d.MouldsSent (d.mgmtPacket via fpid dst mtype answer seq arg body) := by
  unfold Dev.mgmtPacket
  split
  · exact mouldsSent_of_moulds rfl
  · split
    · exact mouldsSent_of_moulds rfl
    next m _ _ =>
      intro fp x hx
      obtain ⟨k, hk, hsent⟩ := stampV_mouldsSent d m m.epoch fp x hx
      exact ⟨k, (congrArg (List.find? _) (transfer_moulds _ _ _ _ _ _ _ _)).trans hk, hsent⟩

theorem passOn_mouldsSent (d : Dev) (m : Mould) (mtype arg : Nat) : d.MouldsSent (d.passOn m mtype arg) := by
  unfold Dev.passOn
  split
  · exact fun fp x hx => mgmtPacket_mouldsSent _ none _ _ _ _ _ _ _ fp x hx
  · exact mouldsSent_of_moulds rfl

theorem passOn_parts (d : Dev) (m : Mould) (mtype arg : Nat) : (d.passOn m mtype arg).parts = d.parts := by
  unfold Dev.passOn
  split
  · exact (sendMgmt_sameTimes d _ _ _ _).parts
  · rfl

theorem setT0_eq (d : Dev) (m : Mould) (t0 : Nat) :
    ∃ ps, d.setT0 m t0 = { d.updMould m.pmask (fun x => { x with t0 := t0 }) with parts := ps } := foldl_updPart_eq _ _ _

/-- START gives its T0 to the Mould and to every one of its partitions (R251). -/
theorem exec_msgStart {s : State} {h : MHdr} {m : Mould} (ht : Takes s.dev h m) {t0 : Nat} (hph : m.phase = 5) (hopen : m.t0 = 0)
    (hlate : s.dev.turn.now.toNat + 64 ≤ t0) :
    ∃ t k, exec (.msgStart h t0) s = .next t ∧ t.mem = s.mem ∧ t.dev.mouldFp h.fpid = some k ∧ k.AsSent { m with t0 := t0 } ∧
      ∀ q ∈ partsOf m.pmask, (t.dev.part q).t0 = BitVec.ofNat 64 t0 := by
  have hdue : (s.dev.heard h).t0Late t0 = false := by
    have : ¬ t0 < (s.dev.heard h).turn.now.toNat + 64 := Nat.not_lt.mpr hlate
    simp [Dev.t0Late, this]
  have hexec : exec (.msgStart h t0) s = .next { s with dev := ((s.dev.heard h).setT0 m t0).passOn m 6 t0 } := by
    refine (show execMsgStart h t0 s = _ from (onMsg1_takes ht _).trans ?_)
    have h0 : t0 ≠ 0 := by omega
    simp [hph, hopen, h0, hdue]
  have hset : ((s.dev.heard h).setT0 m t0).mouldFp h.fpid = some { m with t0 := t0 } := by
    obtain ⟨ps, hps⟩ := setT0_eq (s.dev.heard h) m t0
    have hm : (s.dev.heard h).moulds.find? (fun x => x.fpid == h.fpid) = some m := ht.2.1
    rw [hps]
    refine (find?_updMould _ (fun x => { x with t0 := t0 }) (fun _ => rfl) (s.dev.heard h) m.pmask).trans ?_
    rw [hm]; simp
  obtain ⟨k, hk, hsent⟩ := passOn_mouldsSent _ m 6 t0 _ _ hset
  refine ⟨_, k, hexec, rfl, hk, hsent, fun q hq => ?_⟩
  have hpart : (((s.dev.heard h).setT0 m t0).passOn m 6 t0).part q = ((s.dev.heard h).setT0 m t0).part q :=
    congrArg (lk PartTime.reset · q) (passOn_parts _ m 6 t0)
  rw [hpart, Dev.setT0, part_foldl_updPart _ (partsOf_nodup _), if_pos hq]

/-! ### Offers (R249, R250, R273, R396, R397) -/

/-- A meaning that reads the memories and changes the device only, as one equation. -/
theorem liftR_of_eq {f : Memory → Memory → Dev → Dev} {s : State} {d : Dev} (h : f s.mem s.cave s.dev = d) :
    liftR f s = .next { s with dev := d } := by
  unfold liftR; rw [h]

/-- An offer that is turned away: before firmware is ready, behind a load request that is held, or through a port that is not past
the identity exchange. -/
def Dev.offerWaits (d : Dev) (u : Nat) : Prop :=
  d.crm.fwReady = false ∨ d.loadHeld = true ∨ (d.port u).st ≠ .admitted ∧ (d.port u).st ≠ .notAdmitted

theorem offerWaits_iff (d : Dev) (u : Nat) :
    (!d.crm.fwReady || d.loadHeld || !((d.port u).st == .notAdmitted || (d.port u).st == .admitted)) = true ↔ d.offerWaits u := by
  simp [Dev.offerWaits, or_assoc, and_comm]

/-- Why an offered load is refused: its start tick, or the checks of its header (R246, R252). -/
def Dev.offerRefusal (d : Dev) (header : List Byte) (t0 : Nat) : Option (Nat × Bool) :=
  if d.t0Late t0 then some (ldT0Late, false) else d.askLoad header (imLength header)

theorem headerRefused_loads (d : Dev) (hd : List Byte) (st : Nat) (kept : Bool) : (d.headerRefused hd st kept).loads = d.loads := by
  unfold Dev.headerRefused
  split
  · refine List.foldlRecOn (motive := fun e : Dev => e.loads = d.loads) _ _ rfl fun e he p _ => ?_
    obtain ⟨ps, hps⟩ := setLoad_eq e (2 ^ p) 0xFFFF 0xFF st 0
    rw [hps]; exact he
  · rfl

/-- The load that an accepted offer begins. -/
def offeredLoad (u : Nat) (header : List Byte) (t0 : Nat) (replay : Bool) : Load :=
  { pmask := imPmask header, fpid := imFpid header, len := imLength header, t0 := t0, replay := replay, port := some u, req := none,
    caveOff := none, image := none, lastByte := 0, results := [] }

theorem beginLoad_loads (d : Dev) (l : Load) : (d.beginLoad l).loads = d.loads ++ [l] := setPhase_loads _ _ _

theorem takeOffer_loads (d : Dev) (u : Nat) (header : List Byte) (t0 : Nat) (replay : Bool) :
    (d.takeOffer u header t0 replay).loads = d.loads ++ [offeredLoad u header t0 replay] :=
  (settled_portsSent _ d u false).loadsKept.loads.trans (beginLoad_loads d _)

/-- A port that sends its identity block still carries the offer. -/
theorem sendIdentity_offer (d : Dev) (u : Nat) : ((d.sendIdentity u).port u).offer = (d.port u).offer := by
  obtain ⟨o, ho⟩ := emits_eq (d.updPort u (fun x => { x with idSent := some d.turn.now.toNat })) (d.identityOuts u none)
  have hport : (d.sendIdentity u).port u = { d.port u with idSent := some d.turn.now.toNat } := by
    rw [Dev.sendIdentity, ho]; exact lk_up_same _ _ _ _
  rw [hport]

/-- A port that settles still carries the offer. -/
theorem settled_offer (d d0 : Dev) (u : Nat) (again : Bool) : ((d.settled d0 u again).port u).offer = (d.port u).offer := by
  unfold Dev.settled
  extract_lets a e1 e2 b news
  have h1 : (e1.port u).offer = (d.port u).offer := by
    unfold e1; rw [Dev.port_updPort]; rfl
  have h2 : (e2.port u).offer = (d.port u).offer := by
    unfold e2
    split
    · exact (sendIdentity_offer e1 u).trans h1
    · exact h1
  split
  · exact h2
  · exact h2

theorem takeOffer_offer (d : Dev) (u : Nat) (header : List Byte) (t0 : Nat) (replay : Bool) :
    ((d.takeOffer u header t0 replay).port u).offer = true := by
  refine (settled_offer _ d u false).trans ?_
  rw [Dev.port_updPort]

section Offers
variable {s : State} {u : PortId} {h : MHdr} (b : List Byte) (t0 : Nat) (rep : Bool) (hans : h.answer = false)
include hans

/-- An offer that must wait is turned away with REFUSE (R273, R396). -/
theorem exec_msgMouldOffer_waits (hw : s.dev.offerWaits u) :
    exec (.msgMouldOffer u h b t0 rep) s = .next { s with dev := s.dev.sendCtrl u none 4 0 1 [] } := by
  refine (show execMsgMouldOffer u h b t0 rep s = _ from liftR_of_eq ?_)
  dsimp only
  rw [if_neg (by simp [hans]), if_pos ((offerWaits_iff _ _).mpr hw)]

variable (hw : ¬ s.dev.offerWaits u) (hseq : lk 0 s.dev.crm.mgmtSeq (h.fpid * 65536 + h.src) < h.seq)
include hw hseq

theorem offer_taken : s.dev.mgmtIn h true = (true, s.dev.heard h) := by
  refine mgmtIn_taken ?_ (Bool.or_true _) hans hseq
  by_contra hfw
  exact hw (.inl (Bool.eq_false_iff.mpr hfw))

/-- An offer that passes the checks begins a load, and is answered OK (R250). -/
theorem exec_msgMouldOffer_ok (hwhy : s.dev.offerRefusal b t0 = none) : exec (.msgMouldOffer u h b t0 rep) s = .next { s with
    dev := ((s.dev.heard h).takeOffer u b t0 rep).emit (.mgmt h.src 1 h.fpid h.seq 1 true) } := by
  have hwhy' : (if (s.dev.heard h).t0Late t0 then some (ldT0Late, false) else (s.dev.heard h).askLoad b (imLength b)) = none := hwhy
  refine (show execMsgMouldOffer u h b t0 rep s = _ from liftR_of_eq ?_)
  dsimp only
  rw [if_neg (by simp [hans]), if_neg (mt (offerWaits_iff _ _).mp hw), offer_taken hans hw hseq]
  simp only [hwhy']
  rfl

/-- Any other is answered with the status of its refusal (R252). -/
theorem exec_msgMouldOffer_refused {r : Nat × Bool} (hwhy : s.dev.offerRefusal b t0 = some r) :
    exec (.msgMouldOffer u h b t0 rep) s = .next { s with
      dev := (((s.dev.heard h).headerRefused b r.1 r.2).emit (.mgmt h.src 1 h.fpid h.seq r.1 true)).sendMgmt h.fpid 0 2 r.1 } := by
  have hwhy' : (if (s.dev.heard h).t0Late t0 then some (ldT0Late, false) else (s.dev.heard h).askLoad b (imLength b)) = some r := hwhy
  refine (show execMsgMouldOffer u h b t0 rep s = _ from liftR_of_eq ?_)
  dsimp only
  rw [if_neg (by simp [hans]), if_neg (mt (offerWaits_iff _ _).mp hw), offer_taken hans hw hseq]
  simp only [hwhy']

end Offers

/-- A refused offer is made again 10 ms after the last one (R397). -/
theorem exec_mouldOfferRetry {s : State} {p : PartId} {o : Offer}
    (ho : s.dev.offers.find? (fun x => lowPart x.pmask == p.val && x.refused) = some o) (hdue : o.tick + 62500 ≤ s.dev.turn.now.toNat)
    (hlate : s.dev.turn.now.toNat < o.began + s.dev.timeoutOf o.pmask) :
    exec (.mouldOfferRetry p) s = .next { s with dev := ({ s.dev with
      offers := s.dev.offers.map (fun y => if y = o then { y with refused := false, tick := s.dev.turn.now.toNat } else y) } : Dev).sendOffer o } := by
  refine (show execMouldOfferRetry p s = _ from lift_of_eq ?_)
  dsimp only
  rw [ho]
  exact if_neg (by omega)

/-! ### Memory changes that reach the SRAM only -/

/-- No change of the list reaches the Cave. -/
def OnSram (w : List MemOp) : Prop := ∀ c, caveAll c w = c

theorem onSram_nil : OnSram [] := fun _ => rfl

theorem onSram_append {v w : List MemOp} (hv : OnSram v) (hw : OnSram w) : OnSram (v ++ w) := fun c =>
  calc caveAll c (v ++ w) = caveAll (caveAll c v) w := List.foldl_append
    _ = c := by rw [hv, hw]

theorem onSram_flatMap {α : Type} {g : α → List MemOp} (hg : ∀ x, OnSram (g x)) (l : List α) : OnSram (l.flatMap g) := by
  induction l with
  | nil => exact onSram_nil
  | cons x r ih => rw [List.flatMap_cons]; exact onSram_append (hg x) ih

theorem onSram_wrBytes (a : Nat) (bs : List Byte) : OnSram (wrBytes a bs) := fun c => caveAll_wrBytes c a bs

theorem onSram_moveOps (l : List (Nat × Nat × Nat)) : OnSram (moveOps l) := by
  unfold moveOps
  split <;> exact fun _ => rfl

theorem onSram_relocOps (d : Dev) (b : List Byte) (self : Nat) (m : Memory) (r : Reloc) : OnSram (d.relocOps b self m r) :=
  onSram_wrBytes _ _

theorem onSram_installOps (d : Dev) (b : List Byte) (self : Nat) : OnSram (d.installOps b self) := by
  unfold Dev.installOps
  extract_lets ks lib progs ws stores locals m rel
  clear_value ks
  have hstores : OnSram stores := onSram_flatMap (fun k => onSram_flatMap (fun q =>
    show OnSram (.clr _ _ :: _) from fun c => onSram_append (onSram_wrBytes _ _) (onSram_wrBytes _ _) c) _) _
  have hlocals : OnSram locals := onSram_append (caveAll_clearStores ks) (onSram_flatMap (fun _ => onSram_wrBytes _ _) _)
  have hrel : OnSram rel.2 :=
    List.foldlRecOn (motive := fun (a : Memory × List MemOp) => OnSram a.2) _ _ onSram_nil
      fun a ha r _ => onSram_append ha (onSram_relocOps d b self a.1 r)
  exact onSram_append (onSram_append hstores hlocals) hrel

/-! ### Installation (R213, R214, R248) -/

/-- The loads, the Moulds and the map of good positions in force are as before. -/
structure Dev.Placed (d e : Dev) : Prop where
  loads : e.loads = d.loads
  moulds : e.moulds = d.moulds
  good : e.good = d.good

theorem Dev.Placed.refl (d : Dev) : d.Placed d := ⟨rfl, rfl, rfl⟩

theorem Dev.Placed.trans {d e g : Dev} (h : d.Placed e) (k : e.Placed g) : d.Placed g :=
  ⟨k.loads.trans h.loads, k.moulds.trans h.moulds, k.good.trans h.good⟩

theorem good_of_net {d e : Dev} (h : e.net = d.net) : e.good = d.good := by
  funext x; rw [Dev.good, Dev.good, h]

theorem Dev.LoadsKept.placed {d e : Dev} (h : d.LoadsKept e) : d.Placed e := ⟨h.loads, h.moulds, good_of_net h.net⟩

theorem homes_of_good {d e : Dev} (h : e.good = d.good) : e.homes = d.homes := by
  funext pos; simp only [Dev.homes, Dev.coreAt, h]

/-- What moves follows from the two maps of good positions alone (R139). -/
theorem moves_of_good {d0 e0 d e : Dev} (h0 : e0.good = d0.good) (h : e.good = d.good) : e0.moves e = d0.moves d := by
  simp only [Dev.moves, h0, h, homes_of_good h0, homes_of_good h]

theorem foldl_updCore_placed (g : Nat → Core → Core) (l : List Nat) (d : Dev) : d.Placed (l.foldl (fun d k => d.updCore k (g k)) d) :=
  List.foldlRecOn (motive := d.Placed) _ _ (.refl d) fun _ he _ _ => he.trans ⟨rfl, rfl, rfl⟩

theorem foldl_updPart_placed (g : Nat → PartTime → PartTime) (l : List Nat) (d : Dev) : d.Placed (l.foldl (fun d p => d.updPart p (g p)) d) := by
  obtain ⟨ps, hps⟩ := foldl_updPart_eq g l d
  rw [hps]; exact ⟨rfl, rfl, rfl⟩

/-- What the installation of the image b of the load l on member `me` answers: the device in which the load is gone and a Mould stands
in phase 3, and the memory changes of R213 behind those of a new map of good positions. -/
structure Dev.Installs (d : Dev) (l : Load) (b : List Byte) (me : Nat) (r : Dev × List MemOp) : Prop where
  ops : r.2 = moveOps (d.moves r.1) ++ d.installOps b me
  loads : r.1.loads = d.loads.filter (fun x => x.pmask ≠ l.pmask)
  mould : ∃ m ∈ r.1.moulds, m.pmask = imPmask b ∧ m.self = me ∧ m.t0 = l.t0 ∧ 3 ≤ m.phase

theorem setPhase_placed (d : Dev) (pm phase : Nat) : d.Placed (d.setPhase pm phase) := foldl_updPart_placed _ _ d

theorem install_installs (d : Dev) (l : Load) (b : List Byte) (self : Nat) : d.Installs l b self (d.install l b self) := by
  unfold Dev.install
  extract_lets m0 m n ops d0 e1
  split
  next e2 moved hmap =>
  have h2 : e1.Placed e2 := (congrArg (e1.Placed ·.1) hmap).mp ⟨rfl, rfl, rfl⟩
  have hmoved : moved = moveOps (d0.moves e1) := (congrArg Prod.snd hmap).symm
  extract_lets ks e3 e4 rs net e5
  have h3 : e2.Placed e3 := foldl_updCore_placed _ _ _
  have h4 : e3.Placed e4 := foldl_updPart_placed _ _ _
  have h5 : e4.Placed (e5.coresToStart m).rebuildMasks := ⟨rfl, rfl, rfl⟩
  have hall := (((h2.trans h3).trans h4).trans h5).trans
    ((setPhase_placed _ m.pmask 3).trans (endOffer_portsSent _ l.port).loadsKept.placed)
  refine ⟨congrArg (· ++ ops) (hmoved.trans (congrArg moveOps (moves_of_good rfl hall.good.symm))), hall.loads, m, ?_, rfl, rfl, rfl, Nat.le_refl 3⟩
  rw [hall.moulds]
  exact List.mem_append_right _ (List.mem_singleton_self m)

/-! ### This member's result of its own checks (R249) -/

/-- The Mould k is the Mould m further on: the same one, no earlier than phase 3 where m is not. -/
def Mould.GoesOn (m k : Mould) : Prop := k.pmask = m.pmask ∧ k.self = m.self ∧ k.t0 = m.t0 ∧ (3 ≤ m.phase → 3 ≤ k.phase)

/-- Networks and loads are as before, and every loaded Mould goes on. -/
structure Dev.MouldsGoOn (d e : Dev) : Prop where
  net : e.net = d.net
  loads : e.loads = d.loads
  moulds : ∀ m ∈ d.moulds, ∃ k ∈ e.moulds, m.GoesOn k

theorem Dev.MouldsGoOn.trans {d e g : Dev} (h : d.MouldsGoOn e) (k : e.MouldsGoOn g) : d.MouldsGoOn g := by
  refine ⟨k.net.trans h.net, k.loads.trans h.loads, fun m hm => ?_⟩
  obtain ⟨x, hx, hp, hs, ht, hph⟩ := h.moulds m hm
  obtain ⟨y, hy, hp', hs', ht', hph'⟩ := k.moulds x hx
  exact ⟨y, hy, hp'.trans hp, hs'.trans hs, ht'.trans ht, hph' ∘ hph⟩

theorem mouldsGoOn_of_eq {d e : Dev} (hn : e.net = d.net) (hl : e.loads = d.loads) (hm : e.moulds = d.moulds) : d.MouldsGoOn e :=
  ⟨hn, hl, fun m h => ⟨m, hm ▸ h, rfl, rfl, rfl, id⟩⟩

theorem Dev.LoadsKept.mouldsGoOn {d e : Dev} (h : d.LoadsKept e) : d.MouldsGoOn e := mouldsGoOn_of_eq h.net h.loads h.moulds

theorem updMould_mouldsGoOn (d : Dev) (pm : Nat) {f : Mould → Mould} (hf : ∀ m : Mould, m.GoesOn (f m)) : d.MouldsGoOn (d.updMould pm f) := by
  refine ⟨rfl, rfl, fun m hm => ⟨_, List.mem_map_of_mem hm, ?_⟩⟩
  split
  · exact hf m
  · exact ⟨rfl, rfl, rfl, id⟩

theorem commitPhase_ge (m : Mould) : 3 ≤ m.commitPhase := by
  unfold Mould.commitPhase; split <;> decide

theorem commitMould_mouldsGoOn (d : Dev) (m : Mould) : d.MouldsGoOn (d.commitMould m) := by
  have hupd : d.MouldsGoOn (d.updMould m.pmask (Mould.committedAs m.commitPhase)) :=
    updMould_mouldsGoOn d _ fun _ => ⟨rfl, rfl, rfl, fun _ => commitPhase_ge m⟩
  obtain ⟨ps, hps⟩ := committing_eq d m
  have hcom : (d.updMould m.pmask (Mould.committedAs m.commitPhase)).MouldsGoOn (d.committing m) := by
    rw [hps]; exact mouldsGoOn_of_eq rfl rfl rfl
  exact (hupd.trans hcom).trans (commitMould_loadsKept d m).mouldsGoOn

/-- A member that accepts tells member 0, which commits once every member has accepted. -/
theorem ownAccept_mouldsGoOn (d : Dev) (m : Mould) : d.MouldsGoOn (d.ownAccept m) := by
  unfold Dev.ownAccept
  split
  · unfold Dev.accepted
    extract_lets l e
    have he : d.MouldsGoOn e := updMould_mouldsGoOn d _ fun _ => ⟨rfl, rfl, rfl, id⟩
    split
    · exact he.trans (commitMould_mouldsGoOn e m)
    · exact he
  · exact (sendMgmt_loadsKept d _ _ _ (by omega)).mouldsGoOn

/-! ### The last byte of an image (R248 to R250) -/

/-- The load once its whole image is there. -/
def Dev.wholeLoad (d : Dev) (l : Load) (b : List Byte) : Load := { l with image := some b, lastByte := d.turn.now.toNat }

/-- The loads, with the one of its PMASK replaced by l. -/
def Load.replaceIn (l : Load) (loads : List Load) : List Load := loads.map (fun x => if x.pmask = l.pmask then l else x)

/-- The device in phase 2 with the whole image of the load, which it has offered on, before its own checks. -/
def Dev.arrived (d : Dev) (l : Load) (b : List Byte) : Dev :=
  (({ d with loads := (d.wholeLoad l b).replaceIn d.loads } : Dev).setPhase l.pmask 2).offerOn (d.wholeLoad l b) b

theorem offerOn_eq (d : Dev) (l : Load) (b : List Byte) :
    ∃ os mo o, d.offerOn l b = { d with offers := os, crm := { d.crm with mgmtOut := mo }, out := o } := by
  unfold Dev.offerOn
  split
  · exact ⟨_, _, _, rfl⟩
  · split
    · split <;> exact ⟨_, _, _, rfl⟩
    · exact ⟨_, _, _, rfl⟩

theorem arrived_eq (d : Dev) (l : Load) (b : List Byte) : ∃ ps os mo o, d.arrived l b = { d with
    loads := (d.wholeLoad l b).replaceIn d.loads, parts := ps, offers := os, crm := { d.crm with mgmtOut := mo }, out := o } := by
  unfold Dev.arrived
  obtain ⟨ps, hps⟩ := setPhase_eq { d with loads := (d.wholeLoad l b).replaceIn d.loads } l.pmask 2
  rw [hps]
  obtain ⟨os, mo, o, ho⟩ := offerOn_eq { d with loads := (d.wholeLoad l b).replaceIn d.loads, parts := ps } (d.wholeLoad l b) b
  exact ⟨ps, os, mo, o, ho⟩

theorem imEarly_arrived (d : Dev) (l : Load) (b : List Byte) : (d.arrived l b).imEarly b = d.imEarly b := by
  obtain ⟨ps, os, mo, o, h⟩ := arrived_eq d l b
  rw [h]; rfl

theorem imSelf_arrived (d : Dev) (l : Load) (b : List Byte) : (d.arrived l b).imSelf b = d.imSelf b := by
  obtain ⟨ps, os, mo, o, h⟩ := arrived_eq d l b
  rw [h]; rfl

theorem installOps_arrived (d : Dev) (l : Load) (b : List Byte) (self : Nat) : (d.arrived l b).installOps b self = d.installOps b self := by
  obtain ⟨ps, os, mo, o, h⟩ := arrived_eq d l b
  rw [h]; rfl

/-- The load itself is in nobody's way: the check for claims looks at the PMASKs of the others. -/
theorem imBusy_arrived (d : Dev) (l : Load) (b : List Byte) (self : Nat) : (d.arrived l b).imBusy b self = d.imBusy b self := by
  obtain ⟨ps, os, mo, o, h⟩ := arrived_eq d l b
  have hpm : ∀ p, ((d.wholeLoad l b).replaceIn d.loads).any (fun x => x.pmask ≠ imPmask b && bit x.pmask p) =
      d.loads.any (fun x => x.pmask ≠ imPmask b && bit x.pmask p) := by
    intro p
    rw [Load.replaceIn, List.any_map]
    congr 1
    funext x
    by_cases hx : x.pmask = l.pmask
    · simp [Dev.wholeLoad, hx]
    · simp [Dev.wholeLoad, hx]
  rw [h]
  simp only [Dev.imBusy, hpm]

theorem imLate_arrived (d : Dev) (l : Load) (b : List Byte) (host : Bool) : (d.arrived l b).imLate b host = d.imLate b host := by
  have hbusy := imBusy_arrived d l b
  have hself := imSelf_arrived d l b
  obtain ⟨ps, os, mo, o, h⟩ := arrived_eq d l b
  unfold Dev.imLate
  rw [hself]
  simp only [hbusy]
  rw [h]
  rfl

/-! The checks of a whole image, in the order of R248. -/

section Checks
variable {d : Dev} {l : Load} {b : List Byte} (hb : l.image = some b)
include hb

theorem checkLoad_early {r : LoadFail} (h : d.imEarly b = some r) : d.checkLoad l = (d.refuseLoad l b r, []) := by
  simp only [Dev.checkLoad, hb, h]

/-- An image that passes the first steps waits for the key table and memory BIST (R398). -/
theorem checkLoad_waits (h : d.imEarly b = none) (hkeys : d.crm.keysLoaded = false) : d.checkLoad l = (d, []) := by
  simp only [Dev.checkLoad, hb, h, hkeys, Bool.not_false, Bool.true_or, if_true]

/-- An image that passes every check is installed, and this member's acceptance is noted or sent. -/
theorem checkLoad_installs {self : Nat} (hearly : d.imEarly b = none) (hkeys : d.crm.keysLoaded = true) (hbist : d.crm.bistDone = true)
    (hlate : d.imLate b l.port.isNone = none) (hself : d.imSelf b = some self) :
    ∃ e, d.checkLoad l = (e, (d.install l b self).2) ∧ (d.install l b self).1.MouldsGoOn e := by
  simp only [Dev.checkLoad, hb, hearly, hkeys, hbist, hlate, hself, Bool.not_true, Bool.or_false, Bool.false_eq_true, if_false]
  split
  · exact ⟨_, rfl, ownAccept_mouldsGoOn _ _⟩
  · exact ⟨_, rfl, mouldsGoOn_of_eq rfl rfl rfl⟩

end Checks

/-- Whatever the checks find, the Cave stays. -/
theorem checkLoad_onSram (d : Dev) (l : Load) : OnSram (d.checkLoad l).2 := by
  have hinstall : ∀ b self, OnSram (d.install l b self).2 := fun b self => by
    rw [(install_installs d l b self).ops]
    exact onSram_append (onSram_moveOps _) (onSram_installOps d b self)
  unfold Dev.checkLoad
  split
  · exact onSram_nil
  next b _ =>
  split
  · exact onSram_nil
  · split
    · exact onSram_nil
    · split
      · exact onSram_nil
      · exact onSram_nil
      next self _ _ =>
        have hw := hinstall b self
        generalize d.install l b self = r at hw ⊢
        obtain ⟨e, w⟩ := r
        dsimp only at hw ⊢
        split <;> exact hw

section LastByte
variable {s : State} {p : PartId} {l : Load} (hl : s.dev.loads.find? (fun x => lowPart x.pmask == p.val && x.image.isNone) = some l)
include hl

/-- A source that fails ends the load with SOURCE (R248). -/
theorem exec_mouldLastByte_none : ∃ t, exec (.mouldLastByte p none) s = .next t ∧ t.mem = s.mem ∧ t.dev.LoadEnded l 0xFFFF 0xFF 14 := by
  have hexec : exec (.mouldLastByte p none) s = .next { s with dev := s.dev.refuseLoad l [] (14, 0xFF) } := by
    refine (show execMouldLastByte p none s = _ from liftW_of_eq (w := []) ?_)
    simp only [hl]
    rfl
  exact ⟨_, hexec, rfl, refuseLoad_ended s.dev l [] (14, 0xFF)⟩

variable {b : List Byte} (hc : l.caveOff = none)
include hc

/-- A whole image from a source other than the Cave is checked as it came. -/
theorem exec_mouldLastByte_some {e : Dev} {w : List MemOp}
    (h : (s.dev.arrived l b).checkLoad (s.dev.wholeLoad l b) = (e, w)) :
    exec (.mouldLastByte p (some b)) s = .next { s with dev := e, mem := memAll s.mem w, cave := caveAll s.cave w } := by
  have hbytes : l.caveOff.elim b (fun o => s.cave.bytes o l.len) = b := by rw [hc]; rfl
  refine (show execMouldLastByte p (some b) s = _ from liftW_of_eq ?_)
  simp only [hl, hbytes]
  exact h

/-- A check of its form that fails ends the load with its status (R248, steps 1 to 3). -/
theorem mouldLastByte_early {r : LoadFail} (hr : s.dev.imEarly b = some r) :
    ∃ t, exec (.mouldLastByte p (some b)) s = .next t ∧ t.mem = s.mem ∧ t.dev.LoadEnded l 0xFFFF r.2 r.1 :=
  ⟨_, exec_mouldLastByte_some hl hc (checkLoad_early rfl ((imEarly_arrived _ _ b).trans hr)), rfl, refuseLoad_ended _ (s.dev.wholeLoad l b) b r⟩

/-- Before the key table is loaded a load goes no further than the checks of its form (R398). -/
theorem mouldLastByte_waits (hkeys : s.dev.crm.keysLoaded = false) :
    ∃ t, exec (.mouldLastByte p (some b)) s = .next t ∧ t.mem = s.mem ∧
      (s.dev.imEarly b = none → s.dev.wholeLoad l b ∈ t.dev.loads) := by
  cases hearly : s.dev.imEarly b with
  | some r =>
    obtain ⟨t, hexec, hmem, -⟩ := mouldLastByte_early hl hc hearly
    exact ⟨t, hexec, hmem, nofun⟩
  | none =>
    obtain ⟨ps, os, mo, o, ha⟩ := arrived_eq s.dev l b
    refine ⟨_, exec_mouldLastByte_some hl hc (checkLoad_waits rfl ((imEarly_arrived _ _ b).trans hearly) ?_), rfl, fun _ => ?_⟩
    · rw [ha]; exact hkeys
    · rw [ha]
      exact List.mem_map.mpr ⟨l, List.mem_of_find?_eq_some hl, if_pos rfl⟩

/-- Whatever the checks find, the bytes of the Cave stay. -/
theorem mouldLastByte_cave : ∃ t, exec (.mouldLastByte p (some b)) s = .next t ∧ t.cave = s.cave :=
  ⟨_, exec_mouldLastByte_some hl hc Prod.mk.eta.symm, checkLoad_onSram _ _ s.cave⟩

/-- An image that passes every check is installed, with exactly the bytes of its cores' stores (R213, R248). -/
theorem mouldLastByte_installs (hpm : l.pmask = imPmask b) (hkeys : s.dev.crm.keysLoaded = true) (hbist : s.dev.crm.bistDone = true)
    {self : Nat} (hearly : s.dev.imEarly b = none) (hlate : s.dev.imLate b l.port.isNone = none) (hself : s.dev.imSelf b = some self)
    {t : State} (ht : exec (.mouldLastByte p (some b)) s = .next t) :
    t.mem = memAll s.mem (moveOps (s.dev.moves t.dev) ++ s.dev.installOps b self) ∧ (∀ x ∈ t.dev.loads, x.pmask ≠ l.pmask) ∧
      ∃ m ∈ t.dev.moulds, m.pmask = l.pmask ∧ m.self = self ∧ m.t0 = l.t0 ∧ 3 ≤ m.phase := by
  obtain ⟨ps, os, mo, o, ha⟩ := arrived_eq s.dev l b
  obtain ⟨e, hcheck, hon⟩ := checkLoad_installs (d := s.dev.arrived l b)
    (l := s.dev.wholeLoad l b) rfl ((imEarly_arrived _ _ b).trans hearly) (by rw [ha]; exact hkeys) (by rw [ha]; exact hbist)
    ((imLate_arrived _ _ b _).trans hlate) ((imSelf_arrived _ _ b).trans hself)
  have hinst := install_installs (s.dev.arrived l b) (s.dev.wholeLoad l b) b self
  generalize (s.dev.arrived l b).install (s.dev.wholeLoad l b) b self = r at hcheck hon hinst
  cases (exec_mouldLastByte_some hl hc hcheck).symm.trans ht
  have hgood : (s.dev.arrived l b).good = s.dev.good := good_of_net (by rw [ha])
  refine ⟨?_, fun x hx => ?_, ?_⟩
  · have hmoves : (s.dev.arrived l b).moves r.1 = s.dev.moves e := moves_of_good hgood (good_of_net hon.net).symm
    dsimp only
    rw [hinst.ops, hmoves, installOps_arrived]
  · rw [hon.loads, hinst.loads] at hx
    exact of_decide_eq_true (List.mem_filter.mp hx).2
  · obtain ⟨m, hm, hmp, hms, hmt, hmph⟩ := hinst.mould
    obtain ⟨k, hk, hp, hs, ht0, hph⟩ := hon.moulds m hm
    exact ⟨k, hk, hp.trans (hmp.trans hpm.symm), hs.trans hms, ht0.trans hmt, hph hmph⟩

end LastByte

/-- Settles O48: each clause is one way a load, an offer or a message of a load goes on or ends. -/
theorem mouldLoads : Obligations.MouldLoads := by
  refine ⟨fun s => ⟨fun p l hl => ⟨?source, fun b hc hpm => ⟨fun r hr => ?early, fun hkeys => ?waits, fun hkeys hbist => ?installs⟩⟩,
    fun u h b t0 rep hans => ⟨fun hw => ?turnedAway, fun hw hseq => ⟨fun hwhy => ?taken, fun r hr => ?refused⟩⟩,
    fun p o ho hdue hlate => ?again⟩,
    fun h s => ⟨fun l hfw hl hans hseq => ?messages, fun m ht hm => ⟨fun hph => ?commit, fun t0 hph hopen hlate => ?start⟩,
    fun p l b hl hb hfp => ⟨fun hself hlate => ?timeout, fun h0 hlate => ?late⟩⟩⟩
  case source => exact exec_mouldLastByte_none hl
  case early => exact mouldLastByte_early hl hc hr
  case waits => exact mouldLastByte_waits hl hc hkeys
  case installs =>
    obtain ⟨t, hexec, hcave⟩ := mouldLastByte_cave hl hc
    exact ⟨t, hexec, hcave, fun self hearly hlate hself => mouldLastByte_installs hl hc hpm hkeys hbist hearly hlate hself hexec⟩
  case turnedAway => exact exec_msgMouldOffer_waits b t0 rep hans hw
  case taken =>
    exact ⟨_, offeredLoad u b t0 rep, exec_msgMouldOffer_ok b t0 rep hans hw hseq hwhy, rfl, takeOffer_loads _ _ _ _ _, rfl, rfl, rfl, rfl,
      takeOffer_offer _ _ _ _ _, List.mem_cons_self ..⟩
  case refused =>
    refine ⟨_, exec_msgMouldOffer_refused b t0 rep hans hw hseq hr, rfl, ?_, ?_⟩
    · exact (sendMgmt_loadsKept _ _ _ _ (by omega)).loads.trans (headerRefused_loads _ _ _ _)
    · dsimp only
      rw [sendMgmt_eq _ _ _ _ (by omega)]
      exact List.mem_cons_of_mem _ (List.mem_cons_self ..)
  case again => exact ⟨_, exec_mouldOfferRetry ho hdue hlate, rfl, rfl⟩
  case messages =>
    have ht : TakesLoad s.dev h l := ⟨hfw, hl, hans, hseq⟩
    exact ⟨exec_msgLoadResult_ok ht, fun _ hs => msgLoadResult_ends ht hs, fun _ hx => msgAbandon_ends ht hx, msgCancelled_ends ht⟩
  case commit => exact exec_msgCommit ht hm hph
  case start => exact exec_msgStart ht hph hopen hlate
  case timeout => exact mouldLoadTimeout_ends hl hb hfp hself hlate
  case late => exact startLate_ends hl hb hfp h0 hlate

end Sys2Proof.Machine

/-! ## What reset leaves -/

namespace Sys2Proof.Machine

/-- Every arbiter stands at its reset values, those of the masks apart (R356). -/
theorem arb_reset (a : Nat) : ∃ n, Dev.reset.arb a = { Arb.reset with masked := n } := by
  change ∃ n, lk Arb.reset arbsReset a = _
  by_cases h2 : a = 2
  · subst h2; exact ⟨_, rfl⟩
  · by_cases h3 : a = 3
    · subst h3; exact ⟨_, rfl⟩
    · exact ⟨Arb.reset.masked, by simp [arbsReset, lk, h2, h3]⟩

/-- Settles O3: a table with nothing listed reads as its reset value; only the arbiters' table lists anything. -/
theorem resetLeavesGivenValues : Obligations.ResetLeavesGivenValues := by
  have hseq : ∀ k q, (Dev.reset.seq k q).st = .idle ∧ (Dev.reset.seq k q).pc = 0 := fun k q => by
    cases q <;> exact ⟨rfl, rfl⟩
  have harb : ∀ a, (Dev.reset.arb a).quantum = 0x0400 ∧ (Dev.reset.arb a).lfsr = 1 ∧ (Dev.reset.arb a).holder = none := fun a => by
    obtain ⟨n, h⟩ := arb_reset a
    rw [h]; exact ⟨rfl, rfl, rfl⟩
  exact ⟨rfl, rfl, rfl, hseq, fun p => ⟨rfl, rfl, rfl⟩, rfl, rfl, fun u => ⟨rfl, rfl⟩, harb, rfl, rfl, fun a => rfl, rfl⟩

end Sys2Proof.Machine

/-! ## A cycle without a command -/

namespace Sys2Proof.Machine

/-! ### What the cores ask of the slices (R34) -/

/-- Nothing but the cores and the accesses that wait at the slices changed. -/
def Dev.SlicesAsked (d e : Dev) : Prop := ∃ cs q, e = { d with cores := cs, net := { d.net with slcQ := q } }

theorem Dev.SlicesAsked.trans {d e g : Dev} : d.SlicesAsked e → e.SlicesAsked g → d.SlicesAsked g := by
  rintro ⟨_, _, rfl⟩ ⟨cs, q, rfl⟩; exact ⟨cs, q, rfl⟩

theorem issueSlc_slicesAsked (d : Dev) (k : Nat) : d.SlicesAsked (d.issueSlc k) := by
  unfold Dev.issueSlc
  split
  · exact ⟨_, _, rfl⟩
  · exact ⟨_, _, rfl⟩

/-- The device in the next cycle of a tick, before the cycle counter counts: a core of which the clock runs counts and asks the
slices. -/
def Dev.coresRun (d : Dev) : Dev :=
  let d : Dev := { d with cores := d.cores.map (fun e => (e.1, d.coreCycle e.1)), clk := d.clk.cycle }
  d.cores.foldl (fun d e => if d.clocked e.1 then d.issueSlc e.1 else d) d

theorem coresRun_eq (d : Dev) : ∃ cs q, d.coresRun = { d with cores := cs, clk := d.clk.cycle, net := { d.net with slcQ := q } } := by
  unfold Dev.coresRun
  extract_lets e
  have h : e.SlicesAsked (e.cores.foldl (fun d x => if d.clocked x.1 then d.issueSlc x.1 else d) e) :=
    List.foldlRecOn (motive := e.SlicesAsked) _ _ ⟨_, _, rfl⟩ fun g hg x _ => by
      split
      · exact hg.trans (issueSlc_slicesAsked g x.1)
      · exact hg
  obtain ⟨cs, q, h⟩ := h
  exact ⟨cs, q, h⟩

/-! ### Ticks (R217, R220, R222) -/

/-- The counters of ticks bring no port up and none down. -/
theorem lone_tickCounts (d : Dev) : d.tickCounts.lone = d.lone := by
  simp only [Dev.lone, Dev.tickCounts, List.all_map]
  rfl

/-- The end of a tick: the cycle counter restarts and the Turn counts on, but for a device that makes itself the root. -/
theorem tickEnd_eq (d : Dev) : ∃ t, d.tickEnd = { d with cyc := 0, turn := t, errs := { d.errs with sent := [] } } ∧
    (d.lone = false ∨ d.turn.root = true → t = d.turn.tick) := by
  unfold Dev.tickEnd
  by_cases h : (d.lone && !d.turn.root) = true
  · simp only [h, if_true]
    refine ⟨_, rfl, fun hno => ?_⟩
    rcases hno with hno | hno <;> simp [hno] at h
  · simp only [h, Bool.false_eq_true, if_false]
    exact ⟨_, rfl, fun _ => rfl⟩

/-- The device once the counters of ticks have counted too, in the first cycle of a tick. -/
def Dev.counted (d : Dev) : Dev := if d.coresRun.cyc = 0 then d.coresRun.tickCounts else d.coresRun

theorem counted_eq (d : Dev) : ∃ cs q ps us, d.counted = { d with
    cores := cs, clk := d.clk.cycle, net := { d.net with slcQ := q }, parts := ps, ports := us } := by
  obtain ⟨cs, q, h⟩ := coresRun_eq d
  unfold Dev.counted
  rw [h]
  split
  · exact ⟨cs, q, _, _, rfl⟩
  · exact ⟨cs, q, _, _, rfl⟩

theorem lone_counted (d : Dev) : d.counted.lone = d.lone := by
  obtain ⟨cs, q, h⟩ := coresRun_eq d
  unfold Dev.counted
  split
  · rw [lone_tickCounts, h]; rfl
  · rw [h]; rfl

theorem cycle_eq {d : Dev} (h : d.rst = false) :
    d.cycle = if cyclesPerTick d.clk.step ≤ d.cyc + 1 then d.counted.tickEnd else { d.counted with cyc := d.cyc + 1 } := by
  obtain ⟨cs, q, ps, us, he⟩ := counted_eq d
  have hcycle : d.cycle = (if cyclesPerTick d.counted.clk.step ≤ d.counted.cyc + 1 then d.counted.tickEnd
      else { d.counted with cyc := d.counted.cyc + 1 }) := if_neg (by rw [h]; decide)
  have hstep : d.counted.clk.step = d.clk.step := by rw [he]; rfl
  have hsame : d.counted.cyc = d.cyc := by rw [he]
  rw [hcycle, hstep, hsame]

/-- Settles O2: the cores and the slices' queues, then the counters of ticks, then the end of the tick. -/
theorem emptyQueueRunsOneCycle : Obligations.EmptyQueueRunsOneCycle := by
  intro s hq
  have hidle : step s = idle s := by simp only [step, hq]
  have hstep : step s = .next { s with dev := s.dev.cycle } := hidle
  refine ⟨fun hrst => ?held, fun hrst => ?_⟩
  case held => rw [hstep, Dev.cycle, if_pos hrst]
  obtain ⟨cs, q, ps, us, he⟩ := counted_eq s.dev
  refine ⟨_, hstep, ?_⟩
  rw [cycle_eq hrst]
  by_cases hend : cyclesPerTick s.dev.clk.step ≤ s.dev.cyc + 1
  · obtain ⟨t, ht, hturn⟩ := tickEnd_eq s.dev.counted
    rw [lone_counted] at hturn
    rw [if_pos hend, ht, he]
    rw [he] at hturn
    exact ⟨rfl, rfl, rfl, rfl, rfl, rfl, rfl, rfl, fun h => absurd hend (Nat.not_le.mpr h), fun _ => ⟨rfl, rfl, hturn⟩⟩
  · rw [if_neg hend, he]
    exact ⟨rfl, rfl, rfl, rfl, rfl, rfl, rfl, rfl, fun _ => ⟨rfl, rfl, rfl⟩, fun h => absurd h hend⟩

end Sys2Proof.Machine

/-! ## Time blocks -/

namespace Sys2Proof.Machine

/-! ### One time block written -/

theorem onlyPart_updPart (s : State) (p : Nat) (f : PartTime → PartTime) :
    OnlyPart s { s with dev := s.dev.updPart p f } p (f (s.dev.part p)) :=
  ⟨rfl, fun _ h => Dev.part_updPart_ne _ h _, Dev.part_updPart _ _ _⟩

theorem updPart_updPart (d : Dev) (p : Nat) (f g : PartTime → PartTime) : (d.updPart p f).updPart p g = d.updPart p (fun t => g (f t)) := by
  have h : (d.updPart p f).updPart p g = (d.setPart p (f (d.part p))).setPart p (g (f (d.part p))) := by
    rw [Dev.updPart, Dev.part_updPart]; rfl
  rw [h]
  simp only [Dev.updPart, Dev.setPart, up_up]

/-! ### Time blocks under containment (R400) -/

/-- Ending the requests of a partition changes its Mould and what its hosts are told. -/
theorem failRequests_eq (d : Dev) (p : Nat) : ∃ ms fs o, d.failRequests p = { d with moulds := ms, funcs := fs, out := o } := by
  have told {g e : Dev} : g.HostsTold e → (∃ ms fs o, g = { d with moulds := ms, funcs := fs, out := o }) →
      ∃ ms fs o, e = { d with moulds := ms, funcs := fs, out := o } := by
    rintro ⟨fs, o, rfl⟩ ⟨ms, _, _, rfl⟩; exact ⟨ms, fs, o, rfl⟩
  unfold Dev.failRequests
  split
  · exact ⟨_, _, _, rfl⟩
  · split
    · exact ⟨_, _, _, rfl⟩
    next sv _ =>
      extract_lets st d1 d2
      have h1 : d.HostsTold d1 :=
        List.foldlRecOn (motive := d.HostsTold) _ _ (.refl d) fun e he f _ =>
          List.foldlRecOn (motive := d.HostsTold) _ _ he fun e he c _ => by
            split
            · exact he.trans (.trans ⟨_, _, rfl⟩ (ring_hostsTold _ _ _ _))
            · exact he
      have h2 : ∃ ms fs o, d2 = { d with moulds := ms, funcs := fs, out := o } := by
        obtain ⟨fs, o, h1⟩ := h1
        exact ⟨_, fs, o, by simp only [d2, h1]; rfl⟩
      have h3 : d2.HostsTold (sv.waiting.foldl (fun d w => d.noSample w) d2) :=
        List.foldlRecOn (motive := d2.HostsTold) _ _ (.refl d2) fun e he w _ => he.trans (noSample_hostsTold e w)
      exact told (h3.trans (completeOpt_hostsTold _ _ _ _)) h2

/-- The time block of a partition that an error has stopped. -/
def PartTime.stoppedByError (t : PartTime) : PartTime := { t with st := .stopped, dead := true }

theorem part_stopPart (d : Dev) (p q : Nat) : (d.stopPart p).part q = if q = p then (d.part p).stoppedByError else d.part q := by
  obtain ⟨ms, fs, o, h⟩ := failRequests_eq ((d.haltPart p).updPart p (fun t => { t with st := .stopped, dead := true })) p
  rw [Dev.stopPart, h]
  exact lk_up _ _ _ _ _

theorem part_foldl_stopPart (l : List Nat) (d : Dev) (q : Nat) :
    (l.foldl (fun d p => d.stopPart p) d).part q = if q ∈ l then (d.part q).stoppedByError else d.part q := by
  induction l generalizing d with
  | nil => rfl
  | cons p l ih =>
    rw [List.foldl_cons, ih, part_stopPart]
    by_cases hq : q = p
    · subst hq; simp [PartTime.stoppedByError]
    · simp [hq]

/-- An error of class PARTITION stops the partitions of its PMASK, and no other time block changes. -/
theorem part_raise_partClass {d : Dev} {e : Err} (h : e.cls = 2) (q : Nat) :
    (d.raise e).part q = if q ∈ partsOf e.pmask then (d.part q).stoppedByError else d.part q := by
  simp only [Dev.raise, h]
  obtain ⟨es, fs, o, he, -, -⟩ := irqs_spec ((partsOf e.pmask).foldl (fun d p => d.stopPart p) { d with errs := d.errs.put (d.mkRec e) }) 2 e.pmask
  rw [he]
  exact part_foldl_stopPart _ _ _

end Sys2Proof.Machine

/-! ## Lock-step -/

namespace Sys2Proof.Machine

/-! ### The comparison of a step (R236, R237) -/

/-- The entry with the partner's record of a step. -/
def LockStep.heard (l : LockStep) (step : Nat) (digs : List Nat) : LockStep := { l with theirs := l.theirs ++ [(step, digs)] }

theorem heard_find {l : LockStep} {step : Nat} (h : ∀ x ∈ l.theirs, x.1 ≠ step) (digs : List Nat) :
    (l.heard step digs).theirs.find? (fun x => x.1 == step) = some (step, digs) := by
  have hnone : l.theirs.find? (fun x => x.1 == step) = none := List.find?_eq_none.mpr fun x hx => by simpa using h x hx
  simp [LockStep.heard, List.find?_append, hnone]

theorem heard_filter {l : LockStep} {step : Nat} (h : ∀ x ∈ l.theirs, x.1 ≠ step) (digs : List Nat) :
    (l.heard step digs).theirs.filter (fun x => x.1 ≠ step) = l.theirs := by
  have hall : l.theirs.filter (fun x => x.1 ≠ step) = l.theirs := List.filter_eq_self.mpr fun x hx => by simpa using h x hx
  rw [LockStep.heard, List.filter_append, hall]
  simp

section Compare
variable {d : Dev} {p step : Nat} {l : LockStep} (hl : (d.part p).lock = some l)
include hl

theorem compareStep_waits (h : l.own.find? (fun x => x.1 == step) = none) : d.compareStep p step = d := by
  simp only [Dev.compareStep, hl, h]

variable {x y : Nat} {tick : Nat} {a b : List Nat} (ha : l.own.find? (fun x => x.1 == step) = some (x, tick, a))
  (hb : l.theirs.find? (fun x => x.1 == step) = some (y, b))
include ha hb

theorem compareStep_agrees (h : a = b) : d.compareStep p step = d.updPart p (fun t => { t with lock := some { l with
    own := l.own.filter (fun x => x.1 ≠ step), theirs := l.theirs.filter (fun x => x.1 ≠ step), compared := step :: l.compared } }) := by
  simp only [Dev.compareStep, hl, ha, hb, if_pos h]

theorem compareStep_differs (h : a ≠ b) : d.compareStep p step = (d.updPart p (fun t => { t with lsDiv := true, lock := some { l with
    own := l.own.filter (fun x => x.1 ≠ step), theirs := l.theirs.filter (fun x => x.1 ≠ step), diverged := true } })).diverge p step
      (firstDiff 0 (a.drop 1) (b.drop 1)) 0 := by
  simp only [Dev.compareStep, hl, ha, hb, if_neg h]

end Compare

/-! ### Divergence -/

theorem diverge_recorded (d : Dev) (p step core noPartner : Nat) {t : State} (ht : t.dev = d.diverge p step core noPartner) :
    Recorded t 0x32 0xFFFF [step, core, noPartner] :=
  raise_recorded (e := { code := 0x32, cls := 2, source := 16, core := 0xFFFF, pmask := pmaskOf p, fpid := d.fpidOf p,
                         detail := [step, core, noPartner] }) (by simp) ht

/-- The divergence flag stays when the partition stops. -/
theorem diverge_lsDiv (d : Dev) (p step core noPartner : Nat) : ((d.diverge p step core noPartner).part p).lsDiv = (d.part p).lsDiv := by
  rw [Dev.diverge, part_raise_partClass rfl]
  split <;> rfl

/-! ### MSG_LOCKSTEP_RECORD, LS_WAIT_EXPIRE -/

section Records
variable {s : State} {p : PartId} {step : Nat} {l : LockStep} (hl : (s.dev.part p).lock = some l)
include hl

/-- A first record of a step is kept and compared. -/
theorem exec_msgLockstepRecord (digs : List Nat) (hc : step ∉ l.compared) (ht : ∀ x ∈ l.theirs, x.1 ≠ step) :
    exec (.msgLockstepRecord p step digs) s = .next { s with
      dev := (s.dev.updPart p (fun t => { t with lock := some (l.heard step digs) })).compareStep p step } := by
  refine (show execMsgLockstepRecord p step digs s = _ from lift_of_eq ?_)
  simp only [hl]
  refine if_neg ?_
  simp only [Bool.or_eq_true, List.contains_iff_mem, List.any_eq_true, beq_iff_eq, not_or]
  exact ⟨hc, fun ⟨x, hx, he⟩ => ht x hx he⟩

theorem exec_lsWaitExpire (hdead : (s.dev.part p).dead = false)
    (hlate : ∃ x ∈ l.own, x.1 = step ∧ x.2.1 + l.wait ≤ s.dev.turn.now.toNat) :
    exec (.lsWaitExpire p step) s = .next { s with dev := s.dev.diverge p step 0xFFFF 1 } := by
  refine (show execLsWaitExpire p step s = _ from lift_of_eq ?_)
  simp only [hl]
  exact if_pos (by simpa [hdead] using hlate)

end Records

/-- Settles O32: the record is kept beside the own one, and the comparison takes both away or stops the partition. -/
theorem lockstepRecordsAreCompared : Obligations.LockstepRecordsAreCompared := by
  intro p step digs s l
  dsimp only
  intro hl
  refine ⟨fun hc ht => ?record, fun hdead hlate => ?expires⟩
  case expires =>
    exact ⟨_, exec_lsWaitExpire hl hdead hlate, rfl, diverge_recorded s.dev p _ _ _ rfl⟩
  have hexec := exec_msgLockstepRecord hl digs hc ht
  have hlock : ((s.dev.updPart p (fun t => { t with lock := some (l.heard step digs) })).part p).lock = some (l.heard step digs) := by
    rw [Dev.part_updPart]
  have hfind := heard_find ht digs
  refine ⟨fun k tick ho => ?same, fun k tick a ho hne => ?differs, fun ho => ?waits⟩
  case same =>
    refine ⟨_, hexec, ?_⟩
    rw [compareStep_agrees hlock ho hfind rfl, updPart_updPart, heard_filter ht digs]
    exact onlyPart_updPart s p _
  case differs =>
    refine ⟨_, hexec, rfl, ?_, ?_⟩
    · rw [compareStep_differs hlock ho hfind hne, diverge_lsDiv, Dev.part_updPart]
    · exact diverge_recorded _ _ _ _ _ (compareStep_differs hlock ho hfind hne)
  case waits =>
    refine ⟨_, hexec, ?_⟩
    rw [compareStep_waits hlock ho]
    exact onlyPart_updPart s p _

end Sys2Proof.Machine

/-! ## Breaks and deadlines -/

namespace Sys2Proof.Machine

/-! ### PT_BREAK_WRITE and DL_CFG_WRITE (R221, R231, R413) -/

theorem exec_ptBreakWrite {s : State} {who : Option FnId} {p : PartId} (v : BitVec 64) (h : s.dev.mayCtrl who p = true) :
    exec (.ptBreakWrite who p v) s = .next { s with dev := s.dev.updPart p (fun t => { t with
      breakEn := v.getLsbD 63, breakStep := v.extractLsb' 0 63, brkTick := s.dev.turn.now.toNat }) } := by
  refine (show execPtBreakWrite who p v s = _ from lift_of_eq ?_)
  rw [Dev.breakWrite, if_pos h, BitVec.msb_eq_getLsbD_last]

theorem exec_ptBreakWrite_barred {s : State} {who : Option FnId} {p : PartId} (v : BitVec 64) (h : s.dev.mayCtrl who p = false) :
    exec (.ptBreakWrite who p v) s = .next s :=
  show execPtBreakWrite who p v s = _ from lift_of_eq (if_neg (by rw [h]; decide))

theorem bits_lt (v hi lo : Nat) : bits v hi lo < 2 ^ (hi + 1 - lo) := Nat.mod_lt _ (Nat.two_pow_pos _)

/-- While EN is 1 a write changes EN alone (R231). -/
theorem dlCfgNext_enabled {old : Nat} (h : bit old 63 = true) (v : Nat) : dlCfgNext old v = bits v 63 63 * 2 ^ 63 + bits old 62 0 :=
  if_pos h

/-- With EN 0 a write of legal values is taken whole (R231). -/
theorem dlCfgNext_legal {old v : Nat} (h : bit old 63 = false) (hkind : bits v 61 60 ≠ 3) (hevery : bits v 59 52 ≠ 0)
    (hphase : bits v 51 44 < bits v 59 52) (hoff : bits v 31 0 ≠ 0) : dlCfgNext old v = bits v 63 44 * 2 ^ 44 + bits v 31 0 := by
  have hfields : dlCfgNext old v = bits v 63 63 * 2 ^ 63 + bits v 62 62 * 2 ^ 62 + bits v 61 60 * 2 ^ 60 + bits v 59 52 * 2 ^ 52 +
      bits v 51 44 * 2 ^ 44 + bits v 31 0 := by
    simp only [dlCfgNext, h, Bool.false_eq_true, if_false, if_neg hkind, if_neg hevery, if_pos hphase, if_neg hoff]
  rw [hfields]
  simp only [bits, Nat.reduceAdd, Nat.reduceSub, Nat.reducePow]
  omega

theorem lk_dlCfg {t : PartTime} {n v x : Nat} (h : dlCfgNext (t.cfg n) v = x) (hx : x < 2 ^ 64) :
    (lk (0 : BitVec 64) (up t.dlCfg n (BitVec.ofNat 64 (dlCfgNext (t.cfg n) v))) n).toNat = x := by
  rw [lk_up_same, h, BitVec.toNat_ofNat, Nat.mod_eq_of_lt hx]

theorem exec_dlCfgWrite (p : PartId) (n : MonId) (v : BitVec 64) (s : State) : exec (.dlCfgWrite p n v) s = .next { s with
    dev := s.dev.updPart p (fun t => { t with dlCfg := up t.dlCfg n (BitVec.ofNat 64 (dlCfgNext (t.cfg n) v.toNat)) }) } := rfl

/-! ### Misses (R232, R233) -/

/-- An error that resets nothing and is not of class STEP leaves the missed deadlines of every partition. -/
theorem dlMiss_raise {d : Dev} {e : Err} (h : e.cls = 2 ∨ e.cls = 0) (q : Nat) : ((d.raise e).part q).dlMiss = (d.part q).dlMiss := by
  rcases h with h | h
  · rw [part_raise_partClass h]
    split <;> rfl
  · obtain ⟨es, fs, o, he, -⟩ := raise_log h
    rw [he]; rfl

/-- The error of a missed deadline: class PARTITION where the policy is HALT_PARTITION (R233). -/
def Dev.missErr (d : Dev) (p n st : Nat) : Err :=
  { code := 0x30, cls := if bit ((d.part p).cfg n) 62 then 2 else 0, source := 16, core := 0xFFFF, pmask := pmaskOf p,
    fpid := d.fpidOf p, detail := [n, st] }

theorem missErr_cls (d : Dev) (p n st : Nat) : (d.missErr p n st).cls = 2 ∨ (d.missErr p n st).cls = 0 := by
  unfold Dev.missErr
  dsimp only
  split <;> simp

/-- A miss sets its bit, and its error is raised. -/
theorem dlMiss_eq (d : Dev) (p n st tick : Nat) : ∃ b : PartTime, d.dlMiss p n st tick = (d.setPart p b).raise (d.missErr p n st) ∧
    b.dlMiss = (d.part p).dlMiss ||| BitVec.ofNat 64 (2 ^ n) := ⟨_, rfl, rfl⟩

theorem dlMiss_recorded (d : Dev) (p n st tick : Nat) {t : State} (ht : t.dev = d.dlMiss p n st tick) : Recorded t 0x30 0xFFFF [n, st] := by
  obtain ⟨b, hmiss, -⟩ := dlMiss_eq d p n st tick
  have hcls : (d.missErr p n st).cls ≠ 3 := by rcases missErr_cls d p n st with h | h <;> rw [h] <;> decide
  exact raise_recorded hcls (ht.trans hmiss)

theorem dlMiss_bit (d : Dev) (p n st tick : Nat) :
    ((d.dlMiss p n st tick).part p).dlMiss = (d.part p).dlMiss ||| BitVec.ofNat 64 (2 ^ n) := by
  obtain ⟨b, hmiss, hb⟩ := dlMiss_eq d p n st tick
  rw [hmiss, dlMiss_raise (missErr_cls d p n st), Dev.part_setPart, hb]

/-! ### DEADLINE_MONITOR_TEST -/

section Due
variable {d : Dev} {p n : Nat}

theorem dlTest_notDue (h : d.dlDue p n = none) : d.dlTest p n = d := by
  rw [Dev.dlTest, h]

theorem foldl_dlTest_notDue {l : List Nat} (h : ∀ i ∈ l, d.dlDue p i = none) : l.foldl (fun d i => d.dlTest p i) d = d := by
  induction l with
  | nil => rfl
  | cons i l ih =>
    obtain ⟨hi, hl⟩ := List.forall_mem_cons.mp h
    rw [List.foldl_cons, dlTest_notDue hi, ih hl]

variable {st : Nat} (h : (d.part p).armedAt n d.turn.now.toNat = some st)
include h

/-- In the first cycle of tick D the monitor is due. -/
theorem dlDue_of_armedAt : d.dlDue p n = some (st, d.turn.now.toNat) := by
  simp only [Dev.dlDue, h]

theorem dlTest_occurred (he : d.dlEvent p n st = true) : d.dlTest p n = d := by
  simp only [Dev.dlTest, dlDue_of_armedAt h, he, Bool.true_or, if_true]

theorem dlTest_missed (he : d.dlEvent p n st = false) (hm : (n, st) ∉ (d.part p).missed) :
    d.dlTest p n = d.dlMiss p n st d.turn.now.toNat := by
  simp only [Dev.dlTest, dlDue_of_armedAt h, he, Bool.false_or, List.contains_iff_mem, if_neg hm]

end Due

/-- In a tick's first cycle a started Mould's monitors are tested, those of lower number first. -/
theorem exec_deadlineMonitorTest {s : State} {p : PartId} {m : Mould} (hm : s.dev.mouldOf p = some m) (hcyc : s.dev.cyc = 0)
    (hhalt : (s.dev.part p).dlHalt = none) (ht0 : m.t0 ≠ 0) (hph : 5 ≤ m.phase) (n : MonId) :
    exec (.deadlineMonitorTest p n) s = .next { s with
      dev := ((List.range n.val).foldl (fun d i => d.dlTest p i) s.dev).dlTest p n } := by
  refine (show execDeadlineMonitorTest p n s = _ from lift_of_eq ?_)
  simp only [hm, hhalt]
  rw [if_neg (by simp [hcyc, ht0, hph]), List.range_succ, List.foldl_append]
  rfl

/-! ### DEADLINE_EVENT_LATE -/

/-- DL_LAST with LATE set. -/
def lateWord (old ticks : Nat) : BitVec 64 := BitVec.ofNat 64 (old / 2 ^ 32 * 2 ^ 32 + ticks % 2 ^ 32)

theorem lateWord_halves (old : BitVec 64) (ticks : Nat) :
    (lateWord old.toNat ticks).toNat % 2 ^ 32 = ticks % 2 ^ 32 ∧ (lateWord old.toNat ticks).toNat / 2 ^ 32 = old.toNat / 2 ^ 32 := by
  have hold := old.isLt
  rw [lateWord, BitVec.toNat_ofNat]
  omega

/-- The block with LATE of monitor n written and its wait gone. -/
def PartTime.lateDone (t : PartTime) (n ticks : Nat) : PartTime :=
  { t with late := t.late.filter (fun y => y.mon ≠ n), dlLast := up t.dlLast n (lateWord (t.last n).toNat ticks) }

theorem exec_deadlineEventLate {s : State} {p : PartId} {n : MonId} {x : LateMon}
    (hx : (s.dev.part p).late.find? (fun y => y.mon == n.val) = some x) (he : s.dev.dlEvent p n x.step = true) :
    exec (.deadlineEventLate p n) s = .next { s with
      dev := s.dev.updPart p (fun t => t.lateDone n (s.dev.turn.now.toNat - x.tick)) } := by
  refine (show execDeadlineEventLate p n s = _ from lift_of_eq ?_)
  simp only [hx, if_pos he]
  rfl

/-- Settles O31: each write and each event is one change of a time block; a miss raises its error besides. -/
theorem breaksAndDeadlines : Obligations.BreaksAndDeadlines := by
  refine ⟨fun who p n v s => ⟨fun h => ?broken, exec_ptBreakWrite_barred v, ?cfg⟩,
    fun p n s m st => ⟨fun hm hcyc hhalt ht0 hph harmed => ⟨fun hlow he hnew => ?missed, fun hlow he => ?occurred, fun l hl => ?order⟩,
      fun x hx he => ?late⟩⟩
  case broken => exact ⟨_, exec_ptBreakWrite v h, onlyPart_updPart s p _⟩
  case cfg =>
    refine ⟨_, _, exec_dlCfgWrite p n v s, onlyPart_updPart s p _, fun i hi => lk_up_ne _ _ hi _, fun hen => ?_,
      fun hen hkind hevery hphase hoff => ?_⟩
    · refine lk_dlCfg (dlCfgNext_enabled hen v.toNat) ?_
      have h1 := bits_lt v.toNat 63 63
      have h2 := bits_lt (lk (0 : BitVec 64) (s.dev.part p).dlCfg n).toNat 62 0
      simp only [Nat.reduceAdd, Nat.reduceSub, Nat.reducePow] at h1 h2
      omega
    · refine lk_dlCfg (dlCfgNext_legal hen hkind hevery hphase hoff) ?_
      have h1 := bits_lt v.toNat 63 44
      have h2 := bits_lt v.toNat 31 0
      simp only [Nat.reduceAdd, Nat.reduceSub, Nat.reducePow] at h1 h2
      omega
  case missed =>
    have hexec := exec_deadlineMonitorTest hm hcyc hhalt ht0 hph n
    rw [foldl_dlTest_notDue fun i hi => hlow i (List.mem_range.mp hi), dlTest_missed harmed he hnew] at hexec
    exact ⟨_, hexec, rfl, dlMiss_recorded s.dev p n st _ rfl, dlMiss_bit s.dev p n st _⟩
  case occurred =>
    have hexec := exec_deadlineMonitorTest hm hcyc hhalt ht0 hph n
    rwa [foldl_dlTest_notDue fun i hi => hlow i (List.mem_range.mp hi), dlTest_occurred harmed he] at hexec
  case order =>
    refine ⟨_, exec_deadlineMonitorTest hm hcyc hhalt ht0 hph l, ?_⟩
    rw [exec_deadlineMonitorTest hm hcyc hhalt ht0 hph n, ← hl, List.range_succ, List.foldl_append]
    rfl
  case late =>
    refine ⟨_, _, exec_deadlineEventLate hx he, onlyPart_updPart s p _, ?_⟩
    rw [lk_up_same]
    exact lateWord_halves _ _

end Sys2Proof.Machine

/-! ## Messages between the members of a fabric partition -/

namespace Sys2Proof.Machine

/-! ### Moulds of which packets have gone out (FAB_VLAST) -/

theorem Mould.AsSent.refl (m : Mould) : m.AsSent m := rfl

theorem Mould.AsSent.trans {m k j : Mould} (h : k.AsSent m) (g : j.AsSent k) : j.AsSent m := by
  unfold Mould.AsSent at h g ⊢
  rw [g, h]

/-- Each Mould is as before, but for the ticks of its last packets. -/
def MouldsAsSent (ms ks : List Mould) : Prop := List.Forall₂ (fun m k => k.AsSent m) ms ks

theorem MouldsAsSent.refl (ms : List Mould) : MouldsAsSent ms ms := List.forall₂_same.mpr fun m _ => .refl m

theorem MouldsAsSent.trans {ms ks js : List Mould} (h : MouldsAsSent ms ks) (g : MouldsAsSent ks js) : MouldsAsSent ms js := by
  induction h generalizing js with
  | nil => exact g
  | cons hm _ ih =>
    cases g with
    | cons hk hr => exact .cons (hm.trans hk) (ih hr)

/-- A search that does not look at those ticks finds the same Mould. -/
theorem MouldsAsSent.find? {ms ks : List Mould} {P : Mould → Bool} (hP : ∀ m v, P { m with vlast := v } = P m) (h : MouldsAsSent ms ks)
    {m : Mould} (hm : ms.find? P = some m) : ∃ k, ks.find? P = some k ∧ k.AsSent m := by
  induction h with
  | nil => cases hm
  | @cons a b _ _ hab _ ih =>
    have hb : P b = P a := by rw [hab, hP]
    rw [List.find?_cons] at hm
    rw [List.find?_cons, hb]
    cases hpa : P a with
    | true =>
      rw [hpa] at hm
      cases hm
      exact ⟨b, rfl, hab⟩
    | false =>
      rw [hpa] at hm
      exact ih hm

/-! ### What messages change -/

/-- Messages and packets between members went out, and nothing else happened: the ports, what left the device, the counts of the
messages, the free choices and the ticks of the last packets changed. -/
structure Dev.MessagesSent (d e : Dev) : Prop where
  rest : ∃ ms ps mo fr o, e = { d with moulds := ms, ports := ps, crm := { d.crm with mgmtOut := mo }, free := fr, out := o }
  moulds : MouldsAsSent d.moulds e.moulds

theorem Dev.MessagesSent.refl (d : Dev) : d.MessagesSent d := ⟨⟨_, _, _, _, _, rfl⟩, .refl _⟩

theorem Dev.MessagesSent.trans {d e g : Dev} (h : d.MessagesSent e) (k : e.MessagesSent g) : d.MessagesSent g := by
  refine ⟨?_, h.moulds.trans k.moulds⟩
  obtain ⟨⟨_, _, _, _, _, rfl⟩, -⟩ := h
  obtain ⟨⟨ms, ps, mo, fr, o, rfl⟩, -⟩ := k
  exact ⟨ms, ps, mo, fr, o, rfl⟩

theorem Dev.MessagesSent.parts {d e : Dev} (h : d.MessagesSent e) : e.parts = d.parts := by
  obtain ⟨⟨_, _, _, _, _, rfl⟩, -⟩ := h; rfl

theorem Dev.MessagesSent.cores {d e : Dev} (h : d.MessagesSent e) : e.cores = d.cores := by
  obtain ⟨⟨_, _, _, _, _, rfl⟩, -⟩ := h; rfl

theorem Dev.MessagesSent.net {d e : Dev} (h : d.MessagesSent e) : e.net = d.net := by
  obtain ⟨⟨_, _, _, _, _, rfl⟩, -⟩ := h; rfl

theorem Dev.MessagesSent.part {d e : Dev} (h : d.MessagesSent e) (q : Nat) : e.part q = d.part q :=
  congrArg (lk PartTime.reset · q) h.parts

theorem Dev.PortsSent.messagesSent {d e : Dev} : d.PortsSent e → d.MessagesSent e := by
  rintro ⟨ps, o, rfl⟩; exact ⟨⟨_, ps, _, _, o, rfl⟩, .refl _⟩

theorem emit_messagesSent (d : Dev) (o : Out) : d.MessagesSent (d.emit o) := ⟨⟨_, _, _, _, _, rfl⟩, .refl _⟩

theorem foldl_messagesSent {α : Type} {f : Dev → α → Dev} (hf : ∀ (d : Dev) x, d.MessagesSent (f d x)) (l : List α) (d : Dev) :
    d.MessagesSent (l.foldl f d) :=
  List.foldlRecOn (motive := d.MessagesSent) _ _ (.refl d) fun e he x _ => he.trans (hf e x)

theorem stampV_messagesSent (d : Dev) (m : Mould) (v : Nat) : d.MessagesSent (d.stampV m v) := by
  refine ⟨⟨_, _, _, _, _, rfl⟩, List.forall₂_map_right_iff.mpr (List.forall₂_same.mpr fun k _ => ?_)⟩
  split <;> exact rfl

theorem transfer_messagesSent (d : Dev) (fpid epoch self u dst cls : Nat) (bs : List Byte) :
    d.MessagesSent (d.transfer fpid epoch self u dst cls bs) :=
  foldl_messagesSent (fun e _ =>
    have hfree : e.MessagesSent { e with free := e.free + 1 } := ⟨⟨_, _, _, _, _, rfl⟩, .refl _⟩
    hfree.trans (enqueue_portsSent _ _ _).messagesSent) _ d

theorem mgmtPacket_messagesSent (d : Dev) (via : Option Nat) (fpid dst mtype : Nat) (answer : Bool) (seq arg : Nat) (body : List Byte) :
    d.MessagesSent (d.mgmtPacket via fpid dst mtype answer seq arg body) := by
  unfold Dev.mgmtPacket
  split
  · exact .refl d
  · split
    · exact .refl d
    · exact (stampV_messagesSent d _ _).trans (transfer_messagesSent _ _ _ _ _ _ _ _)

theorem sendMgmtVia_messagesSent (d : Dev) (via : Option Nat) (fpid dst mtype arg : Nat) (body : List Byte) :
    d.MessagesSent (d.sendMgmtVia via fpid dst mtype arg body) := by
  unfold Dev.sendMgmtVia
  extract_lets n crm e
  have he : d.MessagesSent e := ⟨⟨_, _, _, _, _, rfl⟩, .refl _⟩
  exact he.trans (mgmtPacket_messagesSent e via fpid dst mtype false n arg body)

theorem sendMgmt_messagesSent (d : Dev) (fpid dst mtype arg : Nat) : d.MessagesSent (d.sendMgmt fpid dst mtype arg) :=
  sendMgmtVia_messagesSent _ _ _ _ _ _ _

end Sys2Proof.Machine

/-! ## Boundaries -/

namespace Sys2Proof.Machine

/-! ### The record sent at a boundary (R236) -/

/-- Without the partner's record a step is not compared. -/
theorem compareStep_alone {d : Dev} {p step : Nat} {l : LockStep} (hl : (d.part p).lock = some l) (h : ∀ x ∈ l.theirs, x.1 ≠ step) :
    d.compareStep p step = d := by
  have hnone : l.theirs.find? (fun x => x.1 == step) = none := List.find?_eq_none.mpr fun x hx => by simpa using h x hx
  simp only [Dev.compareStep, hl, hnone]
  split
  next _ hb => cases hb
  next => rfl

/-- Nothing but the lock-step entry of partition p and what messages change is other than before. -/
structure Dev.LockSent (d : Dev) (p : Nat) (e : Dev) : Prop where
  sent : ∃ ps, ({ d with parts := ps } : Dev).MessagesSent e
  other : ∀ q, q ≠ p → e.part q = d.part q
  own : ∃ x, e.part p = { d.part p with lock := x }

theorem Dev.LockSent.refl (d : Dev) (p : Nat) : d.LockSent p d := ⟨⟨d.parts, .refl d⟩, fun _ _ => rfl, (d.part p).lock, rfl⟩

theorem sendLockRecord_lockSent {d : Dev} {p step : Nat} (h : ∀ l, (d.part p).lock = some l → ∀ x ∈ l.theirs, x.1 ≠ step) :
    d.LockSent p (d.sendLockRecord p step) := by
  cases hl : (d.part p).lock with
  | none => rw [sendLockRecord_alone hl step]; exact .refl d p
  | some l =>
    simp only [Dev.sendLockRecord, hl]
    generalize hown : ({ l with own := l.own ++ [(step, d.turn.now.toNat, d.stepDigests p)] } : LockStep) = n
    generalize hemit : (d.updPart p (fun t => { t with lock := some n })).emit (.lockRecord p (l.port - 4) l.partner step (d.stepDigests p)) = g
    generalize hsent : Option.elim _ _ _ = e
    have he : (d.updPart p (fun t => { t with lock := some n })).MessagesSent e := by
      have hg : (d.updPart p (fun t => { t with lock := some n })).MessagesSent g := hemit ▸ emit_messagesSent _ _
      refine hg.trans ?_
      rw [← hsent]
      cases g.mouldOf p with
      | none => exact .refl g
      | some m => exact sendMgmtVia_messagesSent _ _ _ _ _ _ _
    have hlock : (e.part p).lock = some n := by rw [he.part, Dev.part_updPart]
    rw [compareStep_alone hlock (by rw [← hown]; exact h l hl)]
    exact ⟨⟨_, he⟩, fun q hq => (he.part q).trans (Dev.part_updPart_ne d hq _), some n, (he.part p).trans (Dev.part_updPart d p _)⟩

/-! ### What the epoch and the arbiters leave of the cores (R283, R356) -/

theorem switchCheck_cores (d : Dev) (m : Mould) : (d.switchCheck m).cores = d.cores := by
  unfold Dev.switchCheck
  split
  · rfl
  · split
    · exact (complete_hostsTold _ _ _ _ _).cores
    · rfl

theorem switchEpoch_cores (d : Dev) (m : Mould) (n : Nat) : (d.switchEpoch m n).cores = d.cores := by
  unfold Dev.switchEpoch
  split
  · rfl
  · split
    · extract_lets e
      have he : e.cores = d.cores := rfl
      split
      · exact (switchCheck_cores _ m).trans he
      · exact (sendMgmt_cores _ _ _ _ _).trans he
    · rfl

theorem reseedArbs_cores (d : Dev) (p n : Nat) : (d.reseedArbs p n).cores = d.cores :=
  List.foldlRecOn (motive := fun e : Dev => e.cores = d.cores) _ _ rfl fun e he a _ => by
    split
    · exact he
    · exact he

/-! ### Taking a boundary (R220) -/

/-- An entry that is listed reads as its key's change of it; one that is not stays the default. -/
theorem lk_map_key {α : Type} (z : α) (g : Nat → α → α) (k : Nat) (m : SMap α) :
    lk z (m.map (fun e => (e.1, g e.1 e.2))) k = g k (lk z m k) ∨ lk z m k = z ∧ lk z (m.map (fun e => (e.1, g e.1 e.2))) k = z := by
  induction m with
  | nil => exact .inr ⟨rfl, rfl⟩
  | cons e r ih =>
    by_cases h : k = e.1
    · subst h; exact .inl (by simp [lk])
    · simpa [lk, h] using ih

/-- The sequencers of partition p's cores start their step. -/
def Dev.coresStarted (d : Dev) (p : Nat) : SMap Core := d.cores.map (fun e => (e.1, if d.partOf e.1 = p then e.2.startStep else e.2))

theorem lk_coresStarted_out {d : Dev} {p k : Nat} (h : d.partOf k ≠ p) : lk Core.reset (d.coresStarted p) k = d.core k := by
  rcases lk_map_key Core.reset (fun k c => if d.partOf k = p then c.startStep else c) k d.cores with hk | ⟨hold, hnew⟩
  · exact hk.trans (if_neg h)
  · exact hnew.trans hold.symm

/-- A sequencer that waited runs (R163). -/
theorem lk_coresStarted_run {d : Dev} {p k : Nat} (h : d.partOf k = p) {q : SeqId} (hq : (d.seq k q).st = .stepWait) :
    ((lk Core.reset (d.coresStarted p) k).seq q).st = .run := by
  rcases lk_map_key Core.reset (fun k c => if d.partOf k = p then c.startStep else c) k d.cores with hk | ⟨hold, -⟩
  · have hstart : lk Core.reset (d.coresStarted p) k = (d.core k).startStep := hk.trans (if_pos h)
    rw [hstart]
    cases q
    · have ha : (d.core k).a.st = .stepWait := hq
      simp [Core.startStep, Core.seq, Seq.startStep, ha]
    · have he : (d.core k).e.st = .stepWait := hq
      simp [Core.startStep, Core.seq, Seq.startStep, he]
  · have hidle : (d.seq k q).st = .idle := by
      have hcore : d.core k = Core.reset := hold
      rw [Dev.seq, hcore]; cases q <;> rfl
    rw [hidle] at hq; cases hq

/-- What a partition that takes its boundary leaves: its block names the step, its sequencers have started. -/
theorem takeBoundary_spec {d : Dev} {p : Nat} (m : Mould) (hdead : (d.part p).dead = false)
    (hlock : ∀ l, (d.part p).lock = some l → ∀ x ∈ l.theirs, x.1 + 1 ≠ (d.part p).next) :
    (∃ x, (d.takeBoundary p m).part p = { (d.part p).taken with lock := x }) ∧
      (∀ q, q ≠ p → (d.takeBoundary p m).part q = d.part q) ∧ (d.takeBoundary p m).cores = d.coresStarted p := by
  unfold Dev.takeBoundary
  extract_lets t n d0 turn d1 d2 errs d3 d4
  have h0 : d.LockSent p d0 := by
    unfold d0
    split
    · exact .refl d p
    next hn => exact sendLockRecord_lockSent fun l hl x hx heq => hlock l hl x hx (by rw [heq]; exact Nat.succ_pred_eq_of_ne_zero hn)
  clear_value d0
  obtain ⟨⟨ps, hsent⟩, hother, x, hown⟩ := h0
  have hdead0 : (d0.part p).dead = false := by rw [hown]; exact hdead
  rw [if_neg (by rw [hdead0]; decide)]
  have hcores : d2.cores = d.coresStarted p := by
    have hpart : ∀ k, d0.partOf k = d.partOf k := fun k => by simp only [Dev.partOf, Dev.partPos, Dev.posOf, Dev.good, hsent.net]
    simp only [d2, d1, Dev.updPart_cores, Dev.coresStarted, hpart, hsent.cores]
  have hpart : d2.part p = { (d.part p).taken with lock := x } := by
    have h1 : d1.part p = { d.part p with lock := x } := hown
    rw [Dev.part_updPart, h1]; rfl
  have hother2 : ∀ q, q ≠ p → d2.part q = d.part q := fun q hq => (Dev.part_updPart_ne d1 hq _).trans (hother q hq)
  have h4 : d2.SameTimes d4 := by
    have h3 : d2.SameTimes d3 := ⟨rfl, rfl, fun _ => rfl⟩
    exact (h3.trans (reseedArbs_sameTimes d3 p n)).trans (updMould_sameTimes _ _ fun _ => rfl)
  have hcores4 : d4.cores = d2.cores := reseedArbs_cores d3 p n
  have hend : ∀ g : Dev, g.parts = d2.parts → g.cores = d2.cores →
      (∃ x, g.part p = { (d.part p).taken with lock := x }) ∧ (∀ q, q ≠ p → g.part q = d.part q) ∧ g.cores = d.coresStarted p := by
    intro g hp hc
    have hg : ∀ q, g.part q = d2.part q := fun q => congrArg (lk PartTime.reset · q) hp
    exact ⟨⟨x, (hg p).trans hpart⟩, fun q hq => (hg q).trans (hother2 q hq), hc.trans hcores⟩
  split
  · refine hend _ ?_ ((switchEpoch_cores _ m n).trans hcores4)
    exact (switchEpoch_sameTimes _ m n).parts.trans h4.parts
  · exact hend d4 h4.parts hcores4

/-! ### STEP_BOUNDARY (R220, R221, R288, R382) -/

/-- What a boundary that is due and that nothing gates does. -/
def Dev.atBoundary (d : Dev) (p : Nat) (m : Mould) : Dev :=
  if m.heldAt (d.part p).next then
    let d := d.updPart p (fun t => { t with st := .stopped })
    if (partsOf m.pmask).all (fun q => (d.part q).st == .stopped) then d.updMould m.pmask (fun m => { m with heldFlag := true }) else d
  else if (d.part p).breakAt (d.part p).next then
    if (d.part p).atBreak then d else d.updPart p (fun t => { t with st := .stopped, breakHit := true, atBreak := true })
  else if (d.part p).atBreak && decide (d.turn.now.toNat ≤ (d.part p).brkTick) then d
  else if d.freqHeld (d.part p) then d.updPart p (fun t => { t with st := .held })
  else d.takeBoundary p m

section Boundary
variable {s : State} {p : PartId} {m : Mould} (hm : s.dev.mouldOf p = some m) (hcyc : s.dev.cyc = 0) (hdue : s.dev.boundaryDue p m = true)
  (hgates : s.dev.boundaryGates p m = true)
include hm hcyc hdue hgates

theorem exec_stepBoundary : exec (.stepBoundary p) s = .next { s with dev := s.dev.atBoundary p m } := by
  refine (show execStepBoundary p s = _ from lift_of_eq ?_)
  simp only [hm]
  exact if_neg (by simp [hcyc, hdue, hgates])

/-- A hold stops the partition before the boundary (R288). -/
theorem stepBoundary_holds (hheld : m.heldAt (s.dev.part p).next = true) : ∃ t, exec (.stepBoundary p) s = .next t ∧
    t.dev.cores = s.dev.cores ∧ t.mem = s.mem ∧ t.dev.part p = { s.dev.part p with st := .stopped } := by
  refine ⟨_, exec_stepBoundary hm hcyc hdue hgates, ?_⟩
  rw [Dev.atBoundary, if_pos hheld]
  have hstop := Dev.part_updPart s.dev p (fun t => { t with st := .stopped })
  dsimp only
  split
  · exact ⟨rfl, rfl, hstop⟩
  · exact ⟨rfl, rfl, hstop⟩

variable (hheld : m.heldAt (s.dev.part p).next = false)
include hheld

/-- A break stops it there once (R221). -/
theorem stepBoundary_breaks (hbreak : (s.dev.part p).breakAt (s.dev.part p).next = true) (hat : (s.dev.part p).atBreak = false) :
    ∃ t, exec (.stepBoundary p) s = .next t ∧ OnlyPart s t p { s.dev.part p with st := .stopped, breakHit := true, atBreak := true } := by
  refine ⟨_, exec_stepBoundary hm hcyc hdue hgates, ?_⟩
  rw [Dev.atBoundary, if_neg (Bool.eq_false_iff.mp hheld), if_pos hbreak, if_neg (Bool.eq_false_iff.mp hat)]
  exact onlyPart_updPart s p _

variable (hbreak : (s.dev.part p).breakAt (s.dev.part p).next = false)
include hbreak

/-- A frequency change holds it (R382). -/
theorem stepBoundary_waits (hat : (s.dev.part p).atBreak = false) (hfreq : s.dev.freqHeld (s.dev.part p) = true) :
    ∃ t, exec (.stepBoundary p) s = .next t ∧ OnlyPart s t p { s.dev.part p with st := .held } := by
  refine ⟨_, exec_stepBoundary hm hcyc hdue hgates, ?_⟩
  rw [Dev.atBoundary, if_neg (Bool.eq_false_iff.mp hheld), if_neg (Bool.eq_false_iff.mp hbreak), if_neg (by simp [hat]), if_pos hfreq]
  exact onlyPart_updPart s p _

/-- Else it is taken. -/
theorem exec_stepBoundary_takes (hat : (s.dev.part p).atBreak = true → (s.dev.part p).brkTick < s.dev.turn.now.toNat)
    (hfreq : s.dev.freqHeld (s.dev.part p) = false) : exec (.stepBoundary p) s = .next { s with dev := s.dev.takeBoundary p m } := by
  have hgo : ¬ ((s.dev.part p).atBreak && decide (s.dev.turn.now.toNat ≤ (s.dev.part p).brkTick)) = true := by
    simpa using hat
  rw [exec_stepBoundary hm hcyc hdue hgates, Dev.atBoundary, if_neg (Bool.eq_false_iff.mp hheld),
    if_neg (Bool.eq_false_iff.mp hbreak), if_neg hgo, if_neg (Bool.eq_false_iff.mp hfreq)]

end Boundary

/-- Settles O30: the boundary is held, broken, put off or taken, in this order; taking it starts the partition's sequencers. -/
theorem boundaryStartsTheStep : Obligations.BoundaryStartsTheStep := by
  intro p s m
  dsimp only
  intro hm hcyc hdue hgates
  refine ⟨fun hheld hbreak hat hfreq hdead hlock => ?taken, stepBoundary_holds hm hcyc hdue hgates,
    stepBoundary_breaks hm hcyc hdue hgates, stepBoundary_waits hm hcyc hdue hgates⟩
  obtain ⟨⟨x, hown⟩, hother, hcores⟩ := takeBoundary_spec m hdead hlock
  have hcore (k : Nat) : (s.dev.takeBoundary p m).core k = lk Core.reset (s.dev.coresStarted p) k := congrArg (lk Core.reset · k) hcores
  refine ⟨_, exec_stepBoundary_takes hm hcyc hdue hgates hheld hbreak hat hfreq, rfl, rfl, ?_, ?_, ?_, fun k q hk hq => ?_,
    fun k hk => (hcore k).trans (lk_coresStarted_out hk), hother⟩
  · rw [hown]; rfl
  · rw [hown]; rfl
  · rw [hown]; rfl
  · exact (congrArg (fun c => (Core.seq c q).st) (hcore k)).trans (lk_coresStarted_run hk hq)

end Sys2Proof.Machine

/-! ## The Turn and its parent -/

namespace Sys2Proof.Machine

/-! ### Rounding (R223, R226; log entry 23) -/

theorem b2n_le_one (b : Bool) : b2n b ≤ 1 := by cases b <;> decide

/-- θ is half of its double, rounded one way or the other. -/
theorem thetaOf_rounds (t1 t2 t3 t4 : Nat) (up_ : Bool) : (2 * thetaOf t1 t2 t3 t4 up_ - theta2 t1 t2 t3 t4).natAbs ≤ 1 := by
  have hb := b2n_le_one up_
  rw [thetaOf, Int.fdiv_eq_ediv_of_nonneg _ (by decide)]
  omega

/-- A number of 80 bits is read back from the Turn as it was written (R217). -/
theorem units_setUnits (t : Turn) {u : Nat} (h : u < 2 ^ 80) : (t.setUnits u).units = u := by
  simp only [Turn.units, Turn.setUnits, BitVec.toNat_ofNat]
  omega

/-! ### SYNC_EXCHANGE_SEND (R222) -/

/-- On a board link one control flit goes out as it is. -/
theorem sendCtrl_boardLink (d : Dev) {u : Nat} (h : u < 7) (ctype arg reason : Nat) (data : List Byte) :
    d.sendCtrl u none ctype arg reason data = d.emit (.flit u ((d.port u).stamp false (ctrlFlit false ctype 0 arg reason data))) := by
  have hboard : decide (7 ≤ u) = false := decide_eq_false (Nat.not_le.mpr h)
  rw [Dev.sendCtrl, hboard, Dev.ctrlOuts, if_pos h]
  rfl

section Send
variable {s : State} {u : PortId} (hrst : s.dev.rst = false) (hsync : (s.dev.port u).syncs = true)
include hrst hsync

/-- The Turn of a device that has just sent a sync word on port u: it has chosen its parent anew. -/
def Dev.wordSent (d : Dev) (u : Nat) : Turn := { d.chooseParent.turn with lastSync := up d.turn.lastSync u d.turn.now.toNat }

theorem exec_syncExchangeSend_due (hdue : ∀ e, s.dev.turn.lastSync.find? (fun x => x.1 == u.val) = some e → e.2 + 4096 ≤ s.dev.turn.now.toNat) :
    exec (.syncExchangeSend u) s = .next { s with
      dev := ({ s.dev with turn := s.dev.wordSent u } : Dev).sendCtrl u none 1 0 0 (syncData s.dev.turn s.dev.bestCand) } := by
  refine (show execSyncExchangeSend u s = _ from lift_of_eq ?_)
  exact if_neg (by simpa [hrst, hsync, Option.all_eq_true] using hdue)

end Send

theorem exec_syncExchangeSend_early {s : State} {u : PortId} {e : Nat × Nat}
    (he : s.dev.turn.lastSync.find? (fun x => x.1 == u.val) = some e) (hearly : s.dev.turn.now.toNat < e.2 + 4096) :
    exec (.syncExchangeSend u) s = .next s := by
  refine (show execSyncExchangeSend u s = _ from lift_of_eq ?_)
  exact if_pos (by simp [he, hearly])

/-! ### The correction by θ (R223, R224, Table 12-2) -/

section Correct
variable {d : Dev} (th : Int)

theorem correct_holdover (h : d.turn.st = .holdover) : d.correct th = { d with turn := { d.turn with theta := BitVec.ofInt 32 th } } := by
  simp only [Dev.correct, h]

/-- In LISTEN the Turn is set, unless a partition has begun with it, and LOCKED follows the third exchange within 4 ns. -/
theorem correct_listen (h : d.turn.st = .listen) : ∃ x, d.correct th = { d with turn := x } ∧ x.parent = d.turn.parent ∧
    x.theta = BitVec.ofInt 32 th ∧
    (x.units : Int) = (if d.turn.begun then (d.turn.units : Int) else ((d.turn.units : Int) + th) % 2 ^ 80) ∧
    x.st = (if th.natAbs * 40 ≤ 65536 ∧ 2 ≤ d.turn.good then .locked else .listen) := by
  have hlock : (3 ≤ if th.natAbs * 40 ≤ 65536 then d.turn.good + 1 else 0) ↔ th.natAbs * 40 ≤ 65536 ∧ 2 ≤ d.turn.good := by
    split <;> omega
  simp only [Dev.correct, h, hlock]
  refine ⟨_, rfl, ?_, ?_, ?_, rfl⟩
  · dsimp only; split <;> rfl
  · dsimp only; split <;> rfl
  · by_cases hb : d.turn.begun = true
    · simp only [hb, if_true]; rfl
    · have hlt : (((d.turn.units : Int) + th) % 2 ^ 80).toNat < 2 ^ 80 := by omega
      have hset := units_setUnits { d.turn with theta := BitVec.ofInt 32 th } hlt
      simp only [hb, Bool.false_eq_true, if_false]
      refine (congrArg Int.ofNat hset).trans ?_
      exact Int.toNat_of_nonneg (Int.emod_nonneg _ (by decide))

/-- In LOCKED the Turn slews by θ. -/
theorem correct_near (h : d.turn.st = .locked) (hth : th.natAbs * 4 ≤ 65536) :
    d.correct th = { d with turn := { d.turn with theta := BitVec.ofInt 32 th, slew := th } } := by
  simp only [Dev.correct, h, if_neg (Nat.not_lt.mpr hth), gt_iff_lt]

/-- The error of a Turn that has lost its parent by more than 40 ns. -/
def syncLostErr (th : Int) : Err :=
  { code := 0x31, cls := 0, source := 16, core := 0xFFFF, pmask := 0, fpid := 0xFFFF, detail := [(BitVec.ofInt 32 th).toNat] }

theorem correct_far (h : d.turn.st = .locked) (hth : 65536 < th.natAbs * 4) : d.correct th =
    ({ d with turn := { d.turn with theta := BitVec.ofInt 32 th, slew := th, syncLost := true } } : Dev).raise (syncLostErr th) := by
  simp only [Dev.correct, h, if_pos hth, gt_iff_lt]
  rfl

theorem turn_correct_far (h : d.turn.st = .locked) (hth : 65536 < th.natAbs * 4) :
    (d.correct th).turn = { d.turn with theta := BitVec.ofInt 32 th, slew := th, syncLost := true } := by
  rw [correct_far th h hth]
  obtain ⟨es, fs, o, hlog, -⟩ := raise_log (e := syncLostErr th) rfl
  rw [hlog]

end Correct

/-! ### SYNC_WORD_RECEIVE (R222 to R224) -/

/-- The best candidate is behind port u: it is the parent, and the device is no root. -/
theorem chooseParent_port {d : Dev} {u : Nat} (h : d.bestCand.code = u + 4) : d.chooseParent = { d with
    turn := { d.turn with parent := u + 4, root := false, anchored := false, ptpLock := false } } := by
  simp [Dev.chooseParent, h]

/-- The device with a port's announcement. -/
def Dev.announced (d : Dev) (u : Nat) (a : Announce) : Dev := { d with turn := { d.turn with ann := up d.turn.ann u a } }

/-- The device whose parent is behind port u, with the announcement and the delay of the exchange. -/
def Dev.exchanged (d : Dev) (u : Nat) (a : Announce) (delta : Int) : Dev :=
  { d with free := d.free + 1
           turn := { d.turn with ann := up d.turn.ann u a, parent := u + 4, root := false, anchored := false, ptpLock := false,
                                 delta := BitVec.ofInt 32 delta } }

section Receive
variable {s : State} {u : PortId} {prio root hops : Nat} (t1 t2 t3 t4 : Nat) (hrst : s.dev.rst = false)
  (hsync : (s.dev.port u).syncs = true)
include hrst hsync

theorem exec_syncWordReceive_other (h : (s.dev.announced u ⟨prio, root, hops⟩).bestCand.code ≠ u.val + 4) :
    exec (.syncWordReceive u prio root hops t1 t2 t3 t4) s = .next { s with dev := (s.dev.announced u ⟨prio, root, hops⟩).chooseParent } := by
  refine (show execSyncWordReceive u prio root hops t1 t2 t3 t4 s = _ from lift_of_eq ?_)
  refine (if_neg (by simp [hrst, hsync])).trans ?_
  exact if_neg h

theorem exec_syncWordReceive_parent (h : (s.dev.announced u ⟨prio, root, hops⟩).bestCand.code = u.val + 4) :
    ∃ delta, exec (.syncWordReceive u prio root hops t1 t2 t3 t4) s = .next { s with
      dev := (s.dev.exchanged u ⟨prio, root, hops⟩ delta).correct
        (thetaOf t1 t2 t3 t4 ((Config.freeValue s.dev.free).getLsbD 0)) } := by
  refine ⟨deltaOf t1 t2 t3 t4 ((Config.freeValue s.dev.free).getLsbD 1), ?_⟩
  refine (show execSyncWordReceive u prio root hops t1 t2 t3 t4 s = _ from lift_of_eq ?_)
  refine (if_neg (by simp [hrst, hsync])).trans ?_
  refine (if_pos h).trans ?_
  have hchoose := chooseParent_port h
  unfold Dev.announced at hchoose
  rw [hchoose]
  rfl

end Receive

/-! ### PTP_MESSAGE (R226) -/

section Ptp
variable {s : State} {u : PortId} (ns : Nat) (hrst : s.dev.rst = false) (hroot : s.dev.turn.root = true) (hu : 7 ≤ u.val)
include hrst hroot hu

theorem exec_ptpMessage_first (ha : s.dev.turn.anchored = false) :
    ∃ x : Int, (((ns : Int) - x) * 65536 - 160 * (s.dev.turn.units : Int)).natAbs < 65536 ∧
      exec (.ptpMessage u ns) s = .next { s with dev := { s.dev with
        turn := { s.dev.turn with anchored := true, ptpLock := true, epoch := BitVec.ofInt 64 x }, free := s.dev.free + 1 } } := by
  have hb := b2n_le_one ((Config.freeValue s.dev.free).getLsbD 0)
  refine ⟨(ns : Int) - ((160 * s.dev.turn.units + 65535 * b2n ((Config.freeValue s.dev.free).getLsbD 0)) / 65536 : Nat), by omega, ?_⟩
  refine (show execPtpMessage u ns s = _ from lift_of_eq ?_)
  refine (if_neg (by simp [hrst, hroot, hu])).trans ?_
  exact if_pos (by rw [ha]; decide)

theorem exec_ptpMessage_slews (ha : s.dev.turn.anchored = true) (hst : s.dev.turn.st = .locked) {off : Int}
    (hoff : off = ((ns : Int) - s.dev.turn.epoch.toNat) * 65536 - 160 * (s.dev.turn.units : Int)) :
    ∃ x : Int, (160 * x - off).natAbs < 160 ∧ exec (.ptpMessage u ns) s = .next { s with dev := { s.dev with
      turn := { s.dev.turn with ptpLock := decide (off.natAbs ≤ 40 * 65536), slew := x }, free := s.dev.free + 1 } } := by
  have hb := b2n_le_one ((Config.freeValue s.dev.free).getLsbD 0)
  refine ⟨(off + (159 * b2n ((Config.freeValue s.dev.free).getLsbD 0) : Nat)).fdiv 160, ?_, ?_⟩
  · rw [Int.fdiv_eq_ediv_of_nonneg _ (by decide)]
    omega
  · refine (show execPtpMessage u ns s = _ from lift_of_eq ?_)
    refine (if_neg (by simp [hrst, hroot, hu])).trans ?_
    refine (if_neg (by rw [ha]; decide)).trans ?_
    subst hoff
    dsimp only
    rw [if_pos hst]

end Ptp

/-- Settles O33: a word is sent when it is due; one received is corrected by as its state says; PTP anchors a root, then slews it. -/
theorem turnFollowsItsParent : Obligations.TurnFollowsItsParent := by
  intro u s
  dsimp only
  intro hrst
  refine ⟨fun hsync => ⟨fun hdue => ?send, fun e he hearly => exec_syncExchangeSend_early he hearly⟩,
    fun prio root hops t1 t2 t3 t4 hsync => ?receive,
    fun ns hroot hu => ⟨exec_ptpMessage_first ns hrst hroot hu, fun ha hst => exec_ptpMessage_slews ns hrst hroot hu ha hst rfl⟩⟩
  case send =>
    refine ⟨s.dev.wordSent u, _, exec_syncExchangeSend_due hrst hsync hdue, rfl, fun hu => ?_, rfl, rfl, rfl, lk_up_same _ _ _ _⟩
    rw [sendCtrl_boardLink _ hu]
    exact List.mem_cons_self ..
  case receive =>
    refine ⟨thetaOf t1 t2 t3 t4 ((Config.freeValue s.dev.free).getLsbD 0), thetaOf_rounds _ _ _ _ _,
      exec_syncWordReceive_other t1 t2 t3 t4 hrst hsync, fun h hst => ?holdover, fun h hst => ?listen, fun h hst hth => ?near,
      fun h hst hth => ?far⟩
    all_goals obtain ⟨delta, hexec⟩ := exec_syncWordReceive_parent t1 t2 t3 t4 hrst hsync h
    case holdover =>
      rw [correct_holdover (d := s.dev.exchanged u ⟨prio, root, hops⟩ delta) _ hst] at hexec
      exact ⟨_, hexec, rfl, rfl, hst, rfl⟩
    case listen =>
      obtain ⟨x, hx, hparent, htheta, hunits, hst'⟩ := correct_listen (d := s.dev.exchanged u ⟨prio, root, hops⟩ delta) _ hst
      rw [hx] at hexec
      exact ⟨x, hexec, hparent, htheta, hunits, hst'⟩
    case near =>
      rw [correct_near (d := s.dev.exchanged u ⟨prio, root, hops⟩ delta) _ hst hth] at hexec
      exact ⟨_, hexec, rfl, rfl, hst, rfl⟩
    case far =>
      have hturn := turn_correct_far (d := s.dev.exchanged u ⟨prio, root, hops⟩ delta) _ hst hth
      refine ⟨_, hexec, rfl, congrArg Turn.slew hturn, congrArg Turn.syncLost hturn, (congrArg Turn.units hturn :), ?_⟩
      exact raise_recorded (e := syncLostErr _) (by simp [syncLostErr]) (correct_far _ hst hth)

end Sys2Proof.Machine

/-! ## Commands on a Mould -/

namespace Sys2Proof.Machine

/-! ### A FAILOVER that meets an uncorrected word

On the coordinator, when it is the last survivor, FAILOVER goes on to RESTART in the same command, and member 0 puts the plan of the
restarted step in place again (R287, R330). A plan buffer that begins within a word writes a part of that word; where the word holds an
uncorrected error, the write raises it again (R147), and the error, of class PARTITION, halts the sequencers that FAILOVER has just set
to IDLE (R400). The checks of a load ask for no alignment of PLAN_ADDR (R306, R314). -/

/-- A serving header whose plan buffers begin in the middle of a word. -/
def midWordHdr : ServeHdr :=
  { rows := 16, genMax := 16, vocab := 100, kvBlocks := 8, kvBt := 16, vslots := 2, nvar := 2,
    planAddr := 4, outAddr := 0x10000, seqAddr := 0x20000, kvmapAddr := 0x30000 }

/-- The fabric table of two members that are each other's partners. -/
def partnersTab : FabTab :=
  { ipver := 6, replica := true, hoplim := 1, valid := true
    recs := [⟨0, 0xFFFF, 0xFFFF, 1, 0xFFFF, false, false⟩, ⟨0, 0xFFFF, 0xFFFF, 0, 0xFFFF, true, false⟩] }

/-- Member 0 of two partners, in partition 0, which serves and keeps the plan of step 0. -/
def midWordMould : Mould :=
  { pmask := 1, fpid := 5, compat := false, weights := true, devices := 2, rindMin := 0, digest := 0, keydig := 0, phase := 6, self := 0,
    owner := some 0, members := [⟨7, 1, 0⟩, ⟨8, 1, 1⟩], nbrs := [], ranges := [], clock := [], timing := [], syncs := [], dist := [],
    tabA := partnersTab, tabB := partnersTab, epoch := 0, vlast := [], switchAt := none, switching := none, early := [], fromNbr := false,
    coming := [], newVers := [], nbrAll := [], pairLost := false, failoverRan := false, heldFlag := false, quiet := false, hold := none,
    failover := none, t0 := 400, replay := false, results := [], lastByte := 0, req := none, go := 0, stepDone := [], rerun := none,
    serve := some { Serve.fresh midWordHdr with plans := [⟨0, List.replicate 16 0⟩] }, wload := none, base := 0, baseKey := 0,
    variants := [], subs := [], images := [], image := [] }

/-- A device with this Mould in region 0 and slice 0, whose word 0 holds an uncorrected error, and with a command in function 0's ring. -/
def midWordState : State :=
  let d := Dev.reset
  { State.reset with dev := { d with
      rst := false, moulds := [midWordMould], cores := [(0, Core.reset)]
      crm := { d.crm with fwReady := true }
      net := { d.net with regOwner := [(0, 0)], slcOwner := [(0, 0)], ue := [0] }
      funcs := [(0, { Func.reset with linkUp := true, perst := false, ready := true, en := true, sqTail := 1 })] } }

/-- FAILOVER of member 1, for partition 0. -/
def failoverOf1 : BitVec 512 := BitVec.ofNat 512 (0x17 + 2 ^ 192)

theorem midWord_entry : Entry midWordState.dev 0 0x17 failoverOf1 := by
  unfold Entry CanAnswer; decide +kernel

theorem midWord_has : midWordMould.has (midWordState.dev.partOf 0) = true := by decide +kernel

/-- Does an outcome leave the A sequencer of core 0 HALTED? -/
def haltsCore0 : Host.Outcome State Fault Refusal → Bool
  | .next t => (t.dev.core 0).a.st == .halted
  | _ => false

/-- The FAILOVER leaves the sequencer of the partition's core HALTED, not IDLE. -/
theorem haltsCore0_failover : haltsCore0 (exec (.failover 0 failoverOf1) midWordState) = true := by decide +kernel

/-- Refutes O47: a FAILOVER whose restart writes the kept plan over a part of an uncorrected word leaves the partition's cores HALTED. -/
theorem not_mouldCommands : ¬ Obligations.MouldCommands := by
  intro h
  obtain ⟨-, -, hmould⟩ := h 0 failoverOf1 [] midWordState
  obtain ⟨-, -, -, -, -, hfailover, -⟩ := hmould midWordMould (by decide +kernel) (.inl rfl)
  obtain ⟨hlive, -⟩ := hfailover midWord_entry rfl rfl rfl (by decide +kernel) (by decide +kernel) (by decide +kernel)
  obtain ⟨t, -, hexec, -, -, -, -, hidle⟩ := hlive 0 (by decide +kernel)
  have hhalted : (t.dev.core 0).a.st = .halted := by
    have hhalts := haltsCore0_failover
    rw [show exec (.failover 0 failoverOf1) midWordState = .next t from hexec] at hhalts
    exact eq_of_beq hhalts
  have hstands : (t.dev.core 0).a.st = .idle := (hidle 0 midWord_has).1
  rw [hhalted] at hstands
  cases hstands

end Sys2Proof.Machine

/-! ## No well-formed command faults -/

namespace Sys2Proof.Machine

/-! ### The shared shapes of a row -/

/-- The outcome is no fault. -/
def NoFault (o : Host.Outcome State Fault Refusal) : Prop := ∀ r, o ≠ .fault r

/-- The answer of a meaning is no fault. -/
def Res.NoFault (x : Res) : Prop := ∀ r, x ≠ .fault r

theorem Res.ok_noFault {d : Dev} {w : List MemOp} : (Res.ok d w).NoFault := nofun

theorem Res.refuse_noFault {r : Refusal} : (Res.refuse r).NoFault := nofun

theorem Res.ite_noFault {p : Prop} [Decidable p] {x y : Res} (hx : p → x.NoFault) (hy : ¬p → y.NoFault) :
    (if p then x else y).NoFault := by
  split
  case isTrue h => exact hx h
  case isFalse h => exact hy h

theorem next_noFault (t : State) : NoFault (.next t) := nofun

/-- A meaning that may stop does so with a fault only where its body answers one. -/
theorem liftO_noFault {f : Memory → Memory → Dev → Res} {s : State} (h : (f s.mem s.cave s.dev).NoFault) : NoFault (liftO f s) := by
  intro r
  unfold liftO
  split
  · nofun
  · nofun
  · next x hx => exact absurd hx (h x)

theorem seqOp_noFault {k : Nat} {q : SeqId} {op : Nat} {f : Memory → Dev → Nat → Res} {s : State} (h : ∀ w, (f s.mem s.dev w).NoFault) :
    NoFault (seqOp k q op f s) := by
  refine liftO_noFault ?_
  split
  · exact Res.ok_noFault
  · exact Res.refuse_noFault
  · exact h _

theorem regOp_noFault (k : Nat) (q : SeqId) (op : Nat) (val : Dev → Seq → Nat → Word) (s : State) : NoFault (regOp k q op val s) :=
  seqOp_noFault fun _ => Res.ok_noFault

theorem rrOp_noFault (k : Nat) (q : SeqId) (op : Nat) (f : Word → Word → Word) (s : State) : NoFault (rrOp k q op f s) := regOp_noFault _ _ _ _ s

theorem riOp_noFault (k : Nat) (q : SeqId) (op : Nat) (f : Word → Word → Word) (s : State) : NoFault (riOp k q op f s) := regOp_noFault _ _ _ _ s

theorem branchOp_noFault (k : Nat) (q : SeqId) (op : Nat) (cond : Word → Word → Bool) (s : State) : NoFault (branchOp k q op cond s) :=
  seqOp_noFault fun _ => Res.ok_noFault

theorem enqueue_noFault (k : Nat) (q : SeqId) (op : Nat) (eng : Eng) (hs rs : Nat → List Nat) (s : State) :
    NoFault (enqueue k q op eng hs rs s) :=
  seqOp_noFault fun _ => Res.ite_noFault (fun _ => Res.ok_noFault) fun _ => Res.ite_noFault (fun _ => Res.ok_noFault) fun _ => Res.ok_noFault

theorem vqOp_noFault (k op : Nat) (s : State) : NoFault (vqOp k op s) := enqueue_noFault _ _ _ _ _ _ s

theorem ite_noFault {p : Prop} [Decidable p] {x y : Host.Outcome State Fault Refusal} (hx : NoFault x) (hy : NoFault y) :
    NoFault (if p then x else y) := by
  split
  · exact hx
  · exact hy

/-! ### The one row that can fault (R267) -/

/-- A datagram faults only where it does not bring the flits that it announces, or more than eight. -/
theorem datagramReceive_noFault (u : PortId) (peer : Nat) (sumOk : Bool) {seg : BitVec 128} {flits : List (BitVec 2048)} (s : State)
    (hmost : flits.length ≤ 8) (hcount : flits.length = seg.toNat / 2 ^ 96 % 256) : NoFault (execDatagramReceive u peer sumOk seg flits s) := by
  have hgood : ¬(8 < flits.length ∨ flits.length ≠ seg.toNat / 2 ^ 96 % 256) := by omega
  refine liftO_noFault ?_
  refine Res.ite_noFault (fun _ => Res.ok_noFault) fun _ => ?_
  refine Res.ite_noFault (fun _ => Res.ok_noFault) fun _ => ?_
  refine Res.ite_noFault (fun h => absurd h hgood) fun _ => ?_
  refine Res.ite_noFault (fun _ => Res.ok_noFault) fun _ => ?_
  refine Res.ite_noFault (fun _ => Res.ok_noFault) fun _ => ?_
  exact Res.ite_noFault (fun _ => Res.ok_noFault) fun _ => Res.ok_noFault

theorem jtagInstruction_noFault (i : JtagOp) (s : State) : NoFault (execJtagInstruction i s) := by
  refine liftO_noFault ?_
  cases i with
  | other => exact Res.refuse_noFault
  | known j =>
    refine Res.ite_noFault (fun _ => Res.ok_noFault) fun _ => ?_
    cases j <;> exact Res.ok_noFault

theorem ret_noFault (k : CoreId) (q : SeqId) (s : State) : NoFault (execRet k q s) := by
  refine seqOp_noFault fun _ => ?_
  dsimp only
  split
  · exact Res.refuse_noFault
  · exact Res.ite_noFault (fun _ => Res.ok_noFault) fun _ => Res.ok_noFault

theorem synsub_noFault (k : CoreId) (q : SeqId) (s : State) : NoFault (execSynsub k q s) :=
  seqOp_noFault fun _ => Res.ite_noFault (fun _ => Res.ok_noFault) fun _ => Res.ite_noFault (fun _ => Res.ok_noFault) fun _ => Res.ok_noFault

theorem dcreate_noFault (k : CoreId) (s : State) : NoFault (execDcreate k s) :=
  seqOp_noFault fun _ => Res.ite_noFault (fun _ => Res.ok_noFault) fun _ => Res.ite_noFault (fun _ => Res.ok_noFault) fun _ => Res.ok_noFault

/-! ### The rows -/

/-- A row that a sender can form has a shape that cannot fault; all but the sequencers' words, a datagram and a test instruction answer
the next state whatever they find. -/
theorem exec_noFault (i : Instr) (s : State) (h : i.wellFormed = true) : NoFault (exec i s) := by
  unfold exec
  cases i with
  | nop | dqpush | dqpop | synwait | setvl => exact seqOp_noFault fun _ => Res.ok_noFault
  | loop =>
    exact seqOp_noFault fun _ => Res.ite_noFault (fun _ => Res.refuse_noFault) fun _ => Res.ite_noFault (fun _ => Res.ok_noFault) fun _ => Res.ok_noFault
  | call | stepend => exact seqOp_noFault fun _ => Res.ite_noFault (fun _ => Res.refuse_noFault) fun _ => Res.ok_noFault
  | ret => exact ret_noFault _ _ s
  | synadd | dretire => exact seqOp_noFault fun _ => Res.ite_noFault (fun _ => Res.ok_noFault) fun _ => Res.ok_noFault
  | synsub => exact synsub_noFault _ _ s
  | rdsys | sel | lih => exact regOp_noFault _ _ _ _ s
  | add | sub | mul | mulhs | mulhu | and | or | xor | shl | shr | sra | slt | sltu | min | max => exact rrOp_noFault _ _ _ _ s
  | addi | muli | andi | ori | xori | shli | shri | srai | slti | sltiu | li => exact riOp_noFault _ _ _ _ s
  | beq | bne | blt | bge | bltu | bgeu | j => exact branchOp_noFault _ _ _ _ s
  | tload | tstore | fill | copy | msend | fsend | caveq | hostq | mmul | mldacc | mclr => exact enqueue_noFault _ _ _ _ _ _ s
  | vadd | vsub | vmul | vfma | vfnma | vmin | vmax | vsadd | vssub | vmulh | vand | vor | vxor | vshl | vshr | vshrr | vcmp | vsel | vidx | vcvt
    | vredsum | vredmax | vredmin | vredargmax | vperm | vslide | vfn | vacc | vld | vst | vpop | vpush => exact vqOp_noFault _ _ s
  | mstore => exact ite_noFault (next_noFault s) (enqueue_noFault _ _ _ _ _ _ s)
  | mstorePress => exact ite_noFault (enqueue_noFault _ _ _ _ _ _ s) (next_noFault s)
  | dcreate => exact dcreate_noFault _ s
  | jtagInstruction i => exact jtagInstruction_noFault i s
  | datagramReceive u peer sumOk seg flits =>
    simp only [Instr.wellFormed, Bool.and_eq_true, decide_eq_true_eq, beq_iff_eq] at h
    obtain ⟨hmost, hcount⟩ := h
    exact datagramReceive_noFault u peer sumOk s hmost hcount
  | _ => exact next_noFault _

/-- Settles O6: an idle cycle answers the next state, and a command that a sender can form does not fault. -/
theorem wellFormedQueueNeverFaults : Obligations.WellFormedQueueNeverFaults := by
  intro s hqueue
  unfold State.Safe step
  split
  · exact next_noFault _
  · next c rest hcons => exact exec_noFault c _ (hqueue c (by simp [hcons]))

end Sys2Proof.Machine

/-! ## Bits of a register -/

namespace Sys2Proof.Machine

theorem bit_toNat {w : Nat} (x : BitVec w) (n : Nat) : bit x.toNat n = x.getLsbD n := by
  rw [bit, BitVec.getLsbD, Nat.testBit_eq_decide_div_mod_eq]
  rfl

/-- Setting a bit of a register. -/
theorem bit_or_two_pow {w : Nat} (x : BitVec w) (i : Nat) {n : Nat} (hn : n < w) :
    bit (x ||| BitVec.ofNat w (2 ^ i)).toNat n = if n = i then true else bit x.toNat n := by
  simp only [bit_toNat, BitVec.getLsbD_or, BitVec.getLsbD_ofNat, Nat.testBit_two_pow, hn, decide_true, Bool.true_and]
  by_cases h : n = i
  · simp [h]
  · simp [h, Ne.symm h]

/-- Clearing a bit of a register. -/
theorem bit_and_not_two_pow {w : Nat} (x : BitVec w) (i : Nat) {n : Nat} (hn : n < w) :
    bit (x &&& ~~~(BitVec.ofNat w (2 ^ i))).toNat n = if n = i then false else bit x.toNat n := by
  simp only [bit_toNat, BitVec.getLsbD_and, BitVec.getLsbD_not, BitVec.getLsbD_ofNat, Nat.testBit_two_pow, hn, decide_true, Bool.true_and]
  by_cases h : n = i
  · simp [h]
  · simp [h, Ne.symm h]

end Sys2Proof.Machine

/-! ## The front of the queue, and reset -/

namespace Sys2Proof.Machine

/-- Settles O1: that is how a step is defined. -/
theorem stepRunsFrontCommand : Obligations.StepRunsFrontCommand := by
  intro c rest s h
  simp only [step, h]

/-- Settles O4: both memories of the reset state list no byte. -/
theorem resetIsCanonical : Obligations.ResetIsCanonical :=
  ⟨⟨List.Pairwise.nil, nofun⟩, ⟨List.Pairwise.nil, nofun⟩⟩

end Sys2Proof.Machine

/-! ## The lottery arbiters -/

namespace Sys2Proof.Machine

theorem onlyArb_setArb (s : State) (a : Nat) (x : Arb) : OnlyArb s { s with dev := s.dev.setArb a x } a x :=
  ⟨rfl, fun _ h => Dev.arb_setArb_ne _ h _, Dev.arb_setArb _ _ _⟩

theorem setArb_setArb (d : Dev) (a : Nat) (x y : Arb) : (d.setArb a x).setArb a y = d.setArb a y := by
  simp only [Dev.setArb, up_up]

/-! ### The draw (R351) -/

theorem contenders_pairwise (x : Arb) (a : Nat) : (x.contenders a).Pairwise (· < ·) :=
  List.pairwise_lt_range.filter _

/-- The class that is drawn from, as the statement spells it. -/
theorem topClass_eq (x : Arb) (l : List Nat) : x.topClass l = if l.any x.urgent then l.filter x.urgent else l := by
  unfold Arb.topClass
  by_cases h : l.any x.urgent
  · rw [if_pos h, if_neg]
    simpa [List.filter_eq_nil_iff] using h
  · rw [if_neg h, if_pos]
    simpa [List.filter_eq_nil_iff] using h

theorem topClass_sublist (x : Arb) (l : List Nat) : (x.topClass l).Sublist l := by
  rw [topClass_eq]
  split
  · exact List.filter_sublist
  · exact List.Sublist.refl l

theorem topClass_ne_nil (x : Arb) {l : List Nat} (h : l ≠ []) : x.topClass l ≠ [] := by
  unfold Arb.topClass
  dsimp only
  split
  · exact h
  · next hu => simpa using hu

/-- The cumulative tickets of the contenders before the winner do not exceed the draw, and with its own they do. -/
theorem pickDraw_spec (x : Arb) (dr : Nat) : ∀ (l : List Nat) (cum : Nat), l.Pairwise (· < ·) → cum ≤ dr → dr < cum + (l.map x.tickets).sum →
    ∃ i ∈ l, pickDraw x dr cum l = some i ∧ cum + ((l.filter (fun j => j < i)).map x.tickets).sum ≤ dr ∧
      dr < cum + ((l.filter (fun j => j ≤ i)).map x.tickets).sum
  | [], cum, _, hlo, hhi => by simp at hhi; omega
  | i :: r, cum, hs, hlo, hhi => by
    obtain ⟨hlt, hr⟩ := List.pairwise_cons.mp hs
    by_cases hw : dr < cum + x.tickets i
    · have hnone : r.filter (fun j => j < i) = [] := by
        rw [List.filter_eq_nil_iff]
        intro j hj
        have := hlt j hj
        simp only [decide_eq_true_eq]
        omega
      refine ⟨i, List.mem_cons_self .., by rw [pickDraw, if_pos hw], ?_, ?_⟩
      · simpa [List.filter_cons, hnone] using hlo
      · simp only [List.filter_cons, le_refl, decide_true, if_true, List.map_cons, List.sum_cons]
        omega
    · simp only [List.map_cons, List.sum_cons] at hhi
      obtain ⟨j, hj, hpick, hbelow, hupto⟩ := pickDraw_spec x dr r (cum + x.tickets i) hr (by omega) (by omega)
      have hij : i < j := hlt j hj
      refine ⟨j, List.mem_cons_of_mem _ hj, by rw [pickDraw, if_neg hw, hpick], ?_, ?_⟩
      · simp only [List.filter_cons, hij, decide_true, if_true, List.map_cons, List.sum_cons]
        omega
      · simp only [List.filter_cons, hij.le, decide_true, if_true, List.map_cons, List.sum_cons]
        omega

/-- The tickets of the class that is drawn from, and the draw among them. -/
def Arb.ticketSum (x : Arb) (l : List Nat) : Nat := ((x.topClass l).map x.tickets).sum
def Arb.drawn (x : Arb) (l : List Nat) : Nat := x.lfsr.toNat % 65536 * x.ticketSum l / 65536

theorem drawn_lt (x : Arb) {l : List Nat} (h : x.ticketSum l ≠ 0) : x.drawn l < x.ticketSum l := by
  unfold Arb.drawn
  have hlow : x.lfsr.toNat % 65536 < 65536 := Nat.mod_lt _ (by decide)
  rw [Nat.div_lt_iff_lt_mul (by decide), Nat.mul_comm (x.ticketSum l)]
  exact Nat.mul_lt_mul_of_pos_right hlow (Nat.pos_of_ne_zero h)

/-- Among contenders somebody wins: the lowest-numbered of the class with no tickets at all, else the one that the draw meets. -/
theorem winner_spec (x : Arb) {l : List Nat} (hs : l.Pairwise (· < ·)) (h : l ≠ []) : ∃ i ∈ x.topClass l, x.winner l = some i ∧
    (x.ticketSum l = 0 → ∀ j ∈ x.topClass l, i ≤ j) ∧
    (x.ticketSum l ≠ 0 → (((x.topClass l).filter (fun j => j < i)).map x.tickets).sum ≤ x.drawn l ∧
      x.drawn l < (((x.topClass l).filter (fun j => j ≤ i)).map x.tickets).sum) := by
  have htop : (x.topClass l).Pairwise (· < ·) := hs.sublist (topClass_sublist x l)
  by_cases hsum : x.ticketSum l = 0
  · obtain ⟨i, r, hcons⟩ := List.exists_cons_of_ne_nil (topClass_ne_nil x h)
    refine ⟨i, by simp [hcons], ?_, fun _ j hj => ?_, fun hne => absurd hsum hne⟩
    · change (if x.ticketSum l = 0 then (x.topClass l).head? else pickDraw x (x.drawn l) 0 (x.topClass l)) = _
      rw [if_pos hsum, hcons]
      rfl
    · rw [hcons] at htop hj
      rcases List.mem_cons.mp hj with rfl | hj
      · exact le_refl _
      · exact ((List.pairwise_cons.mp htop).1 j hj).le
  · obtain ⟨i, hi, hpick, hbelow, hupto⟩ := pickDraw_spec x (x.drawn l) _ 0 htop (Nat.zero_le _) (by rw [Nat.zero_add]; exact drawn_lt x hsum)
    refine ⟨i, hi, ?_, fun h0 => absurd h0 hsum, fun _ => by simpa using And.intro hbelow hupto⟩
    change (if x.ticketSum l = 0 then (x.topClass l).head? else pickDraw x (x.drawn l) 0 (x.topClass l)) = _
    rw [if_neg hsum]
    exact hpick

/-- With a contender the draw grants. -/
theorem drawNow_of_winner {x : Arb} {a i : Nat} (now : Nat) (h : x.winner (x.contenders a) = some i) :
    x.drawNow a now = { x with holder := some ⟨i, bit x.locks.toNat i, now⟩, lfsr := lfsrStep x.lfsr } := by
  rw [Arb.drawNow, h]

/-- The LFSR has no zero in its cycle: the shift drops only bit 31, and with the other bits 0 the feedback is bit 31. -/
theorem lfsrStep_ne_zero {l : BitVec 32} (h : l ≠ 0) : lfsrStep l ≠ 0 := by
  intro h0
  have hbit : ∀ i < 32, (!decide (i < 1) && l.getLsbD (i - 1) ||
      (BitVec.ofNat 32 (b2n (l.getLsbD 31 ^^ l.getLsbD 21 ^^ l.getLsbD 1 ^^ l.getLsbD 0))).getLsbD i) = false := by
    intro i hi
    have hz : (lfsrStep l).getLsbD i = false := by rw [h0]; exact BitVec.getLsbD_zero
    rw [lfsrStep, BitVec.getLsbD_or, BitVec.getLsbD_shiftLeft, decide_eq_true hi, Bool.true_and] at hz
    exact hz
  have hlow : ∀ i < 31, l.getLsbD i = false := by
    intro i hi
    have := hbit (i + 1) (by omega)
    simp only [Bool.or_eq_false_iff] at this
    simpa using this.1
  have htop : l.getLsbD 31 = false := by
    have := hbit 0 (by omega)
    rw [hlow 21 (by decide), hlow 1 (by decide), hlow 0 (by decide)] at this
    cases hb : l.getLsbD 31
    · rfl
    · rw [hb] at this
      exact absurd this (by decide)
  refine h (BitVec.eq_of_getLsbD_eq fun i hi => ?_)
  refine Eq.trans ?_ BitVec.getLsbD_zero.symm
  rcases Nat.lt_succ_iff_lt_or_eq.mp hi with hi | rfl
  · exact hlow i hi
  · exact htop

/-! ### Requests, expiry, locks and masks -/

theorem pickDraw_eq_of {x y : Arb} (ht : x.tkt = y.tkt) (dr : Nat) : ∀ (l : List Nat) (cum : Nat), pickDraw x dr cum l = pickDraw y dr cum l
  | [], _ => rfl
  | i :: r, cum => by
    have hi : x.tickets i = y.tickets i := by rw [Arb.tickets, Arb.tickets, ht]
    rw [pickDraw, pickDraw, hi, pickDraw_eq_of ht dr r]

theorem topClass_eq_of {x y : Arb} (ht : x.tkt = y.tkt) (l : List Nat) : x.topClass l = y.topClass l := by
  have hu : x.urgent = y.urgent := funext fun i => by rw [Arb.urgent, Arb.urgent, ht]
  rw [topClass_eq, topClass_eq, hu]

/-- The winner is a matter of the tickets and the LFSR alone. -/
theorem winner_eq_of {x y : Arb} (ht : x.tkt = y.tkt) (hl : x.lfsr = y.lfsr) (l : List Nat) : x.winner l = y.winner l := by
  have hk : x.tickets = y.tickets := funext fun i => by rw [Arb.tickets, Arb.tickets, ht]
  unfold Arb.winner
  dsimp only
  rw [topClass_eq_of ht, hk, hl, pickDraw_eq_of ht]

/-- An arbiter whose grant was taken back, before it draws again. -/
def Arb.freed (x : Arb) : Arb := { x with holder := none, preempt := x.preempt + 1 }

/-- What an arbiter is after a grant was taken back: another draw, and one more preemption. -/
theorem preempt_arb (d : Dev) (a : ArbId) (g : Grant) (h : (d.arb a).contenders a ≠ []) : ∃ i ∈ (d.arb a).topClass ((d.arb a).contenders a),
    (d.preempt a g).arb a = { d.arb a with holder := some ⟨i, bit (d.arb a).locks.toNat i, d.turn.now.toNat⟩,
                                           preempt := (d.arb a).preempt + 1, lfsr := lfsrStep (d.arb a).lfsr } := by
  obtain ⟨i, hi, hwin, -⟩ := winner_spec (d.arb a) (contenders_pairwise _ _) h
  refine ⟨i, hi, ?_⟩
  have hwin' : (d.arb a).freed.winner ((d.arb a).freed.contenders a) = some i :=
    (winner_eq_of (x := (d.arb a).freed) (y := d.arb a) rfl rfl _).trans hwin
  unfold Dev.preempt
  dsimp only
  rw [Dev.arb_setArb]
  split <;> exact drawNow_of_winner _ hwin'

/-- The lines of one cycle, taken over into the arbiter: an unlocked grant goes with its request. -/
def Arb.lined (x : Arb) (reqs locks : BitVec 16) : Arb :=
  { x with reqs := reqs, locks := locks
           holder := if x.holder.any (fun g => !g.locked && !bit reqs.toNat g.req) then none else x.holder }

theorem execArbRequest_next {a : ArbId} {s : State} (reqs locks : BitVec 16) (hrst : s.dev.rst = false)
    (hcave : a.val = 1 → s.dev.flash.ready = true) :
    exec (.arbRequest a reqs locks) s = .next { s with dev :=
      let x := (s.dev.arb a).lined reqs locks
      let d := s.dev.setArb a x
      match x.holder with
      | none => d.setArb a (x.drawNow a d.turn.now.toNat)
      | some g =>
        if !g.locked && !x.urgent g.req && (x.contenders a).any (fun i => i != g.req && x.urgent i) then d.preempt a g else d } := by
  refine congrArg Host.Outcome.next ?_
  have hopen : (s.dev.rst || (decide (a.val = 1) && !s.dev.flash.ready)) = false := by
    rw [hrst, Bool.false_or, Bool.and_eq_false_iff]
    by_cases h1 : a.val = 1
    · right; rw [hcave h1]; rfl
    · left; exact decide_eq_false h1
  change { s with dev := if (s.dev.rst || (decide (a.val = 1) && !s.dev.flash.ready)) then _ else _ } = _
  rw [hopen]
  rfl

/-- A free arbiter with a contender grants in the cycle of the request. -/
theorem arbRequest_grants {a : ArbId} {s : State} {reqs locks : BitVec 16} (hrst : s.dev.rst = false)
    (hcave : a.val = 1 → s.dev.flash.ready = true) (hfree : (s.dev.arb a).holder = none)
    {i : Nat} (hwin : ({ s.dev.arb a with reqs := reqs, locks := locks } : Arb).winner
      (({ s.dev.arb a with reqs := reqs, locks := locks } : Arb).contenders a) = some i) :
    ∃ t, exec (.arbRequest a reqs locks) s = .next t ∧ OnlyArb s t a { s.dev.arb a with
      reqs := reqs, locks := locks, holder := some ⟨i, bit locks.toNat i, s.dev.turn.now.toNat⟩, lfsr := lfsrStep (s.dev.arb a).lfsr } := by
  have hlined : (s.dev.arb a).lined reqs locks = { s.dev.arb a with reqs := reqs, locks := locks } := by
    simp [Arb.lined, hfree]
  refine ⟨_, execArbRequest_next reqs locks hrst hcave, ?_⟩
  dsimp only
  rw [hlined, hfree]
  dsimp only
  rw [setArb_setArb, drawNow_of_winner _ hwin]
  exact onlyArb_setArb s a _

/-- An urgent contender takes the unlocked grant of a holder that is not urgent. -/
theorem arbRequest_preempts {a : ArbId} {s : State} {reqs locks : BitVec 16} (hrst : s.dev.rst = false)
    (hcave : a.val = 1 → s.dev.flash.ready = true) {g : Grant} (hg : (s.dev.arb a).holder = some g) (hlock : g.locked = false)
    (hreq : bit reqs.toNat g.req = true) (hcalm : (s.dev.arb a).urgent g.req = false)
    (hurgent : ∃ j ∈ ({ s.dev.arb a with reqs := reqs, locks := locks } : Arb).contenders a, j ≠ g.req ∧ (s.dev.arb a).urgent j = true) :
    ∃ t h, exec (.arbRequest a reqs locks) s = .next t ∧ (t.dev.arb a).holder = some h ∧ (s.dev.arb a).urgent h.req = true ∧
      (t.dev.arb a).preempt = (s.dev.arb a).preempt + 1 := by
  obtain ⟨j, hj, hjg, hju⟩ := hurgent
  have hlined : (s.dev.arb a).lined reqs locks = { s.dev.arb a with reqs := reqs, locks := locks } := by
    simp [Arb.lined, hg, hlock, hreq]
  have hothers : (({ s.dev.arb a with reqs := reqs, locks := locks } : Arb).contenders a).any
      (fun i => i != g.req && (s.dev.arb a).urgent i) = true :=
    List.any_eq_true.mpr ⟨j, hj, by simp [hjg, hju]⟩
  have harb := Dev.arb_setArb s.dev a { s.dev.arb a with reqs := reqs, locks := locks }
  obtain ⟨i, hi, ht⟩ := preempt_arb (s.dev.setArb a { s.dev.arb a with reqs := reqs, locks := locks }) a g
    (by rw [harb]; exact List.ne_nil_of_mem hj)
  rw [harb] at hi ht
  have hclass : ({ s.dev.arb a with reqs := reqs, locks := locks } : Arb).urgent i = true := by
    have hany : (({ s.dev.arb a with reqs := reqs, locks := locks } : Arb).contenders a).any
        ({ s.dev.arb a with reqs := reqs, locks := locks } : Arb).urgent = true := List.any_eq_true.mpr ⟨j, hj, hju⟩
    rw [topClass_eq, if_pos hany] at hi
    exact (List.mem_filter.mp hi).2
  refine ⟨_, ⟨i, bit locks.toNat i, s.dev.turn.now.toNat⟩, execArbRequest_next reqs locks hrst hcave, ?_⟩
  dsimp only
  rw [hlined, hg]
  dsimp only
  rw [if_pos (by rw [Bool.and_eq_true, Bool.and_eq_true]; exact ⟨⟨by rw [hlock]; rfl, by rw [Bool.not_eq_true']; exact hcalm⟩, hothers⟩), ht]
  exact ⟨rfl, hclass, rfl⟩

/-- After QUANTUM ticks another contender takes an unlocked grant. -/
theorem quantumExpire_preempts {a : ArbId} {s : State} {g : Grant} (hg : (s.dev.arb a).holder = some g) (hlock : g.locked = false)
    (hq : (s.dev.arb a).quantum ≠ 0) (hdue : g.tick + (s.dev.arb a).quantum.toNat ≤ s.dev.turn.now.toNat)
    (hother : ∃ j ∈ (s.dev.arb a).contenders a, j ≠ g.req) :
    ∃ t h, exec (.quantumExpire a) s = .next t ∧ t.mem = s.mem ∧ (t.dev.arb a).holder = some h ∧ h.req ∈ (s.dev.arb a).contenders a ∧
      (t.dev.arb a).preempt = (s.dev.arb a).preempt + 1 ∧ (t.dev.arb a).lfsr = lfsrStep (s.dev.arb a).lfsr := by
  obtain ⟨j, hj, hjg⟩ := hother
  obtain ⟨i, hi, ht⟩ := preempt_arb s.dev a g (List.ne_nil_of_mem hj)
  have hany : ((s.dev.arb a).contenders a).any (fun i => i != g.req) = true := List.any_eq_true.mpr ⟨j, hj, by simp [hjg]⟩
  have hnext : exec (.quantumExpire a) s = .next { s with dev := s.dev.preempt a g } := by
    show execQuantumExpire a s = _
    refine lift_of_eq ?_
    dsimp only
    rw [hg]
    dsimp only
    rw [if_neg]
    simpa [hlock, hdue, hany] using hq
  refine ⟨_, ⟨i, bit (s.dev.arb a).locks.toNat i, s.dev.turn.now.toNat⟩, hnext, rfl, ?_⟩
  dsimp only
  rw [ht]
  exact ⟨rfl, (topClass_sublist _ _).subset hi, rfl, rfl⟩

theorem quantumExpire_locked {a : ArbId} {s : State} {g : Grant} (hg : (s.dev.arb a).holder = some g) (hlock : g.locked = true) :
    exec (.quantumExpire a) s = .next s := by
  show execQuantumExpire a s = _
  refine lift_of_eq ?_
  dsimp only
  rw [hg]
  dsimp only
  rw [if_pos (by rw [hlock]; rfl)]

theorem longLock_reported {a : ArbId} {s : State} {g : Grant} (hg : (s.dev.arb a).holder = some g) (hlock : g.locked = true)
    (hq : (s.dev.arb a).quantum ≠ 0) (hlong : g.tick + 16 * (s.dev.arb a).quantum.toNat < s.dev.turn.now.toNat) :
    ∃ t, exec (.longLock a) s = .next t ∧ OnlyArb s t a { s.dev.arb a with longLock := true } := by
  refine ⟨_, show execLongLock a s = _ from lift_of_eq ?_, onlyArb_setArb s a _⟩
  dsimp only
  rw [if_pos]
  simpa [hg, hlock, hlong] using hq

theorem arbLockDrop_unlocks {a : ArbId} {s : State} {g : Grant} (hg : (s.dev.arb a).holder = some g) (hlock : g.locked = true) :
    ∃ t l, exec (.arbLockDrop a) s = .next t ∧
      OnlyArb s t a { s.dev.arb a with holder := some { g with locked := false }, locks := l } ∧
      ∀ i, i < 16 → bit l.toNat i = (if i = g.req then false else bit (s.dev.arb a).locks.toNat i) := by
  refine ⟨_, _, show execArbLockDrop a s = _ from lift_of_eq ?_, onlyArb_setArb s a _, fun i hi => bit_and_not_two_pow _ _ hi⟩
  dsimp only
  rw [hg]
  dsimp only
  rw [if_pos hlock]

theorem arbMask_masks (a : ArbId) (s : State) (n : Fin 16) : ∃ t y, exec (.arbMask a n) s = .next t ∧ OnlyArb s t a y ∧
    y.lfsr = (s.dev.arb a).lfsr ∧ y.tkt = (s.dev.arb a).tkt ∧
    (∀ i, i < 16 → bit y.masked.toNat i = if i = n.val then true else bit (s.dev.arb a).masked.toNat i) ∧
    y.holder = (if ∃ g, (s.dev.arb a).holder = some g ∧ g.req = n.val then none else (s.dev.arb a).holder) := by
  refine ⟨_, (s.dev.arb a).mask n, rfl, onlyArb_setArb s a _, rfl, rfl, fun i hi => bit_or_two_pow _ _ hi, ?_⟩
  unfold Arb.mask
  cases hh : (s.dev.arb a).holder with
  | none => simp
  | some g => simp

/-- Settles O39: the draw grants one of the class drawn from, and each of the other commands changes the arbiter alone as it says. -/
theorem lotteryGrants : Obligations.LotteryGrants := by
  intro a s
  refine ⟨fun reqs locks hrst hcave => ⟨fun hfree hall => ?_, fun g hg hlock hreq hcalm hother =>
      arbRequest_preempts hrst hcave hg hlock hreq hcalm hother⟩, lfsrStep_ne_zero,
    fun g hg => ⟨quantumExpire_preempts hg, fun hlock => ⟨quantumExpire_locked hg hlock, longLock_reported hg hlock,
      arbLockDrop_unlocks hg hlock⟩⟩, arbMask_masks a s⟩
  obtain ⟨i, hi, hwin, hzero, hdraw⟩ := winner_spec { s.dev.arb a with reqs := reqs, locks := locks } (contenders_pairwise _ _) hall
  obtain ⟨t, hex, honly⟩ := arbRequest_grants hrst hcave hfree hwin
  unfold Arb.drawn Arb.ticketSum at hdraw
  unfold Arb.ticketSum at hzero
  rw [topClass_eq] at hi hzero hdraw
  exact ⟨t, i, hex, honly, hi, hzero, hdraw⟩

end Sys2Proof.Machine

/-! ## Region clocks and the reference -/

namespace Sys2Proof.Machine

/-- An error of a class that stops nothing leaves a record and tells the hosts. -/
theorem raise_stopsNothing {d : Dev} {e : Err} (h : e.cls = 0 ∨ e.cls = 1) :
    ∃ es fs o, d.raise e = { d with errs := es, funcs := fs, out := o } := by
  rcases h with h | h
  · obtain ⟨es, fs, o, he, -⟩ := raise_log (d := d) h
    exact ⟨es, fs, o, he⟩
  · simp only [Dev.raise, h]
    obtain ⟨es, fs, o, he, -, -⟩ := irqs_spec { d with errs := { d.errs.put (d.mkRec e) with
      stepErrs := (d.errs.put (d.mkRec e)).stepErrs ++ (partsOf e.pmask).map (fun p => (p, (d.part p).step.toNat)) } } 1 e.pmask
    exact ⟨es, fs, o, he⟩

/-! ### Stretches and slips (R377, R378) -/

/-- The clock unit once regions a and b slipped at tick `now`. -/
def Clk.slipped (c : Clk) (a b now : Nat) : Clk :=
  { c with xslip := true, gateTick := now, gated := (c.gated.filter (fun r => r ≠ a ∧ r ≠ b)) ++ [a, b] }

theorem slip_spec (d : Dev) (a b : Nat) : (d.slip a b).clk = d.clk.slipped a b d.turn.now.toNat ∧
    ∀ t : State, t.dev = d.slip a b → Recorded t 0x71 0xFFFF [min a b, max a b] := by
  unfold Dev.slip
  extract_lets c d1
  refine ⟨?_, fun t ht => raise_recorded (e := ⟨0x71, 1, 15, 0xFFFF, d1.slipMask a b, d1.fpidOf (lowPart (d1.slipMask a b)),
    [min a b, max a b], false⟩) (show 1 ≠ 3 by decide) ht⟩
  obtain ⟨es, fs, o, he⟩ := raise_stopsNothing (d := d1) (e := ⟨0x71, 1, 15, 0xFFFF, d1.slipMask a b,
    d1.fpidOf (lowPart (d1.slipMask a b)), [min a b, max a b], false⟩) (.inr rfl)
  rw [he]
  rfl

/-- Is the running region b left more than 1.5 cycles behind by a stretch of another to lag l (R378)? -/
def Dev.leftBehind (d : Dev) (l b : Nat) : Bool := decide (l > lk 0 d.clk.lag b + 192) && d.regionRuns b

theorem slip_leftBehind (d : Dev) (a b l c : Nat) : (d.slip a b).leftBehind l c = d.leftBehind l c := by
  rw [Dev.leftBehind, Dev.leftBehind, Dev.regionRuns, Dev.regionRuns, (slip_spec d a b).1]
  rfl

/-- The device after a stretch of region r to lag l, before its crossings are looked at. -/
def Dev.stretched (d : Dev) (r l : Nat) : Dev :=
  { d with clk := { d.clk with lag := up d.clk.lag r l, since := up d.clk.since r 0, stretch := d.clk.stretch + 1 } }

/-- The crossings of region r, stretched to lag l, with some neighbours. -/
def Dev.crossings (d : Dev) (r l : Nat) (ns : List Nat) : Dev := ns.foldl (fun d b => if d.leftBehind l b then d.slip r b else d) d

theorem crossings_cons (d : Dev) (r l b : Nat) (ns : List Nat) :
    d.crossings r l (b :: ns) = (if d.leftBehind l b then d.slip r b else d).crossings r l ns := rfl

/-- With nobody left behind no crossing slips. -/
theorem crossings_none {r l : Nat} {d : Dev} {ns : List Nat} (h : ∀ b ∈ ns, d.leftBehind l b = false) : d.crossings r l ns = d := by
  induction ns with
  | nil => rfl
  | cons b ns ih =>
    rw [crossings_cons, h b (List.mem_cons_self ..)]
    exact ih fun c hc => h c (List.mem_cons_of_mem _ hc)

/-- With one neighbour left behind that crossing slips. -/
theorem crossings_one {r l b : Nat} {d : Dev} {ns : List Nat} (hnodup : ns.Nodup) (hmem : b ∈ ns) (hb : d.leftBehind l b = true)
    (hothers : ∀ c ∈ ns, c ≠ b → d.leftBehind l c = false) : d.crossings r l ns = d.slip r b := by
  induction ns with
  | nil => exact absurd hmem List.not_mem_nil
  | cons c ns ih =>
    obtain ⟨hc, hns⟩ := List.nodup_cons.mp hnodup
    rw [crossings_cons]
    by_cases hcb : c = b
    · subst hcb
      rw [if_pos hb]
      refine crossings_none fun e he => ?_
      rw [slip_leftBehind]
      exact hothers e (List.mem_cons_of_mem _ he) fun heq => hc (heq ▸ he)
    · rw [hothers c (List.mem_cons_self ..) hcb]
      exact ih hns ((List.mem_cons.mp hmem).resolve_left (Ne.symm hcb)) fun e he => hothers e (List.mem_cons_of_mem _ he)

theorem neighbours_spec : ∀ r : RegionId, (neighbours r).Nodup ∧ r.val ∉ neighbours r := by decide

/-- A stretched region's neighbour is left behind just where its lag is more than 1.5 cycles less. -/
theorem stretched_leftBehind (d : Dev) {r b : Nat} (l : Nat) (hb : b ≠ r) :
    (d.stretched r l).leftBehind l b = (decide (lk 0 d.clk.lag b + 192 < l) && d.regionRuns b) := by
  rw [Dev.leftBehind, Dev.stretched]
  dsimp only
  rw [lk_up_ne _ _ hb]
  rfl

/-- The lag of region r after one more stretch, by a half or a quarter of a cycle. -/
def Clk.stretchedLag (c : Clk) (r : Nat) (half : Bool) : Nat := lk 0 c.lag r + (if half then 64 else 32)

/-- The region runs, is not gated, and its last stretch is 16 cycles back: it stretches. -/
theorem exec_droopStretch {r : RegionId} {half : Bool} {s : State} (hrun : s.dev.regionRuns r = true) (hgate : r.val ∉ s.dev.clk.gated)
    (hsince : ∀ e, s.dev.clk.since.find? (fun x => x.1 == r.val) = some e → 16 ≤ e.2) :
    exec (.droopStretch r half) s = .next { s with
      dev := (s.dev.stretched r (s.dev.clk.stretchedLag r half)).crossings r (s.dev.clk.stretchedLag r half) (neighbours r) } := by
  show execDroopStretch r half s = _
  refine lift_of_eq ?_
  have hrecent : (s.dev.clk.since.find? (fun e => e.1 == r.val)).any (fun e => decide (e.2 < 16)) = false := by
    cases he : s.dev.clk.since.find? (fun e => e.1 == r.val) with
    | none => rfl
    | some e => exact decide_eq_false (Nat.not_lt.mpr (hsince e he))
  dsimp only
  rw [if_neg]
  · rfl
  · simp [hrun, hgate, hrecent]

/-! ### The tick mark and the reference (R378 to R380) -/

theorem exec_xingRestart {s : State} (hcyc : s.dev.cyc = 0) (hgated : s.dev.clk.gated ≠ []) (htick : s.dev.clk.gateTick < s.dev.turn.now.toNat) :
    exec .xingRestart s = .next { s with dev := { s.dev with clk := { s.dev.clk with
      gated := [], lag := s.dev.clk.gated.foldl (fun m r => up m r 0) s.dev.clk.lag } } } := by
  show execXingRestart s = _
  refine lift_of_eq ?_
  dsimp only
  rw [if_neg]
  simpa [hcyc, hgated] using htick

/-- The window count that loses the reference: the Turn stands in HOLDOVER, notes the state it left, and the loss is recorded. -/
theorem refLoss_spec {s : State} {n : Nat} (hheld : s.dev.clk.holdover = false) (hbad : n < 56 ∨ 69 < n) :
    ∃ t, exec (.refLoss n) s = .next t ∧ t.mem = s.mem ∧ t.dev.clk.holdover = true ∧ t.dev.clk.refLoss = true ∧
      t.dev.turn = { s.dev.turn with before := s.dev.turn.st, st := .holdover } ∧ Recorded t 0x70 0xFFFF [n] := by
  have hnext : exec (.refLoss n) s = .next { s with dev := ({ s.dev with
      clk := { s.dev.clk with refLoss := true, holdover := true, lossCount := n, lossTick := s.dev.turn.now.toNat }
      turn := { s.dev.turn with before := s.dev.turn.st, st := .holdover } } : Dev).raiseDev 0x70 0 15 [n] } := by
    show execRefLoss n s = _
    refine lift_of_eq ?_
    dsimp only
    rw [if_neg]
    simp [hheld]
    omega
  refine ⟨_, hnext, rfl, ?_, ?_, ?_, raiseDev_recorded rfl⟩ <;>
  · obtain ⟨es, fs, o, he, -⟩ := raiseDev_log ({ s.dev with
      clk := { s.dev.clk with refLoss := true, holdover := true, lossCount := n, lossTick := s.dev.turn.now.toNat }
      turn := { s.dev.turn with before := s.dev.turn.st, st := .holdover } } : Dev) 0x70 15 [n]
    rw [he]

theorem exec_refclkRestored {s : State} (hheld : s.dev.clk.holdover = true) : exec .refclkRestored s = .next { s with dev := { s.dev with
    clk := { s.dev.clk with holdover := false }
    turn := { s.dev.turn with st := s.dev.turn.before } } } := by
  show execRefclkRestored s = _
  refine lift_of_eq ?_
  rw [if_pos hheld]

theorem refLossTimeout_resets {s : State} (hheld : s.dev.clk.holdover = true) (hdue : s.dev.clk.lossTick + 6250000 ≤ s.dev.turn.now.toNat) :
    ∃ t, exec .refLossTimeout s = .next t ∧ ResetByError s t 0x70 [s.dev.clk.lossCount] := by
  refine ⟨_, show execRefLossTimeout s = _ from lift_of_eq ?_, raiseDev_resets s 0x70 15 [s.dev.clk.lossCount]⟩
  rw [if_pos (by rw [hheld, Bool.true_and]; exact decide_eq_true hdue)]

/-- Settles O34: a stretch by whom it leaves behind, a slipped pair at its tick mark, and the reference lost, back or gone for good. -/
theorem regionClocksAndReference : Obligations.RegionClocksAndReference := by
  intro s
  refine ⟨?stretch, fun hcyc hgated htick => ?restart, fun n hheld hbad => ?loss,
    fun hheld => ⟨exec_refclkRestored hheld, refLossTimeout_resets hheld⟩⟩
  case stretch =>
    intro r half l far hrun hgate hsince longer
    obtain ⟨hnodup, hself⟩ := neighbours_spec r
    have hnear : ∀ b ∈ neighbours r, ¬ far b → (s.dev.stretched r l).leftBehind l b = false := fun b hb hnot => by
      rw [stretched_leftBehind _ _ (ne_of_mem_of_not_mem hb hself), Bool.eq_false_iff]
      exact fun h => hnot (by simpa [far] using h)
    have hnext := exec_droopStretch (half := half) hrun hgate hsince
    rw [show s.dev.clk.stretchedLag r half = l from rfl] at hnext
    refine ⟨fun hnone => ?_, fun b hb hfar hothers => ?_⟩
    · rw [hnext, crossings_none fun b hb => hnear b hb (hnone b hb)]
      rfl
    · have hbehind : (s.dev.stretched r l).leftBehind l b = true := by
        rw [stretched_leftBehind _ _ (ne_of_mem_of_not_mem hb hself)]
        simpa [far] using hfar
      have hslip : (s.dev.stretched r l).crossings r l (neighbours r) = (s.dev.stretched r l).slip r b :=
        crossings_one hnodup hb hbehind fun c hc hcb => hnear c hc (hothers c hc hcb)
      obtain ⟨hclk, hrec⟩ := slip_spec (s.dev.stretched r l) r b
      rw [hnext, hslip]
      exact ⟨_, rfl, rfl, by rw [hclk]; rfl, by rw [hclk]; rfl, by rw [hclk]; exact lk_up_same _ _ _ _, by rw [hclk]; rfl, hrec _ rfl⟩
  case restart =>
    refine ⟨_, exec_xingRestart hcyc hgated htick, fun r => ?_⟩
    exact lk_foldl_up 0 0 s.dev.clk.gated s.dev.clk.lag r
  case loss =>
    obtain ⟨t, hnext, hmem, hhold, hloss, hturn, hrec⟩ := refLoss_spec hheld hbad
    refine ⟨t, hnext, hmem, hhold, hloss, by rw [hturn], by rw [hturn]; rfl, hrec, fun t' ht' => ?_⟩
    rw [exec_refclkRestored hhold] at ht'
    cases ht'
    rw [hturn]

end Sys2Proof.Machine

/-! ## Doorbells -/

namespace Sys2Proof.Machine

theorem onlyFunc_setFunc (s : State) (f : Nat) (x : Func) : OnlyFunc s { s with dev := s.dev.setFunc f x } f x :=
  ⟨rfl, fun _ h => Dev.func_setFunc_ne _ h _, Dev.func_setFunc _ _ _⟩

section Served
variable {s : State} {f : FnId} (h : s.dev.serves f = true) (c : Fin 16) (v : BitVec 32)
include h

theorem exec_dbCmdSqTail : exec (.dbCmdSqTail f v) s = .next { s with dev := s.dev.dbSq f v.toNat } :=
  show execDbCmdSqTail f v s = _ from lift_of_eq (if_pos h)

theorem exec_dbCmdCqHead : exec (.dbCmdCqHead f v) s = .next { s with dev := s.dev.dbCq f v.toNat } :=
  show execDbCmdCqHead f v s = _ from lift_of_eq (if_pos h)

theorem exec_dbCtxSqTail : exec (.dbCtxSqTail f c v) s = .next { s with dev := s.dev.dbCtx f c v.toNat } :=
  show execDbCtxSqTail f c v s = _ from lift_of_eq (if_pos h)

theorem exec_dbTokenRingHead : exec (.dbTokenRingHead f c v) s = .next { s with dev := s.dev.dbRing f c v.toNat } :=
  show execDbTokenRingHead f c v s = _ from lift_of_eq (if_pos h)

theorem exec_dbLogRingHead : exec (.dbLogRingHead f c v) s = .next { s with dev := s.dev.dbLog f c v.toNat } :=
  show execDbLogRingHead f c v s = _ from lift_of_eq (if_pos h)

theorem exec_hifCtrlEn : exec (.hifCtrlEn f v) s = .next { s with dev := s.dev.setFunc f { s.dev.func f with en := v.getLsbD 0 } } :=
  show execHifCtrlEn f v s = _ from lift_of_eq (by rw [if_pos h, Dev.ctrlEn, bit_toNat]; rfl)

end Served

/-! ### Indices of the command rings -/

theorem dbSq_takes {d : Dev} {f v : Nat} (h : v < (d.func f).sqEntries) : d.dbSq f v = d.setFunc f { d.func f with sqTail := v } := if_pos h

theorem dbSq_fails {d : Dev} {f v : Nat} (h : (d.func f).sqEntries ≤ v) : d.dbSq f v = d.dbErr f := if_neg (Nat.not_lt.mpr h)

/-- With no completion held there is nothing to write. -/
theorem flushHeld_none {d : Dev} {f : Nat} (h : (d.func f).held = []) : d.flushHeld f = d.setFunc f (d.func f) := by
  unfold Dev.flushHeld
  dsimp only
  rw [h]
  rfl

theorem setFunc_setFunc (d : Dev) (f : Nat) (x y : Func) : (d.setFunc f x).setFunc f y = d.setFunc f y := by
  simp only [Dev.setFunc, up_up]

theorem dbCq_takes {d : Dev} {f v : Nat} (h : v < (d.func f).cqEntries) (hheld : (d.func f).held = []) :
    d.dbCq f v = d.setFunc f { d.func f with cqHead := v } := by
  rw [Dev.dbCq, if_pos h, Dev.updFunc, flushHeld_none (by rw [Dev.func_setFunc]; exact hheld), Dev.func_setFunc, setFunc_setFunc]

theorem dbCq_fails {d : Dev} {f v : Nat} (h : (d.func f).cqEntries ≤ v) : d.dbCq f v = d.dbErr f := if_neg (Nat.not_lt.mpr h)

/-! ### Indices of a context's rings -/

theorem find?_up {α : Type} (n : Nat) (v : α) : (m : SMap α) → (up m n v).find? (fun e => e.1 == n) = some (n, v)
  | [] => by simp [up]
  | (k, w) :: r => by
    by_cases h : n = k
    · simp [up, h]
    · by_cases l : n < k
      · simp [up, h, l]
      · simp [up, h, l, Ne.symm h, find?_up n v r]

theorem ctx_setCtx (d : Dev) (f c : Nat) (x : Ctx) : (d.setCtx f c x).ctx f c = some x := by
  rw [Dev.setCtx, Dev.updFunc, Dev.ctx, Dev.func_setFunc, find?_up]
  rfl

/-- A change of one context is one of its function's contexts alone. -/
theorem setCtx_takes (s : State) (f c : Nat) (x : Ctx) : ∃ m, OnlyFunc s { s with dev := s.dev.setCtx f c x } f { s.dev.func f with ctxs := m } ∧
    (s.dev.setCtx f c x).ctx f c = some x :=
  ⟨_, onlyFunc_setFunc s f _, ctx_setCtx _ f c x⟩

section Context
variable {d : Dev} {f c v : Nat} {k : Ctx}

theorem dbCtx_takes (hk : d.ctx f c = some k) (h : v < ringEntries k.qSize) : d.dbCtx f c v = d.setCtx f c { k with qTail := v } := by
  rw [Dev.dbCtx, hk]
  exact if_pos h

theorem dbCtx_fails (hk : d.ctx f c = some k) (h : ringEntries k.qSize ≤ v) : d.dbCtx f c v = d.dbErr f := by
  rw [Dev.dbCtx, hk]
  exact if_neg (Nat.not_lt.mpr h)

/-- With no record waiting, room in the token ring changes nothing more. -/
theorem dbRing_takes (hk : d.ctx f c = some k) (h : v < k.ents) (hnone : k.backlog = []) :
    d.dbRing f c v = d.setCtx f c { k with rHead := v } := by
  rw [Dev.dbRing, hk]
  refine (if_pos h).trans ?_
  rw [Dev.ring, ctx_setCtx]
  simp [hnone]

theorem dbRing_fails (hk : d.ctx f c = some k) (h : k.ents ≤ v) : d.dbRing f c v = d.dbErr f := by
  rw [Dev.dbRing, hk]
  exact if_neg (Nat.not_lt.mpr h)

theorem dbCtx_closed (hk : d.ctx f c = none) : d.dbCtx f c v = d.dbErr f := by rw [Dev.dbCtx, hk]

theorem dbRing_closed (hk : d.ctx f c = none) : d.dbRing f c v = d.dbErr f := by rw [Dev.dbRing, hk]

end Context

/-! ### The index of a log -/

section Log
variable {d : Dev} {f p v : Nat} {m : Mould} {u : Serve} {l : LogRing} (hm : d.mouldLow p = some m) (hu : m.serve = some u)
  (hl : u.log = some l)
include hm hu hl

/-- The function that opened the log moves its head; with nothing dropped no GAP entry is due. -/
theorem dbLog_takes (hfn : l.fn = f) (h : v < l.ents) (hdrop : l.dropped = 0) : ∃ ms, d.dbLog f p v = { d with moulds := ms } ∧
    (d.dbLog f p v).mouldLow p = some { m with serve := some { u with log := some { l with head := v } } } := by
  have hlow : (d.updMould m.pmask (fun m => { m with serve := m.serve.map (fun s => { s with log := some { l with head := v } }) })).mouldLow p =
      some { m with serve := some { u with log := some { l with head := v } } } := by
    rw [Dev.mouldLow, find?_updMould (fun m => lowPart m.pmask == p)
      (fun m => { m with serve := m.serve.map (fun s => { s with log := some { l with head := v } }) }) (fun _ => rfl), ← Dev.mouldLow, hm]
    simp [hu]
  have hdb : d.dbLog f p v =
      d.updMould m.pmask (fun m => { m with serve := m.serve.map (fun s => { s with log := some { l with head := v } }) }) := by
    rw [Dev.dbLog, hm]
    dsimp only
    rw [hu, Option.bind_some, hl]
    dsimp only
    rw [if_neg (by simp [hfn, h]), hlow]
    dsimp only
    rw [Dev.logGapDue]
    simp [hdrop]
  exact ⟨_, hdb, hdb ▸ hlow⟩

theorem dbLog_fails (h : l.ents ≤ v) : d.dbLog f p v = d.dbErr f := by
  rw [Dev.dbLog, hm]
  dsimp only
  rw [hu, Option.bind_some, hl]
  dsimp only
  rw [if_pos]
  simp [h]

end Log

/-- Settles O40: each doorbell is taken below its ring's entry count and refused from there on. -/
theorem doorbellsTakeTheirIndex : Obligations.DoorbellsTakeTheirIndex := by
  intro f v c s hserves d x n takes fails
  have htakes : ∀ {i : Instr} {e : Dev} {y : Func}, exec i s = .next { s with dev := e } → e = s.dev.setFunc f y → takes i y :=
    fun hi he => ⟨_, hi, he ▸ onlyFunc_setFunc s f _⟩
  have hfails : ∀ {i : Instr} {e : Dev}, exec i s = .next { s with dev := e } → e = s.dev.dbErr f → fails i := htakes
  have hsq := exec_dbCmdSqTail hserves v
  have hcq := exec_dbCmdCqHead hserves v
  have hctx := exec_dbCtxSqTail hserves c v
  have hring := exec_dbTokenRingHead hserves c v
  have hlog := exec_dbLogRingHead hserves c v
  refine ⟨fun h => htakes hsq (dbSq_takes h), fun h => hfails hsq (dbSq_fails h), fun h hheld => htakes hcq (dbCq_takes h hheld),
    fun h => hfails hcq (dbCq_fails h), fun k hk => ⟨fun h => ?qTail, fun h => hfails hctx (dbCtx_fails hk h), fun h hnone => ?rHead,
      fun h => hfails hring (dbRing_fails hk h)⟩, fun hk => ⟨hfails hctx (dbCtx_closed hk), hfails hring (dbRing_closed hk)⟩,
    fun m u l hm hu hl hfn => ⟨fun h hdrop => ?head, fun h => hfails hlog (dbLog_fails hm hu hl h)⟩, htakes (exec_hifCtrlEn hserves v) rfl⟩
  case qTail =>
    obtain ⟨m, honly, hk'⟩ := setCtx_takes s f c { k with qTail := n }
    exact ⟨_, m, by rw [hctx, dbCtx_takes hk h], honly, hk'⟩
  case rHead =>
    obtain ⟨m, honly, hk'⟩ := setCtx_takes s f c { k with rHead := n }
    exact ⟨_, m, by rw [hring, dbRing_takes hk h hnone], honly, hk'⟩
  case head =>
    obtain ⟨ms, hdb, hlow⟩ := dbLog_takes hm hu hl hfn h hdrop
    exact ⟨_, hlog, rfl, by rw [hdb], hlow⟩

end Sys2Proof.Machine

/-! ## The management target and the test port -/

namespace Sys2Proof.Machine

/-! ### Reads of the target (R415, R423 to R425) -/

/-- Byte i of a little-endian number. -/
theorem natLe_getD (v : Nat) : ∀ n i : Nat, i < n → ((natLe v n).map (fun b => b.toNat)).getD i 0 = v / 256 ^ i % 256
  | n + 1, 0, _ => by simp [natLe]
  | n + 1, i + 1, h => by
    have ih := natLe_getD (v / 256) n i (by omega)
    rw [natLe, List.map_cons, List.getD_cons_succ, ih, Nat.div_div_eq_div_mul, Nat.pow_succ, Nat.mul_comm]

/-- Words of four bytes one after the other. -/
theorem flatMap_words_getD (f : Nat → List Nat) (hf : ∀ k, (f k).length = 4) (n : Nat) :
    ((List.range n).flatMap f).length = 4 * n ∧ ∀ i, i < 4 * n → ((List.range n).flatMap f).getD i 0 = (f (i / 4)).getD (i % 4) 0 := by
  induction n with
  | zero => exact ⟨rfl, fun i hi => absurd hi (by omega)⟩
  | succ n ih =>
    obtain ⟨hlen, hget⟩ := ih
    rw [List.range_succ, List.flatMap_append, List.flatMap_singleton]
    refine ⟨by rw [List.length_append, hlen, hf]; omega, fun i hi => ?_⟩
    by_cases h : i < 4 * n
    · rw [List.getD_append _ _ _ _ (by rw [hlen]; exact h), hget i h]
    · rw [List.getD_append_right _ _ _ _ (by rw [hlen]; omega), hlen, show i / 4 = n by omega, show i - 4 * n = i % 4 by omega]

/-- The bytes that the target answers. -/
def Dev.mgmtBytes (d : Dev) (off n : Nat) : List Nat :=
  (List.range (n / 4)).flatMap (fun i => (natLe (d.shadowWord (off + 4 * i)) 4).map (fun b => b.toNat))

theorem mgmtBytes_spec (d : Dev) (off : Nat) {n : Nat} (hn : n % 4 = 0) : (d.mgmtBytes off n).length = n ∧
    ∀ i, i < n → (d.mgmtBytes off n).getD i 0 = d.shadowWord (off + i / 4 * 4) / 256 ^ (i % 4) % 256 := by
  obtain ⟨hlen, hget⟩ := flatMap_words_getD (fun i => (natLe (d.shadowWord (off + 4 * i)) 4).map (fun b => b.toNat))
    (fun k => by rw [List.length_map, natLe_length]) (n / 4)
  refine ⟨hlen.trans (by omega), fun i hi => (hget i (by omega)).trans ?_⟩
  rw [natLe_getD _ _ _ (by omega), Nat.mul_comm 4]

theorem exec_mgmtRead_off {s : State} (off n : Nat) (h : s.dev.pwr.st = .off) : exec (.mgmtRead off n) s = .next s :=
  show execMgmtRead off n s = _ from lift_of_eq (if_pos h)

theorem exec_mgmtRead_bad {s : State} {off n : Nat} (h : s.dev.pwr.st ≠ .off)
    (hbad : off % 4 ≠ 0 ∨ n % 4 ≠ 0 ∨ n < 4 ∨ 64 < n ∨ mgmtRange off n = false) :
    exec (.mgmtRead off n) s = .next { s with dev := s.dev.emit (.mgmtAnswer 1 []) } := by
  show execMgmtRead off n s = _
  refine lift_of_eq ((if_neg h).trans (if_pos ?_))
  simpa [or_assoc] using hbad

theorem exec_mgmtRead_good {s : State} {off n : Nat} (h : s.dev.pwr.st ≠ .off) (hoff : off % 4 = 0) (hn : n % 4 = 0) (hlo : 4 ≤ n)
    (hhi : n ≤ 64) (hr : mgmtRange off n = true) :
    exec (.mgmtRead off n) s = .next { s with dev := s.dev.emit (.mgmtAnswer 0 (s.dev.mgmtBytes off n)) } := by
  show execMgmtRead off n s = _
  refine lift_of_eq ((if_neg h).trans (if_neg ?_))
  simp [hoff, hn, hr, Nat.not_lt.mpr hlo, Nat.not_lt.mpr hhi]

/-! ### Shadows (R425) -/

/-- Under each key of a list the value of that key was written. -/
theorem lk_foldl_upTo {α : Type} (z : α) (g : Nat → α) (l : List Nat) (m : SMap α) (x : Nat) :
    lk z (l.foldl (fun m t => up m t (g t)) m) x = if x ∈ l then g x else lk z m x := by
  induction l generalizing m with
  | nil => rfl
  | cons t r ih =>
    rw [List.foldl_cons, ih, lk_up]
    by_cases hr : x ∈ r
    · simp [hr]
    · by_cases hx : x = t
      · simp [hx]
      · simp [hr, hx]

/-- The shadows once firmware copied every register. -/
def Dev.freshShadows (d : Dev) : SMap (BitVec 64) :=
  shadowRegs.foldl (fun m x => up m x (BitVec.ofNat 64 ((d.regAt x).elim 0 (fun r => r.val)))) d.shadows

theorem exec_shadowRefresh {s : State} (hrst : s.dev.rst = false) (hfw : s.dev.crm.phase = .firmware) :
    exec .shadowRefresh s = .next { s with dev := { s.dev with shadows := s.dev.freshShadows } } := by
  show execShadowRefresh s = _
  refine lift_of_eq (if_neg ?_)
  simp [hrst, hfw]

/-! ### A new board value (R416, R424) -/

/-- The identity blocks that the ports send are as before, and what was sent stays sent. -/
structure Dev.IdentitiesStay (d e : Dev) : Prop where
  only : d.PortsSent e
  outs : ∀ u, e.identityOuts u none = d.identityOuts u none
  identified : ∀ u, (e.port u).identified = (d.port u).identified
  sent : ∀ o ∈ d.out, o ∈ e.out

theorem Dev.IdentitiesStay.refl (d : Dev) : d.IdentitiesStay d := ⟨⟨_, _, rfl⟩, fun _ => rfl, fun _ => rfl, fun _ h => h⟩

theorem Dev.IdentitiesStay.trans {d e g : Dev} (h : d.IdentitiesStay e) (k : e.IdentitiesStay g) : d.IdentitiesStay g :=
  ⟨h.only.trans k.only, fun u => (k.outs u).trans (h.outs u), fun u => (k.identified u).trans (h.identified u), fun o ho => k.sent o (h.sent o ho)⟩

theorem mem_emits (d : Dev) (l : List Out) (o : Out) : o ∈ (d.emits l).out ↔ o ∈ l ∨ o ∈ d.out := by
  unfold Dev.emits
  induction l generalizing d with
  | nil => simp
  | cons x r ih =>
    rw [List.foldl_cons, ih, Dev.emit, List.mem_cons, List.mem_cons]
    tauto

/-- The device with an identity block noted as sent at port v. -/
theorem port_sendIdentity (d : Dev) (v u : Nat) : ∃ k, (d.sendIdentity v).port u = { d.port u with idSent := k } := by
  obtain ⟨o, ho⟩ := emits_eq (d.updPort v (fun x => { x with idSent := some d.turn.now.toNat })) (d.identityOuts v none)
  rw [Dev.sendIdentity, ho]
  by_cases h : u = v
  · subst h
    exact ⟨_, lk_up_same _ _ _ _⟩
  · exact ⟨_, lk_up_ne _ _ h _⟩

theorem sendIdentity_outs (d : Dev) (v : Nat) : ∀ o ∈ d.identityOuts v none, o ∈ (d.sendIdentity v).out :=
  fun o ho => (mem_emits _ _ o).mpr (.inl ho)

/-- An identity block does not tell when it was sent. -/
theorem sendIdentity_stays (d : Dev) (v : Nat) : d.IdentitiesStay (d.sendIdentity v) := by
  obtain ⟨ps, o, he⟩ := sendIdentity_portsSent d v
  have hport := port_sendIdentity d v
  refine ⟨⟨ps, o, he⟩, fun u => ?_, fun u => ?_, fun o ho => (mem_emits _ _ o).mpr (.inr ho)⟩
  · obtain ⟨k, hk⟩ := hport u
    rw [he] at hk ⊢
    unfold Dev.identityOuts Dev.ownIdentity Dev.ctrlOuts Dev.ctrlFrames Dev.frameTo
    rw [hk]
    rfl
  · obtain ⟨k, hk⟩ := hport u
    rw [hk]
    rfl

/-- The ports of a list that exchange identities send their own. -/
def Dev.announce (d : Dev) (us : List Nat) : Dev := us.foldl (fun d u => if (d.port u).identified then d.sendIdentity u else d) d

theorem announce_sends (us : List Nat) (d : Dev) : d.IdentitiesStay (d.announce us) ∧
    ∀ u ∈ us, (d.port u).identified = true → ∀ o ∈ d.identityOuts u none, o ∈ (d.announce us).out := by
  induction us generalizing d with
  | nil => exact ⟨.refl d, nofun⟩
  | cons v us ih =>
    have hfirst : d.IdentitiesStay (if (d.port v).identified then d.sendIdentity v else d) := by
      split
      · exact sendIdentity_stays d v
      · exact .refl d
    obtain ⟨hstay, hsent⟩ := ih (if (d.port v).identified then d.sendIdentity v else d)
    refine ⟨hfirst.trans hstay, fun u hu hid o ho => ?_⟩
    rcases List.mem_cons.mp hu with rfl | hu
    · exact hstay.sent o (by rw [if_pos hid]; exact sendIdentity_outs d u o ho)
    · exact hsent u hu ((hfirst.identified u).trans hid) o (by rw [hfirst.outs]; exact ho)

theorem identityChanged_eq (d : Dev) : d.identityChanged = d.announce (List.range 9) := rfl

/-- What a port sent is its identity block as it stands in the end. -/
theorem announce_tells (s : State) {us : List Nat} {u : Nat} (hu : u ∈ us) (hid : (s.dev.port u).identified = true) :
    IdentitySent { s with dev := s.dev.announce us } u := by
  intro o ho
  obtain ⟨hstay, hsent⟩ := announce_sends us s.dev
  exact hsent u hu hid o (by rw [← hstay.outs]; exact ho)

theorem exec_mgmtWriteBoard {s : State} {v : BitVec 64} (hon : s.dev.pwr.st ≠ .off) (hnew : s.dev.board ≠ v) :
    exec (.mgmtWriteBoard v) s = .next { s with
      dev := if s.dev.rst then { s.dev with board := v } else ({ s.dev with board := v } : Dev).announce (List.range 9) } := by
  show execMgmtWriteBoard v s = _
  refine lift_of_eq ((if_neg ?_).trans (by rw [← identityChanged_eq]))
  simp [hon, hnew]

theorem mgmtWriteBoard_tells {s : State} {v : BitVec 64} (hon : s.dev.pwr.st ≠ .off) (hnew : s.dev.board ≠ v) :
    ∃ t, exec (.mgmtWriteBoard v) s = .next t ∧ t.mem = s.mem ∧ t.dev.board = v ∧
      (s.dev.rst = true → t = { s with dev := { s.dev with board := v } }) ∧
      (s.dev.rst = false → ∀ u, u < 9 → (s.dev.port u).identified = true →
        IdentitySent t u ∧ (t.dev.ownIdentity u).board = v.toNat ∧ (t.dev.ownIdentity u).serial = s.dev.serial.toNat) := by
  have hnext := exec_mgmtWriteBoard hon hnew
  cases hrst : s.dev.rst with
  | true =>
    rw [hrst, if_pos rfl] at hnext
    exact ⟨_, hnext, rfl, rfl, fun _ => rfl, nofun⟩
  | false =>
    rw [hrst, if_neg Bool.false_ne_true] at hnext
    obtain ⟨ps, o, he⟩ := (announce_sends (List.range 9) { s.dev with board := v }).1.only
    refine ⟨_, hnext, rfl, by rw [he], nofun, fun _ u hu hid =>
      ⟨announce_tells { s with dev := { s.dev with board := v } } (List.mem_range.mpr hu) hid, ?_⟩⟩
    rw [he]
    exact ⟨rfl, rfl⟩

/-! ### The test port (R426) -/

/-- Instructions act while the device is enabled. -/
theorem exec_jtagInstruction {s : State} (hon : s.dev.pwr.enable = true) (j : JtagInstr) :
    exec (.jtagInstruction (.known j)) s = .next { s with dev := match j with
      | .idcode => ({ s.dev with jtag := .idcode } : Dev).emit (.jtagBits idcode)
      | .extest => { s.dev with jtag := if s.dev.rst then .extest else .bypass }
      | _ => { s.dev with jtag := j } } := by
  show execJtagInstruction (.known j) s = _
  unfold execJtagInstruction liftO
  cases j <;> simp only [hon, Bool.not_true, Bool.false_eq_true, if_false] <;> rfl

/-- Settles O60: the target's reads, the shadows, the board value and the test instructions, each by what its row does. -/
theorem boardAndTestPort : Obligations.BoardAndTestPort := by
  intro s
  refine ⟨fun off n => ⟨exec_mgmtRead_off off n, fun hon => ⟨exec_mgmtRead_bad hon, fun hoff hn hlo hhi hr => ?_⟩⟩,
    fun hrst hfw => ⟨_, exec_shadowRefresh hrst hfw, fun x hx => ?_, fun x hx => ?_⟩, fun v => mgmtWriteBoard_tells,
    fun hon => ⟨⟨_, exec_jtagInstruction hon .idcode, rfl, rfl⟩, exec_jtagInstruction hon .extest,
      exec_jtagInstruction hon .bypass, exec_jtagInstruction hon .samplePreload⟩, rfl⟩
  · exact ⟨_, exec_mgmtRead_good hon hoff hn hlo hhi hr, mgmtBytes_spec s.dev off hn⟩
  · rw [Dev.freshShadows, lk_foldl_upTo, if_pos hx]
  · rw [Dev.freshShadows, lk_foldl_upTo, if_neg hx]

end Sys2Proof.Machine

/-! ## Non-volatile writes -/

namespace Sys2Proof.Machine

/-! ### Completions -/

/-- A completion that can be written at once is all that a command's end changes. -/
theorem complete_completed {d : Dev} {f : Nat} (cid status result : Nat) (h : CanAnswer d f) :
    ∃ fs o, d.complete f cid status result = { d with funcs := fs, out := o } ∧
      ∀ t : State, t.dev.out = o → Completed t f cid status result := by
  obtain ⟨fs, o, he, -, ⟨slot, ph, hcpl⟩, -⟩ := complete_now cid status result h
  exact ⟨fs, o, he, fun t ht => ⟨_, _, _, ht ▸ hcpl⟩⟩

/-- A record of class LOG keeps no completion from its ring. -/
theorem raiseDev_canAnswer {d : Dev} {f : Nat} (code source : Nat) (detail : List Nat) (h : CanAnswer d f) :
    CanAnswer (d.raiseDev code 0 source detail) f := by
  obtain ⟨es, fs, o, he, hfuncs⟩ := raise_log (d := d) (e := devErr code 0 source detail) rfl
  obtain ⟨p, hp⟩ := hfuncs f
  have hfunc : (d.raiseDev code 0 source detail).func f = { d.func f with pba := p } := (congrArg (fun e : Dev => e.func f) he).trans hp
  rw [CanAnswer, hfunc]
  exact h

/-! ### Measuring and starting (R390, R391) -/

theorem exec_holdupMeasure {s : State} {dv : Nat} (vb : Nat) (hrst : s.dev.rst = false) (hfw : s.dev.crm.phase = .firmware) (hdv : dv ≠ 0) :
    exec (.holdupMeasure dv vb) s = .next { s with dev := { s.dev with pwr := { s.dev.pwr with
      cap := 1000000000 / dv, vbank := vb, energy := holdupEnergy (1000000000 / dv) vb, measured := true } } } := by
  show execHoldupMeasure dv vb s = _
  refine lift_of_eq (if_neg ?_)
  simp [hrst, hfw, hdv]

/-- What the bank reads at a voltage. -/
def Pwr.readAt (p : Pwr) (vb : Nat) : Pwr := { p with vbank := vb, energy := holdupEnergy p.cap vb }

/-- The device without a write that is no longer in progress. -/
def Dev.nvTaken (d : Dev) (id : Nat) : Dev := { d with pwr := { d.pwr with nv := d.pwr.nv.filter (fun y => y.id ≠ id) } }

section Start
variable {s : State} {id : Nat} {x : NvReq} (hx : s.dev.pwr.nv.find? (fun y => y.id == id) = some x)
include hx

/-- A write starts with energy in hand, and nothing else of its medium being written. -/
theorem exec_nvWriteStart_go {vb : Nat} (hnew : x.started = false) (hrst : s.dev.rst = false) (hmeas : s.dev.pwr.measured = true)
    (hcave : x.kind.isCave = false ∨ s.dev.flash.ready = true) (hinh : s.dev.pwr.inhibit = false)
    (hfree : ∀ y ∈ s.dev.pwr.nv.filter (fun y => y.started), y.kind.isCave ≠ x.kind.isCave)
    (hpower : 3 * x.need + 2 * ((s.dev.pwr.nv.filter (fun y => y.started)).map (fun y => y.need)).sum ≤ 2 * holdupEnergy s.dev.pwr.cap vb) :
    exec (.nvWriteStart id vb) s = .next { s with dev := { s.dev with pwr := { s.dev.pwr.readAt vb with
      nv := s.dev.pwr.nv.map (fun y => if y.id = id then { y with started := true } else y) } } } := by
  show execNvWriteStart id vb s = _
  refine lift_of_eq ?_
  have hmedium : (s.dev.pwr.nv.filter (fun y => y.started)).any (fun y => y.kind.isCave == x.kind.isCave) = false := by
    rw [List.any_eq_false]
    exact fun y hy h => hfree y hy (eq_of_beq h)
  have hready : (x.kind.isCave && !s.dev.flash.ready) = false := by
    rcases hcave with h | h
    · rw [h]; rfl
    · rw [h, Bool.not_true, Bool.and_false]
  dsimp only
  rw [hx]
  dsimp only
  rw [if_neg]
  · rfl
  · rw [hmedium, hready, hrst, hnew, hinh, hmeas, decide_eq_false (Nat.not_lt.mpr hpower)]
    decide

/-- Under the inhibit, or without the energy, it waits. -/
theorem exec_nvWriteStart_wait {vb : Nat} (hno : s.dev.pwr.inhibit = true ∨
      2 * holdupEnergy s.dev.pwr.cap vb < 3 * x.need + 2 * ((s.dev.pwr.nv.filter (fun y => y.started)).map (fun y => y.need)).sum) :
    exec (.nvWriteStart id vb) s = .next { s with dev := { s.dev with pwr := s.dev.pwr.readAt vb } } := by
  show execNvWriteStart id vb s = _
  refine lift_of_eq ?_
  dsimp only
  rw [hx]
  dsimp only
  rw [if_pos]
  · rfl
  · simp only [Bool.or_eq_true, decide_eq_true_eq]
    rcases hno with h | h
    · simp [h]
    · exact .inr h

/-- After 100 ms the write that waited is given up, and its command fails. -/
theorem holdupLow_caveWrite {f c off : Nat} {bs : List Byte} (hkind : x.kind = .caveWrite f c off bs) (hnew : x.started = false)
    (hdue : x.since + 625000 ≤ s.dev.turn.now.toNat) (hidle : s.dev.crm.attests = []) (hcan : CanAnswer s.dev f) :
    ∃ t, exec (.holdupLow id) s = .next t ∧ t.mem = s.mem ∧ t.cave = s.cave ∧ t.dev.pwr.nv = s.dev.pwr.nv.filter (fun y => y.id ≠ id) ∧
      Recorded t 0x74 0xFFFF [0, s.dev.pwr.energy] ∧ Completed t f c 12 0 := by
  have hnext : exec (.holdupLow id) s = .next { s with
      dev := (((s.dev.nvTaken id).raiseDev 0x74 0 17 [0, s.dev.pwr.energy]).complete f c stHoldupLow 0).attestAll } := by
    show execHoldupLow id s = _
    refine lift_of_eq ?_
    dsimp only
    rw [hx]
    dsimp only
    rw [hkind, if_neg (by simp [hnew, hdue])]
    rfl
  obtain ⟨es, fs, o, hraise, -⟩ := raiseDev_log (s.dev.nvTaken id) 0x74 17 [0, s.dev.pwr.energy]
  obtain ⟨fs', o', hdone, hcpl⟩ := complete_completed c stHoldupLow 0
    (raiseDev_canAnswer (d := s.dev.nvTaken id) 0x74 17 [0, s.dev.pwr.energy] hcan)
  have hatt : (((s.dev.nvTaken id).raiseDev 0x74 0 17 [0, s.dev.pwr.energy]).complete f c stHoldupLow 0).crm.attests = [] := by
    rw [hdone, hraise]
    exact hidle
  rw [Dev.attestAll, hatt, List.length_nil, attestRun] at hnext
  refine ⟨_, hnext, rfl, rfl, by rw [hdone, hraise]; rfl, ?_, hcpl _ (by rw [hdone])⟩
  rw [hdone]
  exact raiseDev_recorded (t := { s with dev := (s.dev.nvTaken id).raiseDev 0x74 0 17 [0, s.dev.pwr.energy] }) rfl

end Start

/-! ### A commit to the Cave (R300) -/

theorem rd_caveBytes_out (a : Nat) (bs : List Byte) (m : Memory) {x : Nat} (hx : x < a ∨ a + bs.length ≤ x) :
    (caveAll m (caveBytes a bs)).rd x = m.rd x := by
  induction bs generalizing a m with
  | nil => rfl
  | cons b r ih =>
    rw [List.length_cons] at hx
    calc (caveAll m (caveBytes a (b :: r))).rd x
        = (caveAll (m.wr a b) (caveBytes (a + 1) r)).rd x := rfl
      _ = (m.wr a b).rd x := ih (a + 1) _ (by omega)
      _ = m.rd x := Memory.rd_wr_ne b (by omega) m

theorem rd_caveBytes_in (a : Nat) (bs : List Byte) (m : Memory) (hm : m.wf) {i : Nat} (hi : i < bs.length) :
    (caveAll m (caveBytes a bs)).rd (a + i) = bs.getD i 0 := by
  induction bs generalizing a m i with
  | nil => exact absurd hi (Nat.not_lt_zero i)
  | cons b r ih =>
    have hstep : caveAll m (caveBytes a (b :: r)) = caveAll (m.wr a b) (caveBytes (a + 1) r) := rfl
    rw [hstep]
    cases i with
    | zero =>
      rw [rd_caveBytes_out (a + 1) r _ (by omega)]
      exact Memory.rd_wr_same b a m hm
    | succ i =>
      rw [show a + (i + 1) = a + 1 + i by omega, ih (a + 1) _ (Memory.wr_wf b a m hm) (Nat.lt_of_succ_lt_succ hi)]
      rfl

theorem memAll_caveBytes (m : Memory) (a : Nat) (bs : List Byte) : memAll m (caveBytes a bs) = m := by
  induction bs generalizing a with
  | nil => rfl
  | cons b r ih => exact ih (a + 1)

/-- Where the map in force stays, no byte moves. -/
theorem remapped_same {d d0 : Dev} (h : d0.good = d.good) : (d.remapped d0).2 = [] ∧ ∃ n, (d.remapped d0).1 = { d with net := n } := by
  have hmoves : d0.moves d = [] := by
    rw [Dev.moves, h, if_pos]
    simp
  rw [Dev.remapped, hmoves]
  exact ⟨rfl, _, rfl⟩

/-- The device once the last commit of a CAVE_WRITE is done: the medium has worn, and the command is completed. -/
theorem nvEffect_caveWrite {d : Dev} {f c off : Nat} {bs : List Byte} (hlen : bs.length ≤ commitBytes) (hnew : d.flash.worn = false) :
    ∃ fl, d.nvEffect (.caveWrite f c off bs) = ({ d with flash := fl }, caveBytes off bs) := by
  rw [Dev.nvEffect, List.take_of_length_le hlen, Dev.program, hnew]
  exact ⟨_, rfl⟩

theorem nvDone_caveWrite {d : Dev} (cave : Memory) {f c off : Nat} {bs : List Byte} (hlen : bs.length ≤ commitBytes) :
    d.nvDone cave false (.caveWrite f c off bs) = d.complete f c stOk 0 := by
  rw [Dev.nvDone, List.drop_eq_nil_of_le hlen]
  rfl

/-- The end of an orderly stop, where no write is left (R385). -/
def Dev.stopEnded (d : Dev) : Dev :=
  if d.pwr.st = .stopping ∧ d.pwr.nv.isEmpty then { d with pwr := { d.pwr with st := .standby } } else d

theorem stopEnded_keeps (d : Dev) : d.stopEnded.pwr.nv = d.pwr.nv ∧ d.stopEnded.out = d.out := by
  unfold Dev.stopEnded
  split <;> exact ⟨rfl, rfl⟩

/-- The device when write x of that number is done, before the words move with a new map. -/
def Dev.nvEnd (d : Dev) (cave : Memory) (id : Nat) (x : NvReq) : Dev :=
  ((d.nvTaken id).nvEffect x.kind).1.nvDone (caveAll cave ((d.nvTaken id).nvEffect x.kind).2) d.flash.worn x.kind

theorem exec_nvWriteComplete {s : State} {id : Nat} {x : NvReq} (hx : s.dev.pwr.nv.find? (fun y => y.id == id && y.started) = some x)
    {w : List MemOp} (hw : ((s.dev.nvTaken id).nvEffect x.kind).2 ++ ((s.dev.nvEnd s.cave id x).remapped (s.dev.nvTaken id)).2 = w) :
    exec (.nvWriteComplete id) s = .next { s with
      dev := ((s.dev.nvEnd s.cave id x).remapped (s.dev.nvTaken id)).1.stopEnded
      mem := memAll s.mem w
      cave := caveAll s.cave w } := by
  show execNvWriteComplete id s = _
  refine liftW_of_eq ?_
  dsimp only
  rw [hx, ← hw]
  rfl

/-- A commit of at most 256 KiB that ends its CAVE_WRITE: its bytes stand in the Cave, and the command is done. -/
theorem nvWriteComplete_caveWrite {s : State} {id n need since f c off : Nat} {bs : List Byte}
    (hx : s.dev.pwr.nv.find? (fun y => y.id == id && y.started) = some ⟨n, need, true, since, .caveWrite f c off bs⟩)
    (hlen : bs.length ≤ 262144) (hnew : s.dev.flash.worn = false) (hcave : s.cave.wf) (hcan : CanAnswer s.dev f) :
    ∃ t, exec (.nvWriteComplete id) s = .next t ∧ t.mem = s.mem ∧ (∀ i, i < bs.length → t.cave.rd (off + i) = bs.getD i 0) ∧
      (∀ a, a < off ∨ off + bs.length ≤ a → t.cave.rd a = s.cave.rd a) ∧
      t.dev.pwr.nv = s.dev.pwr.nv.filter (fun y => y.id ≠ id) ∧ Completed t f c 0 0 := by
  obtain ⟨fl, heffect⟩ := nvEffect_caveWrite (d := s.dev.nvTaken id) (f := f) (c := c) (off := off) hlen hnew
  obtain ⟨fs, o, hdone, hcpl⟩ := complete_completed (d := { s.dev.nvTaken id with flash := fl }) c stOk 0 hcan
  have hend : s.dev.nvEnd s.cave id ⟨n, need, true, since, .caveWrite f c off bs⟩ =
      { s.dev.nvTaken id with flash := fl, funcs := fs, out := o } := by
    rw [Dev.nvEnd, heffect, hnew, nvDone_caveWrite _ hlen, hdone]
  obtain ⟨hops, net, hmap⟩ := remapped_same (d := { s.dev.nvTaken id with flash := fl, funcs := fs, out := o }) (d0 := s.dev.nvTaken id) rfl
  have hex := exec_nvWriteComplete hx (w := caveBytes off bs) (by rw [hend, heffect, hops, List.append_nil])
  obtain ⟨hnv, hout⟩ := stopEnded_keeps (({ s.dev.nvTaken id with flash := fl, funcs := fs, out := o } : Dev).remapped (s.dev.nvTaken id)).1
  rw [hend] at hex
  exact ⟨_, hex, memAll_caveBytes _ _ _, fun i hi => rd_caveBytes_in off bs s.cave hcave hi, fun a ha => rd_caveBytes_out off bs s.cave ha,
    by rw [hnv, hmap]; rfl, hcpl _ (by rw [hout, hmap])⟩

/-- Settles O37: the measure, the start of a write or its waiting, the write given up, and the commit. -/
theorem nonVolatileWrites : Obligations.NonVolatileWrites := by
  intro s
  refine ⟨fun dv vb hrst hfw hdv => exec_holdupMeasure vb hrst hfw hdv, fun id x hx hnew => ⟨fun vb hrst hmeas hcave =>
      ⟨exec_nvWriteStart_go hx hnew hrst hmeas hcave, exec_nvWriteStart_wait hx⟩, fun f c off bs hkind hdue hidle hcan =>
      holdupLow_caveWrite hx hkind hnew hdue hidle hcan⟩, fun id n need since f c off bs hx hlen hnew hcave hcan =>
    nvWriteComplete_caveWrite hx hlen hnew hcave hcan⟩

end Sys2Proof.Machine

/-! ## The 36 V supply and hot plug -/

namespace Sys2Proof.Machine

/-! ### The orderly stop (R385) -/

/-- A port that goes down changes ports and the Turn alone. -/
theorem portDown_spec (d : Dev) (u : Nat) : ∃ tn, d.portDown u = { d.setPort u (d.port u).goDown with turn := tn } := by
  unfold Dev.portDown
  extract_lets e1 e2
  split
  · exact ⟨_, rfl⟩
  · exact ⟨_, rfl⟩

/-- The ports of a list go down. -/
def Dev.portsDown (d : Dev) (us : List Nat) : Dev := us.foldl (fun d u => if (d.port u).st = .down then d else d.portDown u) d

theorem portsDown_spec (us : List Nat) (d : Dev) : (∃ ps tn, d.portsDown us = { d with ports := ps, turn := tn }) ∧
    (∀ u ∈ us, ((d.portsDown us).port u).st = .down) ∧ ∀ u, (d.port u).st = .down → ((d.portsDown us).port u).st = .down := by
  induction us generalizing d with
  | nil => exact ⟨⟨_, _, rfl⟩, nofun, fun _ h => h⟩
  | cons v us ih =>
    obtain ⟨⟨ps, tn, he⟩, hall, hstay⟩ := ih (if (d.port v).st = .down then d else d.portDown v)
    have hfirst : (∃ ps tn, (if (d.port v).st = .down then d else d.portDown v) = { d with ports := ps, turn := tn }) ∧
        ((if (d.port v).st = .down then d else d.portDown v).port v).st = .down ∧
        ∀ u, (d.port u).st = .down → ((if (d.port v).st = .down then d else d.portDown v).port u).st = .down := by
      split
      · next hdown => exact ⟨⟨_, _, rfl⟩, hdown, fun _ h => h⟩
      · obtain ⟨tn, hv⟩ := portDown_spec d v
        rw [hv]
        refine ⟨⟨_, _, rfl⟩, congrArg Port.st (lk_up_same _ _ _ _), fun u hu => ?_⟩
        by_cases huv : u = v
        · subst huv
          exact congrArg Port.st (lk_up_same _ _ _ _)
        · exact (congrArg Port.st (lk_up_ne _ _ huv _)).trans hu
    obtain ⟨⟨ps', tn', hv⟩, hdown, hkeep⟩ := hfirst
    refine ⟨⟨ps, tn, he.trans (by rw [hv])⟩, fun u hu => ?_, fun u hu => hstay u (hkeep u hu)⟩
    rcases List.mem_cons.mp hu with rfl | hu
    · exact hstay u hdown
    · exact hall u hu

theorem startedNv_isEmpty (l : List NvReq) : (startedNv l).isEmpty = !l.any (fun x => x.started) := by
  induction l with
  | nil => rfl
  | cons x r ih =>
    unfold startedNv at ih ⊢
    cases hx : x.started
    · simpa [hx] using ih
    · simp [hx]

/-- The rest of the stop: sequencers halted, regions clock-gated, functions gone, device reset asserted. -/
def Dev.stopped (d : Dev) : Dev :=
  let nv := startedNv d.pwr.nv
  { d with
    rst := true
    cores := d.cores.map (fun (e : Nat × Core) => (e.1, e.2.halt .error))
    clk := { d.clk with sleep := (List.range 52).map (fun r => (r, Sleep.clockGated)) }
    funcs := d.funcs.map (fun (e : Nat × Func) => (e.1, { Func.reset with perst := e.2.perst }))
    pwr := { d.pwr with st := if nv.isEmpty then .standby else .stopping, sag := true, stopRan := true, nv := nv } }

theorem orderlyStop_eq (d : Dev) : d.orderlyStop = (d.portsDown (List.range 9)).stopped := by
  rw [Dev.orderlyStop, Dev.stopped, Dev.portsDown]

/-- What the statement says of a device that has stopped in order. -/
structure State.StoppedFrom (s : State) (d : Dev) (t : State) : Prop where
  mem : t.mem = s.mem
  cave : t.cave = s.cave
  rst : t.dev.rst = true
  cores : t.dev.cores = d.cores.map (fun e => (e.1, e.2.halt .error))
  regions : ∀ r, r < 52 → lk Sleep.run t.dev.clk.sleep r = .clockGated
  ports : ∀ u, u < 9 → (t.dev.port u).st = .down
  sag : t.dev.pwr.sag = true
  st : t.dev.pwr.st = if d.pwr.nv.any (fun x => x.started) then .stopping else .standby
  enable : t.dev.pwr.enable = d.pwr.enable

theorem orderlyStop_stopped (s : State) (d : Dev) : ∃ e, d.orderlyStop = e ∧ e.errs = d.errs ∧ s.StoppedFrom d { s with dev := e } := by
  obtain ⟨⟨ps, tn, he⟩, hdown, -⟩ := portsDown_spec (List.range 9) d
  rw [orderlyStop_eq]
  generalize d.portsDown (List.range 9) = e at he hdown
  refine ⟨_, rfl, by rw [he]; rfl, rfl, rfl, rfl, ?_, fun r hr => ?_, fun u hu => hdown u (List.mem_range.mpr hu), rfl, ?_, ?_⟩
  · rw [he]; rfl
  · exact (lk_map_keys _ (fun _ => Sleep.clockGated) r _).trans (if_pos (List.mem_range.mpr hr))
  · rw [he]
    change (if (startedNv d.pwr.nv).isEmpty then PwrState.standby else .stopping) = _
    rw [startedNv_isEmpty]
    cases d.pwr.nv.any (fun x => x.started) <;> rfl
  · rw [he]; rfl

/-- The record of a failing supply, kept in ERR_LASTDEV, whose hosts are told (R399, R409). -/
def Dev.sagNoted (d : Dev) (mv : Nat) : Dev :=
  ({ d with errs := { d.errs.put (d.mkRec (devErr 0x73 3 15 [mv])) with lastDev := some (d.mkRec (devErr 0x73 3 15 [mv])) } } : Dev).irqs 3 0

theorem sagNoted_spec (d : Dev) (mv : Nat) : (∃ es fs o, d.sagNoted mv = { d with errs := es, funcs := fs, out := o }) ∧
    (d.sagNoted mv).errs.ring = (d.errs.put (d.mkRec (devErr 0x73 3 15 [mv]))).ring ∧
    (d.sagNoted mv).errs.lastDev = some (d.mkRec (devErr 0x73 3 15 [mv])) := by
  obtain ⟨es, fs, o, he, hring, -⟩ := irqs_spec ({ d with errs := { d.errs.put (d.mkRec (devErr 0x73 3 15 [mv])) with
    lastDev := some (d.mkRec (devErr 0x73 3 15 [mv])) } } : Dev) 3 0
  refine ⟨⟨es, fs, o, he⟩, ?_, irqs_lastDev _ 3 0⟩
  rw [Dev.sagNoted, he]
  exact hring

theorem exec_orderlyStop {s : State} {mv : Nat} (hrun : s.dev.pwr.st = .run) (hlow : mv < 31000) :
    exec (.orderlyStop mv) s = .next { s with dev := (s.dev.sagNoted mv).orderlyStop } := by
  show execOrderlyStop mv s = _
  refine lift_of_eq (if_neg ?_)
  simp [hrun, hlow]

theorem exec_enableBreak_run {s : State} (hrun : s.dev.pwr.st = .run) :
    exec .enableBreak s = .next { s with dev := ({ s.dev with pwr := { s.dev.pwr with enable := false } } : Dev).orderlyStop } :=
  show execEnableBreak s = _ from lift_of_eq (if_pos hrun)

/-! ### Everything off (R384, R387) -/

/-- The writes that the bank finishes change what lies in flash, and no byte of the SRAM. -/
theorem nvEffect_keeps (d : Dev) (k : NvKind) : (d.nvEffect k).1.pwr = d.pwr ∧ ∀ m, memAll m (d.nvEffect k).2 = m := by
  have hprogram : ∀ off bs, (d.program off bs).1.pwr = d.pwr ∧ ∀ m, memAll m (d.program off bs).2 = m := fun off bs => by
    unfold Dev.program
    split
    · exact ⟨rfl, fun _ => rfl⟩
    · exact ⟨rfl, fun m => memAll_caveBytes m off bs⟩
  have hcommit : ∀ g, (d.sysCommit g).pwr = d.pwr := fun g => by
    unfold Dev.sysCommit
    split <;> rfl
  cases k with
  | caveWrite | caveShard => exact hprogram _ _
  | keyInstall | keyRemove | mouldCopy => exact ⟨hcommit _, fun _ => rfl⟩
  | retire | leaf => exact ⟨rfl, fun _ => rfl⟩
  | recProgram left im =>
    refine ⟨?_, fun _ => rfl⟩
    unfold Dev.nvEffect
    dsimp only
    split <;> rfl

theorem finishNv_keeps (d : Dev) : d.finishNv.1.pwr = d.pwr ∧ ∀ m, memAll m d.finishNv.2 = m := by
  unfold Dev.finishNv
  refine List.foldlRecOn (motive := fun a : Dev × List MemOp => a.1.pwr = d.pwr ∧ ∀ m, memAll m a.2 = m) _ _ ⟨rfl, fun _ => rfl⟩ ?_
  rintro ⟨e, w⟩ ⟨hpwr, hmem⟩ x -
  obtain ⟨hpwr', hmem'⟩ := nvEffect_keeps e x.kind
  refine ⟨hpwr'.trans hpwr, fun m => ?_⟩
  rw [memAll, List.foldl_append]
  exact (hmem' _).trans (hmem m)

/-- What is left when everything loses power. -/
theorem powerOff_spec (d : Dev) : d.powerOff.1.pwr.st = .off ∧ d.powerOff.1.pwr.ovp = d.pwr.ovp ∧
    d.powerOff.1.pwr.switch = (d.pwr.switch && d.pwr.enable) ∧ d.powerOff.1.rst = true ∧ d.powerOff.1.cores = [] ∧ d.powerOff.1.moulds = [] ∧
    d.powerOff.1.ports = [] ∧ d.powerOff.1.errs = Errs.reset ∧ d.powerOff.1.turn = Turn.reset ∧ ∀ m, memAll m d.powerOff.2 = m := by
  obtain ⟨hpwr, hmem⟩ := finishNv_keeps d
  refine ⟨rfl, ?_, ?_, rfl, rfl, rfl, rfl, rfl, rfl, hmem⟩
  · show d.finishNv.1.pwr.ovp = _
    rw [hpwr]
  · show (d.finishNv.1.pwr.switch && d.finishNv.1.pwr.enable) = _
    rw [hpwr]

theorem exec_uvloOff {s : State} {mv : Nat} (hon : s.dev.pwr.st ≠ .off) (hlow : mv < 29000) :
    exec (.uvloOff mv) s = .next { s with
      dev := s.dev.powerOff.1, mem := memAll s.mem s.dev.powerOff.2, cave := caveAll s.cave s.dev.powerOff.2 } := by
  show execUvloOff mv s = _
  refine liftW_of_eq (if_neg ?_)
  simp [hon, hlow]

/-- The device with its input switch opened by an overvoltage. -/
def Dev.switchedOpen (d : Dev) : Dev := { d with pwr := { d.pwr with ovp := true, switch := false } }

theorem exec_overvoltage {s : State} {mv : Nat} (hnew : s.dev.pwr.ovp = false) (hhigh : 42000 < mv) :
    exec (.overvoltage mv) s = .next { s with dev := s.dev.switchedOpen.powerOff.1
                                              mem := memAll s.mem s.dev.switchedOpen.powerOff.2
                                              cave := caveAll s.cave s.dev.switchedOpen.powerOff.2 } := by
  show execOvervoltage mv s = _
  refine liftW_of_eq (if_neg ?_)
  simp [hnew, hhigh]

/-! ### The statement -/

/-- The device with its non-volatile writes inhibited. -/
def Dev.inhibited (d : Dev) : Dev := { d with pwr := { d.pwr with inhibit := true } }

/-- Below 33.0 V the inhibit is set, and a device out of reset records it. -/
theorem supplyInhibit_sets {s : State} {mv : Nat} (hon : s.dev.pwr.st ≠ .off) (hnew : s.dev.pwr.inhibit = false) (hlow : mv < 33000) :
    ∃ t, exec (.supplyInhibit mv) s = .next t ∧ t.mem = s.mem ∧ t.dev.pwr = { s.dev.pwr with inhibit := true } ∧
      (s.dev.rst = false → Recorded t 0x73 0xFFFF [mv]) := by
  have hnext : exec (.supplyInhibit mv) s =
      .next { s with dev := if s.dev.rst then s.dev.inhibited else s.dev.inhibited.raiseDev 0x73 0 15 [mv] } := by
    show execSupplyInhibit mv s = _
    refine lift_of_eq (if_neg ?_)
    simp [hon, hnew, hlow]
  refine ⟨_, hnext, rfl, ?_, fun hrst => ?_⟩
  · dsimp only
    split
    · rfl
    · obtain ⟨es, fs, o, he, -⟩ := raiseDev_log s.dev.inhibited 0x73 15 [mv]
      rw [he]
      rfl
  · rw [hrst]
    exact raiseDev_recorded (source := 15) rfl

/-- Below 31.0 V a running device stops in order, with its record in the ring and in ERR_LASTDEV. -/
theorem orderlyStop_stops {s : State} {mv : Nat} (hrun : s.dev.pwr.st = .run) (hlow : mv < 31000) :
    ∃ t, exec (.orderlyStop mv) s = .next t ∧ s.StoppedFrom s.dev t ∧ Recorded t 0x73 0xFFFF [mv] ∧
      ∃ r, t.dev.errs.lastDev = some r ∧ r.code = 0x73 ∧ r.detail = [mv] := by
  obtain ⟨⟨es, fs, o, he⟩, hring, hlast⟩ := sagNoted_spec s.dev mv
  obtain ⟨e, hstop, herrs, hst⟩ := orderlyStop_stopped s (s.dev.sagNoted mv)
  obtain ⟨n, hn, hcode, hcore, hdetail⟩ := put_newest s.dev.errs (s.dev.mkRec (devErr 0x73 3 15 [mv]))
  have hnext := exec_orderlyStop hrun hlow
  rw [hstop] at hnext
  refine ⟨_, hnext, ⟨rfl, rfl, hst.rst, hst.cores.trans (by rw [he]), hst.regions, hst.ports, hst.sag, hst.st.trans (by rw [he]),
    hst.enable.trans (by rw [he])⟩, ⟨n, ?_, hcode, hcore, hdetail⟩, s.dev.mkRec (devErr 0x73 3 15 [mv]), ?_, rfl, rfl⟩
  · rw [herrs, hring]
    exact hn
  · rw [herrs]
    exact hlast

/-- Settles O36: the thresholds of the input one by one, the orderly stop, and the pins. -/
theorem supplyAndHotPlug : Obligations.SupplyAndHotPlug := by
  intro s mv
  refine ⟨supplyInhibit_sets, fun hinh hhigh => ?_, fun hrun hlow => ?_, fun hst hran hen hhigh => ?_, fun hon hlow => ?_,
    fun hoff hpre hovp hhigh => ?_, fun hnew hhigh => ?_, fun hovp hlow => ?_, fun hpre => ?_, rfl, fun c hpre hovp hlo hhi => ?_,
    fun hrun => ?_, fun hrun => ?_⟩
  · show execSupplyInhibitRelease mv s = _
    exact lift_of_eq (if_pos (by simp [hinh, hhigh]))
  · obtain ⟨t, hex, hstop, hrec⟩ := orderlyStop_stops hrun hlow
    exact ⟨t, hex, ⟨hstop.mem, hstop.cave, hstop.rst, hstop.cores, hstop.regions, hstop.ports, hstop.sag, hstop.st⟩, hrec⟩
  · refine ⟨_, show execSupplyRecover mv s = _ from lift_of_eq (if_pos (by simp [hst, hran, hen, hhigh])), ?_, rfl, rfl⟩
    exact fullReset_restarted { s with dev := { s.dev with pwr := { s.dev.pwr with st := .run } } } 6
  · obtain ⟨hst, -, -, hrst, hcores, hmoulds, hports, herrs, hturn, hmem⟩ := powerOff_spec s.dev
    exact ⟨_, exec_uvloOff hon hlow, hmem _, hst, hrst, hcores, hmoulds, hports, herrs, hturn⟩
  · show execUvloOn mv s = _
    exact lift_of_eq (if_pos (by simp [hoff, hpre, hovp, hhigh]))
  · obtain ⟨hst, hovp, hswitch, hrst, hcores, -, -, -, -, hmem⟩ := powerOff_spec s.dev.switchedOpen
    exact ⟨_, exec_overvoltage hnew hhigh, hmem _, hst, hovp, hswitch, hrst, hcores⟩
  · show execOvervoltageRecover mv s = _
    exact lift_of_eq (if_pos (by simp [hovp, hlow]))
  · show execUvloOn mv s = _
    exact lift_of_eq (if_neg (by simp [hpre]))
  · show execInputSwitchClose c mv s = _
    exact lift_of_eq (if_pos (by simp [hpre, hovp, hlo, hhi]))
  · show execEnableBreak s = _
    exact lift_of_eq (if_neg hrun)
  · obtain ⟨e, hstop, -, hst⟩ := orderlyStop_stopped s { s.dev with pwr := { s.dev.pwr with enable := false } }
    have hnext := exec_enableBreak_run hrun
    rw [hstop] at hnext
    exact ⟨_, hnext, ⟨rfl, rfl, hst.rst, hst.cores, hst.regions, hst.ports, hst.sag, hst.st⟩, hst.enable⟩

end Sys2Proof.Machine

/-! ## Functions that come and go -/

namespace Sys2Proof.Machine

/-! ### Links and configuration requests (R333, R348) -/

/-- PERST_N released: the link trains, and the arbiter serves the function again. -/
theorem perstDeassert_trains {f : FnId} {s : State} (hperst : (s.dev.func f).perst = true) (hrst : s.dev.rst = false) :
    ∃ t, exec (.perstDeassert f) s = .next t ∧ t.mem = s.mem ∧
      t.dev.func f = { s.dev.func f with perst := false, linkUp := s.dev.linkOf f,
                                         ready := s.dev.linkOf f && s.dev.crm.fwReady && !(s.dev.func f).wedged && (s.dev.func f).left.isNone } ∧
      bit (t.dev.arb 2).masked.toNat (4 + f.val) = false := by
  refine ⟨_, show execPerstDeassert f s = _ from lift_of_eq ((if_neg ?_).trans (if_neg ?_)), rfl, Dev.func_setFunc _ _ _, ?_⟩
  · rw [hperst]; decide
  · rw [hrst]; decide
  · dsimp only
    rw [Dev.unmask, Dev.arb_setArb]
    have hf := f.isLt
    exact (bit_and_not_two_pow _ _ (by omega)).trans (if_pos rfl)

section Config
variable {f : FnId} {s : State} (hrst : s.dev.rst = false) (hperst : (s.dev.func f).perst = false) (hlink : s.dev.linkOf f = true)
include hrst hperst hlink

theorem exec_configRequest : exec (.configRequest f) s = .next { s with dev := s.dev.emit (
    if s.dev.crm.phase = .recovery then .configDone f (cfgSpace 0x09F0)
    else if (s.dev.func f).ready && (s.dev.func f).left.isNone && !(s.dev.func f).wedged then .configDone f (cfgSpace 0x0960)
    else .rrs f) } := by
  show execConfigRequest f s = _
  refine lift_of_eq ((if_neg ?_).trans ?_)
  · simp [hrst, hperst, hlink]
  · split
    · rfl
    · split <;> rfl

end Config

/-! ### A function that leaves (R345, R355) -/

/-- The function's registers as it leaves. -/
def Func.leaving (x : Func) (why : LeaveWhy) (now : Nat) : Func :=
  { x with perst := x.perst || decide (why = .perst), linkUp := if why.down then false else x.linkUp, left := some now }

/-- The device with function f on its way out: what changed but its registers, and its channels down where its link is cut. -/
structure Dev.Leaving (d e : Dev) (f : Nat) (why : LeaveWhy) : Prop where
  only : ∃ fs xs cs cr, e = { d with funcs := fs, arbs := xs, chans := cs, crm := cr }
  func : e.func f = (d.func f).leaving why d.turn.now.toNat
  others : ∀ g, g ≠ f → e.func g = d.func g
  chans : why.cuts = true → ∀ c ∈ e.chans, c.fn = f → c.down = true

/-- PERST_Nk and the link of a function that leaves. -/
def Dev.unlinked (d : Dev) (f : Nat) (why : LeaveWhy) : Dev :=
  let d1 := if why = .perst then (d.setFunc f { d.func f with perst := true }).setArb 2 ((d.arb 2).mask (4 + f)) else d
  if why.down then d1.updFunc f (fun x => { x with linkUp := false }) else d1

theorem unlinked_spec (d : Dev) (f : Nat) (why : LeaveWhy) : (∃ fs xs, d.unlinked f why = { d with funcs := fs, arbs := xs }) ∧
    (d.unlinked f why).func f = { d.func f with perst := (d.func f).perst || decide (why = .perst)
                                                linkUp := if why.down then false else (d.func f).linkUp } ∧
    ∀ g, g ≠ f → (d.unlinked f why).func g = d.func g := by
  have hother : ∀ (e : Dev) (x : Func) (g : Nat), g ≠ f → (e.setFunc f x).func g = e.func g := fun e x g hg => Dev.func_setFunc_ne e hg x
  cases why with
  | perst =>
    refine ⟨⟨_, _, rfl⟩, ?_, fun g hg => ?_⟩
    · simp [Dev.unlinked, LeaveWhy.down, Dev.updFunc, Dev.setArb, Dev.setFunc, Dev.func]
    · exact (hother _ _ g hg).trans (hother d _ g hg)
  | linkDown | linkDisabled =>
    refine ⟨⟨_, _, rfl⟩, ?_, fun g hg => hother d _ g hg⟩
    simp [Dev.unlinked, LeaveWhy.down]
  | hotReset | d3hot | enablesCleared =>
    refine ⟨⟨_, _, rfl⟩, ?_, fun g hg => rfl⟩
    simp [Dev.unlinked, LeaveWhy.down]

/-- The channels of a function whose link is cut. -/
def Dev.cutChans (d : Dev) (f : Nat) (why : LeaveWhy) : Dev :=
  if why.cuts then { d with chans := d.chans.map (fun (c : Chan) => if c.fn = f then { c with down := true } else c) } else d

/-- A download of recovery that has not begun to program is abandoned with its function. -/
def Dev.stopDownload (d : Dev) (f : Nat) : Dev :=
  if d.crm.phase = .recovery && d.crm.recOwner = f && (d.crm.recState = 1 || d.crm.recState = 2) then
    { d with crm := { d.crm with recState := 0 } } else d

/-- The device with the tick noted at which a function left. -/
def Dev.leftNoted (d : Dev) (f : Nat) : Dev :=
  if (d.func f).left.isNone then d.setFunc f { d.func f with left := some d.turn.now.toNat } else d

theorem cutChans_spec (d : Dev) (f : Nat) (why : LeaveWhy) : (∃ cs, d.cutChans f why = { d with chans := cs }) ∧
    (why.cuts = true → ∀ c ∈ (d.cutChans f why).chans, c.fn = f → c.down = true) := by
  unfold Dev.cutChans
  by_cases hcut : why.cuts = true
  · rw [if_pos hcut]
    refine ⟨⟨_, rfl⟩, fun _ c hc hfn => ?_⟩
    obtain ⟨k, -, rfl⟩ := List.mem_map.mp hc
    by_cases hk : k.fn = f
    · rw [if_pos hk]
    · rw [if_neg hk] at hfn
      exact absurd hfn hk
  · rw [if_neg hcut]
    exact ⟨⟨_, rfl⟩, fun h => absurd h hcut⟩

theorem stopDownload_spec (d : Dev) (f : Nat) : ∃ cr, d.stopDownload f = { d with crm := cr } := by
  unfold Dev.stopDownload
  split <;> exact ⟨_, rfl⟩

theorem functionLeave_leaves {f : FnId} {s : State} {why : LeaveWhy} (hrst : s.dev.rst = false) (hperst : (s.dev.func f).perst = false)
    (hleft : (s.dev.func f).left = none) : ∃ e, s.dev.Leaving e f why ∧ exec (.functionLeave f why) s = .next { s with dev := e.teardownIdle } := by
  refine ⟨(((s.dev.unlinked f why).cutChans f why).stopDownload f).leftNoted f, ?_, ?_⟩
  · obtain ⟨⟨fs, xs, hlink⟩, hfunc, hothers⟩ := unlinked_spec s.dev f why
    obtain ⟨⟨cs, hcut⟩, hchans⟩ := cutChans_spec (s.dev.unlinked f why) f why
    obtain ⟨cr, hstop⟩ := stopDownload_spec ((s.dev.unlinked f why).cutChans f why) f
    rw [hcut] at hchans
    rw [hstop, hcut]
    have hnow : (s.dev.unlinked f why).turn = s.dev.turn := by rw [hlink]
    have hnone : ((s.dev.unlinked f why).func f).left = none := by rw [hfunc]; exact hleft
    have hnoted : ({ s.dev.unlinked f why with chans := cs, crm := cr } : Dev).leftNoted f =
        ({ s.dev.unlinked f why with chans := cs, crm := cr } : Dev).setFunc f
          { (s.dev.unlinked f why).func f with left := some (s.dev.unlinked f why).turn.now.toNat } :=
      if_pos (show ((s.dev.unlinked f why).func f).left.isNone = true by rw [hnone]; rfl)
    rw [hnoted]
    refine ⟨?_, ?_, fun g hg => ?_, hchans⟩
    · rw [hlink]
      exact ⟨_, _, _, _, rfl⟩
    · rw [Dev.func_setFunc, hfunc, hnow]
      rfl
    · exact (Dev.func_setFunc_ne _ hg _).trans (hothers g hg)
  · show execFunctionLeave f why s = _
    refine lift_of_eq (if_neg (c := ((s.dev.unlinked f why).rst || ((s.dev.func f).perst && why != .perst)) = true) ?_)
    obtain ⟨⟨fs, xs, hlink⟩, -⟩ := unlinked_spec s.dev f why
    rw [hlink, hperst, Bool.false_and, Bool.or_false]
    exact Bool.eq_false_iff.mp hrst

/-! ### The teardown (R345) -/

theorem tryTeardown_here {d : Dev} {f : Nat} (h : (d.func f).left = none) : d.tryTeardown f = d := by
  rw [Dev.tryTeardown, h]
  rfl

theorem foldl_tryTeardown_here {l : List Nat} {d : Dev} (h : ∀ g ∈ l, (d.func g).left = none) : l.foldl (fun d f => d.tryTeardown f) d = d := by
  induction l with
  | nil => rfl
  | cons g l ih =>
    rw [List.foldl_cons, tryTeardown_here (h g (List.mem_cons_self ..))]
    exact ih fun k hk => h k (List.mem_cons_of_mem _ hk)

/-- The function after its teardown: a fresh one that trains again. -/
def Dev.tornFunc (d : Dev) (f : Nat) : Func :=
  { Func.reset with perst := (d.func f).perst, linkUp := !(d.func f).perst && d.linkOf f, wedged := (d.func f).wedged
                    ready := !(d.func f).perst && d.linkOf f && d.crm.fwReady && !(d.func f).wedged }

/-- What a teardown leaves. -/
structure Dev.Torn (d e : Dev) (f : Nat) : Prop where
  func : e.func f = d.tornFunc f
  others : ∀ g, g ≠ f → e.func g = d.func g
  moulds : ∀ m ∈ e.moulds, m.owner ≠ some f
  chans : ∀ c ∈ e.chans, c.fn = f → c.down = true
  cores : e.cores = d.cores

theorem teardown_torn (d : Dev) (f : Nat) : d.Torn (d.teardown f) f := by
  refine ⟨Dev.func_setFunc _ _ _, fun g hg => Dev.func_setFunc_ne _ hg _, fun m hm => ?_, fun c hc hfn => ?_, rfl⟩
  · obtain ⟨k, -, rfl⟩ := List.mem_map.mp (show m ∈ d.moulds.map (Mould.forget f) from hm)
    unfold Mould.forget
    dsimp only
    split
    · nofun
    · assumption
  · obtain ⟨k, -, rfl⟩ := List.mem_map.mp (show c ∈ d.chans.map (fun (c : Chan) => if c.fn = f then { c with down := true } else c) from hc)
    by_cases hk : k.fn = f
    · rw [if_pos hk]
    · rw [if_neg hk] at hfn
      exact absurd hfn hk

/-- With no sampling point to come a function that has left is torn down at once. -/
theorem tryTeardown_torn {d : Dev} {f n : Nat} (hleft : (d.func f).left = some n) (hidle : d.samples = false) : d.Torn (d.tryTeardown f) f := by
  have hgone : ∀ x : Ctx, d.ctxMould x = none := fun x => by
    unfold Dev.ctxMould
    rw [Option.filter_eq_none_iff]
    intro m hm
    exact List.any_eq_false.mp hidle m (List.mem_of_find?_eq_some hm)
  have htear : d.tryTeardown f = (d.setFunc f { d.func f with ctxs := [] }).teardown f := by
    unfold Dev.tryTeardown
    dsimp only
    rw [hleft]
    simp [hgone]
  obtain ⟨hfunc, hothers, hmoulds, hchans, hcores⟩ := teardown_torn (d.setFunc f { d.func f with ctxs := [] }) f
  rw [htear]
  refine ⟨?_, fun g hg => (hothers g hg).trans (Dev.func_setFunc_ne _ hg _), hmoulds, hchans, hcores⟩
  rw [hfunc, Dev.tornFunc, Dev.func_setFunc]
  rfl

theorem foldl_tryTeardown_torn {f n : Nat} {l : List Nat} (hl : l.Nodup) (hf : f ∈ l) {d : Dev} (hleft : (d.func f).left = some n)
    (hidle : d.samples = false) (hothers : ∀ g ∈ l, g ≠ f → (d.func g).left = none) : d.Torn (l.foldl (fun d f => d.tryTeardown f) d) f := by
  induction l with
  | nil => exact absurd hf List.not_mem_nil
  | cons g l ih =>
    obtain ⟨hg, hl⟩ := List.nodup_cons.mp hl
    rw [List.foldl_cons]
    by_cases hgf : g = f
    · subst hgf
      have htorn := tryTeardown_torn hleft hidle
      rw [foldl_tryTeardown_here fun k hk => ?_]
      · exact htorn
      · have hkg : k ≠ g := fun h => hg (h ▸ hk)
        rw [htorn.others k hkg]
        exact hothers k (List.mem_cons_of_mem _ hk) hkg
    · rw [tryTeardown_here (hothers g (List.mem_cons_self ..) hgf)]
      exact ih hl ((List.mem_cons.mp hf).resolve_left (Ne.symm hgf)) fun k hk => hothers k (List.mem_cons_of_mem _ hk)

theorem teardownIdle_torn {d : Dev} {f n : Nat} (hf : f < 4) (hleft : (d.func f).left = some n) (hidle : d.samples = false)
    (hothers : ∀ g, g < 4 → g ≠ f → (d.func g).left = none) : d.Torn d.teardownIdle f := by
  rw [Dev.teardownIdle, hidle]
  exact foldl_tryTeardown_torn List.nodup_range (List.mem_range.mpr hf) hleft hidle fun g hg => hothers g (List.mem_range.mp hg)

theorem exec_functionWedged {f : FnId} {s : State} {n : Nat} (hn : (s.dev.func f).left = some n) (hdue : n + 6250000 ≤ s.dev.turn.now.toNat) :
    exec (.functionWedged f) s = .next { s with dev := s.dev.setFunc f { s.dev.func f with wedged := true } } := by
  show execFunctionWedged f s = _
  have hany : (s.dev.func f).left.any (fun t => decide (t + 6250000 ≤ s.dev.turn.now.toNat)) = true := by
    rw [hn, Option.any_some]
    simpa using hdue
  exact lift_of_eq (if_pos hany)

/-- Settles O43: the link that trains, the configuration space, the teardown now or at the next sampling point, and the wedge. -/
theorem functionsComeAndGo : Obligations.FunctionsComeAndGo := by
  intro f s
  refine ⟨perstDeassert_trains, fun hrst hperst hlink => ?config, fun why hrst hperst hhere => ?leave, fun n hn hdue => ?wedge⟩
  case config =>
    have hconfig := exec_configRequest hrst hperst hlink
    refine ⟨fun hrec => ?_, fun hrec hready hleft hwedged => ?_, fun hrec hno => ?_⟩
    · rw [hconfig, if_pos hrec]; rfl
    · rw [hconfig, if_neg hrec, if_pos (by simp [hready, hleft, hwedged])]; rfl
    · rw [hconfig, if_neg hrec, if_neg]
      · rfl
      · rcases hno with h | h | h
        · simp [h]
        · simp [h]
        · simp [h]
  case leave =>
    obtain ⟨e, ⟨⟨fs, xs, cs, cr, he⟩, hfunc, hothers, hchans⟩, hex⟩ := functionLeave_leaves (why := why) hrst hperst (hhere f f.isLt)
    have hsamples : e.samples = s.dev.samples := by rw [he]; rfl
    refine ⟨fun hidle => ?_, fun hbusy => ?_⟩
    · obtain ⟨hfunc', hothers', hmoulds, hchans', hcores⟩ := teardownIdle_torn (d := e) f.isLt (congrArg Func.left hfunc) (hsamples.trans hidle)
        fun g hg hgf => by rw [hothers g hgf]; exact hhere g hg
      refine ⟨_, hex, rfl, hmoulds, hchans', ?_⟩
      rw [hfunc', Dev.tornFunc, hfunc, Func.leaving, hperst]
      refine ⟨rfl, rfl, rfl, rfl, ?_, fun g hg => (hothers' g hg).trans (hothers g hg), by rw [hcores, he]⟩
      cases why <;> rfl
    · have hstay : e.teardownIdle = e := if_pos (hsamples.trans hbusy)
      rw [hstay] at hex
      refine ⟨_, hex, rfl, by rw [he], by rw [he], congrArg Func.left hfunc, fun hdown => ?_, hchans⟩
      rw [hfunc, Func.leaving, hdown]
      rfl
  case wedge =>
    exact ⟨_, exec_functionWedged hn hdue, onlyFunc_setFunc s f _⟩

end Sys2Proof.Machine

/-! ## The rows of the command queue -/

namespace Sys2Proof.Machine

/-- Two meanings that agree on a state answer the same there. -/
theorem liftW_congr {g h : Memory → Memory → Dev → Dev × List MemOp} {s : State} (e : g s.mem s.cave s.dev = h s.mem s.cave s.dev) :
    liftW g s = liftW h s := by
  rw [liftW, liftW, e]

/-- The row i takes an entry of opcode op and runs a body on it. -/
def TakesEntry (s : State) (f : FnId) (op : Nat) (e : BitVec 512) (i : Instr) : Prop :=
  ∃ body : Memory → Memory → Dev → Dev × List MemOp, exec i s = liftW (fun m c d => d.takeCmd f op e (body m c)) s

/-- The row i takes an entry of opcode op and runs a body on the Mould that it names. -/
def MouldRow (s : State) (f : FnId) (op : Nat) (e : BitVec 512) (i : Instr) (front owner : Bool) : Prop :=
  ∃ body : Memory → Memory → Dev → Mould → Dev × List MemOp,
    exec i s = liftW (fun m c d => d.takeCmd f op e (fun d => d.onMould f e front owner (body m c))) s

/-- The row i runs a body on the Mould that its entry names, after the checks of front and owner (R336, R339). -/
def ChecksMould (s : State) (f : FnId) (e : BitVec 512) (i : Instr) (front owner : Bool) : Prop :=
  ∃ body : Memory → Memory → Dev → Mould → Dev × List MemOp,
    exec i s = liftW (fun m c d => (d.takeHead f (cCid e)).onMould f e front owner (body m c)) s

/-- The entry is answered with a status; no byte, no Mould and no core changes. -/
def TellsOnly (s : State) (f : FnId) (e : BitVec 512) (i : Instr) (status : Nat) : Prop :=
  ∃ t, exec i s = .next t ∧ Answered s t f e status 0 ∧ t.mem = s.mem ∧ t.cave = s.cave ∧ t.dev.moulds = s.dev.moulds ∧
    t.dev.cores = s.dev.cores

section Rows
variable {s : State} {f : FnId} {op : Nat} {e : BitVec 512} {i : Instr}

theorem tellsOnly_of_complete {status : Nat} (hcan : CanAnswer s.dev f) {g : Memory → Memory → Dev → Dev × List MemOp} (hi : exec i s = liftW g s)
    (hg : g s.mem s.cave s.dev = ((s.dev.takeHead f (cCid e)).complete f (cCid e) status 0, [])) : TellsOnly s f e i status := by
  obtain ⟨fs, o, hdone, -, hans⟩ := complete_answers (e := e) hcan rfl status 0
  exact ⟨_, hi.trans (liftW_of_eq hg), hans _ (by rw [hdone]) (by rw [hdone]), rfl, rfl, by rw [hdone]; rfl, by rw [hdone]; rfl⟩

theorem takesEntry_of_hostCmd {body : Dev → Dev} (hi : exec i s = hostCmd f op e body s) : TakesEntry s f op e i :=
  ⟨fun _ _ d => (body d, []), hi⟩

theorem TakesEntry.skip (h : TakesEntry s f op e i) (hno : s.dev.canTake f = false) : exec i s = .next s := by
  obtain ⟨body, hi⟩ := h
  exact hi.trans ((liftW_of_eq (takeCmd_skip (.inl hno))).trans rfl)

theorem TakesEntry.invalid (h : TakesEntry s f op e i) (htake : s.dev.canTake f = true) (hop : cOpc e = op) (hres : cReserved e = false)
    (hcan : CanAnswer s.dev f) : TellsOnly s f e i 3 := by
  obtain ⟨body, hi⟩ := h
  exact tellsOnly_of_complete hcan hi (takeCmd_invalid htake hop hres)

theorem exec_dump_asleep {data : Option (List Byte)} (h : s.dev.dumpAsleep data = true) : exec (.dump f e data) s = .next s :=
  show execDump f e data s = _ from (liftW_of_eq (d := s.dev) (w := []) (if_pos h)).trans rfl

/-- A DUMP of a tensor that does not sleep takes its entry. -/
theorem dump_mouldRow {data : Option (List Byte)} (h : s.dev.dumpAsleep data = false) : MouldRow s f 0x19 e (.dump f e data) false true := by
  have hi : ∃ body : Memory → Memory → Dev → Mould → Dev × List MemOp, exec (.dump f e data) s = liftW (fun m c d =>
      if d.dumpAsleep data then (d, []) else d.takeCmd f 0x19 e (fun d => d.onMould f e false true (body m c))) s :=
    ⟨_, show execDump f e data s = _ from rfl⟩
  obtain ⟨body, hi⟩ := hi
  exact ⟨body, hi.trans (liftW_congr (if_neg (Bool.eq_false_iff.mp h)))⟩

theorem openLog_takesEntry (q : OpenLogCmd) : TakesEntry s f 0x06 q.entry (.openLog f q) := by
  refine ⟨?body, ?_⟩
  rotate_left
  · show execOpenLog f q s = _
    unfold execOpenLog
    rfl

/-- Every row of the command queue takes its entry so; a DUMP once no slice of its tensor sleeps. -/
theorem takesEntry_of_row (data : Option (List Byte)) (log : List (List Byte × Option (List Nat))) (hdump : op = 0x19 → s.dev.dumpAsleep data = false)
    (h : (op, i) ∈ [(0x01, Instr.openCtx f e data), (0x02, .closeCtx f e), (0x03, .cancel f e), (0x04, .prefixRelease f e),
      (0x05, .drain f e), (0x06, .openLog f ⟨e, log⟩), (0x07, .closeLog f e), (0x10, .loadMould f e data), (0x11, .start f e),
      (0x12, .unload f e), (0x13, .loadWeights f e), (0x14, .switch f e), (0x15, .hold f e data), (0x16, .substitute f e),
      (0x17, .failover f e), (0x18, .writeFabric f e data), (0x19, .dump f e data), (0x20, .keyInstall f e data),
      (0x21, .keyRemove f e data), (0x22, .attest f e), (0x23, .retire f e), (0x24, .distance f e), (0x25, .caveRead f e),
      (0x26, .caveWrite f e data), (0x27, .turnPrio f e), (0x30, .openChan f e), (0x31, .closeChan f e)]) : TakesEntry s f op e i := by
  simp only [List.mem_cons, Prod.mk.injEq, List.not_mem_nil, or_false] at h
  obtain ⟨rfl, rfl⟩ | ⟨rfl, rfl⟩ | ⟨rfl, rfl⟩ | ⟨rfl, rfl⟩ | ⟨rfl, rfl⟩ | ⟨rfl, rfl⟩ | ⟨rfl, rfl⟩ | ⟨rfl, rfl⟩ | ⟨rfl, rfl⟩ | ⟨rfl, rfl⟩ |
    ⟨rfl, rfl⟩ | ⟨rfl, rfl⟩ | ⟨rfl, rfl⟩ | ⟨rfl, rfl⟩ | ⟨rfl, rfl⟩ | ⟨rfl, rfl⟩ | ⟨rfl, rfl⟩ | ⟨rfl, rfl⟩ | ⟨rfl, rfl⟩ | ⟨rfl, rfl⟩ |
    ⟨rfl, rfl⟩ | ⟨rfl, rfl⟩ | ⟨rfl, rfl⟩ | ⟨rfl, rfl⟩ | ⟨rfl, rfl⟩ | ⟨rfl, rfl⟩ | ⟨rfl, rfl⟩ := h
  · exact takesEntry_of_hostCmd (show execOpenCtx f e data s = _ from rfl)
  · exact takesEntry_of_hostCmd (show execCloseCtx f e s = _ from rfl)
  · exact takesEntry_of_hostCmd (show execCancel f e s = _ from rfl)
  · exact ⟨_, show execPrefixRelease f e s = _ from rfl⟩
  · exact ⟨_, show execDrain f e s = _ from rfl⟩
  · exact openLog_takesEntry ⟨e, log⟩
  · exact ⟨_, show execCloseLog f e s = _ from rfl⟩
  · exact ⟨_, show execLoadMould f e data s = _ from rfl⟩
  · exact ⟨_, show execStart f e s = _ from rfl⟩
  · exact ⟨_, show execUnload f e s = _ from rfl⟩
  · exact ⟨_, show execLoadWeights f e s = _ from rfl⟩
  · exact ⟨_, show execSwitch f e s = _ from rfl⟩
  · exact ⟨_, show execHold f e data s = _ from rfl⟩
  · exact ⟨_, show execSubstitute f e s = _ from rfl⟩
  · exact ⟨_, show execFailover f e s = _ from rfl⟩
  · exact ⟨_, show execWriteFabric f e data s = _ from rfl⟩
  · obtain ⟨body, hi⟩ := dump_mouldRow (f := f) (e := e) (hdump rfl)
    exact ⟨_, hi⟩
  · exact takesEntry_of_hostCmd (show execKeyInstall f e data s = _ from rfl)
  · exact takesEntry_of_hostCmd (show execKeyRemove f e data s = _ from rfl)
  · exact takesEntry_of_hostCmd (show execAttest f e s = _ from rfl)
  · exact takesEntry_of_hostCmd (show execRetire f e s = _ from rfl)
  · exact takesEntry_of_hostCmd (show execDistance f e s = _ from rfl)
  · exact ⟨_, show execCaveRead f e s = _ from rfl⟩
  · exact takesEntry_of_hostCmd (show execCaveWrite f e data s = _ from rfl)
  · exact takesEntry_of_hostCmd (show execTurnPrio f e s = _ from rfl)
  · exact takesEntry_of_hostCmd (show execOpenChan f e s = _ from rfl)
  · exact takesEntry_of_hostCmd (show execCloseChan f e s = _ from rfl)

/-- An entry whose opcode and reserved fields are right, and that firmware can take, comes to the Mould it names. -/
theorem MouldRow.checks {front owner : Bool} (h : MouldRow s f op e i front owner) (hentry : Entry s.dev f op e) :
    ChecksMould s f e i front owner := by
  obtain ⟨body, hi⟩ := h
  exact ⟨body, hi.trans (liftW_congr (takeCmd_go hentry.1 hentry.2.1 hentry.2.2.1))⟩

/-- On another member than 0 a command marked front is refused. -/
theorem ChecksMould.notFront {owner : Bool} (h : ChecksMould s f e i true owner) {m : Mould} (hcan : CanAnswer s.dev f)
    (hm : s.dev.mouldLow (cPtag e) = some m) (hself : m.self ≠ 0) : TellsOnly s f e i 5 := by
  obtain ⟨body, hi⟩ := h
  refine tellsOnly_of_complete hcan hi ?_
  have hm : (s.dev.takeHead f (cCid e)).mouldLow (cPtag e) = some m := hm
  unfold Dev.onMould
  dsimp only
  rw [hm]
  exact if_pos (by simp [hself])

/-- An owner-only command of another function is refused, also where there is no owner and no neighbour passed the Mould on. -/
theorem ChecksMould.notOwner {front : Bool} (h : ChecksMould s f e i front true) {m : Mould} (hcan : CanAnswer s.dev f)
    (hm : s.dev.mouldLow (cPtag e) = some m) (hself : m.self = 0) (howner : m.owner ≠ some f.val) (hnone : m.owner ≠ none ∨ m.fromNbr = false) :
    TellsOnly s f e i 4 := by
  obtain ⟨body, hi⟩ := h
  refine tellsOnly_of_complete hcan hi ?_
  have hm : (s.dev.takeHead f (cCid e)).mouldLow (cPtag e) = some m := hm
  have hmine : (m.fromNbr && m.owner.isNone) = false := by
    rcases hnone with h | h
    · rw [Option.isNone_eq_false_iff.mpr (Option.isSome_iff_ne_none.mpr h), Bool.and_false]
    · rw [h, Bool.false_and]
  unfold Dev.onMould
  dsimp only
  rw [hm]
  dsimp only
  rw [if_neg (by simp [hself])]
  exact if_pos (by simp [howner, hmine])

/-- START behind no load request that waits. -/
theorem start_checksMould (hentry : Entry s.dev f 0x11 e) (hload : s.dev.loadHeld = false) : ChecksMould s f e (.start f e) true true := by
  have hi : ∃ body : Memory → Memory → Dev → Mould → Dev × List MemOp, exec (.start f e) s = liftW (fun m c d =>
      d.takeCmd f 0x11 e (fun d => if d.loadHeld then (d.holdCmd f e none, []) else d.onMould f e true true (body m c))) s :=
    ⟨_, show execStart f e s = _ from rfl⟩
  obtain ⟨body, hi⟩ := hi
  refine ⟨body, hi.trans (liftW_congr ((takeCmd_go hentry.1 hentry.2.1 hentry.2.2.1).trans (if_neg ?_)))⟩
  exact Bool.eq_false_iff.mp hload

/-- The front-marked rows. -/
theorem checksMould_of_frontRow (data : Option (List Byte)) (hentry : Entry s.dev f op e) (hload : s.dev.loadHeld = false)
    (h : (op, i) ∈ [(0x04, Instr.prefixRelease f e), (0x07, .closeLog f e), (0x11, .start f e), (0x14, .switch f e),
      (0x15, .hold f e data), (0x17, .failover f e)]) : ∃ owner, ChecksMould s f e i true owner := by
  simp only [List.mem_cons, Prod.mk.injEq, List.not_mem_nil, or_false] at h
  obtain ⟨rfl, rfl⟩ | ⟨rfl, rfl⟩ | ⟨rfl, rfl⟩ | ⟨rfl, rfl⟩ | ⟨rfl, rfl⟩ | ⟨rfl, rfl⟩ := h
  · exact ⟨false, MouldRow.checks ⟨_, show execPrefixRelease f e s = _ from rfl⟩ hentry⟩
  · exact ⟨true, MouldRow.checks ⟨_, show execCloseLog f e s = _ from rfl⟩ hentry⟩
  · exact ⟨true, start_checksMould hentry hload⟩
  · exact ⟨true, MouldRow.checks ⟨_, show execSwitch f e s = _ from rfl⟩ hentry⟩
  · exact ⟨true, MouldRow.checks ⟨_, show execHold f e data s = _ from rfl⟩ hentry⟩
  · exact ⟨true, MouldRow.checks ⟨_, show execFailover f e s = _ from rfl⟩ hentry⟩

/-- The owner-only rows. -/
theorem checksMould_of_ownerRow (data : Option (List Byte)) (hentry : Entry s.dev f op e) (hload : s.dev.loadHeld = false)
    (hdump : op = 0x19 → s.dev.dumpAsleep data = false)
    (h : (op, i) ∈ [(0x07, Instr.closeLog f e), (0x11, .start f e), (0x14, .switch f e), (0x15, .hold f e data), (0x17, .failover f e),
      (0x18, .writeFabric f e data), (0x19, .dump f e data)]) : ∃ front, ChecksMould s f e i front true := by
  simp only [List.mem_cons, Prod.mk.injEq, List.not_mem_nil, or_false] at h
  obtain ⟨rfl, rfl⟩ | ⟨rfl, rfl⟩ | ⟨rfl, rfl⟩ | ⟨rfl, rfl⟩ | ⟨rfl, rfl⟩ | ⟨rfl, rfl⟩ | ⟨rfl, rfl⟩ := h
  · exact ⟨true, MouldRow.checks ⟨_, show execCloseLog f e s = _ from rfl⟩ hentry⟩
  · exact ⟨true, start_checksMould hentry hload⟩
  · exact ⟨true, MouldRow.checks ⟨_, show execSwitch f e s = _ from rfl⟩ hentry⟩
  · exact ⟨true, MouldRow.checks ⟨_, show execHold f e data s = _ from rfl⟩ hentry⟩
  · exact ⟨true, MouldRow.checks ⟨_, show execFailover f e s = _ from rfl⟩ hentry⟩
  · exact ⟨false, MouldRow.checks ⟨_, show execWriteFabric f e data s = _ from rfl⟩ hentry⟩
  · exact ⟨false, (dump_mouldRow (hdump rfl)).checks hentry⟩

end Rows

/-- Settles O44: each row takes its entry alike, and those on a Mould check front and owner alike. -/
theorem commandEntriesAreChecked : Obligations.CommandEntriesAreChecked := by
  intro f e data log s
  refine ⟨exec_dump_asleep, fun op i hrow hdump => ?_, fun op i m hentry hm hload => ⟨fun hself hrow => ?_, fun hself howner hnone hdump hrow => ?_⟩⟩
  · have htakes := takesEntry_of_row data log hdump hrow
    exact ⟨htakes.skip, htakes.invalid⟩
  · obtain ⟨owner, hchecks⟩ := checksMould_of_frontRow data hentry hload hrow
    exact hchecks.notFront hentry.2.2.2 hm hself
  · obtain ⟨front, hchecks⟩ := checksMould_of_ownerRow data hentry hload hdump hrow
    exact hchecks.notOwner hentry.2.2.2 hm hself howner hnone

end Sys2Proof.Machine

/-! ## Commands about contexts, prefixes and the log -/

namespace Sys2Proof.Machine

/-! ### Completions leave contexts and rings alone -/

theorem flushCpl_ctxs (f : Nat) : ∀ (n : Nat) (x : Func) (o : List Out), (flushCpl f n x o).1.ctxs = x.ctxs
  | 0, _, _ => rfl
  | n + 1, x, o => by
    unfold flushCpl
    split
    · rfl
    · split
      · rfl
      · exact flushCpl_ctxs f n _ _

theorem msix_ctxs (d : Dev) (f vec g : Nat) : ((d.msix f vec).func g).ctxs = (d.func g).ctxs := by
  obtain ⟨fs, o, he, hfuncs, -⟩ := msix_spec d f vec
  obtain ⟨p, hp⟩ := hfuncs g
  rw [he]
  show (lk Func.reset fs g).ctxs = _
  rw [hp]

theorem setFunc_ctxs (d : Dev) (f g : Nat) {x : Func} (h : x.ctxs = (d.func f).ctxs) : ((d.setFunc f x).func g).ctxs = (d.func g).ctxs := by
  by_cases hg : g = f
  · subst hg
    rw [Dev.func_setFunc, h]
  · rw [Dev.func_setFunc_ne _ hg]

theorem flushHeld_ctxs (d : Dev) (f g : Nat) : ((d.flushHeld f).func g).ctxs = (d.func g).ctxs := by
  unfold Dev.flushHeld
  extract_lets x
  rcases hflush : flushCpl f x.held.length x [] with ⟨y, o⟩
  have hy : y.ctxs = (d.func f).ctxs := by
    have := flushCpl_ctxs f x.held.length x []
    rwa [hflush] at this
  dsimp only
  split
  · exact setFunc_ctxs d f g hy
  · exact (msix_ctxs _ _ _ _).trans (setFunc_ctxs d f g hy)

theorem complete_ctx (d : Dev) (f cid status result g c : Nat) : (d.complete f cid status result).ctx g c = d.ctx g c := by
  have hctxs : ((d.complete f cid status result).func g).ctxs = (d.func g).ctxs := by
    unfold Dev.complete
    extract_lets x
    split
    · rfl
    · exact (flushHeld_ctxs _ _ _).trans (setFunc_ctxs d f g rfl)
  rw [Dev.ctx, Dev.ctx, hctxs]

/-- The entry just taken is answered by its completion, also where its command changed the function's contexts or the tail of a log. -/
theorem complete_answers_open {s : State} {f : Nat} {e : BitVec 512} {d : Dev} (h : CanAnswer s.dev f)
    (hd : ∃ cs lt, d.func f = { (s.dev.takeHead f (cCid e)).func f with ctxs := cs, logTail := lt }) (status result : Nat) :
    ∃ fs o, d.complete f (cCid e) status result = { d with funcs := fs, out := o } ∧
      ∀ t : State, t.dev.funcs = fs → t.dev.out = o → Answered s t f e status result := by
  obtain ⟨cs, lt, hfun⟩ := hd
  have hcan : CanAnswer d f := by
    have h' := takeHead_canAnswer (cid := cCid e) h
    unfold CanAnswer at h' ⊢
    rw [hfun]
    exact h'
  have htaken : (s.dev.takeHead f (cCid e)).func f = { s.dev.func f with
      sqHead := ((s.dev.func f).sqHead + 1) % (s.dev.func f).sqEntries,
      sqAt := up (s.dev.func f).sqAt (cCid e) (((s.dev.func f).sqHead + 1) % (s.dev.func f).sqEntries) } := Dev.func_setFunc _ _ _
  obtain ⟨fs, o, hc, hhead, ⟨slot, ph, hcpl⟩, -⟩ := complete_now (cCid e) status result hcan
  rw [hfun, htaken] at hhead hcpl
  rw [lk_up_same] at hcpl
  refine ⟨fs, o, hc, ?_⟩
  rintro t rfl rfl
  exact ⟨hhead, slot, ph, hcpl⟩

/-! ### What a row does to the Mould it names -/

/-- A taken entry's row that changes the device alone. -/
theorem row_next {s : State} {f : FnId} {op : Nat} {e : BitVec 512} {i : Instr} {body : Memory → Memory → Dev → Dev × List MemOp} {d : Dev}
    (hi : exec i s = liftW (fun m c d => d.takeCmd f op e (body m c)) s) (h : Entry s.dev f op e)
    (hb : body s.mem s.cave (s.dev.takeHead f (cCid e)) = (d, [])) : exec i s = .next { s with dev := d } :=
  hi.trans ((liftW_of_eq ((takeCmd_go h.1 h.2.1 h.2.2.1).trans hb)).trans rfl)

theorem row_of_hostCmd {s : State} {f : FnId} {op : Nat} {e : BitVec 512} {i : Instr} {body : Dev → Dev} (hi : exec i s = hostCmd f op e body s) :
    exec i s = liftW (fun m c d => d.takeCmd f op e ((fun _ _ d => (body d, [])) m c)) s := hi

theorem mouldLow_updMould {d : Dev} {p : Nat} {m : Mould} (hm : d.mouldLow p = some m) {g : Mould → Mould} (hg : ∀ m, (g m).pmask = m.pmask) :
    (d.updMould m.pmask g).mouldLow p = some (g m) := by
  rw [Dev.mouldLow, find?_updMould (fun m => lowPart m.pmask == p) g (fun m => by rw [hg]), ← Dev.mouldLow, hm]
  exact congrArg some (if_pos rfl)

/-- Member 0's Mould whose owner the function is, or becomes with its first command. -/
def Mould.ownedBy (m : Mould) (f : Nat) : Prop := m.self = 0 ∧ (m.owner = some f ∨ m.owner = none ∧ m.fromNbr = true)

/-- The Mould with its owner noted. -/
def Mould.owned (m : Mould) (f : Nat) : Mould := { m with owner := some f, fromNbr := m.fromNbr && m.owner.isSome }

theorem takeOwner_mouldLow {d : Dev} {f p : Nat} {m : Mould} (hm : d.mouldLow p = some m) (ho : m.ownedBy f) :
    (d.takeOwner m f).mouldLow p = some (m.owned f) ∧ (d.takeOwner m f).funcs = d.funcs := by
  obtain ⟨-, ho | ⟨ho, hn⟩⟩ := ho
  · have hstay : d.takeOwner m f = d := if_neg (by simp [ho])
    have hsame : m.owned f = m := by rw [Mould.owned, ← ho, show m.owner.isSome = true by rw [ho]; rfl, Bool.and_true]
    rw [hstay, hsame]
    exact ⟨hm, rfl⟩
  · have htake : d.takeOwner m f = d.updMould m.pmask (fun m => { m with owner := some f, fromNbr := false }) :=
      if_pos (by rw [hn, ho]; rfl)
    have hsame : m.owned f = { m with owner := some f, fromNbr := false } := by simp [Mould.owned, ho]
    rw [htake, hsame]
    exact ⟨mouldLow_updMould hm fun _ => rfl, rfl⟩

/-- An owner-only command runs its body behind the taking of ownership. -/
theorem onMould_owned {d : Dev} {f : Nat} {e : BitVec 512} {m : Mould} (hm : d.mouldLow (cPtag e) = some m) (ho : m.ownedBy f)
    (body : Dev → Mould → Dev × List MemOp) : d.onMould f e true true body = body (d.takeOwner m f) { m with owner := some f } := by
  obtain ⟨hself, ho⟩ := ho
  unfold Dev.onMould
  dsimp only
  rw [hm]
  dsimp only
  rw [if_neg (by simp [hself]), if_neg, if_pos rfl]
  rcases ho with ho | ⟨ho, hn⟩
  · simp [ho]
  · simp [ho, hn]

/-- A command marked front that is not owner-only runs on member 0. -/
theorem onMould_front {d : Dev} {f : Nat} {e : BitVec 512} {m : Mould} (hm : d.mouldLow (cPtag e) = some m) (hself : m.self = 0)
    (body : Dev → Mould → Dev × List MemOp) : d.onMould f e true false body = body d m := by
  unfold Dev.onMould
  dsimp only
  rw [hm]
  dsimp only
  rw [if_neg (by simp [hself]), if_neg (by simp), if_neg (by simp)]

/-! ### What the statement says of a row -/

/-- Row i changes no byte, and the Mould of lowest partition p is now m. -/
def Becomes (s : State) (i : Instr) (p : Nat) (m : Mould) : Prop := ∃ t, exec i s = .next t ∧ t.mem = s.mem ∧ t.dev.mouldLow p = some m

/-- And the entry is answered OK. -/
def Done (s : State) (f : Nat) (e : BitVec 512) (i : Instr) (p : Nat) (m : Mould) : Prop :=
  ∃ t, exec i s = .next t ∧ t.mem = s.mem ∧ t.dev.mouldLow p = some m ∧ Answered s t f e 0 0

/-- The entry is answered with a status, and no Mould changes. -/
def Tells (s : State) (f : Nat) (e : BitVec 512) (i : Instr) (status : Nat) : Prop :=
  ∃ t, exec i s = .next t ∧ t.mem = s.mem ∧ t.dev.moulds = s.dev.moulds ∧ Answered s t f e status 0

section Outcomes
variable {s : State} {f : FnId} {op : Nat} {e : BitVec 512} {i : Instr} {body : Memory → Memory → Dev → Dev × List MemOp}
  (hi : exec i s = liftW (fun m c d => d.takeCmd f op e (body m c)) s) (h : Entry s.dev f op e)
include hi h

theorem tells_of_row {status : Nat}
    (hb : body s.mem s.cave (s.dev.takeHead f (cCid e)) = ((s.dev.takeHead f (cCid e)).complete f (cCid e) status 0, [])) : Tells s f e i status := by
  obtain ⟨fs, o, hdone, -, hans⟩ := complete_answers (e := e) h.2.2.2 rfl status 0
  exact ⟨_, row_next hi h hb, rfl, by rw [hdone]; rfl, hans _ (by rw [hdone]) (by rw [hdone])⟩

/-- A command that waits for the sampling point. -/
theorem becomes_of_row {d : Dev} {p : Nat} {m : Mould} {w : Waiting} (hm : d.mouldLow p = some m)
    (hb : body s.mem s.cave (s.dev.takeHead f (cCid e)) = (d.waitSample m w, [])) :
    Becomes s i p { m with serve := m.serve.map (fun v => { v with waiting := v.waiting ++ [w] }) } :=
  ⟨_, row_next hi h hb, rfl, mouldLow_updMould hm fun _ => rfl⟩

/-- A command that changes the Mould at once, and of its function at most the tail of a log. -/
theorem done_of_row {d d' : Dev} {p : Nat} {m : Mould} {g : Mould → Mould} (hm : d.mouldLow p = some m) (hg : ∀ m, (g m).pmask = m.pmask)
    (hmoulds : d'.moulds = (d.updMould m.pmask g).moulds)
    (hfunc : ∃ cs lt, d'.func f = { (s.dev.takeHead f (cCid e)).func f with ctxs := cs, logTail := lt })
    (hb : body s.mem s.cave (s.dev.takeHead f (cCid e)) = (d'.complete f (cCid e) 0 0, [])) : Done s f e i p (g m) := by
  obtain ⟨fs, o, hdone, hans⟩ := complete_answers_open (s := s) (e := e) h.2.2.2 hfunc 0 0
  refine ⟨_, row_next hi h hb, rfl, ?_, hans _ (by rw [hdone]) (by rw [hdone])⟩
  rw [hdone, Dev.mouldLow]
  dsimp only
  rw [hmoulds]
  exact mouldLow_updMould hm hg

end Outcomes

/-! ### Contexts (R307) -/

section Contexts
variable {s : State} {f : FnId} {e : BitVec 512}

theorem find?_del {α : Type} (m : SMap α) (n : Nat) : (del m n).find? (fun e => e.1 == n) = none := by
  rw [List.find?_eq_none]
  intro e he
  simpa using (List.mem_filter.mp he).2

/-- A context opened, or closed at once, answers its command. -/
theorem ctxs_answered {op : Nat} {i : Instr} {body : Dev → Dev} (hi : exec i s = hostCmd f op e body s) (h : Entry s.dev f op e)
    {d : Dev} (hd : ∃ cs : SMap Ctx → SMap Ctx, d = (s.dev.takeHead f (cCid e)).updFunc f (fun x => { x with ctxs := cs x.ctxs }))
    (hb : body (s.dev.takeHead f (cCid e)) = d.complete f (cCid e) 0 0) :
    ∃ t, exec i s = .next t ∧ t.mem = s.mem ∧ Answered s t f e 0 0 ∧ t.dev.ctx f (cCtx e) = d.ctx f (cCtx e) ∧ t.dev.moulds = s.dev.moulds := by
  obtain ⟨cs, hd⟩ := hd
  obtain ⟨fs, o, hdone, hans⟩ := complete_answers_open (s := s) (e := e) (d := d) h.2.2.2
    ⟨cs ((s.dev.takeHead f (cCid e)).func f).ctxs, ((s.dev.takeHead f (cCid e)).func f).logTail, by rw [hd, Dev.func_updFunc]⟩ 0 0
  have hctx := complete_ctx d f (cCid e) 0 0 f (cCtx e)
  refine ⟨_, hi.trans (hostCmd_go body h), rfl, ?_⟩
  rw [hb]
  refine ⟨hans _ (by rw [hdone]) (by rw [hdone]), hctx, ?_⟩
  rw [hdone, hd]
  rfl

theorem takeHead_ctx (d : Dev) (f cid c : Nat) : (d.takeHead f cid).ctx f c = d.ctx f c := by
  unfold Dev.takeHead Dev.ctx
  dsimp only
  rw [Dev.func_setFunc]

theorem openCtx_opens {bs : List Byte} {m : Mould} (h : Entry s.dev f 0x01 e) (hm : s.dev.mouldLow (fld bs 1 1) = some m) (hself : m.self = 0)
    (halive : m.alive 0 = true) (hserve : m.serve ≠ none) (hdesc : ctxDescOk bs (cCtx e) = true) (hsize : cArg1 e ≤ 12)
    (hnew : s.dev.ctx f (cCtx e) = none) : ∃ t, exec (.openCtx f e (some bs)) s = .next t ∧ t.mem = s.mem ∧ Answered s t f e 0 0 ∧
      t.dev.ctx f (cCtx e) = some (newCtx bs (cArg0 e) (cArg1 e)) ∧ t.dev.moulds = s.dev.moulds := by
  have hm : (s.dev.takeHead f (cCid e)).mouldLow (fld bs 1 1) = some m := hm
  have hopen := ctx_setCtx (s.dev.takeHead f (cCid e)) f (cCtx e) (newCtx bs (cArg0 e) (cArg1 e))
  rw [← hopen]
  refine ctxs_answered (i := .openCtx f e (some bs)) (show execOpenCtx f e (some bs) s = _ from rfl) h
    ⟨fun m => up m (cCtx e) (newCtx bs (cArg0 e) (cArg1 e)), rfl⟩ ?_
  dsimp only
  rw [hm]
  dsimp only
  rw [if_neg (by simp [hself]), if_neg]
  · rfl
  · simp [Option.isNone_iff_eq_none, hserve, halive, hdesc, hsize, takeHead_ctx, hnew]

section Open
variable {x : Ctx} (hx : s.dev.ctx f (cCtx e) = some x)
include hx

/-- Where no sampling point is to come a context is closed at once. -/
theorem closeCtx_now (h : Entry s.dev f 0x02 e) (hidle : s.dev.ctxMould x = none) :
    ∃ t, exec (.closeCtx f e) s = .next t ∧ t.mem = s.mem ∧ t.dev.ctx f (cCtx e) = none ∧ Answered s t f e 0 0 := by
  have hgone : ((s.dev.takeHead f (cCid e)).delCtx f (cCtx e)).ctx f (cCtx e) = none := by
    rw [Dev.delCtx, Dev.ctx, Dev.func_updFunc, find?_del]
    rfl
  have hidle : (s.dev.takeHead f (cCid e)).ctxMould x = none := hidle
  have hrow := ctxs_answered (i := .closeCtx f e) (d := (s.dev.takeHead f (cCid e)).delCtx f (cCtx e))
    (show execCloseCtx f e s = _ from rfl) h ⟨fun m => del m (cCtx e), rfl⟩
  obtain ⟨t, hex, hmem, hans, hctx, -⟩ := hrow (by rw [takeHead_ctx, hx]; dsimp only; rw [hidle]; rfl)
  exact ⟨t, hex, hmem, hctx.trans hgone, hans⟩

omit hx in
theorem ctxMould_mouldLow {m : Mould} (hm : s.dev.ctxMould x = some m) : (s.dev.takeHead f (cCid e)).mouldLow x.part = some m :=
  (Option.filter_eq_some_iff.mp hm).1

theorem closeCtx_waits {m : Mould} (h : Entry s.dev f 0x02 e) (hm : s.dev.ctxMould x = some m) :
    Becomes s (.closeCtx f e) x.part
      { m with serve := m.serve.map (fun v => { v with waiting := v.waiting ++ [⟨f, cCid e, .closeCtx (cCtx e)⟩] }) } := by
  have hm' : (s.dev.takeHead f (cCid e)).ctxMould x = some m := hm
  refine becomes_of_row (i := .closeCtx f e) (row_of_hostCmd (show execCloseCtx f e s = _ from rfl)) h (ctxMould_mouldLow (f := f) (e := e) hm) ?_
  rw [takeHead_ctx, hx]
  dsimp only
  rw [hm']

theorem cancel_waits {m : Mould} (h : Entry s.dev f 0x03 e) (hm : s.dev.ctxMould x = some m) :
    Becomes s (.cancel f e) x.part
      { m with serve := m.serve.map (fun v => { v with waiting := v.waiting ++ [⟨f, cCid e, .cancel (cCtx e) (cArg0 e)⟩] }) } := by
  have hm' : (s.dev.takeHead f (cCid e)).ctxMould x = some m := hm
  refine becomes_of_row (i := .cancel f e) (row_of_hostCmd (show execCancel f e s = _ from rfl)) h (ctxMould_mouldLow (f := f) (e := e) hm) ?_
  rw [takeHead_ctx, hx]
  dsimp only
  rw [hm']

theorem cancel_idle (h : Entry s.dev f 0x03 e) (hidle : s.dev.ctxMould x = none) : Tells s f e (.cancel f e) 2 := by
  have hidle : (s.dev.takeHead f (cCid e)).ctxMould x = none := hidle
  refine tells_of_row (i := .cancel f e) (row_of_hostCmd (show execCancel f e s = _ from rfl)) h ?_
  rw [takeHead_ctx, hx]
  dsimp only
  rw [hidle]
  rfl

end Open

section Closed
variable (hx : s.dev.ctx f (cCtx e) = none)
include hx

theorem closeCtx_notFound (h : Entry s.dev f 0x02 e) : Tells s f e (.closeCtx f e) 2 := by
  refine tells_of_row (i := .closeCtx f e) (row_of_hostCmd (show execCloseCtx f e s = _ from rfl)) h ?_
  rw [takeHead_ctx, hx]
  rfl

theorem cancel_notFound (h : Entry s.dev f 0x03 e) : Tells s f e (.cancel f e) 2 := by
  refine tells_of_row (i := .cancel f e) (row_of_hostCmd (show execCancel f e s = _ from rfl)) h ?_
  rw [takeHead_ctx, hx]
  rfl

end Closed

end Contexts

/-! ### Prefixes, drains and the log (R317, R329, R330) -/

section Serving
variable {s : State} {f : FnId} {e : BitVec 512} {m : Mould} {v : Serve} (hm : s.dev.mouldLow (cPtag e) = some m) (hv : m.serve = some v)
include hm hv

section Prefix
variable (h : Entry s.dev f 0x04 e) (hself : m.self = 0)
include h hself

theorem prefixRelease_waits (hsample : s.dev.willSample m = true) : Becomes s (.prefixRelease f e) (cPtag e) { m with serve := some { v with
    waiting := v.waiting ++ [⟨f, cCid e, .prefixRelease (cArg0 e)⟩] } } := by
  have hm' : (s.dev.takeHead f (cCid e)).mouldLow (cPtag e) = some m := hm
  have hsample : (s.dev.takeHead f (cCid e)).willSample m = true := hsample
  have hrow := becomes_of_row (i := .prefixRelease f e) (w := ⟨f, cCid e, .prefixRelease (cArg0 e)⟩)
      (show execPrefixRelease f e s = _ from rfl) h hm' (by
    rw [onMould_front hm' hself, hv]
    exact if_pos hsample)
  rwa [hv] at hrow

theorem prefixRelease_notFound (hsample : s.dev.willSample m = false) (hnone : v.release (cArg0 e) = none) : Tells s f e (.prefixRelease f e) 2 := by
  have hm' : (s.dev.takeHead f (cCid e)).mouldLow (cPtag e) = some m := hm
  have hsample : ¬ (s.dev.takeHead f (cCid e)).willSample m = true := Bool.eq_false_iff.mp hsample
  refine tells_of_row (i := .prefixRelease f e) (show execPrefixRelease f e s = _ from rfl) h ?_
  rw [onMould_front hm' hself, hv]
  dsimp only
  rw [if_neg hsample, hnone]
  rfl

theorem prefixRelease_done {u : Serve} (hsample : s.dev.willSample m = false) (hu : v.release (cArg0 e) = some u) :
    Done s f e (.prefixRelease f e) (cPtag e) { m with serve := some u } := by
  have hm' : (s.dev.takeHead f (cCid e)).mouldLow (cPtag e) = some m := hm
  have hsample : ¬ (s.dev.takeHead f (cCid e)).willSample m = true := Bool.eq_false_iff.mp hsample
  refine done_of_row (i := .prefixRelease f e) (g := fun m => { m with serve := some u }) (show execPrefixRelease f e s = _ from rfl) h hm'
    (fun _ => rfl) (d' := (s.dev.takeHead f (cCid e)).updMould m.pmask (fun m => { m with serve := some u })) rfl ⟨_, _, rfl⟩ ?_
  rw [onMould_front hm' hself, hv]
  dsimp only
  rw [if_neg hsample, hu]
  rfl

end Prefix

omit hm hv in
theorem openLog_row (s : State) (f : FnId) (q : OpenLogCmd) : ∃ body : Dev → Dev × List MemOp,
    exec (.openLog f q) s = liftW (fun m c d => d.takeCmd f 0x06 q.entry ((fun _ _ => body) m c)) s ∧
    ∀ d m v, cArg0 q.entry ≤ 12 → d.mouldLow (cPtag q.entry) = some m → m.ownedBy f → m.serve = some v → v.log = none →
      body d = if m.replay then (((d.takeOwner m f).updMould m.pmask (fun m => { m with serve := m.serve.map (fun v =>
          { v with given := q.log.map (fun x => ⟨x.1, x.2⟩) }) })).complete f (cCid q.entry) stOk 0, [])
        else ((((d.takeOwner m f).updMould m.pmask (fun m => { m with serve := m.serve.map (fun v =>
          { v with log := some ⟨f, cAddr q.entry, ringEntries (cArg0 q.entry), 0, 0, 0⟩ }) })).updFunc f
            (fun x => { x with logTail := up x.logTail (lowPart m.pmask) 0 })).complete f (cCid q.entry) stOk 0, []) := by
  refine ⟨?body, ?hi, ?hbody⟩
  case hi =>
    show execOpenLog f q s = _
    unfold execOpenLog
    rfl
  case hbody =>
    intro d m v hsize hm ho hv hnone
    rw [if_neg (Nat.not_lt.mpr hsize), onMould_owned hm ho]
    dsimp only
    rw [hv]
    dsimp only
    rw [hnone]
    exact if_neg (by simp)

section Owned
variable (ho : m.ownedBy f)
include ho

omit hv in
/-- The device once the entry is taken and the function is the owner of the Mould. -/
theorem taken_owned : ((s.dev.takeHead f (cCid e)).takeOwner m f).mouldLow (cPtag e) = some (m.owned f) ∧
    ((s.dev.takeHead f (cCid e)).takeOwner m f).funcs = (s.dev.takeHead f (cCid e)).funcs :=
  takeOwner_mouldLow (d := s.dev.takeHead f (cCid e)) hm ho

omit hm hv ho in
theorem takeOwner_willSample (d : Dev) (x : Mould) : (d.takeOwner m f).willSample x = d.willSample x := by
  unfold Dev.takeOwner
  split <;> rfl

omit hm ho in
/-- Whether a sampling point is to come does not hang on the owner. -/
theorem willSample_owner (cid : Nat) : (s.dev.takeHead f cid).willSample { m with owner := some f.val, serve := some v } = s.dev.willSample m := by
  unfold Dev.willSample
  rw [hv]
  rfl

theorem drain_waits (h : Entry s.dev f 0x05 e) (hflags : cFlags e < 2) (hnone : v.draining = none) (hsample : s.dev.willSample m = true)
    (hplan : m.phase = 6 ∨ 0 < v.planned) : Becomes s (.drain f e) (cPtag e) { m.owned f with
      serve := some { v with waiting := v.waiting ++ [⟨f, cCid e, .drain (bit (cFlags e) 0)⟩] } } := by
  have hrow := becomes_of_row (i := .drain f e) (w := ⟨f, cCid e, .drain (bit (cFlags e) 0)⟩) (show execDrain f e s = _ from rfl) h
    (taken_owned (e := e) hm ho).1
  have hown : (m.owned f).serve = some v := hv
  rw [hown] at hrow
  refine hrow ?_
  rw [if_neg (Nat.not_le.mpr hflags), onMould_owned (d := s.dev.takeHead f (cCid e)) hm ho]
  dsimp only
  rw [hv]
  dsimp only
  rw [hnone, takeOwner_willSample, willSample_owner hv]
  exact (if_neg (by simp)).trans (if_pos ⟨hsample, hplan⟩)

theorem drain_done (h : Entry s.dev f 0x05 e) (hflags : cFlags e < 2) (hnone : v.draining = none)
    (hidle : s.dev.willSample m = false ∨ m.phase ≠ 6 ∧ v.planned = 0) :
    Done s f e (.drain f e) (cPtag e) { m.owned f with serve := some { v with drainSince := true } } := by
  obtain ⟨hown, hfuncs⟩ := taken_owned (e := e) hm ho
  have hrow := done_of_row (i := .drain f e) (g := fun m => { m with serve := m.serve.map (fun v => { v with drainSince := true }) })
    (show execDrain f e s = _ from rfl) h hown (fun _ => rfl)
    (d' := ((s.dev.takeHead f (cCid e)).takeOwner m f).updMould m.pmask
      (fun m => { m with serve := m.serve.map (fun v => { v with drainSince := true }) }))
    rfl ⟨_, _, congrArg (fun m => lk Func.reset m f) hfuncs⟩
  have hserve : (m.owned f).serve = some v := hv
  simp only [hserve] at hrow
  refine hrow ?_
  rw [if_neg (Nat.not_le.mpr hflags), onMould_owned (d := s.dev.takeHead f (cCid e)) hm ho]
  dsimp only
  rw [hv]
  dsimp only
  rw [hnone, takeOwner_willSample, willSample_owner hv]
  refine (if_neg (by simp)).trans (if_neg fun ⟨hsample, hplan⟩ => ?_)
  rcases hidle with hidle | ⟨hphase, hplanned⟩
  · exact Bool.eq_false_iff.mp hidle hsample
  · omega

theorem openLog_done (log : List (List Byte × Option (List Nat))) (h : Entry s.dev f 0x06 e) (hsize : cArg0 e ≤ 12) (hnone : v.log = none)
    (hfresh : m.replay = false) : Done s f e (.openLog f ⟨e, log⟩) (cPtag e) { m.owned f with
      serve := some { v with log := some ⟨f, cAddr e, ringEntries (cArg0 e), 0, 0, 0⟩ } } := by
  obtain ⟨hown, hfuncs⟩ := taken_owned (e := e) hm ho
  obtain ⟨body, hi, hbody⟩ := openLog_row s f ⟨e, log⟩
  have hfunc : ((s.dev.takeHead f (cCid e)).takeOwner m f).func f = (s.dev.takeHead f (cCid e)).func f :=
    congrArg (fun m => lk Func.reset m f) hfuncs
  have hrow := done_of_row hi h hown
    (g := fun m => { m with serve := m.serve.map (fun v => { v with log := some ⟨f, cAddr e, ringEntries (cArg0 e), 0, 0, 0⟩ }) }) (fun _ => rfl)
    (d' := (((s.dev.takeHead f (cCid e)).takeOwner m f).updMould m.pmask (fun m => { m with serve := m.serve.map (fun v =>
      { v with log := some ⟨f, cAddr e, ringEntries (cArg0 e), 0, 0, 0⟩ }) })).updFunc f (fun x => { x with logTail := up x.logTail (lowPart m.pmask) 0 }))
    rfl ⟨((s.dev.takeHead f (cCid e)).func f).ctxs, up ((s.dev.takeHead f (cCid e)).func f).logTail (lowPart m.pmask) 0, by
      rw [Dev.func_updFunc, ← hfunc]
      rfl⟩
  have hserve : (m.owned f).serve = some v := hv
  simp only [hserve] at hrow
  exact hrow ((hbody (s.dev.takeHead f (cCid e)) m v hsize hm ho hv hnone).trans (if_neg (Bool.eq_false_iff.mp hfresh)))

theorem openLog_replays (log : List (List Byte × Option (List Nat))) (h : Entry s.dev f 0x06 e) (hsize : cArg0 e ≤ 12) (hnone : v.log = none)
    (hreplay : m.replay = true) : Done s f e (.openLog f ⟨e, log⟩) (cPtag e) { m.owned f with
      serve := some { v with given := log.map (fun x => ⟨x.1, x.2⟩) } } := by
  obtain ⟨hown, hfuncs⟩ := taken_owned (e := e) hm ho
  obtain ⟨body, hi, hbody⟩ := openLog_row s f ⟨e, log⟩
  have hrow := done_of_row hi h hown
    (g := fun m => { m with serve := m.serve.map (fun v => { v with given := log.map (fun x => ⟨x.1, x.2⟩) }) }) (fun _ => rfl)
    (d' := ((s.dev.takeHead f (cCid e)).takeOwner m f).updMould m.pmask (fun m => { m with serve := m.serve.map (fun v =>
      { v with given := log.map (fun x => ⟨x.1, x.2⟩) }) }))
    rfl ⟨_, _, congrArg (fun m => lk Func.reset m f) hfuncs⟩
  have hserve : (m.owned f).serve = some v := hv
  simp only [hserve] at hrow
  exact hrow ((hbody (s.dev.takeHead f (cCid e)) m v hsize hm ho hv hnone).trans (if_pos hreplay))

theorem closeLog_done (h : Entry s.dev f 0x07 e) (hlog : v.log ≠ none) :
    Done s f e (.closeLog f e) (cPtag e) { m.owned f with serve := some { v with log := none } } := by
  obtain ⟨hown, hfuncs⟩ := taken_owned (e := e) hm ho
  have hrow := done_of_row (i := .closeLog f e) (g := fun m => { m with serve := m.serve.map (fun v => { v with log := none }) })
    (show execCloseLog f e s = _ from rfl) h hown (fun _ => rfl)
    (d' := ((s.dev.takeHead f (cCid e)).takeOwner m f).updMould m.pmask (fun m => { m with serve := m.serve.map (fun v => { v with log := none }) }))
    rfl ⟨_, _, congrArg (fun m => lk Func.reset m f) hfuncs⟩
  have hserve : (m.owned f).serve = some v := hv
  simp only [hserve] at hrow
  refine hrow ?_
  rw [onMould_owned (d := s.dev.takeHead f (cCid e)) hm ho]
  dsimp only
  rw [hv]
  refine if_neg ?_
  simpa [Option.isNone_iff_eq_none] using hlog

theorem closeLog_notFound (h : Entry s.dev f 0x07 e) (hlog : v.log = none) : ∃ t, exec (.closeLog f e) s = .next t ∧ Answered s t f e 2 0 := by
  obtain ⟨-, hfuncs⟩ := taken_owned (e := e) hm ho
  obtain ⟨fs, o, hdone, -, hans⟩ := complete_answers (e := e) h.2.2.2 hfuncs 2 0
  have hnext := row_next (i := .closeLog f e) (d := ((s.dev.takeHead f (cCid e)).takeOwner m f).complete f (cCid e) 2 0)
    (show execCloseLog f e s = _ from rfl) h (by
      rw [onMould_owned (d := s.dev.takeHead f (cCid e)) hm ho]
      dsimp only
      rw [hv]
      refine if_pos ?_
      simp [hlog])
  exact ⟨_, hnext, hans _ (by rw [hdone]) (by rw [hdone])⟩

end Owned

end Serving

/-- Settles O45: each command by whether what it names is there, and whether a sampling point is to come. -/
theorem contextCommands : Obligations.ContextCommands := by
  intro f e log s
  refine ⟨fun bs m h hm hself halive hserve hdesc hsize hnew => openCtx_opens h hm hself halive hserve hdesc hsize hnew,
    fun h => ⟨fun hx => closeCtx_notFound hx h, fun x hx => ⟨closeCtx_now hx h, fun m hm => closeCtx_waits hx h hm⟩⟩,
    fun h => ⟨fun hx => cancel_notFound hx h, fun x hx => ⟨cancel_idle hx h, fun m hm => cancel_waits hx h hm⟩⟩,
    fun m v hm hv => ⟨fun h hself => ⟨prefixRelease_waits hm hv h hself, prefixRelease_notFound hm hv h hself,
        fun u => prefixRelease_done hm hv h hself⟩,
      fun h hflags ho hnone => ⟨drain_waits hm hv ho h hflags hnone, drain_done hm hv ho h hflags hnone⟩,
      fun h hsize ho hnone => ⟨openLog_done hm hv ho log h hsize hnone, openLog_replays hm hv ho log h hsize hnone⟩,
      fun h ho => ⟨closeLog_notFound hm hv ho h, closeLog_done hm hv ho h⟩⟩⟩

end Sys2Proof.Machine

/-! ## A plan that meets an uncorrected word -/

namespace Sys2Proof.Machine

/-! A plan that member 0 sends and that begins within a word writes a part of that word; where the word holds an uncorrected error, the write
raises it again (R147), and the error, of class PARTITION, stops the partition and ends what it serves (R328, R400): the Mould's serving
state is no longer that of before with the plan noted. -/

/-- The Mould of a FAILOVER's example as its member 1 holds it, draining. -/
def drainingMould : Mould :=
  { midWordMould with self := 1, serve := some { Serve.fresh midWordHdr with draining := some (0, 7) } }

/-- A device with this Mould, whose slice 0 holds an uncorrected error in word 0. -/
def drainingState : State := { midWordState with dev := { midWordState.dev with moulds := [drainingMould] } }

/-- Member 0's first plan message. -/
def firstPlan : MHdr := { fpid := 5, src := 0, seq := 1, answer := false }

theorem drainingState_takes : Takes drainingState.dev firstPlan drainingMould := by
  unfold Takes; decide +kernel

/-- What is draining on the device's Mould after an outcome. -/
def drainsAfter : Host.Outcome State Fault Refusal → Option (Nat × Nat)
  | .next t => ((t.dev.mouldFp 5).bind (fun m => m.serve)).bind (fun v => v.draining)
  | _ => none

/-- The plan's write stops the partition, and with it the drain. -/
theorem drainsAfter_plan : drainsAfter (exec (.msgPlan firstPlan 0 (List.replicate 16 0)) drainingState) = none := by decide +kernel

theorem drainingState_canonical : drainingState.Canonical := ⟨⟨List.Pairwise.nil, nofun⟩, ⟨List.Pairwise.nil, nofun⟩⟩

/-- Refutes O49: the plan is in place, but its write met an uncorrected word and stopped the partition, and the drain in progress ended. -/
theorem not_servingQueues : ¬ Obligations.ServingQueues := by
  intro h
  obtain ⟨-, hplan⟩ := h drainingState
  obtain ⟨t, hexec, -, -, hmould, -⟩ := hplan firstPlan 0 (List.replicate 16 0) drainingMould
    { Serve.fresh midWordHdr with draining := some (0, 7) } drainingState_canonical drainingState_takes rfl (by decide) rfl rfl (by decide +kernel)
  have hdrains := drainsAfter_plan
  rw [show exec (.msgPlan firstPlan 0 (List.replicate 16 0)) drainingState = .next t from hexec, drainsAfter,
    show t.dev.mouldFp 5 = some _ from hmould] at hdrains
  cases hdrains

end Sys2Proof.Machine

/-! ## Messages between members -/

namespace Sys2Proof.Machine

/-! ### What goes out with a message (R361) -/

/-- Messages and packets between members went out, after all that had gone out before. -/
structure Dev.MessagesTold (d e : Dev) : Prop where
  sent : d.MessagesSent e
  out : d.out ⊆ e.out

theorem Dev.MessagesTold.refl (d : Dev) : d.MessagesTold d := ⟨.refl d, fun _ h => h⟩

theorem Dev.MessagesTold.trans {d e g : Dev} (h : d.MessagesTold e) (k : e.MessagesTold g) : d.MessagesTold g :=
  ⟨h.sent.trans k.sent, fun _ ho => k.out (h.out ho)⟩

theorem emits_out (d : Dev) (l : List Out) : d.out ⊆ (d.emits l).out := fun o ho => (mem_emits d l o).mpr (.inr ho)

theorem sendSome_out (d : Dev) (u : Nat) (k : Packet) (n : Nat) : d.out ⊆ (d.sendSome u k n).1.out := by
  unfold Dev.sendSome
  extract_lets x
  split
  · exact emits_out (d.setPort u _) _
  · split
    · exact fun _ h => h
    · exact emits_out (d.setPort u _) _

theorem sendLoop_out (u : Nat) (l : List Packet) (d : Dev) (bl : List Nat) (kept : List Packet) : d.out ⊆ (d.sendLoop u l bl kept).out := by
  induction l generalizing d bl kept with
  | nil => exact fun _ h => h
  | cons k r ih =>
    rw [Dev.sendLoop]
    split
    · exact ih d _ _
    · have hs := sendSome_out d u k (lk 0 (d.port u).sent k.cls)
      dsimp only
      generalize d.sendSome u k (lk 0 (d.port u).sent k.cls) = sent at hs ⊢
      split
      · exact fun _ h => ih (sent.1.updPort u _) _ _ (hs h)
      · exact fun _ h => ih (sent.1.updPort u _) _ _ (hs h)

theorem enqueue_out (d : Dev) (u : Nat) (k : Packet) : d.out ⊆ (d.enqueue u k).out := sendLoop_out u _ (d.updPort u _) _ _

theorem transfer_out (d : Dev) (fpid epoch self u dst cls : Nat) (bs : List Byte) : d.out ⊆ (d.transfer fpid epoch self u dst cls bs).out :=
  List.foldlRecOn (motive := fun e : Dev => d.out ⊆ e.out) _ _ (fun _ h => h) fun e he _ _ _ ho =>
    enqueue_out { e with free := e.free + 1 } _ _ (he ho)

theorem mgmtPacket_out (d : Dev) (via : Option Nat) (fpid dst mtype : Nat) (answer : Bool) (seq arg : Nat) (body : List Byte) :
    d.out ⊆ (d.mgmtPacket via fpid dst mtype answer seq arg body).out := by
  unfold Dev.mgmtPacket
  split
  · exact fun _ h => h
  · split
    · exact fun _ h => h
    next m u _ => exact transfer_out (d.stampV m m.epoch) _ _ _ _ _ _ _

theorem sendMgmtVia_told (d : Dev) (via : Option Nat) (fpid dst mtype arg : Nat) (body : List Byte) :
    d.MessagesTold (d.sendMgmtVia via fpid dst mtype arg body) :=
  ⟨sendMgmtVia_messagesSent d via fpid dst mtype arg body, fun _ ho => mgmtPacket_out _ _ _ _ _ _ _ _ _ (List.mem_cons_of_mem _ ho)⟩

/-- The message itself is among what went out. -/
theorem sendMgmtVia_message (d : Dev) (via : Option Nat) (fpid dst mtype arg : Nat) (body : List Byte) :
    ∃ n, Out.mgmt dst mtype fpid n arg false ∈ (d.sendMgmtVia via fpid dst mtype arg body).out :=
  ⟨_, mgmtPacket_out _ _ _ _ _ _ _ _ _ (List.mem_cons_self ..)⟩

theorem sendMgmt_told (d : Dev) (fpid dst mtype arg : Nat) : d.MessagesTold (d.sendMgmt fpid dst mtype arg) := sendMgmtVia_told _ _ _ _ _ _ _

theorem sendMgmt_message (d : Dev) (fpid dst mtype arg : Nat) : ∃ n, Out.mgmt dst mtype fpid n arg false ∈ (d.sendMgmt fpid dst mtype arg).out :=
  sendMgmtVia_message _ _ _ _ _ _ _

theorem sendMgmtWith_told (d : Dev) (fpid dst mtype arg : Nat) (body : List Byte) (o : Out) :
    d.MessagesTold (d.sendMgmtWith fpid dst mtype arg body o) :=
  (sendMgmtVia_told d none fpid dst mtype arg body).trans ⟨emit_messagesSent _ _, fun _ h => List.mem_cons_of_mem _ h⟩

theorem sendMgmtWith_message (d : Dev) (fpid dst mtype arg : Nat) (body : List Byte) (o : Out) :
    ∃ n, Out.mgmt dst mtype fpid n arg false ∈ (d.sendMgmtWith fpid dst mtype arg body o).out := by
  obtain ⟨n, h⟩ := sendMgmtVia_message d none fpid dst mtype arg body
  exact ⟨n, List.mem_cons_of_mem _ h⟩

/-- Sending for each entry of a list tells what each of them tells. -/
theorem foldl_told {α : Type} {f : Dev → α → Dev} (hf : ∀ (d : Dev) x, d.MessagesTold (f d x)) (l : List α) (d : Dev) :
    d.MessagesTold (l.foldl f d) :=
  List.foldlRecOn (motive := d.MessagesTold) _ _ (.refl d) fun e he x _ => he.trans (hf e x)

theorem foldl_message {α : Type} {f : Dev → α → Dev} {o : α → Nat → Out} (hf : ∀ (d : Dev) x, d.MessagesTold (f d x))
    (ho : ∀ (d : Dev) x, ∃ n, o x n ∈ (f d x).out) {l : List α} {x : α} (hx : x ∈ l) (d : Dev) : ∃ n, o x n ∈ (l.foldl f d).out := by
  obtain ⟨a, b, rfl⟩ := List.append_of_mem hx
  obtain ⟨n, hn⟩ := ho (a.foldl f d) x
  rw [List.foldl_append, List.foldl_cons]
  exact ⟨n, (foldl_told hf b _).out hn⟩

theorem mem_others {m : Mould} {i : Nat} (hi : i < m.devices) (hself : i ≠ m.self) :
    i ∈ (List.range m.devices).filter (fun i => i ≠ m.self) := by simp [hi, hself]

theorem sendAll_told (d : Dev) (m : Mould) (mtype arg : Nat) : d.MessagesTold (d.sendAll m mtype arg) :=
  foldl_told (fun e i => sendMgmt_told e m.fpid i mtype arg) _ d

theorem sendAll_tellsAll {d : Dev} {m : Mould} {mtype arg : Nat} {t : State} (ht : d.sendAll m mtype arg = t.dev) : ToldAll t m mtype arg :=
  fun _ hi hself => ht ▸ foldl_message (o := fun i n => .mgmt i mtype m.fpid n arg false) (fun e i => sendMgmt_told e m.fpid i mtype arg)
    (fun e i => sendMgmt_message e m.fpid i mtype arg) (mem_others hi hself) d

theorem passOn_told (d : Dev) (m : Mould) (mtype arg : Nat) : d.MessagesTold (d.passOn m mtype arg) := by
  unfold Dev.passOn
  split
  · exact sendMgmt_told d _ _ _ _
  · exact .refl d

theorem passOn_passedOn {d : Dev} {m : Mould} {mtype arg : Nat} {t : State} (ht : d.passOn m mtype arg = t.dev) : PassedOn t m mtype arg := by
  intro j hj
  rw [← ht, Dev.passOn, hj]
  exact sendMgmt_message d _ _ _ _

/-! ### What a message changes of its Mould -/

theorem Dev.MessagesTold.parts {d e : Dev} (h : d.MessagesTold e) : e.parts = d.parts := h.sent.parts

theorem Dev.MessagesTold.mouldFp {d e : Dev} (h : d.MessagesTold e) {fp : Nat} {m : Mould} (hm : d.mouldFp fp = some m) :
    ∃ k, e.mouldFp fp = some k ∧ k.AsSent m := MouldsAsSent.find? (fun _ _ => rfl) h.sent.moulds hm

theorem Dev.MessagesTold.mouldLow {d e : Dev} (h : d.MessagesTold e) {p : Nat} {m : Mould} (hm : d.mouldLow p = some m) :
    ∃ k, e.mouldLow p = some k ∧ k.AsSent m := MouldsAsSent.find? (fun _ _ => rfl) h.sent.moulds hm

/-- The Mould that is found is the one that a change by its PMASK reaches. -/
theorem mouldFp_updMould {d : Dev} {fp : Nat} {m : Mould} (hm : d.mouldFp fp = some m) {f : Mould → Mould} (hf : ∀ k, (f k).fpid = k.fpid) :
    (d.updMould m.pmask f).mouldFp fp = some (f m) := by
  have h := find?_updMould (fun k => k.fpid == fp) f (fun k => by rw [hf]) d m.pmask
  rw [show d.moulds.find? (fun k => k.fpid == fp) = some m from hm] at h
  exact h.trans (congrArg some (if_pos rfl))

theorem mouldOf_updMould_self {d : Dev} {p : Nat} {m : Mould} (hm : d.mouldOf p = some m) {f : Mould → Mould}
    (hf : ∀ k, (f k).pmask = k.pmask) : (d.updMould m.pmask f).mouldOf p = some (f m) := by
  have h := find?_updMould (fun k => bit k.pmask p) f (fun k => by rw [hf]) d m.pmask
  rw [show d.moulds.find? (fun k => bit k.pmask p) = some m from hm] at h
  exact h.trans (congrArg some (if_pos rfl))

/-! ### A message that is not taken (R361) -/

/-- A message that is not taken. -/
def Drops (d : Dev) (h : MHdr) : Prop :=
  ((∀ m ∈ d.moulds, m.fpid ≠ h.fpid) ∧ ∀ l ∈ d.loads, l.fpid ≠ h.fpid) ∨
    (h.answer = false ∧ h.seq ≤ lk 0 d.crm.mgmtSeq (h.fpid * 65536 + h.src))

/-- The device with one more message dropped. -/
def Dev.dropped (d : Dev) : Dev := { d with crm := { d.crm with mgmtDrop := satAdd d.crm.mgmtDrop 1 } }

theorem Drops.mgmtIn {d : Dev} {h : MHdr} (hd : Drops d h) (hfw : d.crm.fwReady = true) : d.mgmtIn h false = (false, d.dropped) := by
  unfold Dev.mgmtIn
  extract_lets key known
  refine (if_neg (by simp [hfw])).trans (if_pos ?_)
  rcases hd with ⟨hm, hl⟩ | ⟨hans, hseq⟩
  · have hknown : known = false := by simp only [known, Bool.or_eq_false_iff, List.any_eq_false, beq_iff_eq]; exact ⟨hm, hl⟩
    simp [hknown]
  · simp [key, hans, hseq]

/-- A row that acts on a message for a loaded Mould. -/
def MessageRow (i : Instr) (h : MHdr) : Prop :=
  ∀ s : State, ∃ body : Memory → Dev → Mould → Dev × List MemOp, exec i s = liftW (fun mem _ d => d.onMsg h (body mem)) s

theorem messageRow_notReady {i : Instr} {h : MHdr} {s : State} (hrow : MessageRow i h) (hfw : s.dev.crm.fwReady = false) :
    exec i s = .next s := by
  obtain ⟨body, hexec⟩ := hrow s
  refine hexec.trans (liftW_of_eq (w := []) ?_)
  simp [Dev.onMsg, Dev.mgmtIn, hfw]

theorem messageRow_drops {i : Instr} {h : MHdr} {s : State} (hrow : MessageRow i h) (hfw : s.dev.crm.fwReady = true) (hd : Drops s.dev h) :
    exec i s = .next { s with dev := s.dev.dropped } := by
  obtain ⟨body, hexec⟩ := hrow s
  refine hexec.trans (liftW_of_eq (w := []) ?_)
  simp only [Dev.onMsg, hd.mgmtIn hfw]

theorem messageRow_of_onMsg1 {i : Instr} {h : MHdr} {body : Dev → Mould → Dev} (hi : ∀ s, exec i s = onMsg1 h body s) : MessageRow i h :=
  fun s => ⟨fun _ d m => (body d m, []), hi s⟩

theorem messageRows (h : MHdr) (st : Nat) {i : Instr}
    (hi : i ∈ [.msgStepdone h st, .msgGo h st, .msgSwitch h st, .msgHold h st, .msgHeld h, .msgReady h st, .msgCommit h]) :
    MessageRow i h := by
  simp only [List.mem_cons, List.not_mem_nil, or_false] at hi
  rcases hi with rfl | rfl | rfl | rfl | rfl | rfl | rfl
  · exact messageRow_of_onMsg1 fun s => show execMsgStepdone h st s = _ from rfl
  · exact messageRow_of_onMsg1 fun s => show execMsgGo h st s = _ from rfl
  · exact messageRow_of_onMsg1 fun s => show execMsgSwitch h st s = _ from rfl
  · exact messageRow_of_onMsg1 fun s => show execMsgHold h st s = _ from rfl
  · exact fun s => ⟨_, show execMsgHeld h s = _ from rfl⟩
  · exact fun s => ⟨_, show execMsgReady h st s = _ from rfl⟩
  · exact messageRow_of_onMsg1 fun s => show execMsgCommit h s = _ from rfl

/-! ### The messages of a running partition (R283, R286, R288) -/

/-- Is STEPDONE(S) of every member in service among those collected? -/
def Mould.allDone (m : Mould) (l : List (Nat × Nat)) (st : Nat) : Prop := ∀ i, i < m.devices → (i, st) ∈ l ∨ m.alive i = false

theorem allDone_iff (m : Mould) (l : List (Nat × Nat)) (st : Nat) :
    (List.range m.devices).all (fun i => l.contains (i, st) || decide (((m.tab m.epoch).rec_ i).aliasTo ≠ 0xFFFF)) = true ↔ m.allDone l st := by
  simp [Mould.allDone, Mould.alive]

theorem stepDoneIn_new {m : Mould} {x st : Nat} (hnew : (x, st) ∉ m.stepDone) (d : Dev) :
    (¬ m.allDone ((x, st) :: m.stepDone) st → d.stepDoneIn m x st = d.updMould m.pmask (fun k => { k with stepDone := (x, st) :: m.stepDone })) ∧
    (m.allDone ((x, st) :: m.stepDone) st → d.stepDoneIn m x st = (d.updMould m.pmask (fun k =>
      { k with stepDone := m.stepDone.filter (fun e => e.2 ≠ st), go := max k.go (st + 1) })).sendAll m 12 st) := by
  have hl : (if m.stepDone.contains (x, st) then m.stepDone else (x, st) :: m.stepDone) = (x, st) :: m.stepDone := if_neg (by simpa using hnew)
  have hfilter : ((x, st) :: m.stepDone).filter (fun e => decide (e.2 ≠ st)) = m.stepDone.filter (fun e => decide (e.2 ≠ st)) :=
    List.filter_cons_of_neg (by simp)
  unfold Dev.stepDoneIn
  rw [hl]
  extract_lets l all
  rw [hfilter, ← allDone_iff]
  exact ⟨fun h => if_neg h, fun h => if_pos h⟩

/-- Has every member in service reported that it switched? -/
def Mould.allSwitched (m : Mould) (l : List Nat) : Prop := ∀ i, i < m.devices → i ∈ l ∨ m.alive i = false

theorem allSwitched_iff (m : Mould) (l : List Nat) :
    (List.range m.devices).all (fun i => l.contains i || !m.alive i) = true ↔ m.allSwitched l := by
  simp [Mould.allSwitched]

/-- The reports of a switch with member x's at boundary n. -/
def SwitchRun.with (r : SwitchRun) (x n : Nat) : SwitchRun :=
  { r with done := if x ∈ r.done then r.done else x :: r.done, late := r.late || decide (r.step < n) }

theorem switchedIn_eq {d : Dev} {m : Mould} {r : SwitchRun} (hr : m.switching = some r) (hof : d.mouldOf (lowPart m.pmask) = some m) (x n : Nat) :
    ∃ e, e = d.updMould m.pmask (fun k => { k with switching := k.switching.map (fun r => r.with x n) }) ∧
      d.switchedIn m x n = if (List.range m.devices).all (fun i => (r.with x n).done.contains i || !m.alive i)
        then (e.updMould m.pmask (fun k => { k with switching := none })).complete r.fn r.cid (if (r.with x n).late then 7 else 0) 0
        else e := by
  refine ⟨_, rfl, ?_⟩
  have hfind := mouldOf_updMould_self hof (f := fun k => { k with switching := k.switching.map (fun r => r.with x n) }) (fun _ => rfl)
  have hset : d.switchedIn m x n =
      (d.updMould m.pmask (fun k => { k with switching := k.switching.map (fun r => r.with x n) })).switchCheck m := by
    simp only [Dev.switchedIn, SwitchRun.with, List.contains_iff_mem]
  rw [hset, Dev.switchCheck, hfind]
  simp only [Option.bind_some, hr, Option.map_some]
  rfl

section Taken
variable {s : State} {h : MHdr} {m : Mould} (ht : Takes s.dev h m)
include ht

theorem Takes.heard_mouldFp : (s.dev.heard h).mouldFp h.fpid = some m := ht.2.1

/-- The message makes the Mould k out of m, and does nothing to memory and time blocks. -/
def MakesOf (s : State) (h : MHdr) (i : Instr) (t : State) (k : Mould) : Prop :=
  exec i s = .next t ∧ t.mem = s.mem ∧ t.cave = s.cave ∧ t.dev.parts = s.dev.parts ∧ t.dev.mouldFp h.fpid = some k

/-- The same, but for what messages that went out with it change of the Mould. -/
def MakesOfSent (s : State) (h : MHdr) (i : Instr) (t : State) (k : Mould) : Prop :=
  exec i s = .next t ∧ t.mem = s.mem ∧ t.cave = s.cave ∧ t.dev.parts = s.dev.parts ∧ ∃ n, t.dev.mouldFp h.fpid = some n ∧ n.AsSent k

/-- A message that changes its Mould only. -/
theorem makesOf_updMould {i : Instr} {f : Mould → Mould} (hf : ∀ k, (f k).fpid = k.fpid)
    (hexec : exec i s = .next { s with dev := (s.dev.heard h).updMould m.pmask f }) :
    MakesOf s h i { s with dev := (s.dev.heard h).updMould m.pmask f } (f m) :=
  ⟨hexec, rfl, rfl, rfl, mouldFp_updMould ht.heard_mouldFp hf⟩

/-- A message that changes its Mould and is told to others. -/
theorem makesOfSent_updMould {i : Instr} {f : Mould → Mould} (hf : ∀ k, (f k).fpid = k.fpid) {e : Dev}
    (he : ((s.dev.heard h).updMould m.pmask f).MessagesTold e) (hexec : exec i s = .next { s with dev := e }) :
    MakesOfSent s h i { s with dev := e } (f m) :=
  ⟨hexec, rfl, rfl, he.parts, he.mouldFp (mouldFp_updMould ht.heard_mouldFp hf)⟩

theorem exec_msgGo (st : Nat) :
    MakesOf s h (.msgGo h st) { s with dev := (s.dev.heard h).updMould m.pmask (fun k => { k with go := max k.go (st + 1) }) }
    { m with go := max m.go (st + 1) } :=
  makesOf_updMould ht (fun _ => rfl) (show execMsgGo h st s = _ from onMsg1_takes ht _)

theorem exec_msgHold_held (st : Nat) (hhold : m.hold ≠ none) : exec (.msgHold h st) s = .next { s with dev := s.dev.heard h } := by
  refine (show execMsgHold h st s = _ from (onMsg1_takes ht _).trans ?_)
  rw [if_pos (by rw [Option.isSome_iff_ne_none]; exact hhold)]

theorem exec_msgHold_stops (st : Nat) (hhold : m.hold = none) : ∃ t, MakesOfSent s h (.msgHold h st) t
    { m with hold := some ⟨st, [], 0, 0, false, [], s.dev.turn.now.toNat⟩ } ∧ PassedOn t m 16 st := by
  refine ⟨_, makesOfSent_updMould ht (f := fun k => { k with hold := some ⟨st, [], 0, 0, false, [], s.dev.turn.now.toNat⟩ }) (fun _ => rfl)
    (passOn_told _ m 16 st) ?_, passOn_passedOn rfl⟩
  refine (show execMsgHold h st s = _ from (onMsg1_takes ht _).trans ?_)
  rw [if_neg (by rw [hhold]; decide)]
  rfl

theorem exec_msgSwitch_notes (st : Nat) (hself : m.self ≠ 0) :
    ∃ t, MakesOfSent s h (.msgSwitch h st) t { m with switchAt := some st } ∧ PassedOn t m 19 st := by
  refine ⟨_, makesOfSent_updMould ht (f := fun k => { k with switchAt := some st }) (fun _ => rfl) (passOn_told _ m 19 st) ?_,
    passOn_passedOn rfl⟩
  refine (show execMsgSwitch h st s = _ from (onMsg1_takes ht _).trans ?_)
  rw [if_neg hself]

theorem exec_msgStepdone {st : Nat} (hself : m.self = 0) (hrep : m.replica = true) : exec (.msgStepdone h st) s = .next { s with
    dev := (s.dev.heard h).stepDoneIn m h.src st } := by
  refine (show execMsgStepdone h st s = _ from (onMsg1_takes ht _).trans ?_)
  rw [if_pos ⟨hself, hrep⟩]

/-- STEPDONE of a member, with others still to come. -/
theorem exec_msgStepdone_collects {st : Nat} (hself : m.self = 0) (hrep : m.replica = true) (hnew : (h.src, st) ∉ m.stepDone)
    (hall : ¬ m.allDone ((h.src, st) :: m.stepDone) st) :
    ∃ t, MakesOf s h (.msgStepdone h st) t { m with stepDone := (h.src, st) :: m.stepDone } ∧ t.dev.out = s.dev.out := by
  refine ⟨_, makesOf_updMould ht (f := fun k => { k with stepDone := (h.src, st) :: m.stepDone }) (fun _ => rfl) ?_, rfl⟩
  rw [exec_msgStepdone ht hself hrep, (stepDoneIn_new hnew _).1 hall]

/-- The last STEPDONE: GO to all. -/
theorem exec_msgStepdone_goes {st : Nat} (hself : m.self = 0) (hrep : m.replica = true) (hnew : (h.src, st) ∉ m.stepDone)
    (hall : m.allDone ((h.src, st) :: m.stepDone) st) :
    ∃ t, MakesOfSent s h (.msgStepdone h st) t
      { m with stepDone := m.stepDone.filter (fun e => e.2 ≠ st), go := max m.go (st + 1) } ∧ ToldAll t m 12 st := by
  refine ⟨_, makesOfSent_updMould ht (f := fun k => { k with stepDone := m.stepDone.filter (fun e => e.2 ≠ st), go := max k.go (st + 1) })
    (fun _ => rfl) (sendAll_told _ m 12 st) ?_, sendAll_tellsAll rfl⟩
  rw [exec_msgStepdone ht hself hrep, (stepDoneIn_new hnew _).2 hall]

/-- A report of a switch, with others still to come, and the last one (R283). -/
theorem exec_msgSwitch_counts {r : SwitchRun} (st : Nat) (hself : m.self = 0) (hr : m.switching = some r)
    (hof : s.dev.mouldOf (lowPart m.pmask) = some m) :
    (¬ m.allSwitched (r.with h.src st).done → ∃ t, MakesOf s h (.msgSwitch h st) t { m with switching := some (r.with h.src st) }) ∧
    (m.allSwitched (r.with h.src st).done → ∃ t, MakesOf s h (.msgSwitch h st) t { m with switching := none } ∧
      (CanAnswer s.dev r.fn → Completed t r.fn r.cid (if (r.with h.src st).late then 7 else 0) 0)) := by
  have hexec : exec (.msgSwitch h st) s = .next { s with dev := (s.dev.heard h).switchedIn m h.src st } := by
    refine (show execMsgSwitch h st s = _ from (onMsg1_takes ht _).trans ?_)
    rw [if_pos hself]
  obtain ⟨e, he, hin⟩ := switchedIn_eq (d := s.dev.heard h) hr hof h.src st
  have hmould : e.mouldFp h.fpid = some { m with switching := some (r.with h.src st) } := by
    rw [he, mouldFp_updMould ht.heard_mouldFp (f := fun k => { k with switching := k.switching.map (fun r => r.with h.src st) }) (fun _ => rfl)]
    simp only [hr, Option.map_some]
  rw [hin] at hexec
  refine ⟨fun hall => ?waits, fun hall => ?completes⟩
  case waits =>
    rw [if_neg (fun h => hall ((allSwitched_iff ..).mp h))] at hexec
    exact ⟨_, hexec, rfl, rfl, by rw [he]; rfl, hmould⟩
  case completes =>
    rw [if_pos ((allSwitched_iff ..).mpr hall)] at hexec
    refine ⟨_, ⟨hexec, rfl, rfl, ?_, ?_⟩, fun hcan => ?_⟩
    · rw [(complete_hostsTold _ _ _ _ _).loadsKept.parts, he]; rfl
    · have hends := mouldFp_updMould hmould (f := fun k => { k with switching := none }) (fun _ => rfl)
      exact (congrArg (List.find? _) (complete_hostsTold _ _ _ _ _).loadsKept.moulds).trans hends
    · obtain ⟨fs, o, hdone, hcpl⟩ := complete_completed (d := e.updMould m.pmask (fun k => { k with switching := none })) r.cid
        (if (r.with h.src st).late then 7 else 0) 0 (f := r.fn) (by rw [he]; exact hcan)
      exact hcpl _ (congrArg (fun x : Dev => x.out) hdone)

end Taken

/-- Settles O53: a message that is not taken is counted; a taken one changes its Mould, and goes on where it is to. -/
theorem memberMessages : Obligations.MemberMessages := by
  intro h st s
  refine ⟨fun i hi => ⟨messageRow_notReady (messageRows h st hi), messageRow_drops (messageRows h st hi)⟩, fun m ht => ?_⟩
  refine ⟨fun hself hrep hnew => ⟨exec_msgStepdone_collects ht hself hrep hnew, exec_msgStepdone_goes ht hself hrep hnew⟩,
    ⟨_, exec_msgGo ht st, rfl⟩, exec_msgSwitch_notes ht st, fun r hself hr hof => exec_msgSwitch_counts ht st hself hr hof,
    exec_msgHold_stops ht st, exec_msgHold_held ht st⟩

end Sys2Proof.Machine

/-! ## A restart that meets an uncorrected word -/

namespace Sys2Proof.Machine

/-! The coordinator that is the last survivor goes on from a rewind to RESTART in the same step, and member 0 puts the plan of the restarted
step in place again (R287, R330). Where that write meets an uncorrected word (R147), the error halts the sequencers that the rewind has just
set to IDLE (R400), as in the FAILOVER's example above. -/

/-- The Mould of that example after its member 1 is lost. -/
def loneMould : Mould :=
  let tab := partnersTab.setRec 1 (fun r => { r with aliasTo := 0 })
  { midWordMould with tabA := tab, tabB := tab }

/-- A device with this Mould, at the tick of its first boundary, and with a STEP-class error in partition 0. -/
def loneState : State :=
  let d := midWordState.dev
  { midWordState with dev := { d with
      moulds := [loneMould]
      turn := { d.turn with now := 400 }
      errs := { d.errs with stepErrs := [(0, 0)] } } }

/-- LOST with ARG 0xFFFF, from member 1. -/
def lostFrom1 : MHdr := { fpid := 5, src := 1, seq := 1, answer := false }

theorem loneState_takes : Takes loneState.dev lostFrom1 loneMould := by
  unfold Takes; decide +kernel

theorem loneMould_has : loneMould.has (loneState.dev.partOf 0) = true := by decide +kernel

theorem haltsCore0_lost : haltsCore0 (exec (.msgLost lostFrom1 0xFFFF) loneState) = true := by decide +kernel

theorem haltsCore0_samplingPoint : haltsCore0 (exec (.samplingPoint 0) loneState) = true := by decide +kernel

/-- An instruction that leaves core 0 HALTED has not stood by on the Mould. -/
theorem not_stoodBy_of_haltsCore0 {i : Instr} {t : State} (hhalts : haltsCore0 (exec i loneState) = true)
    (hexec : exec i loneState = .next t) : ¬ StoodBy loneState t loneMould := by
  rintro ⟨-, hidle, -⟩
  rw [hexec] at hhalts
  have hhalted : (t.dev.core 0).a.st = .halted := eq_of_beq hhalts
  have hstands : (t.dev.core 0).a.st = .idle := (hidle 0 loneMould_has).1
  rw [hhalted] at hstands
  cases hstands

/-- Refutes O54: LOST with ARG 0xFFFF on the last survivor restarts at once, and the kept plan's write over a part of an uncorrected word
leaves the Mould's sequencers HALTED. -/
theorem not_failoverRuns : ¬ Obligations.FailoverRuns := by
  intro h
  obtain ⟨-, htaken⟩ := h loneState
  obtain ⟨-, -, -, ⟨t, hexec, hstood⟩, -⟩ := htaken lostFrom1 loneMould loneState_takes
  exact not_stoodBy_of_haltsCore0 haltsCore0_lost hexec hstood

theorem loneState_due : ∀ q ∈ partsOf loneMould.pmask, (loneState.dev.part q).next = 0 ∧ loneState.dev.boundaryDue q loneMould = true := by
  decide +kernel

/-- Refutes O50: a sampling point that rewinds on the last survivor restarts at once, and the kept plan's write over a part of an uncorrected
word leaves the Mould's sequencers HALTED. -/
theorem not_samplingPointBuildsThePlan : ¬ Obligations.SamplingPointBuildsThePlan := by
  intro h
  obtain ⟨-, hrewind⟩ := h 0 loneState loneMould (by decide +kernel) (by unfold Held; decide +kernel) rfl (by decide +kernel) loneState_due
  obtain ⟨t, hexec, hstood, -⟩ := hrewind rfl ⟨(0, 0), by decide +kernel, by decide⟩ (by decide)
  exact not_stoodBy_of_haltsCore0 haltsCore0_samplingPoint hexec hstood

end Sys2Proof.Machine

/-! ## Holds and state copies -/

namespace Sys2Proof.Machine

/-! ### What a hold's changes leave (R288, R289) -/

/-- What names a Mould to a message or a command: its PMASK and its FPID. -/
def Mould.names (m : Mould) : Nat × Nat := (m.pmask, m.fpid)

/-- The grids, the time and the names of the Moulds are as before, what had gone out stands, and what could be answered still can. -/
structure Dev.GridKept (d e : Dev) : Prop where
  parts : e.parts = d.parts
  now : e.turn.now = d.turn.now
  names : e.moulds.map Mould.names = d.moulds.map Mould.names
  out : d.out ⊆ e.out
  answers : ∀ f, CanAnswer d f → CanAnswer e f

theorem Dev.GridKept.refl (d : Dev) : d.GridKept d := ⟨rfl, rfl, rfl, fun _ h => h, fun _ h => h⟩

theorem Dev.GridKept.trans {d e g : Dev} (h : d.GridKept e) (k : e.GridKept g) : d.GridKept g :=
  ⟨k.parts.trans h.parts, k.now.trans h.now, k.names.trans h.names, fun _ ho => k.out (h.out ho), fun f hf => k.answers f (h.answers f hf)⟩

theorem Dev.GridKept.part {d e : Dev} (h : d.GridKept e) (q : Nat) : e.part q = d.part q := congrArg (lk PartTime.reset · q) h.parts

theorem foldl_gridKept {α : Type} {f : Dev → α → Dev} (hf : ∀ (d : Dev) x, d.GridKept (f d x)) (l : List α) (d : Dev) : d.GridKept (l.foldl f d) :=
  List.foldlRecOn (motive := d.GridKept) _ _ (.refl d) fun e he x _ => he.trans (hf e x)

theorem map_names_asSent {ms ks : List Mould} (h : MouldsAsSent ms ks) : ks.map Mould.names = ms.map Mould.names := by
  induction h with
  | nil => rfl
  | cons hk _ ih => rw [List.map_cons, List.map_cons, ih, hk]; rfl

theorem Dev.MessagesTold.gridKept {d e : Dev} (h : d.MessagesTold e) : d.GridKept e := by
  obtain ⟨⟨⟨ms, ps, mo, fr, o, rfl⟩, hms⟩, hout⟩ := h
  exact ⟨rfl, rfl, map_names_asSent hms, hout, fun _ hf => hf⟩

/-- A change of Moulds that keeps their names. -/
theorem updMould_gridKept (d : Dev) (pm : Nat) {g : Mould → Mould} (hg : ∀ m, (g m).names = m.names) : d.GridKept (d.updMould pm g) := by
  refine ⟨rfl, rfl, ?_, fun _ h => h, fun _ h => h⟩
  rw [Dev.updMould, List.map_map]
  refine List.map_congr_left fun m _ => ?_
  rw [Function.comp_apply]
  split
  · exact hg m
  · rfl

theorem updPort_gridKept (d : Dev) (u : Nat) (g : Port → Port) : d.GridKept (d.updPort u g) := ⟨rfl, rfl, rfl, fun _ h => h, fun _ h => h⟩

theorem emits_gridKept (d : Dev) (l : List Out) : d.GridKept (d.emits l) := by
  obtain ⟨o, h⟩ := emits_eq d l
  have hout := emits_out d l
  rw [h] at hout ⊢
  exact ⟨rfl, rfl, rfl, hout, fun _ hf => hf⟩

theorem sendIdentity_gridKept (d : Dev) (u : Nat) : d.GridKept (d.sendIdentity u) := (updPort_gridKept d u _).trans (emits_gridKept _ _)

theorem portDown_gridKept (d : Dev) (u : Nat) : d.GridKept (d.portDown u) := by
  unfold Dev.portDown
  extract_lets e1 e2
  split
  · exact ⟨rfl, rfl, rfl, fun _ h => h, fun _ h => h⟩
  · exact ⟨rfl, rfl, rfl, fun _ h => h, fun _ h => h⟩

/-- The vectors of an error record set pending bits at most (R398). -/
theorem msix_gridKept (d : Dev) (f vec : Nat) : d.GridKept (d.msix f vec) := by
  obtain ⟨fs, o, h, hf, hout⟩ := msix_spec d f vec
  rw [h]
  refine ⟨rfl, rfl, rfl, hout, fun g hg => ?_⟩
  obtain ⟨p, hp⟩ := hf g
  have hfunc : ({ d with funcs := fs, out := o } : Dev).func g = { d.func g with pba := p } := hp
  rw [CanAnswer, hfunc]
  exact hg

theorem errs_gridKept (d : Dev) (es : Errs) : d.GridKept { d with errs := es } := ⟨rfl, rfl, rfl, fun _ h => h, fun _ h => h⟩

theorem irqs_gridKept (d : Dev) (cls pm : Nat) : d.GridKept (d.irqs cls pm) :=
  foldl_gridKept (fun e f => by
    split
    · exact (errs_gridKept e { e.errs with sent := f :: e.errs.sent }).trans (msix_gridKept _ _ _)
    · exact .refl e) _ d

theorem raise_gridKept {d : Dev} {e : Err} (h : e.cls = 0) : d.GridKept (d.raise e) := by
  simp only [Dev.raise, h]
  exact (errs_gridKept d _).trans (irqs_gridKept _ _ _)

theorem raisePort_gridKept (d : Dev) (u code : Nat) (detail : List Nat) : d.GridKept (d.raisePort u code detail) := raise_gridKept rfl

theorem letIn_gridKept (d : Dev) (u : Nat) : d.GridKept (d.letIn u) := by
  unfold Dev.letIn
  split
  · exact .refl d
  · split
    · exact updPort_gridKept d u _
    · split
      · exact .refl d
      · exact (updPort_gridKept d u _).trans (raisePort_gridKept _ u _ _)
    · extract_lets e bad
      have he : d.GridKept e := updPort_gridKept d u _
      split
      · exact (he.trans (updPort_gridKept e u _)).trans (raisePort_gridKept _ u _ _)
      · exact he

theorem recheckPorts_gridKept (d : Dev) (min0 : Nat) (max0 : Nat → Nat) : d.GridKept (d.recheckPorts min0 max0) := by
  unfold Dev.recheckPorts
  extract_lets e
  have he : d.GridKept e := foldl_gridKept (fun e u => by
    extract_lets x
    split
    · split
      · exact .refl e
      · exact portDown_gridKept e u
    · split
      · exact .refl e
      · split
        · exact updPort_gridKept e u _
        · split
          · exact .refl e
          · exact (updPort_gridKept e u _).trans (letIn_gridKept _ u)) _ d
  refine (he.trans (foldl_gridKept (fun e u => updPort_gridKept e u _) _ e)).trans (foldl_gridKept (fun e u => ?_) _ _)
  split
  · exact sendIdentity_gridKept e u
  · exact .refl e

theorem substituted_gridKept (d : Dev) (m : Mould) (i n : Nat) : d.GridKept (d.substituted m i n) := by
  unfold Dev.substituted
  extract_lets us e
  have he : d.GridKept e := updMould_gridKept d m.pmask fun _ => rfl
  refine (he.trans (foldl_gridKept (fun x u => ?_) us e)).trans (recheckPorts_gridKept _ _ _)
  split
  · exact .refl x
  · exact (portDown_gridKept x u).trans (updPort_gridKept _ u _)

theorem applyChange_gridKept (m : Mould) (mem : Memory) (d : Dev) (c : Nat × Nat × Nat) : d.GridKept (d.applyChange m mem c) := by
  obtain ⟨kind, i, v⟩ := c
  match kind with
  | 0 => exact .refl d
  | 1 => exact substituted_gridKept d m i v
  | 2 => exact updMould_gridKept d m.pmask fun _ => rfl
  | 3 =>
    rw [Dev.applyChange]
    split
    · exact (sendMgmtWith_told d _ _ _ _ _ _).gridKept
    · exact .refl d
  | k + 4 => exact .refl d

/-! ### A Mould that keeps its names is found again -/

theorem find?_names {ms ks : List Mould} (h : ks.map Mould.names = ms.map Mould.names) (P : Nat × Nat → Bool) {m : Mould}
    (hm : ms.find? (P ∘ Mould.names) = some m) : ∃ k, ks.find? (P ∘ Mould.names) = some k ∧ k.names = m.names := by
  have hmap : (ks.find? (P ∘ Mould.names)).map Mould.names = (ms.find? (P ∘ Mould.names)).map Mould.names := by
    rw [← List.find?_map, ← List.find?_map, h]
  rw [hm, Option.map_some, Option.map_eq_some_iff] at hmap
  exact hmap

/-- A search of the loaded Moulds by their names alone. -/
def ByNames (found : Dev → Option Mould) : Prop := ∃ P : Nat × Nat → Bool, ∀ d : Dev, found d = d.moulds.find? (P ∘ Mould.names)

theorem byNames_mouldLow (p : Nat) : ByNames (fun d => d.mouldLow p) := ⟨fun n => lowPart n.1 == p, fun _ => rfl⟩

theorem byNames_mouldFp (fp : Nat) : ByNames (fun d => d.mouldFp fp) := ⟨fun n => n.2 == fp, fun _ => rfl⟩

section Found
variable {found : Dev → Option Mould} (hfound : ByNames found)
include hfound

theorem ByNames.kept {d e : Dev} (h : d.GridKept e) {m : Mould} (hm : found d = some m) : ∃ k, found e = some k ∧ k.names = m.names := by
  obtain ⟨P, hP⟩ := hfound
  rw [hP] at hm ⊢
  exact find?_names h.names P hm

theorem ByNames.updMould {d : Dev} {m : Mould} (hm : found d = some m) {g : Mould → Mould} (hg : ∀ k, (g k).names = k.names) :
    found (d.updMould m.pmask g) = some (g m) := by
  obtain ⟨P, hP⟩ := hfound
  rw [hP] at hm ⊢
  rw [find?_updMould _ g (fun k => by rw [Function.comp_apply, hg]; rfl), hm]
  exact congrArg some (if_pos rfl)

end Found

/-! ### The grid after a hold (R288, R401) -/

/-- Steps that each write one time block write each of a list without repeats once. -/
theorem part_foldl_own {step : Dev → Nat → Dev} {g : Nat → PartTime → PartTime} (hown : ∀ d p, (step d p).part p = g p (d.part p))
    (hother : ∀ d p q, q ≠ p → (step d p).part q = d.part q) {l : List Nat} (hl : l.Nodup) (d : Dev) (q : Nat) :
    (l.foldl step d).part q = if q ∈ l then g q (d.part q) else d.part q := by
  induction l generalizing d with
  | nil => rfl
  | cons p r ih =>
    obtain ⟨hp, hr⟩ := List.nodup_cons.mp hl
    rw [List.foldl_cons, ih hr]
    by_cases hq : q = p
    · subst hq; simp [hp, hown]
    · simp [hq, hother d p q hq]

/-- The time block of a partition that takes boundary st anew at tick t, with the grid of that tick. -/
def PartTime.Regridded (x y : PartTime) (st t : Nat) : Prop :=
  x.dead = false → y.next = st ∧ y.restartAt = some (st, t) ∧ y.t0 = BitVec.ofNat 64 t - BitVec.ofNat 64 (st * x.period.toNat)

/-- One partition's part in a regrid. -/
def PartTime.anew (st t : Nat) (x : PartTime) : PartTime :=
  if x.dead then x
  else { x with t0 := BitVec.ofNat 64 t - BitVec.ofNat 64 (st * x.period.toNat), next := st, restartAt := some (st, t), earliest := 0 }

theorem anew_regridded (st t : Nat) (x : PartTime) : x.Regridded (x.anew st t) st t := by
  intro hdead
  rw [PartTime.anew, hdead]
  exact ⟨rfl, rfl, rfl⟩

theorem part_regrid (d : Dev) (m : Mould) (st t : Nat) {q : Nat} (hq : q ∈ partsOf m.pmask) :
    (d.regrid m st t false).part q = (d.part q).anew st t := by
  refine (part_foldl_own (g := fun _ => PartTime.anew st t) (fun e p => ?_) (fun e p q hqp => ?_) (partsOf_nodup m.pmask) d q).trans (if_pos hq)
  · dsimp only
    rw [PartTime.anew]
    split
    · rfl
    · exact Dev.part_setPart e p _
  · dsimp only
    split
    · rfl
    · exact Dev.part_setPart_ne e hqp _

theorem regrid_eq (d : Dev) (m : Mould) (st t : Nat) (again : Bool) : ∃ ps, d.regrid m st t again = { d with parts := ps } := by
  refine List.foldlRecOn (motive := fun e : Dev => ∃ ps : SMap PartTime, e = { d with parts := ps }) _ _ ⟨d.parts, rfl⟩ ?_
  rintro _ ⟨ps, rfl⟩ p -
  dsimp only
  split
  · exact ⟨ps, rfl⟩
  · exact ⟨_, rfl⟩

/-- One partition's part in an abandoned hold: an overdue boundary comes at the next point of its grid. -/
def PartTime.overdue (now : Nat) (x : PartTime) : PartTime :=
  if x.period.toNat = 0 ∨ now < x.nominal x.next then x
  else { x with earliest := x.nominal x.next + x.period.toNat * ((now - x.nominal x.next) / x.period.toNat + 1) }

theorem abandoned_eq (d : Dev) (m : Mould) :
    d.abandoned m = (partsOf m.pmask).foldl (fun e p => e.updPart p (PartTime.overdue d.turn.now.toNat)) d := by
  unfold Dev.abandoned
  generalize hnow : d.turn.now.toNat = now
  generalize partsOf m.pmask = l
  induction l generalizing d with
  | nil => rfl
  | cons p l ih =>
    rw [List.foldl_cons, List.foldl_cons, hnow]
    exact ih _ hnow

/-- The grid goes on: next step and tick 0 are as before, an overdue boundary comes at the next point of the grid. -/
def PartTime.GoesOn (x y : PartTime) (now : Nat) : Prop :=
  y.next = x.next ∧ y.t0 = x.t0 ∧
    (x.period ≠ 0 → x.nominal x.next ≤ now → now < y.earliest ∧ y.earliest ≤ now + x.period.toNat ∧
      ∃ i, y.earliest = x.nominal x.next + x.period.toNat * i)

theorem overdue_goesOn (now : Nat) (x : PartTime) : x.GoesOn (x.overdue now) now := by
  unfold PartTime.GoesOn PartTime.overdue
  split
  next h =>
    refine ⟨rfl, rfl, fun hp hle => ?_⟩
    have hp' : x.period.toNat ≠ 0 := fun h0 => hp (BitVec.eq_of_toNat_eq h0)
    omega
  next h =>
    refine ⟨rfl, rfl, fun _ hle => ?_⟩
    dsimp only
    generalize x.nominal x.next = n at hle ⊢
    have hpos : 0 < x.period.toNat := by omega
    have hlt := Nat.lt_mul_div_succ (now - n) hpos
    have hle' := Nat.mul_div_le (now - n) x.period.toNat
    refine ⟨by omega, ?_, _, rfl⟩
    rw [Nat.mul_add, Nat.mul_one]
    omega

theorem part_abandoned (d : Dev) (m : Mould) {q : Nat} (hq : q ∈ partsOf m.pmask) :
    (d.abandoned m).part q = (d.part q).overdue d.turn.now.toNat := by
  rw [abandoned_eq, part_foldl_updPart (fun _ => PartTime.overdue d.turn.now.toNat) (partsOf_nodup m.pmask), if_pos hq]

theorem abandoned_parts (d : Dev) (m : Mould) : ∃ ps, d.abandoned m = { d with parts := ps } := by
  rw [abandoned_eq]; exact foldl_updPart_eq _ _ _

/-! ### RESUME (R288) -/

/-- The Mould with its hold cleared, step st to come, the grid's tick 0 at t where it had none. -/
def Mould.resumed (st t : Nat) (m : Mould) : Mould :=
  { m with hold := none, heldFlag := false, quiet := false, go := max m.go st, phase := max 5 m.phase, t0 := if m.t0 = 0 then t else m.t0 }

/-- What the end of a hold with boundary st at tick t makes of a device: the hold is cleared, and the grid taken anew or gone on with. -/
structure Dev.Resumed (d : Dev) (m : Mould) (st t : Nat) (e : Dev) : Prop where
  rest : ∃ ps, e = { d.updMould m.pmask (Mould.resumed st t) with parts := ps }
  anew : t ≠ 0 → ∀ q ∈ partsOf m.pmask, (d.part q).Regridded (e.part q) st t
  goes : t = 0 → ∀ q ∈ partsOf m.pmask, (d.part q).GoesOn (e.part q) d.turn.now.toNat

theorem resume_resumed (d : Dev) {m : Mould} {x : Hold} (hx : m.hold = some x) (t : Nat) : d.Resumed m x.step t (d.resume m t) := by
  have hset : d.resume m t = if t = 0 then (d.updMould m.pmask (Mould.resumed x.step t)).abandoned m
      else (d.updMould m.pmask (Mould.resumed x.step t)).regrid m x.step t false := by
    simp only [Dev.resume, hx]
    rfl
  rw [hset]
  by_cases ht : t = 0
  · rw [if_pos ht]
    exact ⟨abandoned_parts _ _, fun h => absurd ht h, fun _ q hq => part_abandoned (d.updMould m.pmask _) m hq ▸ overdue_goesOn _ _⟩
  · rw [if_neg ht]
    exact ⟨regrid_eq _ _ _ _ _, fun _ q hq => part_regrid (d.updMould m.pmask _) m _ _ hq ▸ anew_regridded _ _ _, fun h => absurd h ht⟩

theorem Dev.Resumed.found {d e : Dev} {m : Mould} {st t : Nat} (h : d.Resumed m st t e) {found : Dev → Option Mould} (hf : ByNames found) {k : Mould}
    (hk : found d = some k) (hkm : k.names = m.names) : ∃ j, found e = some j ∧ j.hold = none := by
  obtain ⟨ps, he⟩ := h.rest
  have hpm : m.pmask = k.pmask := (congrArg Prod.fst hkm).symm
  have hu := hf.updMould hk (g := Mould.resumed st t) (fun _ => rfl)
  obtain ⟨P, hP⟩ := hf
  rw [hP] at hu ⊢
  rw [he, hpm]
  exact ⟨_, hu, rfl⟩

theorem Dev.Resumed.answers {d e : Dev} {m : Mould} {st t : Nat} (h : d.Resumed m st t e) {f : Nat} (hf : CanAnswer d f) : CanAnswer e f := by
  obtain ⟨ps, rfl⟩ := h.rest
  exact hf

theorem Dev.Resumed.out {d e : Dev} {m : Mould} {st t : Nat} (h : d.Resumed m st t e) : e.out = d.out := by
  obtain ⟨ps, rfl⟩ := h.rest
  rfl

theorem flushHeld_out (d : Dev) (f : Nat) : d.out ⊆ (d.flushHeld f).out := by
  unfold Dev.flushHeld
  extract_lets x
  rcases flushCpl f x.held.length x [] with ⟨y, o⟩
  have hold : d.out ⊆ o ++ d.out := List.subset_append_right _ _
  by_cases ho : o.isEmpty = true
  · simp only [ho, if_true]; exact hold
  · simp only [ho, Bool.false_eq_true, if_false]
    exact fun _ h => (msix_gridKept _ _ _).out (hold h)

theorem complete_out (d : Dev) (f cid status result : Nat) : d.out ⊆ (d.complete f cid status result).out := by
  unfold Dev.complete
  extract_lets x
  split
  · exact fun _ h => h
  · exact flushHeld_out (d.setFunc f _) f

/-- The completion of the command that asked for a hold. -/
def Dev.holdDone (d : Dev) (x : Hold) (status : Nat) : Dev := if x.host then d.complete x.fn x.cid status 0 else d

theorem holdDone_told (d : Dev) (x : Hold) (status : Nat) : d.HostsTold (d.holdDone x status) := by
  unfold Dev.holdDone
  split
  · exact complete_hostsTold _ _ _ _ _
  · exact .refl d

theorem holdDone_completes {d : Dev} {x : Hold} (hhost : x.host = true) (hcan : CanAnswer d x.fn) (status : Nat) {t : State}
    (ht : t.dev = d.holdDone x status) : Completed t x.fn x.cid status 0 := by
  obtain ⟨fs, o, hdone, hcpl⟩ := complete_completed x.cid status 0 hcan
  exact hcpl t (by rw [ht, Dev.holdDone, if_pos hhost, hdone])

theorem sendAllWith_told (d : Dev) (m : Mould) (mtype arg : Nat) (body : List Byte) (o : Nat → Out) :
    d.MessagesTold (d.sendAllWith m mtype arg body o) :=
  foldl_told (fun e i => sendMgmtWith_told e m.fpid i mtype arg body (o i)) _ d

theorem sendAllWith_tells (d : Dev) {m : Mould} (mtype arg : Nat) (body : List Byte) (o : Nat → Out) {i : Nat} (hi : i < m.devices)
    (hself : i ≠ m.self) : ∃ n, Out.mgmt i mtype m.fpid n arg false ∈ (d.sendAllWith m mtype arg body o).out :=
  foldl_message (o := fun i n => .mgmt i mtype m.fpid n arg false) (fun e i => sendMgmtWith_told e m.fpid i mtype arg body (o i))
    (fun e i => sendMgmtWith_message e m.fpid i mtype arg body (o i)) (mem_others hi hself) d

/-! ### HELD (R288) -/

/-- The members of whom HELD is there with that of member i. -/
def Hold.heldWith (x : Hold) (i : Nat) : List Nat := if x.held.contains i then x.held else i :: x.held

theorem mem_heldWith (x : Hold) (i j : Nat) : j ∈ x.heldWith i ↔ j = i ∨ j ∈ x.held := by
  rw [Hold.heldWith]
  split
  next h =>
    have hi : i ∈ x.held := by simpa using h
    exact ⟨.inr, fun h => h.elim (fun h => h ▸ hi) id⟩
  · exact List.mem_cons

/-- HELD of every member in service is there. -/
theorem allHeld_iff (m : Mould) (x : Hold) (i : Nat) :
    (((List.range m.devices).filter (fun j => m.alive j)).all (fun j => (x.heldWith i).contains j)) = true ↔
      ∀ j, j < m.devices → m.alive j = true → j = i ∨ j ∈ x.held := by
  simp only [List.all_eq_true, List.mem_filter, List.mem_range, List.contains_iff_mem, mem_heldWith, and_imp]

section Held
variable {d : Dev} {m : Mould} {x : Hold} (hx : m.hold = some x) (i : Nat) (mem : Memory)
include hx

theorem heldIn_eq : d.heldIn m i mem =
    let e := d.updMould m.pmask (fun m => { m with hold := some { x with held := x.heldWith i } })
    if ((List.range m.devices).filter (fun j => m.alive j)).all (fun j => (x.heldWith i).contains j) then
      let (v, e) := e.freeNat (2 ^ 32)
      let t := e.turn.now.toNat + 64 + (if x.changes.any (fun c => c.1 == 3) then copyTicks else 0) + v
      let e := e.sendAllWith m 18 0 (natLe t 8 ++ x.changes.flatMap (fun c => natLe c.1 2 ++ natLe c.2.1 2 ++ natLe 0 4 ++ natLe c.2.2 8))
        (fun j => .changes j m.fpid t x.changes)
      ((x.changes.foldl (fun e c => e.applyChange m mem c) e).resume m t).holdDone x 0
    else e := by
  simp only [Dev.heldIn, hx]
  rfl

theorem heldIn_waits (h : ∃ j, j < m.devices ∧ m.alive j = true ∧ j ≠ i ∧ j ∉ x.held) :
    d.heldIn m i mem = d.updMould m.pmask (fun m => { m with hold := some { x with held := x.heldWith i } }) := by
  have hall := mt (allHeld_iff m x i).mp fun hall => by
    obtain ⟨j, hj, halive, hne, hno⟩ := h
    exact (hall j hj halive).elim hne hno
  exact (heldIn_eq hx i mem).trans (if_neg hall)

/-- The last HELD: RESUME to all, the changes, and the end of the hold. -/
theorem heldIn_ends (h : ∀ j, j < m.devices → m.alive j = true → j = i ∨ j ∈ x.held) :
    ∃ e t, d.heldIn m i mem = (e.resume m t).holdDone x 0 ∧ d.GridKept e ∧ d.turn.now.toNat + 64 ≤ t ∧
      ∀ j, j < m.devices → j ≠ m.self → ∃ n, Out.mgmt j 18 m.fpid n 0 false ∈ e.out := by
  have hall := (allHeld_iff m x i).mpr h
  rw [heldIn_eq hx i mem]
  extract_lets d1
  rw [if_pos hall]
  have h1 : d.GridKept d1 := updMould_gridKept d m.pmask fun _ => rfl
  clear_value d1
  rw [Dev.freeNat]
  dsimp only
  generalize hfree : ({ d1 with free := d1.free + 1 } : Dev) = d2
  have h2 : d1.GridKept d2 := hfree ▸ ⟨rfl, rfl, rfl, fun _ h => h, fun _ h => h⟩
  refine ⟨_, _, rfl, ?_, ?_, fun j hj hself => ?_⟩
  · exact ((h1.trans h2).trans (sendAllWith_told d2 m 18 0 _ _).gridKept).trans (foldl_gridKept (applyChange_gridKept m mem) _ _)
  · rw [h1.now]; omega
  · obtain ⟨n, hn⟩ := sendAllWith_tells d2 18 0 _ _ hj hself
    exact ⟨n, (foldl_gridKept (applyChange_gridKept m mem) _ _).out hn⟩

end Held

/-- The hold ended: RESUME went to all, every partition takes its step anew, the HOLD command completes OK. -/
def HoldEnded (s : State) (i : Instr) (found : Dev → Option Mould) (m : Mould) (x : Hold) : Prop :=
  ∃ t k at_, exec i s = .next t ∧ t.mem = s.mem ∧ t.cave = s.cave ∧ found t.dev = some k ∧ k.hold = none ∧
    s.dev.turn.now.toNat + 64 ≤ at_ ∧ ToldAll t m 18 0 ∧ TakenAnew s t m x.step at_ ∧
    (x.host = true → CanAnswer s.dev x.fn → Completed t x.fn x.cid 0 0)

/-- A partition's time block after a hold's end and its command's completion. -/
theorem part_holdDone (d : Dev) (x : Hold) (status q : Nat) : (d.holdDone x status).part q = d.part q :=
  (holdDone_told d x status).loadsKept.part q

theorem found_holdDone {found : Dev → Option Mould} (hf : ByNames found) (d : Dev) (x : Hold) (status : Nat) :
    found (d.holdDone x status) = found d := by
  obtain ⟨P, hP⟩ := hf
  rw [hP, hP, (holdDone_told d x status).loadsKept.moulds]

theorem holdDone_out {d : Dev} {x : Hold} (status : Nat) : d.out ⊆ (d.holdDone x status).out := by
  unfold Dev.holdDone
  split
  · exact complete_out _ _ _ _ _
  · exact fun _ h => h

theorem holdEnded_of_heldIn {s : State} {i : Instr} {found : Dev → Option Mould} (hf : ByNames found) {d : Dev} {m : Mould} {x : Hold} {j : Nat}
    (hd : s.dev.GridKept d) (hm : found d = some m) (hx : m.hold = some x)
    (hall : ∀ k, k < m.devices → m.alive k = true → k = j ∨ k ∈ x.held) (hexec : exec i s = .next { s with dev := d.heldIn m j s.mem }) :
    HoldEnded s i found m x := by
  obtain ⟨e, t, hin, hkept, hlate, htold⟩ := heldIn_ends (d := d) hx j s.mem hall
  have hres := resume_resumed e hx t
  have hall := hd.trans hkept
  obtain ⟨k, hk, hkm⟩ := hf.kept hkept hm
  obtain ⟨n, hn, hnone⟩ := hres.found hf hk hkm
  rw [hin] at hexec
  refine ⟨_, n, t, hexec, rfl, rfl, ?_, hnone, ?_, fun b hb hself => ?_, fun q hq hdead => ?_, fun hhost hcan => ?_⟩
  · exact (found_holdDone hf _ x 0).trans hn
  · rw [← hd.now]; exact hlate
  · obtain ⟨c, hc⟩ := htold b hb hself
    exact ⟨c, holdDone_out 0 (hres.out ▸ hc)⟩
  · have hq := hres.anew (by omega) q hq
    rw [hall.part] at hq
    dsimp only
    rw [part_holdDone]
    exact hq hdead
  · exact holdDone_completes hhost (hres.answers (hall.answers _ hcan)) 0 rfl

/-! ### HOLD_QUIET and HOLD_TIMEOUT (R288) -/

theorem quiet_mouldLow {d : Dev} {p : Nat} {m : Mould} (hm : d.mouldLow p = some m) :
    (d.updMould m.pmask (fun m => { m with quiet := true })).mouldLow p = some { m with quiet := true } :=
  mouldLow_updMould hm fun _ => rfl

section Quiet
variable {s : State} {p : PartId} {m : Mould} {x : Hold} (hm : s.dev.mouldLow p = some m) (hx : m.hold = some x)
include hm hx

section Stands
variable (hnew : m.quiet = false) (hquiet : s.dev.fpQuiet m.fpid = true)
  (hstands : ∀ q ∈ partsOf m.pmask, (s.dev.part q).st = .stopped ∧ (s.dev.part q).next = x.step)
include hnew hquiet hstands

theorem exec_holdQuiet : exec (.holdQuiet p) s = .next { s with dev :=
    if m.self = 0 then (s.dev.updMould m.pmask (fun m => { m with quiet := true })).heldIn { m with quiet := true } 0 s.mem
    else (s.dev.updMould m.pmask (fun m => { m with quiet := true })).sendMgmt m.fpid 0 17 x.step } := by
  refine (show execHoldQuiet p s = _ from liftR_of_eq ?_)
  have hready : ¬ (m.quiet || !s.dev.fpQuiet m.fpid ||
      !(partsOf m.pmask).all (fun q => (s.dev.part q).st == .stopped && (s.dev.part q).next == x.step)) = true := by
    simpa [hnew, hquiet] using hstands
  simp only [hm, hx, quiet_mouldLow hm]
  rw [if_neg hready]

theorem holdQuiet_reports (hself : m.self ≠ 0) : ∃ t n, exec (.holdQuiet p) s = .next t ∧ t.mem = s.mem ∧ t.dev.parts = s.dev.parts ∧
    (∃ k, t.dev.mouldLow p = some k ∧ k.AsSent { m with quiet := true }) ∧ .mgmt 0 17 m.fpid n x.step false ∈ t.dev.out := by
  have hexec := exec_holdQuiet hm hx hnew hquiet hstands
  rw [if_neg hself] at hexec
  have htold := sendMgmt_told (s.dev.updMould m.pmask (fun m => { m with quiet := true })) m.fpid 0 17 x.step
  obtain ⟨n, hn⟩ := sendMgmt_message (s.dev.updMould m.pmask (fun m => { m with quiet := true })) m.fpid 0 17 x.step
  exact ⟨_, n, hexec, rfl, htold.parts, htold.mouldLow (quiet_mouldLow hm), hn⟩

theorem holdQuiet_ends (hself : m.self = 0) (hall : ∀ j, j < m.devices → m.alive j = true → j = 0 ∨ j ∈ x.held) :
    HoldEnded s (.holdQuiet p) (fun e => e.mouldLow p) m x := by
  have hexec := exec_holdQuiet hm hx hnew hquiet hstands
  rw [if_pos hself] at hexec
  obtain ⟨t, k, at_, hends⟩ := holdEnded_of_heldIn (byNames_mouldLow p)
    (updMould_gridKept s.dev m.pmask (g := fun m => { m with quiet := true }) fun _ => rfl) (quiet_mouldLow hm) hx hall hexec
  exact ⟨t, k, at_, hends⟩

end Stands

/-- Nobody waits longer than LOAD_TIMEOUT for HELD of every member: the grid goes on (R288, log entry 34). -/
theorem exec_holdTimeout (hself : m.self = 0) (hsince : x.since + m.timeout ≤ s.dev.turn.now.toNat)
    (hnominal : (s.dev.part p).nominal x.step + m.timeout ≤ s.dev.turn.now.toNat) :
    exec (.holdTimeout p) s = .next { s with dev := ((s.dev.sendAll m 18 0).resume m 0).holdDone x 8 } := by
  refine (show execHoldTimeout p s = _ from lift_of_eq ?_)
  simp only [hm, hx]
  rw [if_neg (by omega)]
  rfl

theorem holdTimeout_ends (hself : m.self = 0) (hsince : x.since + m.timeout ≤ s.dev.turn.now.toNat)
    (hnominal : (s.dev.part p).nominal x.step + m.timeout ≤ s.dev.turn.now.toNat) :
    ∃ t k, exec (.holdTimeout p) s = .next t ∧ t.mem = s.mem ∧ t.cave = s.cave ∧
      (∀ q ∈ partsOf m.pmask, (s.dev.part q).GoesOn (t.dev.part q) s.dev.turn.now.toNat) ∧
      t.dev.mouldLow p = some k ∧ k.hold = none ∧ ToldAll t m 18 0 ∧ (x.host = true → CanAnswer s.dev x.fn → Completed t x.fn x.cid 8 0) := by
  have hexec := exec_holdTimeout hm hx hself hsince hnominal
  have hkept := (sendAll_told s.dev m 18 0).gridKept
  have hres := resume_resumed (s.dev.sendAll m 18 0) hx 0
  have htold := sendAll_tellsAll (t := { s with dev := s.dev.sendAll m 18 0 }) rfl
  generalize s.dev.sendAll m 18 0 = d at hexec hkept hres htold
  obtain ⟨k, hk, hkm⟩ := (byNames_mouldLow p).kept hkept hm
  obtain ⟨n, hn, hnone⟩ := hres.found (byNames_mouldLow p) hk hkm
  refine ⟨_, n, hexec, rfl, rfl, fun q hq => ?_, ?_, hnone, fun j hj hj' => ?_, fun hhost hcan => ?_⟩
  · have hgoes := hres.goes rfl q hq
    rw [hkept.part, hkept.now] at hgoes
    dsimp only
    rwa [part_holdDone]
  · exact (found_holdDone (byNames_mouldLow p) _ x 8).trans hn
  · obtain ⟨c, hc⟩ := htold j hj hj'
    exact ⟨c, holdDone_out 8 (hres.out ▸ hc)⟩
  · exact holdDone_completes hhost (hres.answers (hkept.answers _ hcan)) 8 rfl

end Quiet

/-! ### HELD, RESUME and state copies as messages (R288, R289) -/

theorem winWrite_awake {d : Dev} {a : Nat} {bs : List Byte} (h : d.winAsleep a bs.length = false) :
    d.winWrite a bs = ((d.winStore a bs).1, wrBytes a bs) := by
  unfold Dev.winWrite Dev.winAccess
  rw [if_neg (by rw [h]; decide)]
  rfl

theorem heard_gridKept (d : Dev) (h : MHdr) : d.GridKept (d.heard h) := ⟨rfl, rfl, rfl, fun _ h => h, fun _ h => h⟩

section Messages
variable {s : State} {h : MHdr} {m : Mould} (ht : Takes s.dev h m)
include ht

/-- A taken message for a loaded Mould. -/
theorem onMsg_takes (body : Dev → Mould → Dev × List MemOp) : s.dev.onMsg h body = body (s.dev.heard h) m := by
  have hm : (s.dev.heard h).mouldFp h.fpid = some m := ht.2.1
  simp only [Dev.onMsg, ht.mgmtIn, hm]

section Held
variable {x : Hold} (hx : m.hold = some x)

theorem exec_msgHeld (hself : m.self = 0) : exec (.msgHeld h) s = .next { s with dev := (s.dev.heard h).heldIn m h.src s.mem } := by
  refine (show execMsgHeld h s = _ from liftW_of_eq (w := []) ?_)
  rw [onMsg_takes ht, if_pos hself]

include hx

theorem msgHeld_ends (hself : m.self = 0) (hall : ∀ j, j < m.devices → m.alive j = true → j = h.src ∨ j ∈ x.held) :
    HoldEnded s (.msgHeld h) (fun e => e.mouldFp h.fpid) m x :=
  holdEnded_of_heldIn (found := fun e => e.mouldFp h.fpid) (byNames_mouldFp h.fpid) (heard_gridKept s.dev h) ht.heard_mouldFp hx hall (exec_msgHeld ht hself)

theorem msgHeld_waits (hself : m.self = 0) (hno : ∃ j, j < m.devices ∧ m.alive j = true ∧ j ≠ h.src ∧ j ∉ x.held) :
    ∃ t y, exec (.msgHeld h) s = .next t ∧ t.mem = s.mem ∧ t.dev.parts = s.dev.parts ∧
      t.dev.mouldFp h.fpid = some { m with hold := some { x with held := y } } ∧ ∀ j, j ∈ y ↔ j = h.src ∨ j ∈ x.held := by
  have hexec := exec_msgHeld ht hself
  rw [heldIn_waits hx h.src s.mem hno] at hexec
  exact ⟨_, x.heldWith h.src, hexec, rfl, rfl,
    mouldFp_updMould ht.heard_mouldFp (f := fun k => { k with hold := some { x with held := x.heldWith h.src } }) fun _ => rfl, mem_heldWith x h.src⟩

theorem exec_msgResume (t : Nat) (l : List (Nat × Nat × Nat)) : exec (.msgResume h t l) s =
    .next { s with dev := (l.foldl (fun d c => d.applyChange m s.mem c) (s.dev.heard h)).resume m t } := by
  refine (show execMsgResume h t l s = _ from liftW_of_eq (w := []) ?_)
  rw [onMsg_takes ht, if_neg (by simp [hx])]

theorem msgResume_ends (at_ : Nat) (l : List (Nat × Nat × Nat)) : ∃ t k, exec (.msgResume h at_ l) s = .next t ∧ t.mem = s.mem ∧
    t.cave = s.cave ∧ t.dev.mouldFp h.fpid = some k ∧ k.hold = none ∧
    (at_ = 0 → ∀ q ∈ partsOf m.pmask, (s.dev.part q).GoesOn (t.dev.part q) s.dev.turn.now.toNat) ∧
    (at_ ≠ 0 → TakenAnew s t m x.step at_) := by
  have hexec := exec_msgResume ht hx at_ l
  have hkept := foldl_gridKept (applyChange_gridKept m s.mem) l (s.dev.heard h)
  have hall := (heard_gridKept s.dev h).trans hkept
  generalize l.foldl (fun d c => d.applyChange m s.mem c) (s.dev.heard h) = e at hexec hkept hall
  have hres := resume_resumed e hx at_
  obtain ⟨k, hk, hkm⟩ := (byNames_mouldFp h.fpid).kept hkept ht.heard_mouldFp
  obtain ⟨n, hn, hnone⟩ := hres.found (byNames_mouldFp h.fpid) hk hkm
  refine ⟨_, n, hexec, rfl, rfl, hn, hnone, fun h0 q hq => ?_, fun h0 q hq hdead => ?_⟩
  · have hgoes := hres.goes h0 q hq
    rwa [hall.part, hall.now] at hgoes
  · have hanew := hres.anew h0 q hq
    rw [hall.part] at hanew
    exact hanew hdead

end Held

theorem exec_msgStateCopy_writes {a : Nat} {bs : List Byte} (hopen : m.hold ≠ none ∨ (s.dev.part (lowPart m.pmask)).restartAt ≠ none)
    (hwf : s.Canonical) (hbs : bs ≠ []) (hin : s.dev.inMould m a bs.length = true) (hawake : s.dev.winAsleep a bs.length = false) :
    ∃ t, exec (.msgStateCopy h a bs) s = .next t ∧ t.cave = s.cave ∧ Written s t a bs := by
  have hgo : ((m.hold.isSome || ((s.dev.heard h).part (lowPart m.pmask)).restartAt.isSome) && !bs.isEmpty &&
      (s.dev.heard h).inMould m a bs.length) = true := by
    have hopen' : m.hold.isSome = true ∨ (s.dev.part (lowPart m.pmask)).restartAt.isSome = true := by
      simpa only [Option.isSome_iff_ne_none] using hopen
    rw [Bool.and_eq_true, Bool.and_eq_true, Bool.or_eq_true]
    exact ⟨⟨hopen', by simpa using hbs⟩, hin⟩
  refine ⟨_, (show exec _ s = execMsgStateCopy h a bs s from rfl).trans (liftW_of_eq
    (d := ((s.dev.heard h).winStore a bs).1) (w := wrBytes a bs) ?_), caveAll_wrBytes _ a bs, written_of_wrBytes hwf.1 rfl⟩
  rw [onMsg_takes ht, if_pos hgo]
  exact winWrite_awake (d := s.dev.heard h) hawake

theorem exec_msgStateCopy_late (hhold : m.hold = none) (hrestart : (s.dev.part (lowPart m.pmask)).restartAt = none) (a : Nat) (bs : List Byte) :
    exec (.msgStateCopy h a bs) s = .next { s with dev := s.dev.heard h } := by
  refine (show execMsgStateCopy h a bs s = _ from liftW_of_eq (w := []) ?_)
  have hrestart' : ((s.dev.heard h).part (lowPart m.pmask)).restartAt = none := hrestart
  rw [onMsg_takes ht, hhold, hrestart', if_neg (by simp)]

end Messages

/-- Settles O55: the changes of a hold's end leave grids and Moulds' names; RESUME then clears the hold and sets each grid once. -/
theorem holdsAndStateCopies : Obligations.HoldsAndStateCopies := by
  intro s
  refine ⟨fun p m x hm hx => ⟨fun hnew hquiet hstands => ⟨?reports, ?ends⟩, ?timeout⟩,
    fun h m ht => ⟨fun x hx => ⟨fun hself => ⟨msgHeld_ends ht hx hself, msgHeld_waits ht hx hself⟩, msgResume_ends ht hx⟩, ?copies, ?late⟩⟩
  case reports => exact holdQuiet_reports hm hx hnew hquiet hstands
  case ends => exact holdQuiet_ends hm hx hnew hquiet hstands
  case timeout => exact holdTimeout_ends hm hx
  case copies => exact fun hopen a bs => exec_msgStateCopy_writes ht hopen
  case late => exact exec_msgStateCopy_late ht

end Sys2Proof.Machine

/-! ## The eighth reply of a peer on a port that trains again -/

namespace Sys2Proof.Machine

/-! On an Ethernet port each peer has its own eight replies (R269, log entry 155), and the eighth one leaves the port with that peer's
revision and identity block. A port that holds a retraining (R264) is not left so: it reaches the state before with another identity block
than before, so its buffer is lost, and a port that goes DOWN forgets revision and peer. -/

/-- The identity block of a peer with nothing loaded. -/
def bareIdentity : Identity :=
  { serial := 7, board := 1, slot := 0, port := 11, revMin := 1, revMax := 2, fwVersion := 0, state := 0, parts := [] }

/-- An Ethernet port that trains again and waits for the eighth reply of a peer. -/
def retrainingPort : Port :=
  { Port.reset with st := .training, step := 4, prior := .notAdmitted, retrain := some 0, negs := [⟨bareIdentity, 1, List.replicate 7 0⟩] }

def retrainingState : State := { State.reset with dev := { Dev.reset with ports := [(7, retrainingPort)] } }

/-- The revision of port 7 after an outcome. -/
def revisionAfter : Host.Outcome State Fault Refusal → Nat
  | .next t => (t.dev.port 7).rev
  | _ => 1

/-- The reply leaves no revision. -/
theorem revisionAfter_reply : revisionAfter (exec (.rttReplyReceive 7 0) retrainingState) = 0 := by decide +kernel

/-- Refutes O59: on an Ethernet port with a retraining the eighth reply ends in DOWN, not in the peer's revision. -/
theorem not_linkTraining : ¬ Obligations.LinkTraining := by
  intro h
  obtain ⟨-, -, -, -, -, -, -, hreply, -⟩ := h 7 retrainingState
  obtain ⟨-, heth⟩ := hreply 0
  obtain ⟨-, heighth⟩ := heth (by decide) ⟨bareIdentity, 1, List.replicate 7 0⟩ [] rfl
  obtain ⟨t, mean, hexec, -, -, -, hrev, -⟩ := heighth rfl
  have hzero := revisionAfter_reply
  rw [show exec (.rttReplyReceive 7 0) retrainingState = .next t from hexec] at hzero
  exact absurd (hrev.symm.trans hzero) (by decide)

end Sys2Proof.Machine

/-! ## Board links -/

namespace Sys2Proof.Machine

/-! ### What an error of a port leaves (R400) -/

/-- An error that resets nothing changes the records, the cores, time blocks and Moulds it stops, and what the hosts are told. -/
theorem raise_eq {d : Dev} {e : Err} (h : e.cls ≠ 3) :
    ∃ es cs ps ms fs o, d.raise e = { d with errs := es, cores := cs, parts := ps, moulds := ms, funcs := fs, out := o } := by
  have hirqs (d : Dev) (cls pm : Nat) : ∃ es fs o, d.irqs cls pm = { d with errs := es, funcs := fs, out := o } := by
    obtain ⟨es, fs, o, he, -⟩ := irqs_spec d cls pm
    exact ⟨es, fs, o, he⟩
  have hstop (l : List Nat) (d : Dev) :
      ∃ cs ps ms fs o, l.foldl (fun d p => d.stopPart p) d = { d with cores := cs, parts := ps, moulds := ms, funcs := fs, out := o } := by
    refine List.foldlRecOn (motive := fun x : Dev => ∃ cs ps ms fs o, x = { d with cores := cs, parts := ps, moulds := ms, funcs := fs, out := o })
      _ _ ⟨_, _, _, _, _, rfl⟩ ?_
    rintro _ ⟨cs, ps, ms, fs, o, rfl⟩ p -
    obtain ⟨ms', fs', o', hfail⟩ := failRequests_eq
      ((({ d with cores := cs, parts := ps, moulds := ms, funcs := fs, out := o } : Dev).haltPart p).updPart p
        (fun t => { t with st := .stopped, dead := true })) p
    exact ⟨_, _, ms', fs', o', hfail⟩
  unfold Dev.raise
  extract_lets r d1
  split
  · obtain ⟨es, fs, o, he⟩ := hirqs _ 1 e.pmask
    exact ⟨es, _, _, _, fs, o, he⟩
  · obtain ⟨cs, ps, ms, fs, o, hs⟩ := hstop (partsOf e.pmask) d1
    obtain ⟨es, fs', o', he⟩ := hirqs ((partsOf e.pmask).foldl (fun d p => d.stopPart p) d1) 2 e.pmask
    refine ⟨es, cs, ps, ms, fs', o', ?_⟩
    rw [he, hs]
  · exact absurd ‹_› h
  · obtain ⟨es, fs, o, he⟩ := hirqs d1 0 e.pmask
    exact ⟨es, _, _, _, fs, o, he⟩

theorem raise_ports {d : Dev} {e : Err} (h : e.cls ≠ 3) : (d.raise e).ports = d.ports := by
  obtain ⟨_, _, _, _, _, _, he⟩ := raise_eq (d := d) h
  rw [he]

/-- The error record of a port or peer whose traffic is lost: class PARTITION, for the partitions with a flit there (R264, R268). -/
def Dev.lossErr (d : Dev) (u seq peer : Nat) (fps : List Nat) : Err :=
  { code := 0x40, cls := 2, source := u + 4, core := 0xFFFF, pmask := d.fpidMask fps.eraseDups,
    fpid := if fps.eraseDups.length = 1 then fps.eraseDups.headD 0xFFFF else 0xFFFF, detail := [seq, peer] }

theorem bit_lor (a b n : Nat) : bit (Nat.lor a b) n = (bit a n || bit b n) := by
  have htest (v : Nat) : bit v n = v.testBit n := by rw [bit, Nat.testBit_eq_decide_div_mod_eq]; rfl
  rw [htest, htest, htest]
  exact Nat.testBit_or a b n

theorem mem_partsOf {pm q : Nat} : q ∈ partsOf pm ↔ q < 16 ∧ bit pm q = true := by simp [partsOf]

/-- The PMASK of some FPIDs holds the partitions of every Mould with one of them. -/
theorem mem_partsOf_fpidMask {d : Dev} {fps : List Nat} {m : Mould} (hm : m ∈ d.moulds) (hfp : m.fpid ∈ fps) {q : Nat} (hq : q ∈ partsOf m.pmask) :
    q ∈ partsOf (d.fpidMask fps) := by
  have hor (l : List Mould) (a : Nat) (h : bit a q = true ∨ m ∈ l) :
      bit (l.foldl (fun a m => if fps.contains m.fpid then Nat.lor a m.pmask else a) a) q = true := by
    induction l generalizing a with
    | nil => exact h.resolve_right (List.not_mem_nil)
    | cons x l ih =>
      rw [List.foldl_cons]
      refine ih _ ?_
      rcases h with h | h
      · left
        split
        · rw [bit_lor, h, Bool.true_or]
        · exact h
      · rcases List.mem_cons.mp h with rfl | h
        · left
          rw [if_pos (by simpa using hfp), bit_lor, (mem_partsOf.mp hq).2, Bool.or_true]
        · exact .inr h
  exact mem_partsOf.mpr ⟨(mem_partsOf.mp hq).1, hor d.moulds 0 (.inr hm)⟩

/-! ### What sending and settling leave of a port (R262, R265) -/

@[simp] theorem Dev.port_emits (d : Dev) (l : List Out) (u : Nat) : (d.emits l).port u = d.port u := by
  obtain ⟨o, h⟩ := emits_eq d l
  rw [h]; rfl

@[simp] theorem Dev.port_sendCtrl (d : Dev) (u : Nat) (only : Option Nat) (ctype arg reason : Nat) (data : List Byte) (v : Nat) :
    (d.sendCtrl u only ctype arg reason data).port v = d.port v := Dev.port_emits _ _ _

/-- The receiving side of a port: what it expects, asks for again, holds and has been told of XOFF. -/
structure Port.SameReceipt (x y : Port) : Prop where
  expect : y.expect = x.expect
  rxRetry : y.rxRetry = x.rxRetry
  done : y.done = x.done
  rx : y.rx = x.rx
  xoffRx : y.xoffRx = x.xoffRx

theorem Port.SameReceipt.refl (x : Port) : x.SameReceipt x := ⟨rfl, rfl, rfl, rfl, rfl⟩

theorem Port.SameReceipt.trans {x y z : Port} (h : x.SameReceipt y) (k : y.SameReceipt z) : x.SameReceipt z :=
  ⟨k.expect.trans h.expect, k.rxRetry.trans h.rxRetry, k.done.trans h.done, k.rx.trans h.rx, k.xoffRx.trans h.xoffRx⟩

theorem sendSome_receipt (d : Dev) (u : Nat) (k : Packet) (n : Nat) : (d.port u).SameReceipt ((d.sendSome u k n).1.port u) := by
  unfold Dev.sendSome
  extract_lets x
  split
  · rw [Dev.port_emits, Dev.port_setPort]; exact ⟨rfl, rfl, rfl, rfl, rfl⟩
  · split
    · exact .refl _
    · rw [Dev.port_emits, Dev.port_setPort]; exact ⟨rfl, rfl, rfl, rfl, rfl⟩

theorem sendLoop_receipt (u : Nat) (l : List Packet) (d : Dev) (bl : List Nat) (kept : List Packet) :
    (d.port u).SameReceipt ((d.sendLoop u l bl kept).port u) := by
  induction l generalizing d bl kept with
  | nil => rw [Dev.sendLoop, Dev.port_updPort]; exact ⟨rfl, rfl, rfl, rfl, rfl⟩
  | cons k r ih =>
    rw [Dev.sendLoop]
    split
    · exact ih d _ _
    · have hs := sendSome_receipt d u k (lk 0 (d.port u).sent k.cls)
      dsimp only
      generalize d.sendSome u k (lk 0 (d.port u).sent k.cls) = sent at hs ⊢
      have hnoted (g : Port → Port) (hg : ∀ x : Port, x.SameReceipt (g x)) : (d.port u).SameReceipt ((sent.1.updPort u g).port u) :=
        hs.trans (Dev.port_updPort sent.1 u g ▸ hg _)
      split
      · refine .trans ?_ (ih _ _ _)
        exact hnoted _ fun _ => ⟨rfl, rfl, rfl, rfl, rfl⟩
      · refine .trans ?_ (ih _ _ _)
        exact hnoted _ fun _ => ⟨rfl, rfl, rfl, rfl, rfl⟩

theorem portSend_receipt (d : Dev) (u : Nat) : (d.port u).SameReceipt ((d.portSend u).port u) := sendLoop_receipt u _ d _ _

theorem sendIdentity_port (d : Dev) (u : Nat) : (d.sendIdentity u).port u = { d.port u with idSent := some d.turn.now.toNat } := by
  rw [Dev.sendIdentity, Dev.port_emits, Dev.port_updPort]

theorem settled_receipt (d d0 : Dev) (u : Nat) (again : Bool) : (d.port u).SameReceipt ((d.settled d0 u again).port u) := by
  unfold Dev.settled
  extract_lets a e1 e2 b news
  have h1 : (d.port u).SameReceipt (e1.port u) := by
    unfold e1; rw [Dev.port_updPort]; exact ⟨rfl, rfl, rfl, rfl, rfl⟩
  have h2 : (d.port u).SameReceipt (e2.port u) := by
    unfold e2
    split
    · rw [sendIdentity_port]; exact h1.trans ⟨rfl, rfl, rfl, rfl, rfl⟩
    · exact h1
  split
  · exact h2
  · exact h2

theorem settled_out (d d0 : Dev) (u : Nat) (again : Bool) : d.out ⊆ (d.settled d0 u again).out := by
  unfold Dev.settled
  extract_lets a e1 e2 b news
  have h2 : d.out ⊆ e2.out := by
    unfold e2
    split
    · exact (sendIdentity_gridKept e1 u).out
    · exact fun _ h => h
  split
  · exact fun _ h => List.mem_cons_of_mem _ (h2 h)
  · exact h2

/-! ### FLIT_RECEIVE (Table 14-5) -/

/-- NAK of the flit that port x expects. -/
def Port.nakOut (x : Port) (u : Nat) : Out := .flit u (x.stamp false (ctrlFlit false 3 0 x.expect.toNat 0 []))

theorem nak_eq {d : Dev} {u : Nat} (hu : u < 7) (h : (d.port u).carries = true) : d.nak u = d.emit ((d.port u).nakOut u) := by
  have hboard : decide (7 ≤ u) = false := decide_eq_false (by omega)
  rw [Dev.nak, if_pos h, Dev.sendCtrl, Dev.ctrlOuts, if_pos hu, hboard]
  rfl

theorem nak_quarantined {d : Dev} {u : Nat} (h : (d.port u).carries = false) : d.nak u = d := if_neg (by rw [h]; decide)

/-- The TYPE of a flit; is its CRC good; how far its SEQ lies ahead of the expected one. -/
def flitType (f : BitVec 2048) : Nat := flitNum f 0 1 % 16
def flitGood (f : BitVec 2048) : Prop := (crc32c (natLe f.toNat 252)).toNat = flitNum f 0xFC 4
def Port.ahead (x : Port) (f : BitVec 2048) : Nat := (BitVec.ofNat 12 (flitNum f 2 2) - x.expect).toNat

/-- The port with the XOFF and ACK fields of a flit taken. -/
def Port.fieldsTaken (x : Port) (f : BitVec 2048) : Port :=
  let x := { x with xoffRx := BitVec.ofNat 4 (flitNum f 1 1) }
  if bit (flitNum f 4 2) 15 then x.acked (flitNum f 4 2 % 4096) else x

theorem fieldsTaken_same (x : Port) (f : BitVec 2048) : ∃ rp rr, x.fieldsTaken f =
    { x with xoffRx := BitVec.ofNat 4 (flitNum f 1 1), replay := rp, replayRuns := rr } := by
  unfold Port.fieldsTaken
  dsimp only
  split
  · exact ⟨_, _, rfl⟩
  · exact ⟨_, _, rfl⟩

/-- The device with the fields and, for a HEAD or CONT flit, the flit itself taken. -/
def Dev.flitTaken (d : Dev) (u : Nat) (f : BitVec 2048) : Dev :=
  let x := (d.port u).fieldsTaken f
  let e := d.setPort u x
  let ahead := (BitVec.ofNat 12 (flitNum f 2 2) - x.expect).toNat
  if !(flitType f == 1 || flitType f == 2) then e
  else if ahead = 0 then (e.setPort u { x with expect := x.expect + 1, rxRetry := false }).deliver u f
  else if x.rxRetry || decide (2048 ≤ ahead) then e
  else (e.setPort u { x with rxRetry := true }).nak u

/-- The device that has counted a flit with a bad CRC, and asked for it again. -/
def Dev.flitDamaged (d : Dev) (u : Nat) (f : BitVec 2048) : Dev :=
  let x := d.port u
  let e := d.setPort u { x with crcCnt := x.crcCnt + 1, rxRetry := x.rxRetry || flitType f != 3 }
  if flitType f ≠ 3 ∧ !x.rxRetry then e.nak u else e

section Receive
variable {s : State} {u : PortId} {f : BitVec 2048} (hu : u.val < 7) (ht : (s.dev.port u).talks = true)
include hu ht

theorem exec_flitReceive_good (hgood : flitGood f) : ∃ again, exec (.flitReceive u f) s =
    .next { s with dev := ((s.dev.flitTaken u f).portSend u).settled s.dev u again } := by
  have hgo : ¬ (decide (7 ≤ u.val) || !(s.dev.port u).talks) = true := by simp [ht, hu]
  exact ⟨_, show execFlitReceive u f s = _ from lift_of_eq ((if_neg hgo).trans (if_neg (not_not_intro hgood)))⟩

theorem exec_flitReceive_bad (hbad : ¬ flitGood f) : exec (.flitReceive u f) s = .next { s with dev := s.dev.flitDamaged u f } := by
  have hgo : ¬ (decide (7 ≤ u.val) || !(s.dev.port u).talks) = true := by simp [ht, hu]
  exact show execFlitReceive u f s = _ from lift_of_eq ((if_neg hgo).trans (if_pos hbad))

end Receive

theorem carries_of_talks {x : Port} (ht : x.talks = true) : x.carries = true ↔ x.st ≠ .quarantined := by simp [Port.carries, ht]

theorem onlyPort_setPort_emits (s : State) (u : Nat) (x : Port) (l : List Out) :
    OnlyPort s { s with dev := { (s.dev.setPort u x).emits l with out := s.dev.out } } u x := by
  obtain ⟨o, ho⟩ := emits_eq (s.dev.setPort u x) l
  rw [ho]
  exact ⟨rfl, fun _ hj => Dev.port_setPort_ne s.dev hj x, Dev.port_setPort s.dev u x⟩

/-- A flit with a bad CRC is counted; any but a CTRL flit is asked for again, once. -/
theorem flitDamaged_eq {d : Dev} {u : Nat} {f : BitVec 2048} (hu : u < 7) (ht : (d.port u).talks = true) : d.flitDamaged u f =
    (d.setPort u { d.port u with crcCnt := (d.port u).crcCnt + 1, rxRetry := (d.port u).rxRetry || flitType f != 3 }).emits
      (if flitType f ≠ 3 ∧ (d.port u).rxRetry = false ∧ (d.port u).st ≠ .quarantined then [(d.port u).nakOut u] else []) := by
  unfold Dev.flitDamaged
  extract_lets x e
  have hport : e.port u = { x with crcCnt := x.crcCnt + 1, rxRetry := x.rxRetry || flitType f != 3 } := Dev.port_setPort _ _ _
  by_cases hask : flitType f ≠ 3 ∧ x.rxRetry = false
  · rw [if_pos (by simpa using hask)]
    by_cases hq : x.st = .quarantined
    · have hno : (e.port u).carries = false := by rw [hport]; simp [Port.carries, hq]
      rw [nak_quarantined hno, if_neg (fun h => h.2.2 hq)]
      rfl
    · have hyes : (e.port u).carries = true := by rw [hport]; exact (carries_of_talks (x := x) ht).mpr hq
      rw [nak_eq hu hyes, if_pos ⟨hask.1, hask.2, hq⟩, hport]
      rfl
  · rw [if_neg (by simpa using hask), if_neg (fun h => hask ⟨h.1, h.2.1⟩)]
    rfl

theorem emits_out_eq (d : Dev) (o : Out) (c : Prop) [Decidable c] : (d.emits (if c then [o] else [])).out = (if c then [o] else []) ++ d.out := by
  split
  · rfl
  · rfl

/-- A HEAD or CONT flit that is delivered changes nothing that retry looks at. -/
theorem deliver_receipt (d : Dev) (u : Nat) (f : BitVec 2048) : ((d.deliver u f).port u).expect = (d.port u).expect ∧
    ((d.deliver u f).port u).rxRetry = (d.port u).rxRetry ∧ ((d.deliver u f).port u).xoffRx = (d.port u).xoffRx := by
  unfold Dev.deliver
  extract_lets x c len k ok r x1 d1
  split
  · have h1 : d1.port u = x1.payload c r (flitBytes f 0x3C len) := Dev.port_setPort _ _ _
    split
    · rw [h1]; exact ⟨rfl, rfl, rfl⟩
    · rw [Dev.port_sendCtrl, h1]; exact ⟨rfl, rfl, rfl⟩
  · split
    · exact ⟨rfl, rfl, rfl⟩
    · rw [Dev.port_setPort]; exact ⟨rfl, rfl, rfl⟩

section Taken
variable {d : Dev} {u : Nat} {f : BitVec 2048}

/-- What is no HEAD or CONT flit tells its fields only. -/
theorem flitTaken_fields (h1 : flitType f ≠ 1) (h2 : flitType f ≠ 2) : d.flitTaken u f = d.setPort u ((d.port u).fieldsTaken f) := by
  unfold Dev.flitTaken
  exact if_pos (by simp [h1, h2])

theorem isData {f : BitVec 2048} (h : flitType f = 1 ∨ flitType f = 2) : ¬ (!(flitType f == 1 || flitType f == 2)) = true := by
  rcases h with h | h
  · simp [h]
  · simp [h]

theorem fieldsTaken_expect (x : Port) (f : BitVec 2048) : (x.fieldsTaken f).expect = x.expect ∧ (x.fieldsTaken f).rxRetry = x.rxRetry ∧
    (x.fieldsTaken f).done = x.done ∧ (x.fieldsTaken f).rx = x.rx ∧ (x.fieldsTaken f).xoffRx = BitVec.ofNat 4 (flitNum f 1 1) ∧
    (x.fieldsTaken f).carries = x.carries ∧ (x.fieldsTaken f).nakOut u = x.nakOut u := by
  obtain ⟨rp, rr, h⟩ := fieldsTaken_same x f
  rw [h]
  exact ⟨rfl, rfl, rfl, rfl, rfl, rfl, rfl⟩

/-- The expected flit is delivered, and the next is expected. -/
theorem flitTaken_expected (hd : flitType f = 1 ∨ flitType f = 2) (ha : (d.port u).ahead f = 0) :
    ((d.flitTaken u f).port u).expect = (d.port u).expect + 1 ∧ ((d.flitTaken u f).port u).rxRetry = false ∧
      ((d.flitTaken u f).port u).xoffRx = BitVec.ofNat 4 (flitNum f 1 1) := by
  obtain ⟨hexpect, -, -, -, hxoff, -, -⟩ := fieldsTaken_expect (u := u) (d.port u) f
  unfold Dev.flitTaken
  extract_lets x e ahead
  have hahead : ahead = 0 := by unfold ahead; rw [show x.expect = _ from hexpect]; exact ha
  rw [if_neg (isData hd), if_pos hahead]
  obtain ⟨h1, h2, h3⟩ := deliver_receipt (e.setPort u { x with expect := x.expect + 1, rxRetry := false }) u f
  rw [h1, h2, h3, Dev.port_setPort]
  exact ⟨congrArg (· + 1) hexpect, rfl, hxoff⟩

theorem flitTaken_ahead (hd : flitType f = 1 ∨ flitType f = 2) (ha : (d.port u).ahead f ≠ 0) : d.flitTaken u f =
    if ((d.port u).fieldsTaken f).rxRetry || decide (2048 ≤ (d.port u).ahead f) then d.setPort u ((d.port u).fieldsTaken f)
    else ((d.setPort u ((d.port u).fieldsTaken f)).setPort u { (d.port u).fieldsTaken f with rxRetry := true }).nak u := by
  unfold Dev.flitTaken
  extract_lets x e ahead
  have hahead : ahead = (d.port u).ahead f := by
    unfold ahead; rw [show x.expect = _ from (fieldsTaken_expect (u := u) (d.port u) f).1]; rfl
  rw [if_neg (isData hd), hahead, if_neg ha]

/-- One ahead is asked for again, once; one behind is dropped. -/
theorem flitTaken_unexpected (hu : u < 7) (ht : (d.port u).talks = true) (hd : flitType f = 1 ∨ flitType f = 2) (ha : (d.port u).ahead f ≠ 0) :
    Port.SameReceipt { d.port u with xoffRx := BitVec.ofNat 4 (flitNum f 1 1), rxRetry := (d.port u).rxRetry || decide ((d.port u).ahead f < 2048) }
        ((d.flitTaken u f).port u) ∧
      ((d.port u).ahead f < 2048 → (d.port u).rxRetry = false → (d.port u).st ≠ .quarantined → (d.port u).nakOut u ∈ (d.flitTaken u f).out) := by
  obtain ⟨hexpect, hretry, hdone, hrx, hxoff, hcarries, hnak⟩ := fieldsTaken_expect (u := u) (d.port u) f
  rw [flitTaken_ahead hd ha]
  generalize (d.port u).fieldsTaken f = x at hexpect hretry hdone hrx hxoff hcarries hnak ⊢
  by_cases hstays : (d.port u).rxRetry = true ∨ 2048 ≤ (d.port u).ahead f
  · rw [if_pos (by simpa [hretry] using hstays), Dev.port_setPort]
    refine ⟨⟨hexpect, hretry.trans ?_, hdone, hrx, hxoff⟩, fun hlt hno => ?_⟩
    · rcases hstays with h | h
      · simp [h]
      · simp [Nat.not_lt.mpr h]
    · rcases hstays with h | h
      · rw [hno] at h; cases h
      · omega
  · rw [if_neg (by simpa [hretry] using hstays)]
    have hlt : (d.port u).ahead f < 2048 := Nat.lt_of_not_le fun h => hstays (.inr h)
    generalize he : (d.setPort u x).setPort u { x with rxRetry := true } = e
    have hport : e.port u = { x with rxRetry := true } := he ▸ Dev.port_setPort _ _ _
    have hsame : Port.SameReceipt
        { d.port u with xoffRx := BitVec.ofNat 4 (flitNum f 1 1), rxRetry := (d.port u).rxRetry || decide ((d.port u).ahead f < 2048) }
        (e.port u) := hport ▸ ⟨hexpect, by simp [hlt], hdone, hrx, hxoff⟩
    by_cases hq : (d.port u).carries = true
    · rw [nak_eq hu (by rw [hport]; exact hcarries.trans hq)]
      refine ⟨hsame, fun _ _ _ => ?_⟩
      rw [hport, ← hnak]
      exact List.mem_cons_self ..
    · rw [nak_quarantined (by rw [hport]; exact hcarries.trans (by simpa using hq))]
      exact ⟨hsame, fun _ _ hst => absurd ((carries_of_talks ht).mpr hst) hq⟩

end Taken

/-! ### NAK_RECEIVE and REPLAY_TIMEOUT (R262, R264) -/

/-- The device that replays from the n-th held flit, with its count of replays in a row. -/
def Dev.replaying (d : Dev) (u n : Nat) : Dev :=
  let x := d.port u
  let runs := if x.replayRuns ≠ 0 ∧ x.replaySeq = x.seqAt n then x.replayRuns + 1 else 1
  d.setPort u { x with replayRuns := if runs = 16 then 0 else runs, replaySeq := x.seqAt n, retryCnt := x.retryCnt + 1 }

theorem replayFrom_eq (d : Dev) (u n : Nat) : d.replayFrom u n =
    if (if (d.port u).replayRuns ≠ 0 ∧ (d.port u).replaySeq = (d.port u).seqAt n then (d.port u).replayRuns + 1 else 1) = 16
      then (d.replaying u n).beginRetrain u else (d.replaying u n).resend u n := rfl

theorem replaying_port (d : Dev) (u n : Nat) : (d.replaying u n).port u = { d.port u with
    replayRuns := if (if (d.port u).replayRuns ≠ 0 ∧ (d.port u).replaySeq = (d.port u).seqAt n then (d.port u).replayRuns + 1 else 1) = 16 then 0
      else (if (d.port u).replayRuns ≠ 0 ∧ (d.port u).replaySeq = (d.port u).seqAt n then (d.port u).replayRuns + 1 else 1)
    replaySeq := (d.port u).seqAt n, retryCnt := (d.port u).retryCnt + 1 } := Dev.port_setPort _ _ _

theorem portDown_port (d : Dev) (u : Nat) : (d.portDown u).port u = (d.port u).goDown := by
  obtain ⟨tn, h⟩ := portDown_spec d u
  rw [h]
  exact Dev.port_setPort _ _ _

theorem beginRetrain_port (d : Dev) (u : Nat) : (d.beginRetrain u).port u = { (d.port u).goDown with
    st := .training, step := 1, retryExh := true, prior := (d.port u).st, before := (d.port u).peer, retrain := some d.turn.now.toNat } := by
  rw [Dev.beginRetrain, Dev.port_updPort, portDown_port]

/-- How many replays in a row began at the held flit e, with one from it now. -/
def Port.runsFrom (x : Port) (e : BitVec 2048 × Nat) : Nat := if x.replayRuns ≠ 0 ∧ x.replaySeq = heldSeq e then x.replayRuns + 1 else 1

/-- The port replays from the held flit e on, those of l behind it; the 16th time in a row it trains again. -/
structure Dev.Replays (d : Dev) (u : Nat) (e : BitVec 2048 × Nat) (l : List (BitVec 2048 × Nat)) (g : Dev) : Prop where
  replay : (g.port u).replay = (d.port u).replay
  count : (g.port u).retryCnt = (d.port u).retryCnt + 1
  again : (d.port u).runsFrom e ≠ 16 → (g.port u).st = (d.port u).st ∧ (g.port u).replayRuns = (d.port u).runsFrom e ∧
    (g.port u).replaySeq = heldSeq e ∧ ∀ x ∈ e :: l, .flit u ((d.port u).stamp false x.1) ∈ g.out
  trains : (d.port u).runsFrom e = 16 → (g.port u).st = .training ∧ (g.port u).step = 1 ∧ (g.port u).retryExh = true ∧
    (g.port u).retrain = some d.turn.now.toNat
  out : d.out ⊆ g.out

theorem replayFrom_replays {d : Dev} {u n : Nat} {e : BitVec 2048 × Nat} {l : List (BitVec 2048 × Nat)} (h : (d.port u).replay.drop n = e :: l) :
    d.Replays u e l (d.replayFrom u n) := by
  have hseq : (d.port u).seqAt n = heldSeq e := by
    have hhead : (d.port u).replay[n]? = some e := by rw [← List.head?_drop, h]; rfl
    rw [Port.seqAt, hhead]; rfl
  have hport := replaying_port d u n
  rw [replayFrom_eq]
  rw [hseq] at hport ⊢
  change (d.replaying u n).port u = { d.port u with
    replayRuns := if (d.port u).runsFrom e = 16 then 0 else (d.port u).runsFrom e
    replaySeq := heldSeq e, retryCnt := (d.port u).retryCnt + 1 } at hport
  change d.Replays u e l (if (d.port u).runsFrom e = 16 then (d.replaying u n).beginRetrain u else (d.replaying u n).resend u n)
  by_cases hruns : (d.port u).runsFrom e = 16
  · rw [if_pos hruns]
    have hdone := beginRetrain_port (d.replaying u n) u
    rw [hport] at hdone
    refine ⟨by rw [hdone]; rfl, by rw [hdone]; rfl, fun h => absurd hruns h, fun _ => by rw [hdone]; exact ⟨rfl, rfl, rfl, rfl⟩, ?_⟩
    exact (portDown_gridKept (d.replaying u n) u).out
  · rw [if_neg hruns]
    have hsame : ((d.replaying u n).resend u n).port u = (d.replaying u n).port u := Dev.port_emits _ _ _
    rw [if_neg hruns] at hport
    refine ⟨by rw [hsame, hport], by rw [hsame, hport], fun _ => ?_, fun h => absurd h hruns, emits_out (d.replaying u n) _⟩
    rw [hsame, hport]
    refine ⟨rfl, rfl, rfl, fun x hx => (mem_emits _ _ _).mpr (.inl (List.mem_map.mpr ⟨x, ?_, ?_⟩))⟩
    · rw [hport]; exact h ▸ hx
    · rw [hport]; rfl

theorem exec_nakReceive_carriesNot {s : State} {u : PortId} (h : (s.dev.port u).carries = false) (n : BitVec 12) :
    exec (.nakReceive u n) s = .next s := by
  refine (show execNakReceive u n s = _ from lift_of_eq (if_pos ?_))
  simp [h]

theorem exec_replayTimeout_carriesNot {s : State} {u : PortId} (h : (s.dev.port u).carries = false) : exec (.replayTimeout u) s = .next s := by
  refine (show execReplayTimeout u s = _ from lift_of_eq (if_pos ?_))
  simp [h]

section Replay
variable {s : State} {u : PortId} (hu : u.val < 7)
include hu

variable (hc : (s.dev.port u).carries = true) (hr : (s.dev.port u).retrain = none)
include hc hr

/-- NAK of a held flit replays from it on; the held flits before it have arrived. -/
theorem exec_nakReceive {pre l : List (BitVec 2048 × Nat)} {e : BitVec 2048 × Nat} (hq : (s.dev.port u).replay = pre ++ e :: l)
    (hpre : ∀ g ∈ pre, heldSeq g ≠ heldSeq e ∧ (heldSeq e - heldSeq g).toNat < 2048) :
    exec (.nakReceive u (heldSeq e)) s = .next { s with dev := s.dev.replayFrom u pre.length } := by
  have htake : (s.dev.port u).replay.takeWhile (fun g => heldSeq g ≠ heldSeq e && decide ((heldSeq e - heldSeq g).toNat < 2048)) = pre := by
    rw [hq, List.takeWhile_append_of_pos (by simpa using hpre), List.takeWhile_cons_of_neg (by simp), List.append_nil]
  refine (show execNakReceive u (heldSeq e) s = _ from lift_of_eq ?_)
  dsimp only
  rw [htake]
  exact if_neg (by simp [hu, hc, hr, hq])

/-- The replay timer: what is held is sent again, and NAK while the port asks for a flit again. -/
theorem exec_replayTimeout : exec (.replayTimeout u) s = .next { s with
    dev := (if (s.dev.port u).replay.isEmpty then id else (fun d : Dev => d.replayFrom u 0))
      (s.dev.emits (if (s.dev.port u).rxRetry then [(s.dev.port u).nakOut u] else [])) } := by
  have hnak : (if (s.dev.port u).rxRetry then s.dev.nak u else s.dev) =
      s.dev.emits (if (s.dev.port u).rxRetry then [(s.dev.port u).nakOut u] else []) := by
    split
    · exact nak_eq hu hc
    · rfl
  refine (show execReplayTimeout u s = _ from lift_of_eq ((if_neg (by simp [hu, hc, hr])).trans ?_))
  dsimp only
  rw [hnak]
  split
  · rfl
  · rfl

end Replay

/-! ### RETRAIN_WINDOW_EXPIRE (R264) -/

section Lost
variable {s : State} {u : PortId} (hu : u.val < 7) {n : Nat} (hr : (s.dev.port u).retrain = some n) (hlate : n + 6250 ≤ s.dev.turn.now.toNat)
include hu hr hlate

theorem exec_retrainWindowExpire : exec (.retrainWindowExpire u) s = .next { s with dev := s.dev.retrainEnd u false } := by
  refine (show execRetrainWindowExpire u s = _ from lift_of_eq ((if_pos hu).trans ?_))
  rw [hr]
  exact if_pos hlate

end Lost

/-- The buffer of a retraining that failed is lost, and the partitions with a flit in it stop. -/
theorem retrainEnd_lost (d : Dev) (u : Nat) : ∃ a b, ((d.retrainEnd u false).port u).st = .down ∧ ((d.retrainEnd u false).port u).replay = [] ∧
    ((d.retrainEnd u false).port u).lost = true ∧ (∀ t : State, t.dev = d.retrainEnd u false → Recorded t 0x40 0xFFFF [a, b]) ∧
    ∀ m ∈ d.moulds, (∃ e ∈ (d.port u).replay, e.2 = m.fpid) → ∀ q ∈ partsOf m.pmask, ((d.retrainEnd u false).part q).st = .stopped := by
  generalize hg : d.raise (d.lossErr u ((d.port u).seqAt 0).toNat (((d.port u).before.map (fun b => b.serial)).getD 0)
    ((d.port u).replay.map (fun e => e.2))) = g
  have hend : ∃ f : Port → Port, d.retrainEnd u false = (g.updPort u f).portDown u ∧ ∀ x, (f x).replay = [] ∧ (f x).lost = true :=
    ⟨_, by rw [← hg]; rfl, fun _ => ⟨rfl, rfl⟩⟩
  obtain ⟨f, hend, hf⟩ := hend
  obtain ⟨tn, hdown⟩ := portDown_spec (g.updPort u f) u
  rw [hend, portDown_port, Dev.port_updPort, hdown]
  refine ⟨((d.port u).seqAt 0).toNat, ((d.port u).before.map (fun b => b.serial)).getD 0, rfl, (hf _).1, (hf _).2,
    fun t ht => ?_, fun m hm hheld q hq => ?_⟩
  · have hrec := raise_recorded (t := { t with dev := g }) (show (2 : Nat) ≠ 3 by decide) hg.symm
    have hring : t.dev.errs = g.errs := by rw [ht]; rfl
    obtain ⟨r, hhead, hr⟩ := hrec
    exact ⟨r, hring ▸ hhead, hr⟩
  · obtain ⟨e, he, hfp⟩ := hheld
    have hin : q ∈ partsOf (d.fpidMask (((d.port u).replay.map (fun e => e.2)).eraseDups)) :=
      mem_partsOf_fpidMask hm (List.mem_eraseDups.mpr (List.mem_map.mpr ⟨e, he, hfp⟩)) hq
    have hpart := part_raise_partClass (d := d) (e := d.lossErr u ((d.port u).seqAt 0).toNat
      (((d.port u).before.map (fun b => b.serial)).getD 0) ((d.port u).replay.map (fun e => e.2))) rfl q
    exact congrArg PartTime.st ((hg ▸ hpart).trans (if_pos hin))

/-! ### The rules of retry together -/

/-- What the sending side does after a flit was taken leaves the receiving side. -/
theorem flitReceive_receipt (d : Dev) (u : Nat) (f : BitVec 2048) (again : Bool) :
    ((d.flitTaken u f).port u).SameReceipt ((((d.flitTaken u f).portSend u).settled d u again).port u) :=
  (portSend_receipt _ u).trans (settled_receipt _ d u again)

theorem flitReceive_out (d : Dev) (u : Nat) (f : BitVec 2048) (again : Bool) :
    (d.flitTaken u f).out ⊆ (((d.flitTaken u f).portSend u).settled d u again).out :=
  fun _ h => settled_out _ d u again (sendLoop_out u _ _ _ _ h)

section Rules
variable {s : State} {u : PortId} (hu : u.val < 7)
include hu

/-- What a good flit does to the receiving side of the port. -/
theorem flitReceive_takes (ht : (s.dev.port u).talks = true) {f : BitVec 2048} (hgood : flitGood f) :
    ∃ t, exec (.flitReceive u f) s = .next t ∧ t.mem = s.mem ∧ (t.dev.port u).xoffRx = BitVec.ofNat 4 (flitNum f 1 1) ∧
      (flitType f = 1 ∨ flitType f = 2 →
        ((s.dev.port u).ahead f = 0 → (t.dev.port u).expect = (s.dev.port u).expect + 1 ∧ (t.dev.port u).rxRetry = false) ∧
        ((s.dev.port u).ahead f ≠ 0 → (t.dev.port u).expect = (s.dev.port u).expect ∧ (t.dev.port u).done = (s.dev.port u).done ∧
          (t.dev.port u).rx = (s.dev.port u).rx ∧
          (t.dev.port u).rxRetry = ((s.dev.port u).rxRetry || decide ((s.dev.port u).ahead f < 2048)) ∧
          ((s.dev.port u).ahead f < 2048 → (s.dev.port u).rxRetry = false → (s.dev.port u).st ≠ .quarantined →
            (s.dev.port u).nakOut u ∈ t.dev.out))) ∧
      (flitType f ≠ 1 → flitType f ≠ 2 → (t.dev.port u).expect = (s.dev.port u).expect ∧ (t.dev.port u).done = (s.dev.port u).done) := by
  obtain ⟨again, hexec⟩ := exec_flitReceive_good hu ht hgood
  have hsame := flitReceive_receipt s.dev u f again
  have hout := flitReceive_out s.dev u f again
  refine ⟨_, hexec, rfl, ?_, fun hd => ⟨fun ha => ?_, fun ha => ?_⟩, fun h1 h2 => ?_⟩
  · rw [hsame.xoffRx]
    by_cases hd : flitType f = 1 ∨ flitType f = 2
    · by_cases ha : (s.dev.port u).ahead f = 0
      · exact (flitTaken_expected hd ha).2.2
      · exact (flitTaken_unexpected hu ht hd ha).1.xoffRx
    · obtain ⟨-, -, -, -, hxoff, -⟩ := fieldsTaken_expect (u := u) (s.dev.port u) f
      rw [flitTaken_fields (fun h => hd (.inl h)) (fun h => hd (.inr h)), Dev.port_setPort, hxoff]
  · obtain ⟨hexpect, hretry, -⟩ := flitTaken_expected hd ha
    exact ⟨hsame.expect.trans hexpect, hsame.rxRetry.trans hretry⟩
  · obtain ⟨hkept, hnak⟩ := flitTaken_unexpected hu ht hd ha
    have hall := hkept.trans hsame
    exact ⟨hall.expect, hall.done, hall.rx, hall.rxRetry, fun hlt hno hst => hout (hnak hlt hno hst)⟩
  · obtain ⟨hexpect, -, hdone, -⟩ := fieldsTaken_expect (u := u) (s.dev.port u) f
    rw [hsame.expect, hsame.done, flitTaken_fields h1 h2, Dev.port_setPort]
    exact ⟨hexpect, hdone⟩

/-- What the 16th replay in a row from one flit, or another, leaves. -/
def Replayed (s : State) (u : PortId) (i : Instr) (pre : List (BitVec 2048 × Nat)) (e : BitVec 2048 × Nat) (l : List (BitVec 2048 × Nat)) : Prop :=
  ∃ t, exec i s = .next t ∧ t.mem = s.mem ∧ (t.dev.port u).replay = pre ++ e :: l ∧ (t.dev.port u).retryCnt = (s.dev.port u).retryCnt + 1 ∧
    ((s.dev.port u).runsFrom e ≠ 16 → (t.dev.port u).st = (s.dev.port u).st ∧ (t.dev.port u).replayRuns = (s.dev.port u).runsFrom e ∧
      (t.dev.port u).replaySeq = heldSeq e ∧ ∀ g ∈ e :: l, .flit u ((s.dev.port u).stamp false g.1) ∈ t.dev.out) ∧
    ((s.dev.port u).runsFrom e = 16 → (t.dev.port u).st = .training ∧ (t.dev.port u).step = 1 ∧ (t.dev.port u).retryExh = true ∧
      (t.dev.port u).retrain = some s.dev.turn.now.toNat)

variable (hc : (s.dev.port u).carries = true) (hr : (s.dev.port u).retrain = none)
include hc hr

theorem nakReceive_replays {pre l : List (BitVec 2048 × Nat)} {e : BitVec 2048 × Nat} (hq : (s.dev.port u).replay = pre ++ e :: l)
    (hpre : ∀ g ∈ pre, heldSeq g ≠ heldSeq e ∧ (heldSeq e - heldSeq g).toNat < 2048) : Replayed s u (.nakReceive u (heldSeq e)) pre e l := by
  have hreplays := replayFrom_replays (d := s.dev) (u := u) (n := pre.length) (e := e) (l := l) (by rw [hq, List.drop_left])
  exact ⟨_, exec_nakReceive hu hc hr hq hpre, rfl, hreplays.replay.trans hq, hreplays.count, hreplays.again, hreplays.trains⟩

/-- The replay timer with flits held: they go again, and NAK with them where the port asks for one. -/
theorem replayTimeout_replays {l : List (BitVec 2048 × Nat)} {e : BitVec 2048 × Nat} (hq : (s.dev.port u).replay = e :: l) :
    Replayed s u (.replayTimeout u) [] e l ∧
      ((s.dev.port u).rxRetry = true → ∀ t, exec (.replayTimeout u) s = .next t → (s.dev.port u).nakOut u ∈ t.dev.out) := by
  have hexec := exec_replayTimeout hu hc hr
  have hmem := mem_emits s.dev (if (s.dev.port u).rxRetry then [(s.dev.port u).nakOut u] else []) ((s.dev.port u).nakOut u)
  have hturn := congrArg BitVec.toNat (emits_gridKept s.dev (if (s.dev.port u).rxRetry then [(s.dev.port u).nakOut u] else [])).now
  have hreplays := replayFrom_replays (d := s.dev.emits (if (s.dev.port u).rxRetry then [(s.dev.port u).nakOut u] else [])) (u := u) (n := 0)
    (e := e) (l := l) (by rw [Dev.port_emits, hq]; rfl)
  rw [hq, if_neg (by simp)] at hexec
  obtain ⟨hkept, hcount, hagain, htrains, hout⟩ := hreplays
  rw [Dev.port_emits] at hkept hcount hagain htrains
  refine ⟨⟨_, hexec, rfl, hkept.trans hq, hcount, hagain, fun h => ?_⟩, fun hretry t ht => ?_⟩
  · have hnow := htrains h
    rwa [hturn] at hnow
  · cases hexec.symm.trans ht
    exact hout (hmem.mpr (.inl (by rw [if_pos hretry]; exact List.mem_cons_self ..)))

theorem replayTimeout_asks (hq : (s.dev.port u).replay = []) (hretry : (s.dev.port u).rxRetry = true) :
    exec (.replayTimeout u) s = .next { s with dev := { s.dev with out := (s.dev.port u).nakOut u :: s.dev.out } } := by
  rw [exec_replayTimeout hu hc hr, hq, if_pos hretry]
  rfl

end Rules

/-- Settles O57: each rule of Table 14-5 as what it changes of the receiving or of the sending side. -/
theorem boardLinkRetry : Obligations.BoardLinkRetry := by
  intro u s hu
  refine ⟨fun ht f => ⟨fun hbad => ?damaged, fun hgood => flitReceive_takes hu ht hgood⟩,
    fun h => ⟨exec_nakReceive_carriesNot h, exec_replayTimeout_carriesNot h⟩,
    fun hc hr => ⟨fun pre e l => nakReceive_replays hu hc hr, fun e l => replayTimeout_replays hu hc hr, replayTimeout_asks hu hc hr⟩,
    fun n hr hlate => ?lost⟩
  case damaged =>
    have hexec := exec_flitReceive_bad hu ht hbad
    rw [flitDamaged_eq hu ht] at hexec
    exact ⟨_, hexec, onlyPort_setPort_emits s u _ _, emits_out_eq _ _ _⟩
  case lost =>
    obtain ⟨a, b, hst, hreplay, hlost, hrec, hstops⟩ := retrainEnd_lost s.dev u
    exact ⟨_, a, b, exec_retrainWindowExpire hu hr hlate, rfl, hst, hreplay, hlost, hrec _ rfl, hstops⟩

end Sys2Proof.Machine

/-! ## Ethernet ports -/

namespace Sys2Proof.Machine

/-! ### The peers of a port (R267) -/

theorem seg_peer (x : Port) (ip : Nat) : (x.seg ip).peer = ip := by
  unfold Port.seg
  cases h : x.peers.find? (fun p => p.peer == ip) with
  | none => rfl
  | some p => exact eq_of_beq (List.find?_some (p := fun p : SegPeer => p.peer == ip) h)

@[simp] theorem seg_setSeg (x : Port) (p : SegPeer) : (x.setSeg p).seg p.peer = p := by
  have hnone : (x.peers.filter (fun q => decide (q.peer ≠ p.peer))).find? (fun q => q.peer == p.peer) = none :=
    List.find?_eq_none.mpr fun q hq => by simpa using (List.mem_filter.mp hq).2
  show ((x.peers.filter (fun q => decide (q.peer ≠ p.peer)) ++ [p]).find? (fun q => q.peer == p.peer)).getD _ = p
  rw [List.find?_append, hnone]
  simp

theorem seg_setSeg_of_peer (x : Port) {p : SegPeer} {ip : Nat} (h : p.peer = ip) : (x.setSeg p).seg ip = p := h ▸ seg_setSeg x p

theorem seg_setSeg_ne (x : Port) {p : SegPeer} {ip : Nat} (h : ip ≠ p.peer) : (x.setSeg p).seg ip = x.seg ip := by
  have hfind : (x.peers.filter (fun q => decide (q.peer ≠ p.peer))).find? (fun q => q.peer == ip) = x.peers.find? (fun q => q.peer == ip) := by
    rw [List.find?_filter]
    refine congrArg (fun P => List.find? P x.peers) (funext fun q => ?_)
    by_cases hq : q.peer = ip
    · simp [hq, h]
    · simp [hq]
  have hlast : [p].find? (fun q => q.peer == ip) = none := by simp [Ne.symm h]
  simp only [Port.seg, Port.setSeg, List.find?_append, hfind, hlast, Option.or_none]

/-! ### What sending and receiving leave of a peer (R267, R268) -/

/-- What peer ip of port u expects of this device and is expected to send next, its revision, and what the port's datagrams say; ports and
messages changed alone. -/
structure Dev.SegStands (d : Dev) (u ip : Nat) (n : BitVec 32) (e : Dev) : Prop where
  sent : d.PortsSent e
  st : (e.port u).st = (d.port u).st
  step : (e.port u).step = (d.port u).step
  encap : (e.port u).encap = (d.port u).encap
  rev : ((e.port u).seg ip).rev = ((d.port u).seg ip).rev
  next : ((e.port u).seg ip).next = ((d.port u).seg ip).next
  expect : ((e.port u).seg ip).expect = n
  out : d.out ⊆ e.out

theorem Dev.SegStands.refl (d : Dev) (u ip : Nat) : d.SegStands u ip ((d.port u).seg ip).expect d :=
  ⟨⟨_, _, rfl⟩, rfl, rfl, rfl, rfl, rfl, rfl, fun _ h => h⟩

theorem Dev.SegStands.trans {d e g : Dev} {u ip : Nat} {n k : BitVec 32} (h : d.SegStands u ip n e) (j : e.SegStands u ip k g) :
    d.SegStands u ip k g :=
  ⟨h.sent.trans j.sent, j.st.trans h.st, j.step.trans h.step, j.encap.trans h.encap, j.rev.trans h.rev, j.next.trans h.next, j.expect,
    fun _ ho => j.out (h.out ho)⟩

theorem Dev.SegStands.emits {d e : Dev} {u ip : Nat} {n : BitVec 32} (h : d.SegStands u ip n e) (l : List Out) : d.SegStands u ip n (e.emits l) := by
  obtain ⟨o, ho⟩ := emits_eq e l
  have hout := emits_out e l
  rw [ho] at hout ⊢
  exact ⟨h.sent.trans ⟨_, _, rfl⟩, h.st, h.step, h.encap, h.rev, h.next, h.expect, fun _ hx => hout (h.out hx)⟩

/-- A change of port u that leaves its state, its encapsulation and all of peer ip that datagrams tell. -/
theorem setPort_segStands (d : Dev) (u ip : Nat) {x : Port} (hst : x.st = (d.port u).st) (hstep : x.step = (d.port u).step)
    (hencap : x.encap = (d.port u).encap) (hrev : (x.seg ip).rev = ((d.port u).seg ip).rev) (hnext : (x.seg ip).next = ((d.port u).seg ip).next) :
    d.SegStands u ip (x.seg ip).expect (d.setPort u x) := by
  refine ⟨⟨_, _, rfl⟩, ?_, ?_, ?_, ?_, ?_, ?_, fun _ h => h⟩
  all_goals rw [Dev.port_setPort]
  all_goals assumption

/-- The frames of control traffic are as before. -/
theorem ctrlFrames_portsSent {d e : Dev} {u : Nat} (h : d.PortsSent e) (hencap : (e.port u).encap = (d.port u).encap) :
    e.ctrlFrames u = d.ctrlFrames u := by
  have hpcp (c : Nat) : (e.port u).pcp c = (d.port u).pcp c := by rw [Port.pcp, hencap]; rfl
  have hcommitted : e.committed = d.committed := by obtain ⟨ps, o, rfl⟩ := h; rfl
  have hframe (m : Mould) (i : Nat) : e.frameTo u m m.epoch i 3 = d.frameTo u m m.epoch i 3 := by
    simp only [Dev.frameTo, hencap, hpcp]
  simp only [Dev.ctrlFrames, hcommitted, hframe]

theorem pfcUpdate_port (d : Dev) (u : Nat) : d.PortsSent (d.pfcUpdate u) ∧ (∃ k, (d.pfcUpdate u).port u = { d.port u with pfc := k }) ∧
    d.out ⊆ (d.pfcUpdate u).out := by
  refine List.foldlRecOn (motive := fun e : Dev => d.PortsSent e ∧ (∃ k, e.port u = { d.port u with pfc := k }) ∧ d.out ⊆ e.out) _ _
    ⟨⟨_, _, rfl⟩, ⟨_, rfl⟩, fun _ h => h⟩ ?_
  rintro e ⟨hsent, ⟨k, hk⟩, hout⟩ c -
  have hstep (y : Port) (o : Out) (hy : ∃ k, y = { e.port u with pfc := k }) :
      d.PortsSent ((e.setPort u y).emit o) ∧ (∃ k, ((e.setPort u y).emit o).port u = { d.port u with pfc := k }) ∧
        d.out ⊆ ((e.setPort u y).emit o).out := by
    obtain ⟨k', rfl⟩ := hy
    refine ⟨hsent.trans ⟨_, _, rfl⟩, ⟨k', ?_⟩, fun _ h => List.mem_cons_of_mem _ (hout h)⟩
    rw [show ((e.setPort u { e.port u with pfc := k' }).emit o).port u = _ from Dev.port_setPort e u _, hk]
  dsimp only
  split
  · exact hstep _ _ ⟨_, rfl⟩
  · split
    · exact hstep _ _ ⟨_, rfl⟩
    · exact ⟨hsent, ⟨k, hk⟩, hout⟩

theorem pfcUpdate_segStands (d : Dev) (u ip : Nat) : d.SegStands u ip ((d.port u).seg ip).expect (d.pfcUpdate u) := by
  obtain ⟨hsent, ⟨k, hk⟩, hout⟩ := pfcUpdate_port d u
  refine ⟨hsent, ?_, ?_, ?_, ?_, ?_, ?_, hout⟩
  all_goals rw [hk]
  all_goals rfl

/-- Sending leaves what peer ip is expected to send. -/
theorem sendSome_segExpect (d : Dev) (u : Nat) (k : Packet) (n ip : Nat) :
    (((d.sendSome u k n).1.port u).seg ip).expect = ((d.port u).seg ip).expect := by
  unfold Dev.sendSome
  extract_lets x
  split
  · rw [Dev.port_emits, Dev.port_setPort]; rfl
  · split
    · rfl
    next fr _ =>
      extract_lets p fs new x1
      rw [Dev.port_emits, Dev.port_setPort]
      by_cases h : ip = p.peer
      · subst h
        have hseg : x.seg p.peer = p := congrArg x.seg (seg_peer x fr.dst)
        have hx1 : x1.seg p.peer = { p with next := p.next + BitVec.ofNat 32 fs.length, unacked := p.unacked ++ new } := seg_setSeg x _
        rw [hx1]
        show p.expect = (x.seg p.peer).expect
        rw [hseg]
      · exact congrArg SegPeer.expect (seg_setSeg_ne x h)

theorem sendLoop_segExpect (u ip : Nat) (l : List Packet) (d : Dev) (bl : List Nat) (kept : List Packet) :
    (((d.sendLoop u l bl kept).port u).seg ip).expect = ((d.port u).seg ip).expect := by
  induction l generalizing d bl kept with
  | nil => rw [Dev.sendLoop, Dev.port_updPort]; rfl
  | cons k r ih =>
    rw [Dev.sendLoop]
    split
    · exact ih d _ _
    · have hs := sendSome_segExpect d u k (lk 0 (d.port u).sent k.cls) ip
      dsimp only
      generalize d.sendSome u k (lk 0 (d.port u).sent k.cls) = sent at hs ⊢
      split
      · rw [ih, Dev.port_updPort]; exact hs
      · rw [ih, Dev.port_updPort]; exact hs

/-! ### Acknowledgements (R268) -/

/-- An acknowledgement frees what it covers, from the oldest on. -/
theorem acked_frees (p : SegPeer) (ack : BitVec 32) : (∃ r, p.unacked = r ++ (p.acked ack).unacked ∧ ∀ e ∈ r, (ack - e.seq).toNat < 2 ^ 31) ∧
    ∀ e, (p.acked ack).unacked.head? = some e → 2 ^ 31 ≤ (ack - e.seq).toNat := by
  refine ⟨⟨p.unacked.takeWhile (fun e => decide ((ack - e.seq).toNat < 2 ^ 31)), List.takeWhile_append_dropWhile.symm, fun e he => ?_⟩,
    fun e he => ?_⟩
  · exact of_decide_eq_true (List.mem_takeWhile_imp (p := fun e : SegFlit => decide ((ack - e.seq).toNat < 2 ^ 31)) he)
  · have hno := List.head?_dropWhile_not (fun e : SegFlit => decide ((ack - e.seq).toNat < 2 ^ 31)) p.unacked
    rw [show p.unacked.dropWhile _ = (p.acked ack).unacked from rfl, he] at hno
    exact Nat.le_of_not_lt (of_decide_eq_false hno)

/-! ### One flit of a datagram (R261, R267, R268) -/

section OneFlit
variable {d : Dev} {u ip : Nat} {seq : BitVec 32} {f : BitVec 2048} {nak : Bool}

/-- Control flits take no sequence number. -/
theorem segFlits_ctrl (hgood : flitGood f) (htyp : flitType f = 0 ∨ flitType f = 3) : d.segFlits u ip seq [f] nak = (d, nak) := by
  have hg : (crc32c (natLe f.toNat 252)).toNat = flitNum f 0xFC 4 := hgood
  have hctrl : ((flitNum f 0 1 % 16 == 0 || flitNum f 0 1 % 16 == 3) && (crc32c (natLe f.toNat 252)).toNat == flitNum f 0xFC 4) = true := by
    rcases htyp with h | h
    · have h' : flitNum f 0 1 % 16 = 0 := h
      simp [h', hg]
    · have h' : flitNum f 0 1 % 16 = 3 := h
      simp [h', hg]
  rw [Dev.segFlits, if_pos hctrl]
  rfl

theorem notCtrl (h : ¬ flitGood f ∨ (flitType f ≠ 0 ∧ flitType f ≠ 3)) :
    ¬ ((flitNum f 0 1 % 16 == 0 || flitNum f 0 1 % 16 == 3) && (crc32c (natLe f.toNat 252)).toNat == flitNum f 0xFC 4) = true := by
  rcases h with h | ⟨h0, h3⟩
  · have h' : ¬ (crc32c (natLe f.toNat 252)).toNat = flitNum f 0xFC 4 := h
    simp [h']
  · have h0' : ¬ flitNum f 0 1 % 16 = 0 := h0
    have h3' : ¬ flitNum f 0 1 % 16 = 3 := h3
    simp [h0', h3']

variable (hnear : (seq - ((d.port u).seg ip).expect).toNat < 2 ^ 31)
include hnear

/-- A flit that is damaged or ahead is not taken, and asked for again. -/
theorem segFlits_refused (h : ¬ flitGood f ∨ (flitType f ≠ 0 ∧ flitType f ≠ 3 ∧ (seq - ((d.port u).seg ip).expect).toNat ≠ 0)) :
    ∃ e, d.segFlits u ip seq [f] nak = (e, true) ∧ d.SegStands u ip ((d.port u).seg ip).expect e := by
  rw [Dev.segFlits, if_neg (notCtrl (h.imp_right fun h => ⟨h.1, h.2.1⟩))]
  dsimp only
  rw [if_neg (Nat.not_le.mpr hnear)]
  by_cases hgood : flitGood f
  · have hg : ¬ (crc32c (natLe f.toNat 252)).toNat ≠ flitNum f 0xFC 4 := not_not_intro hgood
    have hahead : (seq - ((d.port u).seg ip).expect).toNat ≠ 0 := (h.resolve_left (not_not_intro hgood)).2.2
    rw [if_neg hg, if_pos hahead]
    exact ⟨d, rfl, .refl d u ip⟩
  · rw [if_pos (show (crc32c (natLe f.toNat 252)).toNat ≠ flitNum f 0xFC 4 from hgood)]
    exact ⟨_, rfl, setPort_segStands d u ip (x := { d.port u with crcCnt := (d.port u).crcCnt + 1 }) rfl rfl rfl rfl rfl⟩

/-- The expected flit is taken, and the next is expected. -/
theorem segFlits_expected (hgood : flitGood f) (h0 : flitType f ≠ 0) (h3 : flitType f ≠ 3)
    (hahead : (seq - ((d.port u).seg ip).expect).toNat = 0) :
    ∃ e, d.segFlits u ip seq [f] nak = (e, nak) ∧ d.SegStands u ip (((d.port u).seg ip).expect + 1) e := by
  have hg : ¬ (crc32c (natLe f.toNat 252)).toNat ≠ flitNum f 0xFC 4 := not_not_intro hgood
  rw [Dev.segFlits, if_neg (notCtrl (.inr ⟨h0, h3⟩)), if_neg (Nat.not_le.mpr hnear), if_neg hg, if_neg (not_not_intro hahead)]
  have hset (x : Port) (rx : SMap (Option RxPkt)) (hst : x.st = (d.port u).st) (hstep : x.step = (d.port u).step)
      (hencap : x.encap = (d.port u).encap) : d.SegStands u ip (((d.port u).seg ip).expect + 1)
        (d.setPort u (x.setSeg { (d.port u).seg ip with expect := ((d.port u).seg ip).expect + 1, rx := rx })) := by
    generalize hp : ({ (d.port u).seg ip with expect := ((d.port u).seg ip).expect + 1, rx := rx } : SegPeer) = p
    have hseg : (x.setSeg p).seg ip = p := seg_setSeg_of_peer x (hp ▸ seg_peer (d.port u) ip)
    have h := setPort_segStands d u ip (x := x.setSeg p) hst hstep hencap (by rw [hseg, ← hp]) (by rw [hseg, ← hp])
    have hexpect : p.expect = ((d.port u).seg ip).expect + 1 := by rw [← hp]
    rwa [hseg, hexpect] at h
  have htold {e : Dev} {n : BitVec 32} (he : d.SegStands u ip n e) (c : Prop) [Decidable c] (only : Option Nat) (reason : Nat) :
      d.SegStands u ip n (if c then e.sendCtrl u only 4 0 reason [] else e) := by
    split
    · exact he.emits _
    · exact he
  refine ⟨_, rfl, htold ?_ _ _ _⟩
  split
  · exact hset (d.port u) ((d.port u).seg ip).rx rfl rfl rfl
  · exact hset _ _ rfl rfl rfl

end OneFlit

/-! ### DATAGRAM_RECEIVE (R266 to R268) -/

/-- The device that has taken the acknowledgement of a datagram without NAK. -/
def Dev.segHeard (d : Dev) (u ip : Nat) (v : BitVec 128) : Dev :=
  let p := (d.port u).seg ip
  d.setPort u ((d.port u).setSeg (if bit v.toNat 24 then p.acked (BitVec.ofNat 32 (v.toNat / 2 ^ 64)) else p))

theorem segHeard_port (d : Dev) (u ip : Nat) (v : BitVec 128) : ∃ l r, (d.segHeard u ip v).port u =
    (d.port u).setSeg { (d.port u).seg ip with unacked := l, resends := r } := by
  rw [Dev.segHeard, Dev.port_setPort]
  split
  · exact ⟨_, _, rfl⟩
  · exact ⟨_, _, rfl⟩

theorem segHeard_segStands (d : Dev) (u ip : Nat) (v : BitVec 128) : d.SegStands u ip ((d.port u).seg ip).expect (d.segHeard u ip v) := by
  obtain ⟨l, r, hport⟩ := segHeard_port d u ip v
  have hseg : ((d.segHeard u ip v).port u).seg ip = { (d.port u).seg ip with unacked := l, resends := r } := by
    rw [hport]
    exact seg_setSeg_of_peer _ (seg_peer (d.port u) ip)
  refine ⟨⟨_, _, rfl⟩, ?_, ?_, ?_, ?_, ?_, ?_, fun _ h => h⟩
  · rw [hport]; rfl
  · rw [hport]; rfl
  · rw [hport]; rfl
  · rw [hseg]
  · rw [hseg]
  · rw [hseg]

/-- What follows the flits of a datagram: PFC, an answer unless the port is quarantined, and what may go goes. -/
def Dev.segAnswered (d : Dev) (u ip : Nat) (nak : Bool) : Dev :=
  (if ((d.pfcUpdate u).port u).carries then (d.pfcUpdate u).segAnswer u ip nak else d.pfcUpdate u).portSend u

theorem talks_of_identified {x : Port} (h : x.identified = true) : x.talks = true := by
  unfold Port.identified at h
  unfold Port.talks Port.syncs
  cases hst : x.st with
  | training => rw [hst] at h; simp only [decide_eq_true_eq] at h ⊢; omega
  | down => rw [hst] at h; exact h
  | notAdmitted => rfl
  | admitted => rfl
  | quarantined => rfl

/-- An answer goes to the peer, with what the port expects of it. -/
theorem segAnswered_answers {d e : Dev} {u ip : Nat} {n : BitVec 32} (he : d.SegStands u ip n e) (nak : Bool) :
    ((((e.segAnswered u ip nak).port u).seg ip).expect = n) ∧ (e.port u).SameReceipt ((e.segAnswered u ip nak).port u) ∧
      ((d.port u).identified = true → (d.port u).st ≠ .quarantined → ∀ fr ∈ d.ctrlFrames u, fr.dst = ip →
        .datagram u fr (segHdr ((d.port u).seg ip).rev true nak ((d.port u).seg ip).next (n - 1) 0) [] ∈ (e.segAnswered u ip nak).out) := by
  have hp := he.trans (pfcUpdate_segStands e u ip)
  have hrec : (e.port u).SameReceipt ((e.pfcUpdate u).port u) := by
    obtain ⟨-, ⟨k, hk⟩, -⟩ := pfcUpdate_port e u
    rw [hk]; exact ⟨rfl, rfl, rfl, rfl, rfl⟩
  rw [Dev.segAnswered]
  generalize e.pfcUpdate u = g at hp hrec ⊢
  rw [he.expect] at hp
  have hport : (if (g.port u).carries then g.segAnswer u ip nak else g).port u = g.port u := by
    split
    · exact Dev.port_emits _ _ _
    · rfl
  refine ⟨?_, ?_, fun hid hst fr hfr hdst => ?_⟩
  · rw [show ((Dev.portSend _ u).port u) = _ from rfl, Dev.portSend, sendLoop_segExpect, hport, hp.expect]
  · have hsend := portSend_receipt (if (g.port u).carries then g.segAnswer u ip nak else g) u
    rw [hport] at hsend
    exact hrec.trans hsend
  · have hcarries : (g.port u).carries = true := by
      have htalks : (g.port u).talks = true := by
        rw [Port.talks, Port.syncs, hp.st, hp.step]; exact talks_of_identified hid
      exact (carries_of_talks htalks).mpr (hp.st ▸ hst)
    rw [if_pos hcarries]
    refine sendLoop_out u _ _ _ _ ((mem_emits _ _ _).mpr (.inl (List.mem_map.mpr ⟨fr, ?_, ?_⟩)))
    · rw [ctrlFrames_portsSent hp.sent hp.encap]
      exact List.mem_filter.mpr ⟨hfr, by simp [hdst]⟩
    · rw [hp.rev, hp.next, hp.expect]

section Datagram
variable {s : State} {u : PortId} (hu : 7 ≤ u.val) (hid : (s.dev.port u).identified = true) (ip : Nat) (v : BitVec 128)
include hu hid

theorem exec_datagramReceive_badSum (fs : List (BitVec 2048)) : exec (.datagramReceive u ip false v fs) s =
    .next { s with dev := s.dev.setPort u { s.dev.port u with crcCnt := (s.dev.port u).crcCnt + 1 } } := by
  refine (show execDatagramReceive u ip false v fs s = _ from liftO_ok (w := []) ?_)
  dsimp only
  rw [if_neg (by simp [hid, hu]), if_pos (by decide)]

variable (hseg : v.toNat % 2 ^ 16 = 0x5253) (href : ((s.dev.port u).seg ip).refused = none) (hnak : bit v.toNat 25 = false)
include hseg href hnak

/-- A datagram without flits is an acknowledgement. -/
theorem exec_datagramReceive_ack (hcount : v.toNat / 2 ^ 96 % 256 = 0) :
    exec (.datagramReceive u ip true v []) s = .next { s with dev := (s.dev.segHeard u ip v).portSend u } := by
  refine (show execDatagramReceive u ip true v [] s = _ from liftO_ok (w := []) ?_)
  simp only [hnak, Bool.false_and, Bool.or_false, Bool.false_eq_true, if_false]
  rw [if_neg (by simp [hid, hu]), if_neg (by decide), if_neg (fun h => h.elim (by simp) fun h => h hcount.symm),
    if_neg (fun h => h.elim (fun h => h hseg) (by simp [href]))]
  rfl

/-- A datagram of one flit. -/
theorem exec_datagramReceive_one {f : BitVec 2048} (hcount : v.toNat / 2 ^ 96 % 256 = 1)
    (hroom : 2 ≤ flitNum f 0 1 / 16 % 4 → lk 0 (s.dev.port u).rxUsed (flitNum f 0 1 / 16 % 4) + 256 ≤ 2 ^ 18) {e : Dev} {nak : Bool}
    (hflit : (s.dev.segHeard u ip v).segFlits u ip (BitVec.ofNat 32 (v.toNat / 2 ^ 32)) [f] false = (e, nak)) :
    exec (.datagramReceive u ip true v [f]) s = .next { s with dev := e.segAnswered u ip nak } := by
  obtain ⟨l, r, hport⟩ := segHeard_port s.dev u ip v
  refine (show execDatagramReceive u ip true v [f] s = _ from liftO_ok (w := []) ?_)
  simp only [hnak, Bool.false_and, Bool.or_false, Bool.false_eq_true, if_false]
  rw [if_neg (by simp [hid, hu]), if_neg (by decide), if_neg (fun h => h.elim (by simp) fun h => h hcount.symm),
    if_neg (fun h => h.elim (fun h => h hseg) (by simp [href])), if_neg (by simp)]
  change (if 2 ≤ flitNum f 0 1 / 16 % 4 ∧ 2 ^ 18 < lk 0 ((s.dev.segHeard u ip v).port u).rxUsed (flitNum f 0 1 / 16 % 4) + 256 * 1 then _
    else Res.ok (Dev.segAnswered ((s.dev.segHeard u ip v).segFlits u ip (BitVec.ofNat 32 (v.toNat / 2 ^ 32)) [f] false).1 u ip
      ((s.dev.segHeard u ip v).segFlits u ip (BitVec.ofNat 32 (v.toNat / 2 ^ 32)) [f] false).2) []) = _
  rw [hflit, hport]
  exact if_neg fun h => absurd (hroom h.1) (Nat.not_le.mpr h.2)

end Datagram

/-! ### SEGMENT_TIMEOUT (R268) -/

/-- The first flit sent again leads the first datagram. -/
theorem regroup_head (u rev per : Nat) (last : BitVec 32) (n : Nat) (e : SegFlit) (l : List SegFlit) :
    ∃ g r, .datagram u e.frame g (e.flit :: r) ∈ regroup u rev (per + 1) last (n + 1) (e :: l) := by
  rw [regroup, List.take_succ_cons, List.zipIdx_cons, List.takeWhile_cons_of_pos (by simp)]
  exact ⟨_, _, List.mem_cons_self ..⟩

/-- Sending again begins with the oldest flit, unless a PFC frame holds its class. -/
theorem segAgain_out (d : Dev) (u : Nat) (p : SegPeer) (e : SegFlit) (l : List SegFlit) :
    (bit (d.port u).xoffRx.toNat (flitNum e.flit 0 1 / 16 % 4) = false → ∃ g r, .datagram u e.frame g (e.flit :: r) ∈ (d.segAgain u p (e :: l)).out) ∧
      (bit (d.port u).xoffRx.toNat (flitNum e.flit 0 1 / 16 % 4) = true → (d.segAgain u p (e :: l)).out = d.out) := by
  refine ⟨fun h => ?_, fun h => ?_⟩
  · obtain ⟨g, r, hgr⟩ := regroup_head u p.rev (d.port u).fpd.toNat (p.expect - 1)
      (l.takeWhile fun e => !bit (d.port u).xoffRx.toNat (flitNum e.flit 0 1 / 16 % 4)).length e
      (l.takeWhile fun e => !bit (d.port u).xoffRx.toNat (flitNum e.flit 0 1 / 16 % 4))
    refine ⟨g, r, ?_⟩
    rw [Dev.segAgain, List.takeWhile_cons_of_pos (by simp [h])]
    exact (mem_emits _ _ _).mpr (.inl hgr)
  · rw [Dev.segAgain, List.takeWhile_cons_of_neg (by simp [h])]
    rfl

/-- How often in a row the flits of a peer have been sent again from sequence seq on, this time counted. -/
def SegPeer.runs (p : SegPeer) (seq : BitVec 32) : Nat := if p.resends ≠ 0 ∧ p.from_ = seq then p.resends + 1 else 1

section Resend
variable {d : Dev} {u ip : Nat} {e : SegFlit} {l : List SegFlit} (hun : ((d.port u).seg ip).unacked = e :: l)
include hun

/-- Sent again fewer than 16 times in a row. -/
theorem segResend_again (h : ((d.port u).seg ip).runs e.seq ≠ 16) : ((d.segResend u ip 0).port u).retryCnt = (d.port u).retryCnt + 1 ∧
    ((d.segResend u ip 0).port u).seg ip = { (d.port u).seg ip with resends := ((d.port u).seg ip).runs e.seq, from_ := e.seq } ∧
    (bit (d.port u).xoffRx.toNat (flitNum e.flit 0 1 / 16 % 4) = false → ∃ g r, .datagram u e.frame g (e.flit :: r) ∈ (d.segResend u ip 0).out) ∧
    (bit (d.port u).xoffRx.toNat (flitNum e.flit 0 1 / 16 % 4) = true → (d.segResend u ip 0).out = d.out) := by
  generalize hp : ({ (d.port u).seg ip with resends := ((d.port u).seg ip).runs e.seq, from_ := e.seq } : SegPeer) = p
  generalize hx : ({ d.port u with retryCnt := (d.port u).retryCnt + 1 } : Port).setSeg p = x
  have hresend : d.segResend u ip 0 = (d.setPort u x).segAgain u p (e :: l) := by
    rw [← hx, ← hp, Dev.segResend]
    dsimp only
    rw [hun]
    exact if_neg h
  have hport : (d.segResend u ip 0).port u = x := by
    rw [hresend]
    exact (Dev.port_emits _ _ _).trans (Dev.port_setPort d u x)
  have hseg : x.seg ip = p := hx ▸ seg_setSeg_of_peer _ (hp ▸ seg_peer (d.port u) ip)
  have hout := segAgain_out (d.setPort u x) u p e l
  rw [← hresend, Dev.port_setPort, show x.xoffRx = (d.port u).xoffRx by rw [← hx]; rfl] at hout
  exact ⟨by rw [hport, ← hx]; rfl, by rw [hport, hseg], hout⟩

/-- Sent again the 16th time in a row: the traffic of the peer is refused, and the identity exchange repeated. -/
theorem segResend_exhausted (h : ((d.port u).seg ip).runs e.seq = 16) : ((d.segResend u ip 0).port u).retryCnt = (d.port u).retryCnt + 1 ∧
    ((d.segResend u ip 0).port u).seg ip = { (d.port u).seg ip with resends := 0, refused := some d.turn.now.toNat } ∧
    ((d.segResend u ip 0).port u).retryExh = true ∧ ∀ o ∈ (d.segResend u ip 0).identityOuts u none, o ∈ (d.segResend u ip 0).out := by
  generalize hp : ({ (d.port u).seg ip with resends := 0, refused := some d.turn.now.toNat } : SegPeer) = p
  generalize hx : ({ d.port u with retryCnt := (d.port u).retryCnt + 1, retryExh := true } : Port).setSeg p = x
  have hresend : d.segResend u ip 0 = (d.setPort u x).sendIdentity u := by
    rw [← hx, ← hp, Dev.segResend]
    dsimp only
    rw [hun]
    exact if_pos h
  have hport : (d.segResend u ip 0).port u = { x with idSent := some d.turn.now.toNat } := by
    rw [hresend, sendIdentity_port, Dev.port_setPort]
    rfl
  have hseg : x.seg ip = p := hx ▸ seg_setSeg_of_peer _ (hp ▸ seg_peer (d.port u) ip)
  refine ⟨by rw [hport, ← hx]; rfl, by rw [hport]; exact hseg, by rw [hport, ← hx]; rfl, fun o ho => ?_⟩
  rw [hresend] at ho ⊢
  rw [(sendIdentity_stays _ u).outs] at ho
  exact sendIdentity_outs _ u o ho

end Resend

theorem exec_segmentTimeout {s : State} {u : PortId} (hu : 7 ≤ u.val) (hid : (s.dev.port u).identified = true)
    (hst : (s.dev.port u).st ≠ .quarantined) {ip : Nat} (href : ((s.dev.port u).seg ip).refused = none)
    (hun : ((s.dev.port u).seg ip).unacked ≠ []) : exec (.segmentTimeout u ip) s = .next { s with dev := s.dev.segResend u ip 0 } := by
  have hcarries : (s.dev.port u).carries = true := (carries_of_talks (talks_of_identified hid)).mpr hst
  refine (show execSegmentTimeout u ip s = _ from lift_of_eq (if_neg ?_))
  simp [hid, hcarries, href, hun, hu]

/-! ### RETRAIN_WINDOW_EXPIRE (R268) and PFC (R266) -/

/-- The device where what was to be sent again to a peer of port u is lost. -/
def Dev.peerLost (d : Dev) (u : Nat) (p : SegPeer) : Dev :=
  (d.setPort u ((d.port u).setSeg { p with unacked := [], rx := [] })).raise
    ((d.setPort u ((d.port u).setSeg { p with unacked := [], rx := [] })).lossErr u p.oldest.toNat p.peer (p.unacked.map fun e => e.fpid))

theorem exec_retrainWindowExpire_peer {s : State} {u : PortId} (hu : 7 ≤ u.val) {p : SegPeer}
    (hp : (s.dev.port u).peers.find? (fun p => p.refused.any (fun k => decide (k + 6250 ≤ s.dev.turn.now.toNat)) && !p.unacked.isEmpty) = some p) :
    exec (.retrainWindowExpire u) s = .next { s with dev := s.dev.peerLost u p } := by
  refine (show execRetrainWindowExpire u s = _ from lift_of_eq ((if_neg (Nat.not_lt.mpr hu)).trans ?_))
  rw [hp]
  rfl

theorem peerLost_recorded (d : Dev) (u : Nat) (p : SegPeer) : (((d.peerLost u p).port u).seg p.peer).unacked = [] ∧
    ∀ t : State, t.dev = d.peerLost u p → Recorded t 0x40 0xFFFF [p.oldest.toNat, p.peer] := by
  generalize hx : (d.port u).setSeg { p with unacked := [], rx := [] } = x
  have hraise : d.peerLost u p = (d.setPort u x).raise ((d.setPort u x).lossErr u p.oldest.toNat p.peer (p.unacked.map fun e => e.fpid)) := by
    rw [← hx]; rfl
  have hport : (d.peerLost u p).port u = x := by
    rw [hraise, Dev.port, raise_ports (show 2 ≠ 3 by decide)]
    exact Dev.port_setPort d u x
  refine ⟨?_, fun t ht => raise_recorded (show 2 ≠ 3 by decide) (ht.trans hraise)⟩
  rw [hport, ← hx]
  exact congrArg SegPeer.unacked (seg_setSeg_of_peer (d.port u) (p := { p with unacked := [], rx := [] }) rfl)

/-- The classes held, after a PFC frame for a priority. -/
def Port.pfcHeld (x : Port) (prio quanta : Nat) (a : BitVec 4) (c : Nat) : BitVec 4 :=
  if x.pcp c = prio then (if quanta = 0 then a &&& ~~~(BitVec.ofNat 4 (2 ^ c)) else a ||| BitVec.ofNat 4 (2 ^ c)) else a

theorem bit_pfcHeld (x : Port) (prio quanta : Nat) (a : BitVec 4) (c : Nat) {n : Nat} (hn : n < 4) :
    bit (x.pfcHeld prio quanta a c).toNat n = if n = c ∧ x.pcp c = prio then decide (quanta ≠ 0) else bit a.toNat n := by
  unfold Port.pfcHeld
  by_cases hp : x.pcp c = prio
  · by_cases hq : quanta = 0
    · rw [if_pos hp, if_pos hq, bit_and_not_two_pow a c hn]
      simp [hp, hq]
    · rw [if_pos hp, if_neg hq, bit_or_two_pow a c hn]
      simp [hp, hq]
  · simp [hp]

/-- The device that has taken a PFC frame. -/
def Dev.pfcTaken (d : Dev) (u prio quanta : Nat) : Dev :=
  let x := d.port u
  (d.setPort u { x with xoffRx := x.pfcHeld prio quanta (x.pfcHeld prio quanta x.xoffRx 0) 1 }).portSend u

theorem exec_pfcFrameReceive {s : State} {u : PortId} (hu : 7 ≤ u.val) (htalks : (s.dev.port u).talks = true) (prio quanta : Nat) :
    exec (.pfcFrameReceive u prio quanta) s = .next { s with dev := s.dev.pfcTaken u prio quanta } := by
  refine (show execPfcFrameReceive u prio quanta s = _ from lift_of_eq ((if_neg ?_).trans rfl))
  simp [htalks, hu]

theorem exec_pfcRepeat {s : State} {u : PortId} (hu : 7 ≤ u.val) (htalks : (s.dev.port u).talks = true) (c : Fin 2)
    (hpfc : bit (s.dev.port u).pfc.toNat c = true) (hfill : 2 ^ 20 < lk 0 (s.dev.port u).rxUsed c) :
    exec (.pfcRepeat u c) s = .next { s with dev := s.dev.emit (.pfc u ((s.dev.port u).pcp c) 0xFFFF) } := by
  have hfree : ¬ 2 ^ 20 ≤ 2 ^ 21 - lk 0 (s.dev.port u).rxUsed c := by omega
  refine (show execPfcRepeat u c s = _ from lift_of_eq (if_neg ?_))
  rw [htalks, hpfc, decide_eq_false hfree, decide_eq_false (Nat.not_lt.mpr hu)]
  decide

/-- A PFC frame holds or frees the classes of its priority, and no other. -/
theorem pfcTaken_xoff (d : Dev) (u prio quanta : Nat) {c : Nat} (hc : c < 4) : bit ((d.pfcTaken u prio quanta).port u).xoffRx.toNat c =
    if c < 2 ∧ (d.port u).pcp c = prio then decide (quanta ≠ 0) else bit (d.port u).xoffRx.toNat c := by
  rw [Dev.pfcTaken, (portSend_receipt _ u).xoffRx, Dev.port_setPort, bit_pfcHeld _ _ _ _ _ hc, bit_pfcHeld _ _ _ _ _ hc]
  obtain h | h | h : c = 0 ∨ c = 1 ∨ 2 ≤ c := by omega
  · subst h; simp
  · subst h; simp
  · rw [if_neg (by omega), if_neg (by omega), if_neg (by omega)]

/-! ### Settling -/

/-- A datagram of one flit that leaves peer ip so far, and what the device answers. -/
theorem exec_datagramReceive_answers {s : State} {u : PortId} (hu : 7 ≤ u.val) (hid : (s.dev.port u).identified = true) {ip : Nat}
    {v : BitVec 128} (hseg : v.toNat % 2 ^ 16 = 0x5253) (href : ((s.dev.port u).seg ip).refused = none) (hnak : bit v.toNat 25 = false)
    {f : BitVec 2048} (hcount : v.toNat / 2 ^ 96 % 256 = 1)
    (hroom : 2 ≤ flitNum f 0 1 / 16 % 4 → lk 0 (s.dev.port u).rxUsed (flitNum f 0 1 / 16 % 4) + 256 ≤ 2 ^ 18) {e : Dev} {nak : Bool}
    (hflit : (s.dev.segHeard u ip v).segFlits u ip (BitVec.ofNat 32 (v.toNat / 2 ^ 32)) [f] false = (e, nak)) {n last : BitVec 32}
    (he : (s.dev.segHeard u ip v).SegStands u ip n e) (hlast : n - 1 = last) :
    ∃ t, exec (.datagramReceive u ip true v [f]) s = .next t ∧ t.mem = s.mem ∧ ((t.dev.port u).seg ip).expect = n ∧
      (e.port u).SameReceipt (t.dev.port u) ∧ ((s.dev.port u).st ≠ .quarantined → ∀ fr ∈ s.dev.ctrlFrames u, fr.dst = ip →
        .datagram u fr (segHdr ((s.dev.port u).seg ip).rev true nak ((s.dev.port u).seg ip).next last 0) [] ∈ t.dev.out) := by
  obtain ⟨hexpect, hrec, hanswer⟩ := segAnswered_answers ((segHeard_segStands s.dev u ip v).trans he) nak
  subst hlast
  exact ⟨_, exec_datagramReceive_one hu hid ip v hseg href hnak hcount hroom hflit, rfl, hexpect, hrec, hanswer hid⟩

/-- Settles O58: what a datagram's flits leave of the peer is followed through the answer and what is sent with it. -/
theorem ethernetSegments : Obligations.EthernetSegments := by
  unfold Obligations.EthernetSegments
  intro u s hu
  refine ⟨fun hid ip v => ⟨fun fs => ?_, fun hseg href hnak => ⟨fun hack hcount hq => ?_, fun f hcount hroom hnear => ?_⟩,
    fun e l hst href hun => ?_⟩, fun p hp => ?_, fun htalks => ⟨fun prio quanta => ?_, fun c hpfc hfill => ?_⟩⟩
  · exact ⟨_, exec_datagramReceive_badSum hu hid ip v fs, rfl, fun _ hj => Dev.port_setPort_ne s.dev hj _, Dev.port_setPort s.dev u _⟩
  · obtain ⟨hfreed, hleft⟩ := acked_frees ((s.dev.port u).seg ip) (BitVec.ofNat 32 (v.toNat / 2 ^ 64))
    refine ⟨_, _, exec_datagramReceive_ack hu hid ip v hseg href hnak hcount, ?_, hfreed, hleft⟩
    have hport : (s.dev.segHeard u ip v).port u = (s.dev.port u).setSeg (((s.dev.port u).seg ip).acked (BitVec.ofNat 32 (v.toNat / 2 ^ 64))) := by
      rw [Dev.segHeard, Dev.port_setPort, if_pos hack]
    have hempty : ((s.dev.segHeard u ip v).port u).sendQ = [] := by rw [hport]; exact hq
    show (((Dev.portSend _ u).port u).seg ip).unacked = _
    rw [Dev.portSend, hempty, Dev.sendLoop, Dev.port_updPort, hport]
    exact congrArg SegPeer.unacked (seg_setSeg_of_peer _ (seg_peer (s.dev.port u) ip))
  · have hheard := segHeard_segStands s.dev u ip v
    have hexpect := hheard.expect
    have hrec : (s.dev.port u).SameReceipt ((s.dev.segHeard u ip v).port u) := by
      obtain ⟨l, r, hport⟩ := segHeard_port s.dev u ip v
      rw [hport]; exact ⟨rfl, rfl, rfl, rfl, rfl⟩
    rw [← hexpect] at hnear
    refine ⟨fun hgood htyp => ?_, fun hgood h0 h3 hahead => ?_, fun hbad => ?_⟩
    · obtain ⟨t, ht, hmem, hn, hdone, ha⟩ := exec_datagramReceive_answers hu hid hseg href hnak hcount hroom
        (segFlits_ctrl hgood htyp) (.refl _ u ip) (by rw [hexpect])
      exact ⟨t, ht, hmem, hn.trans hexpect, (hrec.trans hdone).done, ha⟩
    · obtain ⟨e, he, hstands⟩ := segFlits_expected (nak := false) hnear hgood h0 h3 (by rw [hexpect]; exact hahead)
      rw [hexpect] at hstands
      obtain ⟨t, ht, hmem, hn, -, ha⟩ := exec_datagramReceive_answers hu hid hseg href hnak hcount hroom he hstands (BitVec.add_sub_cancel _ _)
      exact ⟨t, ht, hmem, hn, ha⟩
    · rw [← hexpect] at hbad
      obtain ⟨e, he, hstands⟩ := segFlits_refused (nak := false) hnear hbad
      rw [hexpect] at hstands
      obtain ⟨t, ht, hmem, hn, -, ha⟩ := exec_datagramReceive_answers hu hid hseg href hnak hcount hroom he hstands rfl
      exact ⟨t, ht, hmem, hn, ha⟩
  · have hexec := exec_segmentTimeout hu hid hst href (by rw [hun]; exact List.cons_ne_nil _ _)
    have hpeer := seg_peer (s.dev.port u) ip
    refine ⟨_, hexec, rfl, ?_⟩
    by_cases hruns : ((s.dev.port u).seg ip).runs e.seq = 16
    · obtain ⟨hcnt, hseg, hexh, hsent⟩ := segResend_exhausted hun hruns
      exact ⟨hcnt, by rw [hseg]; exact hun, fun h => absurd hruns h, fun _ => ⟨by rw [hseg], hexh, hsent⟩⟩
    · obtain ⟨hcnt, hseg, hout⟩ := segResend_again hun hruns
      exact ⟨hcnt, by rw [hseg]; exact hun, fun _ => ⟨by rw [hseg]; rfl, by rw [hseg], hout⟩, fun h => absurd h hruns⟩
  · obtain ⟨hlost, hrec⟩ := peerLost_recorded s.dev u p
    exact ⟨_, p.oldest.toNat, exec_retrainWindowExpire_peer hu hp, rfl, hlost, hrec _ rfl⟩
  · exact ⟨_, exec_pfcFrameReceive hu htalks prio quanta, rfl, fun c hc => pfcTaken_xoff s.dev u prio quanta hc⟩
  · exact exec_pfcRepeat hu htalks c hpfc hfill

end Sys2Proof.Machine

/-! ## Packets between devices -/

namespace Sys2Proof.Machine

/-! ### A port that may not send (R254, R272, R273) -/

theorem canSend_notAdmitted {d : Dev} {u : Nat} {k : Packet} (hst : (d.port u).st ≠ .admitted) (hoffers : ∀ o ∈ d.offers, o.taken = false) :
    d.canSend u k = false := by
  have hadmits : d.portAdmits u k.fpid k.dst = false := by
    rw [Dev.portAdmits, beq_false_of_ne hst, Bool.false_and]
  have htaken : d.offerTaken u k = false := by
    rw [Dev.offerTaken, show d.offers.any (fun o => o.taken && o.fpid == k.fpid && o.port == u + 4) = false from
      List.any_eq_false.mpr fun o ho => by simp [hoffers o ho], Bool.and_false]
  simp [Dev.canSend, hadmits, htaken]

/-- Packets that may not go stay, in order. -/
theorem sendLoop_stays {d : Dev} {u : Nat} (h : ∀ k, d.canSend u k = false) (l : List Packet) (bl : List Nat) (kept : List Packet) :
    d.sendLoop u l bl kept = d.updPort u (fun x => { x with sendQ := kept.reverse ++ l }) := by
  induction l generalizing bl kept with
  | nil => rw [Dev.sendLoop, List.append_nil]
  | cons k r ih =>
    rw [Dev.sendLoop, if_pos (by rw [h]; exact Bool.or_true _), ih, List.reverse_cons, List.append_assoc]
    rfl

/-- A packet waits behind the others at a port that is not admitted. -/
theorem enqueue_waits {d : Dev} {u : Nat} (k : Packet) (hst : (d.port u).st ≠ .admitted) (hoffers : ∀ o ∈ d.offers, o.taken = false) :
    ((d.enqueue u k).port u).sendQ = (d.port u).sendQ ++ [k] := by
  have hstays (j : Packet) : (d.updPort u (fun x => { x with sendQ := x.sendQ ++ [k] })).canSend u j = false :=
    canSend_notAdmitted (by rwa [Dev.port_updPort]) hoffers
  rw [Dev.enqueue, Dev.portSend, sendLoop_stays hstays, Dev.port_updPort, Dev.port_updPort]
  rfl

/-! ### Leaving the die (R278, R279, R281, R284) -/

/-- The packet of a message that a core sends to another device. -/
def Flit.packet (f : Flit) (k : FabPkt) (m : Mould) (data : List Byte) : Packet :=
  { cls := k.cls, addr := k.addr, epoch := m.epoch, fmt := 0, fpid := m.fpid, syn := k.syn, src := m.self, dst := 0, tree := 0, data := data,
    amount := f.amount }

/-- The payload of a message whose first flit is f. -/
def Flit.payload (f : Flit) (r : List Flit) : List Byte := if f.amount.isSome then [] else (f :: r).flatMap (fun g => natLe g.data.toNat 64)

/-- The device once a message was taken off port unit u. -/
def Dev.unitTook (d : Dev) (u : Nat) (rest : List Flit) : Dev := { d with net := { d.net with unitIn := up d.net.unitIn (u + 4) rest } }

section Take
variable {s : State} {u : PortId} {f : Flit} {r rest : List Flit} {m : Mould} {k : FabPkt}
  (hq : gather (lk [] s.dev.net.unitIn (u + 4)) (lk [] s.dev.net.unitIn (u + 4)) = some (f :: r, rest))
  (hm : s.dev.mouldOf f.ptag = some m) (hk : f.fab = some k) (hcls : k.cls ≠ 1)
include hq hm hk hcls

theorem exec_portUnitTake_muted (hdrops : ((m.tab m.epoch).rec_ m.self).muted = true ∧ k.cls < 2) :
    exec (.portUnitTake u) s = .next { s with dev := (s.dev.unitTook u rest).fabCount 5 } := by
  refine (show execPortUnitTake u s = _ from lift_of_eq ?_)
  have hfind : s.dev.moulds.find? (fun m => bit m.pmask f.ptag) = some m := hm
  simp only [hq, Dev.mouldOf, hfind, Dev.mkPacket, hk, if_neg hcls, hdrops, decide_true, Bool.and_self, if_true]
  rfl

theorem exec_portUnitTake_lost (hdrops : ¬ (((m.tab m.epoch).rec_ m.self).muted = true ∧ k.cls < 2))
    (hdest : m.destOf (m.tab m.epoch) u k.addr = none) :
    exec (.portUnitTake u) s = .next { s with dev := (s.dev.unitTook u rest).unroutable u f.src m [0xFFFF] } := by
  refine (show execPortUnitTake u s = _ from lift_of_eq ?_)
  have hfind : s.dev.moulds.find? (fun m => bit m.pmask f.ptag) = some m := hm
  simp only [hq, Dev.mouldOf, hfind, Dev.mkPacket, hk, if_neg hcls, hdest]
  exact if_neg (by simpa using hdrops)

theorem exec_portUnitTake_sent (hdrops : ¬ (((m.tab m.epoch).rec_ m.self).muted = true ∧ k.cls < 2)) {x : Nat}
    (hdest : m.destOf (m.tab m.epoch) u k.addr = some x) :
    exec (.portUnitTake u) s = .next
      { s with dev := ((s.dev.unitTook u rest).stampV m m.epoch).enqueue u { f.packet k m (f.payload r) with dst := x } } := by
  refine (show execPortUnitTake u s = _ from lift_of_eq ?_)
  have hfind : s.dev.moulds.find? (fun m => bit m.pmask f.ptag) = some m := hm
  simp only [hq, Dev.mouldOf, hfind, Dev.mkPacket, hk, if_neg hcls, hdest]
  exact if_neg (by simpa using hdrops)

end Take

theorem lk_unitTook (d : Dev) (u : Nat) (rest : List Flit) : lk [] (d.unitTook u rest).net.unitIn (u + 4) = rest := lk_up_same _ _ _ _

theorem unroutable_spec (d : Dev) (u src : Nat) (m : Mould) (detail : List Nat) : (d.unroutable u src m detail).ports = d.ports ∧
    (d.unroutable u src m detail).net = d.net ∧ ∀ t : State, t.dev = d.unroutable u src m detail → Recorded t 0x50 src detail :=
  ⟨raise_ports (show 1 ≠ 3 by decide), raise_net (show 1 ≠ 3 by decide), fun _ ht =>
    raise_recorded (e := ⟨0x50, 1, u + 4, src, m.pmask, m.fpid, detail, false⟩) (show 1 ≠ 3 by decide) ht⟩

/-! ### Out of a receive buffer (R260, R265) -/

/-- Packet k has left port u's receive buffer: its drops are counted no more than before, and the other ports, the cores, the network,
the drop counters and the offers are as before. -/
structure Dev.TookDone (d e : Dev) (u : Nat) (k : Packet) : Prop where
  dropCnt : (e.port u).dropCnt = (d.port u).dropCnt
  done : (e.port u).done = (d.port u).done.erase k
  others : ∀ v, v ≠ u → e.port v = d.port v
  cores : e.cores = d.cores
  net : e.net = d.net
  fabDrop : e.fabDrop = d.fabDrop
  offers : e.offers = d.offers

theorem settled_dropCnt (d d0 : Dev) (u : Nat) (again : Bool) : ((d.settled d0 u again).port u).dropCnt = (d.port u).dropCnt := by
  unfold Dev.settled
  extract_lets a e1 e2 b news
  have h1 : (e1.port u).dropCnt = (d.port u).dropCnt := by unfold e1; rw [Dev.port_updPort]; rfl
  have h2 : (e2.port u).dropCnt = (d.port u).dropCnt := by
    unfold e2
    split
    · rw [sendIdentity_port]; exact h1
    · exact h1
  split
  · exact h2
  · exact h2

theorem settled_port_ne (d d0 : Dev) {u v : Nat} (again : Bool) (hv : v ≠ u) : (d.settled d0 u again).port v = d.port v := by
  unfold Dev.settled
  extract_lets a e1 e2 b news
  have h1 : e1.port v = d.port v := Dev.port_updPort_ne d hv _
  have h2 : e2.port v = d.port v := by
    unfold e2
    split
    · rw [Dev.sendIdentity, Dev.port_emits, Dev.port_updPort_ne _ hv]; exact h1
    · exact h1
  split
  · exact h2
  · exact h2

theorem pfcUpdate_port_ne (d : Dev) {u v : Nat} (hv : v ≠ u) : (d.pfcUpdate u).port v = d.port v := by
  refine List.foldlRecOn (motive := fun e : Dev => e.port v = d.port v) _ _ rfl fun e he c _ => ?_
  dsimp only
  split
  · exact (Dev.port_setPort_ne e hv _).trans he
  · split
    · exact (Dev.port_setPort_ne e hv _).trans he
    · exact he

theorem tookDone_of_portsSent {d e : Dev} {u : Nat} {k : Packet} (h : d.PortsSent e) (hdrop : (e.port u).dropCnt = (d.port u).dropCnt)
    (hdone : (e.port u).done = (d.port u).done.erase k) (hne : ∀ v, v ≠ u → e.port v = d.port v) : d.TookDone e u k := by
  obtain ⟨ps, o, rfl⟩ := h
  exact ⟨hdrop, hdone, hne, rfl, rfl, rfl, rfl⟩

theorem takeDone_tookDone (d : Dev) (u : Nat) (k : Packet) : d.TookDone (d.takeDone u k) u k := by
  unfold Dev.takeDone
  extract_lets x n y
  split
  · refine tookDone_of_portsSent (.trans ⟨_, _, rfl⟩ (settled_portsSent (d.setPort u y) d u false)) ?_ ?_ fun v hv => ?_
    · rw [settled_dropCnt, Dev.port_setPort]
    · rw [(settled_receipt _ d u false).done, Dev.port_setPort]
    · rw [settled_port_ne _ d false hv, Dev.port_setPort_ne d hv]
  · obtain ⟨hsent, ⟨q, hq⟩, -⟩ := pfcUpdate_port (d.setPort u y) u
    refine tookDone_of_portsSent (.trans ⟨_, _, rfl⟩ hsent) ?_ ?_ fun v hv => ?_
    · rw [hq, Dev.port_setPort]
    · rw [hq, Dev.port_setPort]
    · rw [pfcUpdate_port_ne _ hv, Dev.port_setPort_ne d hv]

theorem Dev.TookDone.stampV {d e : Dev} {u : Nat} {k : Packet} (h : d.TookDone e u k) (m : Mould) (v : Nat) : d.TookDone (e.stampV m v) u k :=
  ⟨h.dropCnt, h.done, h.others, h.cores, h.net, h.fabDrop, h.offers⟩

/-- The error of a packet that is dropped for reason r. -/
def Packet.rejErr (k : Packet) (u r cls pm what : Nat) : Err :=
  { code := 0x20, cls := cls, source := u + 4, core := 0xFFFF, pmask := pm, fpid := k.fpid, detail := [what, k.src, r] }

/-- A packet that is dropped is counted for its reason and at the port, and recorded. -/
theorem fabReject_spec {d e : Dev} {u : Nat} {k : Packet} (h : d.TookDone e u k) (hoff : k.off = 0) (r : Nat) {cls : Nat} (hcls : cls ≠ 3)
    (pm what : Nat) (s : State) (t : State) (ht : t = { s with dev := e.fabReject u r cls pm k what }) :
    t.mem = s.mem ∧ Recorded t 0x20 0xFFFF [what, k.src, r] ∧ lk (0 : BitVec 32) t.dev.fabDrop r = satAdd (lk 0 d.fabDrop r) 1 ∧
      (t.dev.port u).dropCnt = satAdd (d.port u).dropCnt 1 ∧ (t.dev.port u).done = (d.port u).done.erase k := by
  subst ht
  generalize hg : (e.fabCount r).updPort u (fun x => { x with dropCnt := satAdd x.dropCnt 1 }) = g
  have hport : g.port u = { e.port u with dropCnt := satAdd (e.port u).dropCnt 1 } := by rw [← hg, Dev.port_updPort]; rfl
  have hreject : e.fabReject u r cls pm k what = g.raise (k.rejErr u r cls pm what) := by
    rw [← hg]; exact if_neg (not_not_intro hoff)
  have hport' : (e.fabReject u r cls pm k what).port u = g.port u := by rw [hreject, Dev.port, raise_ports hcls]; rfl
  refine ⟨rfl, raise_recorded (d := g) (e := k.rejErr u r cls pm what) hcls hreject, ?_, ?_, ?_⟩
  · obtain ⟨es, cs, ps, ms, fs, o, he⟩ := raise_eq (d := g) (e := k.rejErr u r cls pm what) hcls
    show lk (0 : BitVec 32) (e.fabReject u r cls pm k what).fabDrop r = _
    rw [hreject, he, ← hg]
    exact (lk_up_same _ _ _ _).trans (by rw [h.fabDrop])
  · rw [show (Dev.port _ u) = g.port u from hport', hport, h.dropCnt]
  · rw [show (Dev.port _ u) = g.port u from hport', hport, h.done]

/-! ### Credits of an accepted packet (R57, R260) -/

/-- The count of synchronisation object obj of a core. -/
def Dev.synOf (d : Dev) (obj : Nat) : Nat := (lk (0 : BitVec 32) (d.core (obj / 32)).syn (obj % 32)).toNat

theorem synOf_of_cores {d e : Dev} (h : e.cores = d.cores) (obj : Nat) : e.synOf obj = d.synOf obj := by rw [Dev.synOf, Dev.core, h]; rfl

theorem credit_synOf {d : Dev} {obj n : Nat} (src : Nat) (ho : obj < 24576) (h : d.synOf obj + n < 2 ^ 32) :
    (d.credit obj n src).synOf obj = d.synOf obj + n := by
  rw [credit_within src ho h]
  exact lk_setSyn_same _ obj h

theorem creditIf_synOf {d : Dev} {obj n : Nat} (src : Nat) (ho : obj < 24576) (h : d.synOf obj + n < 2 ^ 32) :
    (d.creditIf (n ≠ 0) obj n src).synOf obj = d.synOf obj + n := by
  unfold Dev.creditIf
  split
  · exact credit_synOf src ho h
  next hn =>
    have : n = 0 := by simpa using hn
    rw [this, Nat.add_zero]

theorem credits_synOf {d : Dev} {obj : Nat} (src : Nat) (ho : obj < 24576) (n : Nat) (h : d.synOf obj + 64 * n < 2 ^ 32) :
    ((List.range n).foldl (fun d _ => d.credit obj 64 src) d).synOf obj = d.synOf obj + 64 * n := by
  induction n with
  | zero => rfl
  | succ n ih =>
    have hn := ih (by omega)
    rw [List.range_succ, List.foldl_append, List.foldl_cons, List.foldl_nil, credit_synOf src ho (by rw [hn]; omega), hn]
    omega

/-! ### Bytes of an accepted packet (R146, R147) -/

theorem winTouch_spares (d : Dev) (a n : Nat) (write : Bool) :
    (d.winTouch a n write).net = d.net ∧ ∀ obj, (d.winTouch a n write).synOf obj = d.synOf obj := by
  have hupd {e : Dev} (j : Nat) (f : Core → Core) (hf : ∀ c, (f c).syn = c.syn) (he : e.net = d.net ∧ ∀ obj, e.synOf obj = d.synOf obj) :
      (e.updCore j f).net = d.net ∧ ∀ obj, (e.updCore j f).synOf obj = d.synOf obj := by
    refine ⟨he.1, fun obj => Eq.trans ?_ (he.2 obj)⟩
    by_cases hj : obj / 32 = j
    · subst hj; rw [Dev.synOf, Dev.core_updCore, hf]; rfl
    · rw [Dev.synOf, Dev.core_updCore_ne _ hj]; rfl
  unfold Dev.winTouch
  split
  · exact ⟨rfl, fun _ => rfl⟩
  · refine List.foldlRecOn (motive := fun e : Dev => e.net = d.net ∧ ∀ obj, e.synOf obj = d.synOf obj) _ _ ⟨rfl, fun _ => rfl⟩ fun e he i _ => ?_
    dsimp only
    split
    · split
      · exact he
      · exact hupd _ _ (fun _ => rfl) he
    · split
      · exact hupd _ _ (fun _ => rfl) he
      · exact he

/-- A write that meets no bad word raises nothing. -/
theorem eccWrite_cores {d : Dev} (h : d.net.ue = []) (bs : List MByte) (writer : Nat) : (d.eccWrite bs writer).cores = d.cores := by
  have hfold : (d.eccWrite bs writer).net.ue = [] ∧ (d.eccWrite bs writer).cores = d.cores := by
    refine List.foldlRecOn (motive := fun e : Dev => e.net.ue = [] ∧ e.cores = d.cores) _ _ ⟨h, rfl⟩ fun e he w _ => ?_
    extract_lets net e1
    have h1 : e1.net.ue = [] ∧ e1.cores = d.cores := by
      unfold e1
      split
      · exact he
      · exact he
    rw [if_pos (by rw [h1.1]; rfl)]
    exact h1
  exact hfold.2

theorem mirror_portsSent (d : Dev) (m : Mould) (k : Packet) : d.PortsSent (d.mirror m k) := by
  unfold Dev.mirror
  extract_lets own
  split
  · exact ⟨_, _, rfl⟩
  · split
    · exact ⟨_, _, rfl⟩
    · exact enqueue_portsSent _ _ _

theorem accept_header {d : Dev} (m : Mould) {k : Packet} (u : Nat) (tgt : Nat ⊕ Nat) {n : Nat} (hn : k.amount = some n) (ho : k.syn < 24576)
    (h : d.synOf k.syn + n < 2 ^ 32) : (d.accept m k u tgt).2 = [] ∧ (d.accept m k u tgt).1.synOf k.syn = d.synOf k.syn + n := by
  obtain ⟨ps, o, hmirror⟩ := mirror_portsSent d m k
  have hcores := synOf_of_cores (d := d) (e := d.mirror m k) (by rw [hmirror]) k.syn
  unfold Dev.accept
  extract_lets e a src
  rw [hn]
  refine ⟨rfl, ?_⟩
  rw [← hcores] at h ⊢
  exact creditIf_synOf _ ho h

theorem accept_bytes {d : Dev} (m : Mould) {k : Packet} (u j : Nat) (hn : k.amount = none) (hcls : k.cls ≠ 1) (hlen : k.data.length % 64 = 0)
    (hue : d.net.ue = []) (ho : k.syn < 24576) (h : d.synOf k.syn + k.data.length < 2 ^ 32) :
    (d.accept m k u (.inl j)).2 = wrBytes (k.addr % 2 ^ 34) k.data ∧ (d.accept m k u (.inl j)).1.synOf k.syn = d.synOf k.syn + k.data.length := by
  obtain ⟨ps, o, hmirror⟩ := mirror_portsSent d m k
  have hcount : 64 * cdiv k.data.length 64 = k.data.length := by rw [cdiv]; omega
  unfold Dev.accept
  extract_lets e a src
  rw [hn]
  dsimp only
  rw [if_neg hcls]
  refine ⟨rfl, ?_⟩
  obtain ⟨hnet, hsyn⟩ := winTouch_spares e a k.data.length true
  have hcores : ((e.winTouch a k.data.length true).eccWrite (wholeBytes a k.data) 0xFFFF).synOf k.syn = d.synOf k.syn := by
    refine (synOf_of_cores (eccWrite_cores ?_ _ _) _).trans ((hsyn _).trans (synOf_of_cores ?_ _))
    · rw [hnet, show e = _ from hmirror]; exact hue
    · rw [show e = _ from hmirror]
  have hcredits := credits_synOf src ho (cdiv k.data.length 64) (by rw [hcores, hcount]; exact h)
  rw [hcores, hcount] at hcredits
  exact hcredits

/-! ### FABRIC_PACKET_ARRIVE (Table 15-1, R277, R279, R282) -/

/-- The device that has taken packet k out of port u's receive buffer, its epoch's use noted. -/
def Dev.unboxed (d : Dev) (u : Nat) (k : Packet) (m : Mould) : Dev := (d.takeDone u k).stampV m k.epoch

theorem unboxed_tookDone (d : Dev) (u : Nat) (k : Packet) (m : Mould) : d.TookDone (d.unboxed u k m) u k := (takeDone_tookDone d u k).stampV m k.epoch

section Arrive
variable {s : State} {u : PortId} {pk : Packet} (hdone : (s.dev.port u).done.find? (fun k => k.cls == pk.cls) = some pk)
  (hst : (s.dev.port u).st = .admitted)
include hdone hst

theorem exec_fabricPacketArrive_unknown (hm : s.dev.mouldFp pk.fpid = none) :
    exec (.fabricPacketArrive u pk) s = .next { s with dev := (s.dev.takeDone u pk).fabReject u 0 0 0 pk pk.fpid } := by
  refine (show execFabricPacketArrive u pk s = _ from liftW_of_eq (w := []) ?_)
  simp only [hdone, hst, ne_eq, not_true_eq_false, false_and, if_false, hm]

variable {m : Mould} (hm : s.dev.mouldFp pk.fpid = some m)
include hm

theorem exec_fabricPacketArrive_notCarried (hcarried : s.dev.portAdmits u pk.fpid pk.src = false) :
    exec (.fabricPacketArrive u pk) s = .next { s with dev := (s.dev.unboxed u pk m).fabReject u 0 2 m.pmask pk pk.fpid } := by
  refine (show execFabricPacketArrive u pk s = _ from liftW_of_eq (w := []) ?_)
  simp only [hdone, hst, ne_eq, not_true_eq_false, false_and, if_false, hm, hcarried, Bool.not_false, if_true]
  rfl

variable (hcarried : s.dev.portAdmits u pk.fpid pk.src = true) (hvalid : (m.tab pk.epoch).valid = true)
include hcarried hvalid

theorem exec_fabricPacketArrive_relayed (hdst : pk.dst ≠ m.self) (hboard : m.boardOf pk.dst = m.boardOf m.self) {v : Nat}
    (hv : m.linkTo pk.dst = some v) :
    exec (.fabricPacketArrive u pk) s = .next { s with dev := (s.dev.unboxed u pk m).enqueue v { pk with total := 0, nfl := 0 } } := by
  refine (show execFabricPacketArrive u pk s = _ from liftW_of_eq (w := []) ?_)
  simp only [hdone, hst, ne_eq, not_true_eq_false, false_and, if_false, hm, hcarried, Bool.not_true, Bool.false_eq_true, if_true,
    hvalid, hdst, not_false_eq_true, if_pos hboard, hv]
  rfl

variable (hdst : pk.dst = m.self)
include hdst

theorem exec_fabricPacketArrive_noTarget (hx : s.dev.fabTarget m pk = none) :
    exec (.fabricPacketArrive u pk) s = .next { s with dev := (s.dev.unboxed u pk m).fabReject u 1 2 m.pmask pk pk.addr } := by
  refine (show execFabricPacketArrive u pk s = _ from liftW_of_eq (w := []) ?_)
  simp only [hdone, hst, ne_eq, not_true_eq_false, false_and, if_false, hm, hcarried, Bool.not_true, Bool.false_eq_true, if_true,
    hvalid, hdst, hx]
  rfl

variable {x : Nat ⊕ Nat} (hx : s.dev.fabTarget m pk = some x)
include hx

theorem exec_fabricPacketArrive_noObject (hsyn : s.dev.fabSyn m pk.syn = false) :
    exec (.fabricPacketArrive u pk) s = .next { s with dev := (s.dev.unboxed u pk m).fabReject u 2 2 m.pmask pk pk.syn } := by
  refine (show execFabricPacketArrive u pk s = _ from liftW_of_eq (w := []) ?_)
  simp only [hdone, hst, ne_eq, not_true_eq_false, false_and, if_false, hm, hcarried, Bool.not_true, Bool.not_false, Bool.false_eq_true, if_true,
    hvalid, hdst, hx, hsyn]
  rfl

variable (hsyn : s.dev.fabSyn m pk.syn = true)
include hsyn

theorem exec_fabricPacketArrive_noTree (hcls : pk.cls = 1) (htree : s.dev.fabTree m u pk.tree = none) :
    exec (.fabricPacketArrive u pk) s = .next { s with dev := (s.dev.unboxed u pk m).fabReject u 3 2 m.pmask pk pk.tree } := by
  have htree' : pk.cls = 1 ∧ (s.dev.fabTree m u pk.tree).isNone = true := ⟨hcls, by rw [htree]; rfl⟩
  refine (show execFabricPacketArrive u pk s = _ from liftW_of_eq (w := []) ?_)
  simp only [hdone, hst, ne_eq, not_true_eq_false, false_and, if_false, hm, hcarried, Bool.not_true, Bool.false_eq_true, if_true,
    hvalid, hdst, hx, hsyn, if_pos htree']
  rfl

theorem exec_fabricPacketArrive_mgmt (hcls : pk.cls = 3) :
    exec (.fabricPacketArrive u pk) s = .next { s with dev := s.dev.unboxed u pk m } := by
  have htree : ¬ (pk.cls = 1 ∧ (s.dev.fabTree m u pk.tree).isNone = true) := by omega
  refine (show execFabricPacketArrive u pk s = _ from liftW_of_eq (w := []) ?_)
  simp only [hdone, hst, ne_eq, not_true_eq_false, false_and, if_false, hm, hcarried, Bool.not_true, Bool.false_eq_true, if_true,
    hvalid, hdst, hx, hsyn, if_neg htree, if_pos hcls]
  rfl

variable (hcls : pk.cls ≠ 3) (htree : pk.cls ≠ 1 ∨ s.dev.fabTree m u pk.tree ≠ none)
include hcls htree

theorem exec_fabricPacketArrive_asleep {j : Nat} (hj : x = .inl j) (hsleep : s.dev.atRetention j = true) :
    exec (.fabricPacketArrive u pk) s = .next s := by
  have htree' : ¬ (pk.cls = 1 ∧ (s.dev.fabTree m u pk.tree).isNone = true) := fun h =>
    htree.elim (fun hne => hne h.1) fun hne => hne (Option.isNone_iff_eq_none.mp h.2)
  subst hj
  refine (show execFabricPacketArrive u pk s = _ from liftW_of_eq (w := []) (d := s.dev) ?_)
  simp only [hdone, hst, ne_eq, not_true_eq_false, false_and, if_false, hm, hcarried, Bool.not_true, Bool.false_eq_true, if_true,
    hvalid, hdst, hx, hsyn, if_neg htree', if_neg hcls, hsleep]

theorem exec_fabricPacketArrive_accepted (hawake : ∀ j, x = .inl j → s.dev.atRetention j = false) {e : Dev} {w : List MemOp}
    (he : (s.dev.unboxed u pk m).accept m pk u x = (e, w)) :
    exec (.fabricPacketArrive u pk) s = .next { s with dev := e, mem := memAll s.mem w, cave := caveAll s.cave w } := by
  have htree' : ¬ (pk.cls = 1 ∧ (s.dev.fabTree m u pk.tree).isNone = true) := fun h =>
    htree.elim (fun hne => hne h.1) fun hne => hne (Option.isNone_iff_eq_none.mp h.2)
  refine (show execFabricPacketArrive u pk s = _ from liftW_of_eq ?_)
  simp only [hdone, hst, ne_eq, not_true_eq_false, false_and, if_false, hm, hcarried, Bool.not_true, Bool.false_eq_true, if_true,
    hvalid, hdst, hx, hsyn, if_neg htree', if_neg hcls]
  cases x with
  | inl j => exact (if_neg (by rw [hawake j rfl]; exact Bool.false_ne_true)).trans he
  | inr c => exact he

end Arrive

/-! ### Settling -/

/-- Settles O56: each outcome of taking and of arriving by its equation, with what the port, the drop counters and the receiving
object hold afterwards. -/
theorem fabricPackets : Obligations.FabricPackets := by
  unfold Obligations.FabricPackets
  refine fun u s => ⟨fun f r rest m k hq hm hk hcls => ⟨fun hdrops => ?_, fun hdrops hdest => ?_, fun hdrops x hdest => ?_⟩,
    fun pk hdone hst hoff => ?_⟩
  · exact ⟨_, exec_portUnitTake_muted hq hm hk hcls hdrops, rfl, lk_unitTook s.dev u rest, lk_up_same _ _ _ _⟩
  · obtain ⟨hports, hnet, hrec⟩ := unroutable_spec (s.dev.unitTook u rest) u f.src m [0xFFFF]
    exact ⟨_, exec_portUnitTake_lost hq hm hk hcls hdrops hdest, hports,
      (congrArg (fun n : Net => lk [] n.unitIn (u + 4)) hnet).trans (lk_unitTook s.dev u rest), hrec _ rfl⟩
  · have hexec := exec_portUnitTake_sent hq hm hk hcls hdrops hdest
    generalize hd : (s.dev.unitTook u rest).stampV m m.epoch = d at hexec
    obtain ⟨ps, o, hsent⟩ := enqueue_portsSent d u { f.packet k m (f.payload r) with dst := x }
    have hmould : d.mouldOf f.ptag = some { m with vlast := up m.vlast m.epoch s.dev.turn.now } := by
      rw [← hd]
      exact mouldOf_updMould_self (d := s.dev.unitTook u rest) hm fun _ => rfl
    refine ⟨_, _, hexec, rfl, ?_, (congrArg (fun e : Dev => e.mouldOf f.ptag) hsent).trans hmould, lk_up_same _ _ _ _, fun hst hoffers => ?_⟩
    · refine (congrArg (fun e : Dev => lk [] e.net.unitIn (u + 4)) hsent).trans ?_
      rw [← hd]
      exact lk_unitTook s.dev u rest
    · have hwaits := enqueue_waits (d := d) (u := u) { f.packet k m (f.payload r) with dst := x } (by rw [← hd]; exact hst)
        (by rw [← hd]; exact hoffers)
      rw [show d.port u = s.dev.port u by rw [← hd]; rfl] at hwaits
      exact hwaits
  · refine ⟨fun hm => ?_, fun m hm => ⟨fun hcarried => ?_, fun hcarried hvalid => ⟨fun hdst hboard v hv hvst hoffers => ?_, fun hdst => ⟨fun hx => ?_,
      fun x hx => ⟨fun hsyn => ?_, fun hsyn => ⟨fun hcls htree => ?_, fun hcls => ?_, fun n hcls htree hn hawake ho hcount => ?_,
        fun j h1 h3 hn hlen hj hcanon hue ho => ⟨fun hsleep => ?_, fun hawake hcount => ?_⟩⟩⟩⟩⟩⟩⟩
    · exact ⟨_, exec_fabricPacketArrive_unknown hdone hst hm, fabReject_spec (takeDone_tookDone s.dev u pk) hoff 0 (by decide) _ _ s _ rfl⟩
    · exact ⟨_, exec_fabricPacketArrive_notCarried hdone hst hm hcarried,
        fabReject_spec (unboxed_tookDone s.dev u pk m) hoff 0 (by decide) _ _ s _ rfl⟩
    · have htook := unboxed_tookDone s.dev u pk m
      have hne : v ≠ u.val := fun h => hvst (h ▸ hst)
      refine ⟨_, exec_fabricPacketArrive_relayed hdone hst hm hcarried hvalid hdst hboard hv, rfl, ?_⟩
      have hwaits := enqueue_waits (d := s.dev.unboxed u pk m) (u := v) { pk with total := 0, nfl := 0 } (by rw [htook.others v hne]; exact hvst)
        (by rw [htook.offers]; exact hoffers)
      rw [htook.others v hne] at hwaits
      exact hwaits
    · exact ⟨_, exec_fabricPacketArrive_noTarget hdone hst hm hcarried hvalid hdst hx,
        fabReject_spec (unboxed_tookDone s.dev u pk m) hoff 1 (by decide) _ _ s _ rfl⟩
    · exact ⟨_, exec_fabricPacketArrive_noObject hdone hst hm hcarried hvalid hdst hx hsyn,
        fabReject_spec (unboxed_tookDone s.dev u pk m) hoff 2 (by decide) _ _ s _ rfl⟩
    · exact ⟨_, exec_fabricPacketArrive_noTree hdone hst hm hcarried hvalid hdst hx hsyn hcls htree,
        fabReject_spec (unboxed_tookDone s.dev u pk m) hoff 3 (by decide) _ _ s _ rfl⟩
    · have htook := unboxed_tookDone s.dev u pk m
      exact ⟨_, exec_fabricPacketArrive_mgmt hdone hst hm hcarried hvalid hdst hx hsyn hcls, rfl, htook.cores, htook.done⟩
    · have hsynOf := synOf_of_cores (unboxed_tookDone s.dev u pk m).cores pk.syn
      obtain ⟨hw, hadded⟩ := accept_header m u x hn ho (d := s.dev.unboxed u pk m) (by rw [hsynOf]; exact hcount)
      refine ⟨_, exec_fabricPacketArrive_accepted hdone hst hm hcarried hvalid hdst hx hsyn hcls htree hawake rfl, congrArg (memAll s.mem) hw,
        hadded.trans (by rw [hsynOf]; rfl)⟩
    · exact exec_fabricPacketArrive_asleep hdone hst hm hcarried hvalid hdst hx hsyn h3 (.inl h1) hj hsleep
    · subst hj
      have htook := unboxed_tookDone s.dev u pk m
      have hsynOf := synOf_of_cores htook.cores pk.syn
      obtain ⟨hw, hadded⟩ := accept_bytes m u j hn h1 hlen (d := s.dev.unboxed u pk m) (by rw [htook.net]; exact hue) ho
        (by rw [hsynOf]; exact hcount)
      refine ⟨_, exec_fabricPacketArrive_accepted hdone hst hm hcarried hvalid hdst hx hsyn h3 (.inl h1) ?_ rfl, ?_,
        hadded.trans (by rw [hsynOf]; rfl)⟩
      · rintro i h
        rw [← Sum.inl.inj h]
        exact hawake
      · exact written_of_wrBytes hcanon.1 (congrArg (memAll s.mem) hw)

end Sys2Proof.Machine

/-! ## Weight loads -/

namespace Sys2Proof.Machine

/-! ### Moulds whose weight load goes on -/

/-- The Mould k is as r, but for the ticks of its packets and for its serving state: what messages and the end of its requests leave. -/
def Mould.AsLoaded (k r : Mould) : Prop := k = { r with vlast := k.vlast, serve := k.serve }

theorem Mould.AsLoaded.refl (m : Mould) : m.AsLoaded m := rfl

theorem Mould.AsLoaded.trans {k j r : Mould} (h : k.AsLoaded j) (g : j.AsLoaded r) : k.AsLoaded r :=
  Eq.trans h (congrArg (fun x : Mould => { x with vlast := k.vlast, serve := k.serve }) g)

theorem Mould.AsSent.asLoaded {k m : Mould} (h : k.AsSent m) : k.AsLoaded m :=
  Eq.trans h (congrArg (fun x => { m with vlast := k.vlast, serve := x }) (congrArg Mould.serve h).symm)

theorem Mould.AsLoaded.names {k r : Mould} (h : k.AsLoaded r) : k.names = r.names := (congrArg Mould.names h).trans rfl

theorem Mould.AsLoaded.withLoad {k r : Mould} (h : k.AsLoaded r) (o : Option WLoad) :
    ({ k with wload := o } : Mould).AsLoaded { r with wload := o } :=
  Eq.trans (congrArg (fun x : Mould => ({ x with wload := o } : Mould)) h) rfl

/-- Each Mould is as it was, but for the ticks of its packets and its serving state. -/
def MouldsAsLoaded (ms ks : List Mould) : Prop := List.Forall₂ (fun m k => k.AsLoaded m) ms ks

theorem MouldsAsLoaded.refl (ms : List Mould) : MouldsAsLoaded ms ms := List.forall₂_same.mpr fun m _ => .refl m

theorem MouldsAsLoaded.trans {ms ks js : List Mould} (h : MouldsAsLoaded ms ks) (g : MouldsAsLoaded ks js) : MouldsAsLoaded ms js := by
  induction h generalizing js with
  | nil => exact g
  | cons hm _ ih =>
    cases g with
    | cons hk hr => exact .cons (hk.trans hm) (ih hr)

/-- A Mould that is found by its names is found again. -/
theorem MouldsAsLoaded.found {ms ks : List Mould} (h : MouldsAsLoaded ms ks) (P : Nat × Nat → Bool) {m : Mould}
    (hm : ms.find? (P ∘ Mould.names) = some m) : ∃ k, ks.find? (P ∘ Mould.names) = some k ∧ k.AsLoaded m := by
  induction h with
  | nil => exact absurd hm nofun
  | @cons a b l l' hab _ ih =>
    have hP : (P ∘ Mould.names) b = (P ∘ Mould.names) a := congrArg P hab.names
    cases ha : (P ∘ Mould.names) a with
    | true =>
      rw [List.find?_cons_of_pos ha] at hm
      cases hm
      exact ⟨b, List.find?_cons_of_pos (hP.trans ha), hab⟩
    | false =>
      rw [List.find?_cons_of_neg (by rw [ha]; exact Bool.false_ne_true)] at hm
      obtain ⟨k, hk, hkm⟩ := ih hm
      exact ⟨k, by rw [List.find?_cons_of_neg (by rw [hP, ha]; exact Bool.false_ne_true)]; exact hk, hkm⟩

/-- The Moulds go on as they are loaded, and the time is the same. -/
structure Dev.LoadsStand (d e : Dev) : Prop where
  moulds : MouldsAsLoaded d.moulds e.moulds
  turn : e.turn = d.turn

theorem Dev.LoadsStand.refl (d : Dev) : d.LoadsStand d := ⟨.refl _, rfl⟩

theorem Dev.LoadsStand.trans {d e g : Dev} (h : d.LoadsStand e) (k : e.LoadsStand g) : d.LoadsStand g :=
  ⟨h.moulds.trans k.moulds, k.turn.trans h.turn⟩

theorem loadsStand_of_eq {d e : Dev} (hmoulds : e.moulds = d.moulds) (hturn : e.turn = d.turn) : d.LoadsStand e := ⟨hmoulds ▸ .refl _, hturn⟩

theorem Dev.HostsTold.loadsStand {d e : Dev} : d.HostsTold e → d.LoadsStand e := by
  rintro ⟨_, _, rfl⟩; exact loadsStand_of_eq rfl rfl

theorem Dev.MessagesSent.loadsStand {d e : Dev} (h : d.MessagesSent e) : d.LoadsStand e := by
  obtain ⟨⟨ms, ps, mo, fr, o, rfl⟩, hms⟩ := h
  exact ⟨hms.imp fun _ _ => Mould.AsSent.asLoaded, rfl⟩

theorem updMould_loadsStand (d : Dev) (pm : Nat) {f : Mould → Mould} (hf : ∀ m, (f m).AsLoaded m) : d.LoadsStand (d.updMould pm f) := by
  refine ⟨List.forall₂_map_right_iff.mpr (List.forall₂_same.mpr fun m _ => ?_), rfl⟩
  split
  · exact hf m
  · exact .refl m

theorem foldl_loadsStand {α : Type} {f : Dev → α → Dev} (hf : ∀ (d : Dev) x, d.LoadsStand (f d x)) (l : List α) (d : Dev) :
    d.LoadsStand (l.foldl f d) :=
  List.foldlRecOn (motive := d.LoadsStand) _ _ (.refl d) fun e he x _ => he.trans (hf e x)

/-- Requests that end when a partition stops take nothing from its weight load (R328). -/
theorem failRequests_loadsStand (d : Dev) (p : Nat) : d.LoadsStand (d.failRequests p) := by
  unfold Dev.failRequests
  split
  · exact .refl d
  · split
    · exact .refl d
    next sv _ =>
      extract_lets st d1 d2
      have h1 : d.LoadsStand d1 := foldl_loadsStand (fun e f => foldl_loadsStand (fun e c => by
        split
        · refine .trans ?_ (ring_hostsTold _ _ _ _).loadsStand
          exact loadsStand_of_eq rfl rfl
        · exact .refl e) _ e) _ d
      have h2 : d1.LoadsStand d2 := updMould_loadsStand d1 _ fun _ => rfl
      have h3 := foldl_loadsStand (fun e w => (noSample_hostsTold e w).loadsStand) sv.waiting d2
      exact ((h1.trans h2).trans h3).trans (completeOpt_hostsTold _ _ _ _).loadsStand

theorem stopPart_loadsStand (d : Dev) (p : Nat) : d.LoadsStand (d.stopPart p) := by
  refine .trans ?_ (failRequests_loadsStand _ p)
  exact loadsStand_of_eq rfl rfl

theorem irqs_loadsStand (d : Dev) (cls pm : Nat) : d.LoadsStand (d.irqs cls pm) := by
  obtain ⟨es, fs, o, he, -, -⟩ := irqs_spec d cls pm
  rw [he]
  exact loadsStand_of_eq rfl rfl

theorem raise_loadsStand {d : Dev} {e : Err} (h : e.cls ≠ 3) : d.LoadsStand (d.raise e) := by
  unfold Dev.raise
  extract_lets r d1
  have h1 : d.LoadsStand d1 := loadsStand_of_eq rfl rfl
  split
  · refine h1.trans (.trans ?_ (irqs_loadsStand _ _ _))
    exact loadsStand_of_eq rfl rfl
  · exact (h1.trans (foldl_loadsStand stopPart_loadsStand (partsOf e.pmask) d1)).trans (irqs_loadsStand _ _ _)
  · exact absurd ‹_› h
  · exact h1.trans (irqs_loadsStand _ _ _)

theorem eccCe_loadsStand (d : Dev) (w reader : Nat) : d.LoadsStand (d.eccCe w reader) := by
  unfold Dev.eccCe
  extract_lets u k d1 net d2 p
  have h2 : d.LoadsStand d2 := loadsStand_of_eq rfl rfl
  exact h2.trans (raise_loadsStand (show 0 ≠ 3 by decide))

theorem eccUe_loadsStand (d : Dev) (w reader : Nat) : d.LoadsStand (d.eccUe w reader) := by
  unfold Dev.eccUe
  extract_lets u p net d1
  have h1 : d.LoadsStand d1 := loadsStand_of_eq rfl rfl
  exact h1.trans (raise_loadsStand (show 2 ≠ 3 by decide))

theorem eccRead_loadsStand (d : Dev) (ws : List Nat) (reader : Nat) (ce : List Nat) (ue : List (Nat × BitVec 64)) :
    d.LoadsStand (d.eccRead ws reader ce ue) :=
  foldl_loadsStand (fun e w => by
    split
    · exact eccUe_loadsStand e w reader
    · split
      · exact eccCe_loadsStand e w reader
      · exact .refl e) _ d

theorem eccWrite_loadsStand (d : Dev) (bs : List MByte) (writer : Nat) : d.LoadsStand (d.eccWrite bs writer) :=
  foldl_loadsStand (fun e w => by
    extract_lets net e1
    have h1 : e.LoadsStand e1 := by
      unfold e1; split
      · exact loadsStand_of_eq rfl rfl
      · exact .refl e
    clear_value e1
    split
    · exact h1
    · split
      · exact h1.trans (loadsStand_of_eq rfl rfl)
      · exact h1.trans (eccUe_loadsStand e1 _ writer)) _ d

theorem winTouch_loadsStand (d : Dev) (a n : Nat) (write : Bool) : d.LoadsStand (d.winTouch a n write) := by
  unfold Dev.winTouch
  split
  · exact .refl d
  · refine foldl_loadsStand (fun e i => ?_) _ d
    dsimp only
    split
    · split
      · exact .refl e
      · exact loadsStand_of_eq rfl rfl
    · split
      · exact loadsStand_of_eq rfl rfl
      · exact .refl e

theorem winStore_loadsStand (d : Dev) (a : Nat) (bs : List Byte) : d.LoadsStand (d.winStore a bs).1 :=
  (winTouch_loadsStand _ _ _ _).trans (eccWrite_loadsStand _ _ _)

theorem winRead_loadsStand (d : Dev) (m : Memory) (a n : Nat) : d.LoadsStand (d.winRead m a n).1 :=
  have hfree : d.LoadsStand { d with free := if d.winLost a then d.free + n else d.free } := loadsStand_of_eq rfl rfl
  (hfree.trans (winTouch_loadsStand _ _ _ _)).trans (eccRead_loadsStand _ _ _ _ _)

/-! ### What goes out while a load runs -/

/-- The time blocks and the records are as before, and what left the device left it. -/
structure Dev.Said (d e : Dev) : Prop where
  parts : e.parts = d.parts
  ring : e.errs.ring = d.errs.ring
  out : d.out ⊆ e.out

theorem Dev.Said.refl (d : Dev) : d.Said d := ⟨rfl, rfl, fun _ h => h⟩

theorem Dev.Said.trans {d e g : Dev} (h : d.Said e) (k : e.Said g) : d.Said g :=
  ⟨k.parts.trans h.parts, k.ring.trans h.ring, fun _ ho => k.out (h.out ho)⟩

theorem updMould_said (d : Dev) (pm : Nat) (f : Mould → Mould) : d.Said (d.updMould pm f) := ⟨rfl, rfl, fun _ h => h⟩

theorem Dev.MessagesTold.said {d e : Dev} (h : d.MessagesTold e) : d.Said e := by
  obtain ⟨⟨⟨ms, ps, mo, fr, o, rfl⟩, -⟩, hout⟩ := h
  exact ⟨rfl, rfl, hout⟩

theorem completeOpt_said (d : Dev) (r : Option (Nat × Nat)) (status result : Nat) : d.Said (d.completeOpt r status result) := by
  have hout : d.out ⊆ (d.completeOpt r status result).out := by
    cases r with
    | none => exact fun _ h => h
    | some x => exact complete_out d _ _ _ _
  obtain ⟨fs, o, h⟩ := completeOpt_hostsTold d r status result
  rw [h] at hout ⊢
  exact ⟨rfl, rfl, hout⟩

theorem Dev.Said.part {d e : Dev} (h : d.Said e) (q : Nat) : e.part q = d.part q := congrArg (lk PartTime.reset · q) h.parts

theorem Dev.Said.recorded {t t' : State} (h : t.dev.Said t'.dev) {code core : Nat} {detail : List Nat} :
    Recorded t code core detail → Recorded t' code core detail := by
  rintro ⟨r, hr, hrest⟩
  exact ⟨r, h.ring ▸ hr, hrest⟩

/-- Bytes of a message of class LOAD went out. -/
theorem transfer_told (d : Dev) (fpid epoch self u dst cls : Nat) (bs : List Byte) : d.MessagesTold (d.transfer fpid epoch self u dst cls bs) :=
  ⟨transfer_messagesSent _ _ _ _ _ _ _ _, transfer_out _ _ _ _ _ _ _ _⟩

theorem stampV_told (d : Dev) (m : Mould) (v : Nat) : d.MessagesTold (d.stampV m v) := ⟨stampV_messagesSent d m v, fun _ h => h⟩

theorem emit_told (d : Dev) (o : Out) : d.MessagesTold (d.emit o) := ⟨emit_messagesSent d o, fun _ h => List.mem_cons_of_mem _ h⟩

theorem sendBytes_told (d : Dev) (fpid dst : Nat) (bs : List Byte) : d.MessagesTold (d.sendBytes fpid dst bs) := by
  unfold Dev.sendBytes
  split
  · exact .refl d
  · exact (stampV_told _ _ _).trans (transfer_told _ _ _ _ _ _ _ _)

theorem passBytes_told (d : Dev) (m : Mould) (bs : List Byte) : d.MessagesTold (d.passBytes m bs) := by
  unfold Dev.passBytes
  split
  · exact ((stampV_told _ _ _).trans (transfer_told _ _ _ _ _ _ _ _)).trans (emit_told _ _)
  · exact .refl d

theorem relay_told (d : Dev) (fpid dst mtype : Nat) (h : MHdr) (arg : Nat) : d.MessagesTold (d.relay fpid dst mtype h arg) := by
  unfold Dev.relay
  refine .trans ?_ (emit_told _ _)
  split
  · exact .refl d
  · exact (stampV_told _ _ _).trans (transfer_told _ _ _ _ _ _ _ _)

theorem relay_message (d : Dev) (fpid dst mtype : Nat) (h : MHdr) (arg : Nat) :
    .mgmt dst mtype fpid h.seq arg false ∈ (d.relay fpid dst mtype h arg).out := List.mem_cons_self ..

/-! ### A Mould and its weight load, found by PMASK and by another name -/

/-- A search by names and the one by PMASK both find the Mould r, but for the ticks of its packets and its serving state. -/
structure Dev.Shows (found : Dev → Option Mould) (d : Dev) (r : Mould) : Prop where
  found : ∃ k, found d = some k ∧ k.AsLoaded r
  held : ∃ k, Held d k ∧ k.AsLoaded r

section Shows
variable {found : Dev → Option Mould} (hfound : ByNames found)

theorem shows_of_held {d : Dev} {m : Mould} (hm : found d = some m) (hh : Held d m) : d.Shows found m := ⟨⟨m, hm, .refl m⟩, ⟨m, hh, .refl m⟩⟩

theorem byNames_pmask (pm : Nat) : ByNames (fun d => d.moulds.find? (fun x => x.pmask == pm)) := ⟨fun n => n.1 == pm, fun _ => rfl⟩

theorem Dev.Shows.pmask {d : Dev} {r : Mould} (h : d.Shows found r) : ∃ k, d.moulds.find? (fun x => x.pmask == r.pmask) = some k ∧ k.AsLoaded r := by
  obtain ⟨k, hk, hkr⟩ := h.held
  have hpm : k.pmask = r.pmask := congrArg Prod.fst hkr.names
  exact ⟨k, hpm ▸ hk, hkr⟩

/-- The weight load of the Mould that is found by its PMASK. -/
theorem Dev.Shows.wl {d : Dev} {r : Mould} (h : d.Shows found r) {w : WLoad} (hw : r.wload = some w) :
    ∃ k, d.wl r.pmask = some (k, w) ∧ k.AsLoaded r := by
  obtain ⟨k, hk, hkr⟩ := h.pmask
  have hkw : k.wload = some w := (congrArg Mould.wload hkr).trans hw
  exact ⟨k, by rw [Dev.wl, hk, Option.bind_some, hkw]; rfl, hkr⟩

include hfound

theorem Dev.Shows.stand {d e : Dev} {r : Mould} (h : d.Shows found r) (hs : d.LoadsStand e) : e.Shows found r := by
  have again {g : Dev → Option Mould} (hg : ByNames g) (hd : ∃ k, g d = some k ∧ k.AsLoaded r) : ∃ k, g e = some k ∧ k.AsLoaded r := by
    obtain ⟨P, hP⟩ := hg
    obtain ⟨k, hk, hkr⟩ := hd
    rw [hP] at hk ⊢
    obtain ⟨j, hj, hjk⟩ := hs.moulds.found P hk
    exact ⟨j, hj, hjk.trans hkr⟩
  refine ⟨again hfound h.found, ?_⟩
  obtain ⟨k, hk, hkr⟩ := again (byNames_pmask r.pmask) h.pmask
  have hpm : k.pmask = r.pmask := congrArg Prod.fst hkr.names
  exact ⟨k, by rw [Held, hpm]; exact hk, hkr⟩

/-- A change of the Mould with this PMASK that keeps its names shows where it is found. -/
theorem Dev.Shows.updMould {d : Dev} {r r' : Mould} (h : d.Shows found r) {g : Mould → Mould} (hg : ∀ k, (g k).names = k.names)
    (hr : ∀ k, k.AsLoaded r → (g k).AsLoaded r') : (d.updMould r.pmask g).Shows found r' := by
  obtain ⟨⟨k, hk, hkr⟩, j, hj, hjr⟩ := h
  have hkpm : k.pmask = r.pmask := congrArg Prod.fst hkr.names
  have hjpm : j.pmask = r.pmask := congrArg Prod.fst hjr.names
  refine ⟨⟨g k, hkpm ▸ hfound.updMould hk hg, hr k hkr⟩, g j, ?_, hr j hjr⟩
  have hheld := (byNames_pmask j.pmask).updMould hj hg
  rw [hjpm] at hheld
  rw [Held, show (g j).pmask = r.pmask from (congrArg Prod.fst (hg j)).trans hjpm]
  exact hheld

theorem Dev.Shows.setWl {d : Dev} {r : Mould} (h : d.Shows found r) (w : WLoad) : (d.setWl r.pmask w).Shows found { r with wload := some w } :=
  h.updMould hfound (fun _ => rfl) fun _ hk => hk.withLoad _

/-- The change of a weight load where it is found. -/
theorem Dev.Shows.mapWl {d : Dev} {r : Mould} (h : d.Shows found r) {w : WLoad} (hw : r.wload = some w) (f : WLoad → WLoad) :
    (d.updMould r.pmask (fun m => { m with wload := m.wload.map f })).Shows found { r with wload := some (f w) } := by
  refine h.updMould hfound (fun _ => rfl) fun k hk => ?_
  have hkw : k.wload.map f = some (f w) := by rw [show k.wload = some w from (congrArg Mould.wload hk).trans hw]; rfl
  rw [hkw]
  exact hk.withLoad _

end Shows

theorem asLoaded_iff {k r : Mould} : k.AsLoaded r ↔ ∃ v sv, k = { r with vlast := v, serve := sv } :=
  ⟨fun h => ⟨_, _, h⟩, by rintro ⟨v, sv, rfl⟩; exact rfl⟩

/-! ### The end of a load (R298) -/

/-- A weight load that has failed: the first status stays. -/
def WLoad.failed (w : WLoad) (status : Nat) : WLoad :=
  { w with state := 5, status := if w.state = 5 then w.status else status, req := none, waits := false }

/-- A weight load whose image is committed. -/
def WLoad.committed (w : WLoad) : WLoad := { w with state := 4, status := wtOk, req := none }

/-- The loads z and w are of the same image. -/
structure WLoad.SameImage (z w : WLoad) : Prop where
  shards : z.shards = w.shards
  mani : z.mani = w.mani
  vslot : z.vslot = w.vslot

section Loads
variable {found : Dev → Option Mould} (hfound : ByNames found) {d : Dev} {r : Mould} (hr : d.Shows found r) {w : WLoad} (hw : r.wload = some w)
include hfound hr hw

theorem failLocal_shows (status : Nat) : (d.failLocal r.pmask status).Shows found { r with wload := some (w.failed status) } ∧
    d.Said (d.failLocal r.pmask status) := by
  obtain ⟨k, hk, -⟩ := hr.wl hw
  rw [Dev.failLocal, hk]
  refine ⟨(hr.setWl hfound (w.failed status)).stand hfound (updMould_loadsStand _ _ fun m => rfl), ⟨rfl, rfl, fun _ h => h⟩⟩

/-- Member 0 tells the others that the load is abandoned. -/
theorem abandonWeights_shows (status : Nat) : (d.abandonWeights r.pmask status).Shows found { r with wload := some (w.failed status) } ∧
    d.Said (d.abandonWeights r.pmask status) ∧ ∀ t : State, t.dev = d.abandonWeights r.pmask status → ToldAll t r 10 1 := by
  obtain ⟨k, hk, hkr⟩ := hr.wl hw
  have hall := sendAll_told d k 10 1
  obtain ⟨hshows, hsaid⟩ := failLocal_shows hfound (hr.stand hfound hall.sent.loadsStand) hw status
  have hsaid' := hsaid.trans (completeOpt_said _ w.req (stWeight status) 0)
  rw [Dev.abandonWeights, hk]
  refine ⟨hshows.stand hfound (completeOpt_hostsTold _ _ _ _).loadsStand, hall.said.trans hsaid', fun t ht i hi hself => ?_⟩
  have htold : ToldAll { t with dev := d.sendAll k 10 1 } k 10 1 := sendAll_tellsAll rfl
  obtain ⟨v, sv, rfl⟩ := asLoaded_iff.mp hkr
  obtain ⟨n, hn⟩ := htold i hi hself
  exact ⟨n, ht ▸ hsaid'.out hn⟩

theorem weightFails_shows (status arg : Nat) : (d.weightFails r.pmask status arg).Shows found { r with wload := some (w.failed status) } ∧
    d.Said (d.weightFails r.pmask status arg) := by
  obtain ⟨k, hk, -⟩ := hr.wl hw
  rw [Dev.weightFails, hk]
  dsimp only
  split
  · obtain ⟨hshows, hsaid, -⟩ := abandonWeights_shows hfound hr hw status
    exact ⟨hshows, hsaid⟩
  · obtain ⟨hshows, hsaid⟩ := failLocal_shows hfound hr hw status
    have htold := sendMgmt_told (d.failLocal r.pmask status) k.fpid 0 9 arg
    exact ⟨hshows.stand hfound htold.sent.loadsStand, hsaid.trans htold.said⟩

/-! ### A commit -/

/-- The Mould whose partitions use an image that is committed. -/
def Mould.using (m : Mould) (w : WLoad) : Mould :=
  if w.kind = 1 then
    { m with coming := m.coming.filter (fun x => x.slot ≠ w.vslot) ++ [⟨w.variant, w.vslot, w.digest, w.keydig⟩],
             newVers := m.newVers ++ [(w.variant, w.vslot)] }
  else { m with base := w.digest, baseKey := w.keydig }

omit hfound hr hw in
theorem using_names (m : Mould) (w : WLoad) : (m.using w).names = m.names := by unfold Mould.using; split <;> rfl

omit hfound hr hw in
theorem using_asLoaded (w : WLoad) {k r : Mould} (h : k.AsLoaded r) : (k.using w).AsLoaded (r.using w) := by
  obtain ⟨v, sv, rfl⟩ := asLoaded_iff.mp h
  unfold Mould.using
  split
  · exact rfl
  · exact rfl

omit hfound hr hw in
theorem using_wload (m : Mould) (w : WLoad) : (m.using w).wload = m.wload ∧ (m.using w).images = m.images ∧
    (w.kind = 0 → (m.using w).base = w.digest) := by
  unfold Mould.using
  split
  next h => exact ⟨rfl, rfl, fun h0 => absurd (h.symm.trans h0) (by decide)⟩
  · exact ⟨rfl, rfl, fun _ => rfl⟩

/-- The device that has committed a weight image, before a BASE image takes it to READY. -/
def Dev.imageKept (d : Dev) (pm : Nat) (w : WLoad) : Dev :=
  (((d.setWl pm w.committed).updMould pm (fun m => { m with images := m.images ++ [w.committed] })).updMould pm (fun m => m.using w)).completeOpt
    w.req (stWeight wtOk) 0

omit hw in
theorem imageKept_shows (w : WLoad) : (d.imageKept r.pmask w).Shows found
    (({ r with wload := some w.committed, images := r.images ++ [w.committed] } : Mould).using w) := by
  have h1 := hr.setWl hfound w.committed
  have h2 := h1.updMould hfound (g := fun m => { m with images := m.images ++ [w.committed] })
    (r' := { r with wload := some w.committed, images := r.images ++ [w.committed] }) (fun _ => rfl) fun k hk => by
      obtain ⟨v, sv, rfl⟩ := asLoaded_iff.mp hk
      exact rfl
  have h3 := h2.updMould hfound (g := fun m => m.using w) (fun k => using_names k w) fun _ hk => using_asLoaded w hk
  exact h3.stand hfound (completeOpt_hostsTold _ _ _ _).loadsStand

omit hfound hr hw in
theorem imageKept_said (d : Dev) (pm : Nat) (w : WLoad) : d.Said (d.imageKept pm w) := by
  refine .trans ?_ (completeOpt_said _ w.req (stWeight wtOk) 0)
  exact ⟨rfl, rfl, fun _ h => h⟩

/-- The partition goes to READY, its cores as the load left them. -/
def Dev.madeReady (d : Dev) (pm : Nat) (m : Mould) : Dev :=
  (((partsOf pm).foldl (fun d p => d.updPart p (fun t => { t with st := .idle, dead := false, dlHalt := none }))
    ((d.updMould pm (fun m => { m with phase := 5, req := none })).coresToStart m)).setLoad pm 0xFFFF 0xFF ldOk 5).completeOpt m.req (stLoad ldOk) 0

omit hw in
theorem madeReady_shows (m : Mould) : (d.madeReady r.pmask m).Shows found { r with phase := 5, req := none } ∧ d.out ⊆ (d.madeReady r.pmask m).out ∧
    ∀ q ∈ partsOf r.pmask, ((d.madeReady r.pmask m).part q).load = loadReg 0xFFFF 0xFF 1 5 := by
  have h1 := hr.updMould hfound (g := fun m => { m with phase := 5, req := none }) (r' := { r with phase := 5, req := none }) (fun _ => rfl)
    fun k hk => by
      obtain ⟨v, sv, rfl⟩ := asLoaded_iff.mp hk
      exact rfl
  have h2 : ((d.updMould r.pmask (fun m => { m with phase := 5, req := none })).coresToStart m).Shows found { r with phase := 5, req := none } :=
    h1.stand hfound (loadsStand_of_eq rfl rfl)
  have hout : ((d.updMould r.pmask (fun m => { m with phase := 5, req := none })).coresToStart m).out = d.out := rfl
  unfold Dev.madeReady
  generalize (d.updMould r.pmask (fun m => { m with phase := 5, req := none })).coresToStart m = e at h2 hout ⊢
  obtain ⟨ps, hidle⟩ := foldl_updPart_eq (fun _ t => { t with st := .idle, dead := false, dlHalt := none }) (partsOf r.pmask) e
  rw [hidle]
  have hload (q : Nat) (hq : q ∈ partsOf r.pmask) := load_setLoad { e with parts := ps } hq 0xFFFF 0xFF ldOk 5
  obtain ⟨ps', hset⟩ := setLoad_eq { e with parts := ps } r.pmask 0xFFFF 0xFF ldOk 5
  rw [hset] at hload ⊢
  have hsaid := completeOpt_said { e with parts := ps' } m.req (stLoad ldOk) 0
  have h3 := h2.stand hfound (show e.LoadsStand { ({ e with parts := ps } : Dev) with parts := ps' } from loadsStand_of_eq rfl rfl)
  refine ⟨h3.stand hfound (completeOpt_hostsTold _ _ _ _).loadsStand, ?_, fun q hq => ?_⟩
  · rw [← hout]
    exact hsaid.out
  · rw [hsaid.part]
    exact hload q hq

/-- What a commit leaves: the load has its status, and a BASE image takes the partition to READY. -/
theorem commitLocal_shows : ∃ r', (d.commitLocal r.pmask).Shows found r' ∧ r'.wload = some w.committed ∧
    r'.images = r.images ++ [w.committed] ∧ d.out ⊆ (d.commitLocal r.pmask).out ∧ (w.kind = 0 → r'.base = w.digest ∧ (r.phase = 4 → r'.phase = 5 ∧
      ∀ q ∈ partsOf r.pmask, ((d.commitLocal r.pmask).part q).load = loadReg 0xFFFF 0xFF 1 5)) := by
  obtain ⟨k, hk, hkr⟩ := hr.wl hw
  have hkept := imageKept_shows hfound hr w
  have hsaid := imageKept_said d r.pmask w
  generalize hr1 : ({ r with wload := some w.committed, images := r.images ++ [w.committed] } : Mould).using w = r1 at hkept
  have hpm : r1.pmask = r.pmask := by rw [← hr1]; exact congrArg Prod.fst (using_names _ w)
  obtain ⟨hwload, himages, hbase⟩ := using_wload { r with wload := some w.committed, images := r.images ++ [w.committed] } w
  rw [hr1] at hwload himages hbase
  have hcommit : d.commitLocal r.pmask = if w.kind = 1 ∨ k.phase ≠ 4 then d.imageKept r.pmask w else (d.imageKept r.pmask w).madeReady r.pmask k := by
    rw [Dev.commitLocal, hk]
    rfl
  have hphase : k.phase = r.phase := by
    obtain ⟨v, sv, rfl⟩ := asLoaded_iff.mp hkr
    rfl
  rw [hcommit, hphase]
  split
  next hstays =>
    exact ⟨r1, hkept, hwload, himages, hsaid.out, fun h0 => ⟨hbase h0, fun h4 => absurd h4 (hstays.resolve_left (by omega))⟩⟩
  next hready =>
    obtain ⟨hshows, hout, hload⟩ := madeReady_shows hfound hkept k
    rw [hpm] at hshows hout hload
    exact ⟨_, hshows, hwload, himages, fun _ ho => hout (hsaid.out ho), fun h0 => ⟨hbase h0, fun _ => ⟨rfl, hload⟩⟩⟩

/-! ### WEIGHTS_OK (R298) -/

/-- The members that have reported WEIGHTS_OK, with member i. -/
def WLoad.okFrom (w : WLoad) (i : Nat) : WLoad := { w with oks := if w.oks.contains i then w.oks else i :: w.oks }

theorem okIn_waits {i : Nat} (h : ¬ (w.state = 3 ∧ ∀ j, j < r.devices → j ∈ (w.okFrom i).oks)) :
    (d.okIn r.pmask i).Shows found { r with wload := some (w.okFrom i) } := by
  obtain ⟨k, hk, hkr⟩ := hr.wl hw
  have hok : d.okIn r.pmask i = d.setWl r.pmask (w.okFrom i) := by
    obtain ⟨v, sv, rfl⟩ := asLoaded_iff.mp hkr
    rw [Dev.okIn, hk]
    refine if_neg fun hall => h ?_
    obtain ⟨hst, hall⟩ := Bool.and_eq_true_iff.mp hall
    refine ⟨of_decide_eq_true hst, fun j hj => ?_⟩
    exact List.contains_iff_mem.mp (List.all_eq_true.mp hall j (List.mem_range.mpr hj))
  rw [hok]
  exact hr.setWl hfound _

/-- With WEIGHTS_OK of all members, member 0 passes COMMIT on and commits. -/
theorem okIn_commits {i : Nat} (hst : w.state = 3) (hall : ∀ j, j < r.devices → j ∈ (w.okFrom i).oks) :
    ∃ e : Dev, d.okIn r.pmask i = e.commitLocal r.pmask ∧ e.Shows found { r with wload := some (w.okFrom i) } ∧
      ∀ j, r.nextMember = some j → ∃ n, .mgmt j 10 r.fpid n 0 false ∈ e.out := by
  obtain ⟨k, hk, hkr⟩ := hr.wl hw
  obtain ⟨v, sv, rfl⟩ := asLoaded_iff.mp hkr
  refine ⟨(d.setWl r.pmask (w.okFrom i)).passOn { r with vlast := v, serve := sv } 10 0, ?_, ?_, fun j hj => ?_⟩
  · rw [Dev.okIn, hk]
    refine if_pos (Bool.and_eq_true_iff.mpr ⟨decide_eq_true hst, List.all_eq_true.mpr fun j hj => ?_⟩)
    exact List.contains_iff_mem.mpr (hall j (List.mem_range.mp hj))
  · exact (hr.setWl hfound (w.okFrom i)).stand hfound (passOn_told _ _ _ _).sent.loadsStand
  · rw [Dev.passOn, show Mould.nextMember { r with vlast := v, serve := sv } = some j from hj]
    exact sendMgmt_message _ _ _ _ _

theorem okIn_sameImage (i : Nat) : ∃ r' z, (d.okIn r.pmask i).Shows found r' ∧ r'.wload = some z ∧ z.SameImage w := by
  by_cases h : w.state = 3 ∧ ∀ j, j < r.devices → j ∈ (w.okFrom i).oks
  · obtain ⟨e, he, hshows, -⟩ := okIn_commits hfound hr hw h.1 h.2
    obtain ⟨r', hr', hz, -⟩ := commitLocal_shows hfound hshows (w := w.okFrom i) rfl
    exact ⟨r', _, he ▸ hr', hz, rfl, rfl, rfl⟩
  · exact ⟨_, _, okIn_waits hfound hr hw h, rfl, rfl, rfl, rfl⟩

theorem verifyDone_sameImage : ∃ r' z, (d.verifyDone r.pmask).Shows found r' ∧ r'.wload = some z ∧ z.SameImage w := by
  obtain ⟨k, hk, hkr⟩ := hr.wl hw
  have hdone := hr.setWl hfound { w with state := 3 }
  rw [Dev.verifyDone, hk]
  dsimp only
  split
  · exact ⟨r, w, hr, hw, rfl, rfl, rfl⟩
  · split
    · obtain ⟨r', z, hr', hz, hsame⟩ := okIn_sameImage hfound hdone (w := { w with state := 3 }) rfl 0
      exact ⟨r', z, hr', hz, hsame.shards, hsame.mani, hsame.vslot⟩
    · have hsent := hdone.stand hfound (sendMgmt_told (d.setWl r.pmask { w with state := 3 }) k.fpid 0 8 0).sent.loadsStand
      split
      · obtain ⟨r', hr', hz, -⟩ := commitLocal_shows hfound hsent (w := { w with state := 3 }) rfl
        exact ⟨r', _, hr', hz, rfl, rfl, rfl⟩
      · exact ⟨_, _, hsent, rfl, rfl, rfl, rfl⟩

omit hfound in
/-- A load whose keys are not there yet waits. -/
theorem verifyDone_waits (hwaits : w.waits = true) : d.verifyDone r.pmask = d := by
  obtain ⟨k, hk, -⟩ := hr.wl hw
  rw [Dev.verifyDone, hk]
  exact if_pos (by rw [hwaits, Bool.or_true]; rfl)

/-! ### The repair ladder (R297) -/

omit hfound hr hw in
theorem shard_id {id : Nat} {x : Shard} (hx : w.shard id = some x) : x.id = id := eq_of_beq (List.find?_some (p := fun y : Shard => y.id == id) hx)

omit hfound hr hw in
theorem shard_setShard {x y : Shard} (hx : w.shard x.id = some x) (hy : y.id = x.id) : (w.setShard y).shard x.id = some y := by
  have hmap : ((fun z : Shard => z.id == x.id) ∘ fun z => if z.id = y.id then y else z) = fun z => z.id == x.id := by
    funext z
    rw [Function.comp_apply]
    split
    next h => rw [h]
    · rfl
  rw [WLoad.shard, WLoad.setShard, List.find?_map, hmap, show w.shards.find? (fun z => z.id == x.id) = some x from hx]
  exact congrArg some (if_pos hy.symm)

/-- The shard as it is asked for again. -/
def Shard.again (x : Shard) (now : Nat) : Shard := { x with attempt := x.attempt + 1, since := now, arrived := false }

/-- The load once a shard is asked for again. -/
def WLoad.repairing (w : WLoad) (x : Shard) (now : Nat) : WLoad := { w.setShard (x.again now) with state := 2, repairs := satAdd w.repairs 1 }

/-- The error of a shard that has failed. -/
def Shard.err (x : Shard) (pm fpid code : Nat) : Err :=
  { code := code, cls := if decide (5 ≤ x.attempt) then 2 else 0, source := 17, core := 0xFFFF, pmask := pm, fpid := fpid,
    detail := [x.id, x.attempt] }

omit hfound hr hw in
theorem err_class (x : Shard) (pm fpid code : Nat) : (x.err pm fpid code).cls ≠ 3 := by
  unfold Shard.err
  split
  · exact show 2 ≠ 3 by decide
  · exact show 0 ≠ 3 by decide

omit hfound hr hw in
theorem askShard_told (d : Dev) (m : Mould) (w : WLoad) (x : Shard) : d.MessagesTold (d.askShard m w x) := by
  unfold Dev.askShard
  split
  · split
    · exact emit_told _ _
    · exact .refl d
  · exact sendMgmt_told _ _ _ _ _

/-- What a failed shard leaves: the record; before attempt 5 the shard is asked for again, of the predecessor or of member 0. -/
theorem shardFails_asks {x : Shard} (hx : w.shard x.id = some x) (h5 : x.attempt < 5) (code : Nat) :
    (d.shardFails r.pmask x.id code).Shows found { r with wload := some (w.repairing x d.turn.now.toNat) } ∧
      (∀ t : State, t.dev = d.shardFails r.pmask x.id code → Recorded t code 0xFFFF [x.id, x.attempt]) ∧
      (r.self ≠ 0 → ∃ n, .mgmt (if x.attempt + 1 ≤ 3 then r.before else 0) 7 r.fpid n x.id false ∈ (d.shardFails r.pmask x.id code).out) := by
  obtain ⟨k, hk, hkr⟩ := hr.wl hw
  obtain ⟨v, sv, rfl⟩ := asLoaded_iff.mp hkr
  generalize hg : ((d.raise (x.err r.pmask r.fpid code)).setWl r.pmask (w.repairing x d.turn.now.toNat)) = g
  have hfails : d.shardFails r.pmask x.id code =
      g.askShard { r with vlast := v, serve := sv } (w.repairing x d.turn.now.toNat) (x.again d.turn.now.toNat) := by
    rw [Dev.shardFails, hk]
    dsimp only
    rw [hx, ← hg]
    exact if_neg (by simp [h5])
  have hask := askShard_told g { r with vlast := v, serve := sv } (w.repairing x d.turn.now.toNat) (x.again d.turn.now.toNat)
  rw [← hfails] at hask
  refine ⟨?_, fun t ht => ?_, fun hself => ?_⟩
  · have hraised := hr.stand hfound (raise_loadsStand (err_class x r.pmask r.fpid code))
    have hset := hraised.setWl hfound (w.repairing x d.turn.now.toNat)
    rw [hg] at hset
    exact hset.stand hfound hask.sent.loadsStand
  · have hrec : Recorded { t with dev := g } code 0xFFFF [x.id, x.attempt] :=
      raise_recorded (e := x.err r.pmask r.fpid code) (d := d) (t := { t with dev := d.raise (x.err r.pmask r.fpid code) }) (err_class x _ _ _) rfl
        |> Dev.Said.recorded (t' := { t with dev := g }) (hg ▸ ⟨rfl, rfl, fun _ h => h⟩)
    exact Dev.Said.recorded (t := { t with dev := g }) (ht ▸ hask.said) hrec
  · rw [hfails, Dev.askShard, if_neg (show ¬ Mould.self { r with vlast := v, serve := sv } = 0 from hself)]
    exact sendMgmt_message _ _ _ _ _

/-- With attempt 5 the load has failed, and the partitions stop. -/
theorem shardFails_ends {x : Shard} (hx : w.shard x.id = some x) (h5 : 5 ≤ x.attempt) (code : Nat) :
    (d.shardFails r.pmask x.id code).Shows found { r with wload := some ((w.setShard (x.again d.turn.now.toNat)).failed wtShardFailed) } ∧
      (∀ t : State, t.dev = d.shardFails r.pmask x.id code → Recorded t code 0xFFFF [x.id, x.attempt]) ∧
      ∀ q ∈ partsOf r.pmask, ((d.shardFails r.pmask x.id code).part q).st = .stopped := by
  obtain ⟨k, hk, hkr⟩ := hr.wl hw
  obtain ⟨v, sv, rfl⟩ := asLoaded_iff.mp hkr
  have hcls : (x.err r.pmask r.fpid code).cls = 2 := if_pos (decide_eq_true h5)
  generalize hz : w.setShard (x.again d.turn.now.toNat) = z
  generalize hg : ((d.raise (x.err r.pmask r.fpid code)).setWl r.pmask z) = g
  have hfails : d.shardFails r.pmask x.id code = g.weightFails r.pmask wtShardFailed x.id := by
    rw [Dev.shardFails, hk]
    dsimp only
    rw [hx, ← hg, ← hz]
    exact if_pos (decide_eq_true h5)
  have hset := (hr.stand hfound (raise_loadsStand (err_class x r.pmask r.fpid code))).setWl hfound z
  rw [hg] at hset
  obtain ⟨hshows, hsaid⟩ := weightFails_shows hfound hset (w := z) rfl wtShardFailed x.id
  have hraised : (d.raise (x.err r.pmask r.fpid code)).Said (d.shardFails r.pmask x.id code) := by
    rw [hfails]
    exact .trans (hg ▸ ⟨rfl, rfl, fun _ h => h⟩) hsaid
  refine ⟨hfails ▸ hshows, fun t ht => ?_, fun q hq => ?_⟩
  · exact Dev.Said.recorded (t := { t with dev := d.raise (x.err r.pmask r.fpid code) }) (ht ▸ hraised)
      (raise_recorded (e := x.err r.pmask r.fpid code) (err_class x _ _ _) rfl)
  · rw [hraised.part, part_raise_partClass hcls, if_pos (show q ∈ partsOf (x.err r.pmask r.fpid code).pmask from hq)]
    rfl

theorem shardOk_sameImage {x : Shard} (hx : w.shard x.id = some x) : ∃ r' z, (d.shardOk r.pmask x.id).Shows found r' ∧ r'.wload = some z ∧
    z.SameImage (w.setShard { x with arrived := true, ok := true }) := by
  obtain ⟨k, hk, -⟩ := hr.wl hw
  rw [Dev.shardOk, hk]
  dsimp only
  rw [hx]
  exact verifyDone_sameImage hfound (hr.setWl hfound (w.setShard { x with arrived := true, ok := true })) rfl

end Loads

end Sys2Proof.Machine

/-! ## Messages of a weight load -/

namespace Sys2Proof.Machine

/-! ### SHARD_COMPLETE: what the stream brings is passed on (R296, R297) -/

/-- The load w1 is as w, but for the tick of its last byte and what members have asked for. -/
def WLoad.AsStreamed (w1 w : WLoad) : Prop := w1 = { w with lastByte := w1.lastByte, asked := w1.asked }

/-- The network, the clocks and the time are as before. -/
structure Dev.SameNet (d e : Dev) : Prop where
  net : e.net = d.net
  clk : e.clk = d.clk
  turn : e.turn = d.turn

theorem Dev.SameNet.refl (d : Dev) : d.SameNet d := ⟨rfl, rfl, rfl⟩

theorem Dev.SameNet.trans {d e g : Dev} (h : d.SameNet e) (k : e.SameNet g) : d.SameNet g :=
  ⟨k.net.trans h.net, k.clk.trans h.clk, k.turn.trans h.turn⟩

theorem Dev.MessagesSent.sameNet {d e : Dev} (h : d.MessagesSent e) : d.SameNet e := by
  obtain ⟨⟨_, _, _, _, _, rfl⟩, -⟩ := h
  exact ⟨rfl, rfl, rfl⟩

theorem Dev.SameNet.winAsleep {d e : Dev} (h : d.SameNet e) (a n : Nat) : e.winAsleep a n = d.winAsleep a n := by
  simp only [Dev.winAsleep, Dev.atRetention, Dev.regionsOf, h.net, h.clk]

section Flow
variable {found : Dev → Option Mould} (hfound : ByNames found) {d : Dev} {m : Mould} (hm : d.Shows found m) {w : WLoad} (hw : m.wload = some w)
include hfound hm hw

theorem streamed_shows (cave : Memory) (id : Nat) (data : List Byte) : ∃ n, (d.streamed cave m w id data).2 = { w with lastByte := n } ∧
    (d.streamed cave m w id data).1.Shows found { m with wload := some { w with lastByte := n } } ∧
    d.SameNet (d.streamed cave m w id data).1 ∧ d.Said (d.streamed cave m w id data).1 := by
  have hsame : d.Shows found { m with wload := some { w with lastByte := w.lastByte } } := by
    rw [show ({ m with wload := some { w with lastByte := w.lastByte } } : Mould) = m by rw [← hw]]
    exact hm
  unfold Dev.streamed
  split
  · exact ⟨w.lastByte, rfl, hsame, .refl d, .refl d⟩
  next x _ =>
    split
    · exact ⟨w.lastByte, rfl, hsame, .refl d, .refl d⟩
    · have hset := hm.setWl hfound { w with lastByte := d.turn.now.toNat }
      have hpass := passBytes_told (d.setWl m.pmask { w with lastByte := d.turn.now.toNat }) m
        (WLoad.payload { w with lastByte := d.turn.now.toNat } cave x data)
      have hnet : d.SameNet (d.setWl m.pmask { w with lastByte := d.turn.now.toNat }) := ⟨rfl, rfl, rfl⟩
      have hsaid : d.Said (d.setWl m.pmask { w with lastByte := d.turn.now.toNat }) := updMould_said _ _ _
      exact ⟨_, rfl, hset.stand hfound hpass.sent.loadsStand, hnet.trans hpass.sent.sameNet, hsaid.trans hpass.said⟩

omit hfound hm hw in
theorem serving_told (fpid id : Nat) (data : List Byte) (e : Dev) (a : Nat × Nat) :
    e.MessagesTold ((e.sendBytes fpid a.1 data).emit (.shard a.1 fpid id data)) := (sendBytes_told _ _ _ _).trans (emit_told _ _)

/-- The members that asked for a shard are served, once. -/
theorem serveAsked_shows (id : Nat) (data : List Byte) : ∃ l, (d.serveAsked m w id data).Shows found { m with wload := some { w with asked := l } } ∧
    d.SameNet (d.serveAsked m w id data) ∧ d.Said (d.serveAsked m w id data) ∧ (data ≠ [] → (∀ x ∈ l, x.2 ≠ id) ∧
      ∀ j, (j, id) ∈ w.asked → .shard j m.fpid id data ∈ (d.serveAsked m w id data).out) := by
  unfold Dev.serveAsked
  split
  next hempty =>
    refine ⟨w.asked, ?_, .refl d, .refl d, fun h => absurd (List.isEmpty_iff.mp hempty) h⟩
    rw [show ({ m with wload := some { w with asked := w.asked } } : Mould) = m by rw [← hw]]
    exact hm
  · extract_lets us e
    have htold : d.MessagesTold e := foldl_told (serving_told m.fpid id data) us d
    refine ⟨_, (hm.stand hfound htold.sent.loadsStand).mapWl hfound hw _, .trans htold.sent.sameNet ⟨rfl, rfl, rfl⟩,
      htold.said.trans (updMould_said _ _ _), fun _ => ⟨fun x hx => of_decide_eq_true (List.mem_filter.mp hx).2, fun j hj => ?_⟩⟩
    have hus : (j, id) ∈ us := List.mem_filter.mpr ⟨hj, beq_self_eq_true id⟩
    obtain ⟨-, hout⟩ := foldl_message (o := fun a _ => .shard a.1 m.fpid id data) (serving_told m.fpid id data)
      (fun _ _ => ⟨0, List.mem_cons_self ..⟩) hus d
    exact hout

/-- The device once the bytes of a shard have been passed on and served to the members that asked for them. -/
def Dev.flowed (d : Dev) (cave : Memory) (m : Mould) (w : WLoad) (id : Nat) (data : List Byte) : Dev :=
  (d.streamed cave m w id data).1.serveAsked m (d.streamed cave m w id data).2 id data

theorem flowed_shows (cave : Memory) (id : Nat) (data : List Byte) : ∃ w1, (d.flowed cave m w id data).Shows found { m with wload := some w1 } ∧
    w1.AsStreamed w ∧ d.SameNet (d.flowed cave m w id data) ∧ (data ≠ [] → (∀ x ∈ w1.asked, x.2 ≠ id) ∧
      ∀ j, (j, id) ∈ w.asked → .shard j m.fpid id data ∈ (d.flowed cave m w id data).out) := by
  obtain ⟨n, hw2, hshows, hnet, hsaid⟩ := streamed_shows hfound hm hw cave id data
  obtain ⟨l, hserved, hnet', hsaid', hasked⟩ := serveAsked_shows hfound hshows (w := { w with lastByte := n }) rfl id data
  rw [Dev.flowed, hw2]
  exact ⟨_, hserved, rfl, hnet.trans hnet', hasked⟩

end Flow

theorem shardBytes_loadsStand (d : Dev) (mem cave : Memory) (x : Shard) : d.LoadsStand (d.shardBytes mem cave x).1 := by
  unfold Dev.shardBytes
  split
  · exact loadsStand_of_eq rfl rfl
  · exact winRead_loadsStand _ _ _ _

theorem shardBytes_heard (d : Dev) (h : MHdr) (mem cave : Memory) (x : Shard) :
    ((d.heard h).shardBytes mem cave x).2 = (d.shardBytes mem cave x).2 := by
  unfold Dev.shardBytes
  split
  · rfl
  · rfl

/-- What a Mould that is shown is found as. -/
theorem Dev.Shows.gets {found : Dev → Option Mould} {e : Dev} {r : Mould} (h : e.Shows found r) {z : WLoad} (hz : r.wload = some z) :
    ∃ k, found e = some k ∧ k.wload = some z ∧ k.AsLoaded r := by
  obtain ⟨k, hk, hkr⟩ := h.found
  exact ⟨k, hk, (congrArg Mould.wload hkr).trans hz, hkr⟩

theorem Mould.AsLoaded.committed {k r : Mould} (h : k.AsLoaded r) : k.phase = r.phase ∧ k.base = r.base ∧ k.images = r.images := by
  obtain ⟨v, sv, rfl⟩ := asLoaded_iff.mp h
  exact ⟨rfl, rfl, rfl⟩

/-! ### The messages, row by row -/

/-- The device that has sent a shard to a member. -/
def Dev.shardSent (d : Dev) (fpid dst id : Nat) (bs : List Byte) : Dev := (d.sendBytes fpid dst bs).emit (.shard dst fpid id bs)

section Rows
variable {s : State} {h : MHdr} {m : Mould} (ht : Takes s.dev h m) {w : WLoad} (hw : m.wload = some w)
include ht hw

theorem exec_msgShardRequest_verified {id a : Nat} {x : Shard} (hx : w.shard id = some x) (hok : x.ok = true) (ha : a ≤ 3) :
    exec (.msgShardRequest h id a) s = .next { s with
      dev := ((s.dev.heard h).shardBytes s.mem s.cave x).1.shardSent m.fpid h.src id (s.dev.shardBytes s.mem s.cave x).2 } := by
  have hfilter : (w.shard id).filter (fun x => x.ok && decide (a ≤ 3)) = some x := by
    rw [hx, Option.filter_some, if_pos (by rw [hok, decide_eq_true ha]; rfl)]
  refine (show execMsgShardRequest h id a s = _ from liftW_of_eq (w := []) ?_)
  rw [onMsg_takes ht]
  dsimp only
  rw [hw]
  dsimp only
  rw [if_neg (by rw [ht.2.2.1]; exact Bool.false_ne_true), hfilter, ← shardBytes_heard s.dev h]
  rfl

variable {id a : Nat} (hnone : ∀ x, w.shard id = some x → x.ok = false ∨ 3 < a)
include hnone

theorem exec_msgShardRequest_passed : exec (.msgShardRequest h id a) s = .next { s with
    dev := if m.self = 0 then (s.dev.heard h).fromSource s.cave m w h.src id else (s.dev.heard h).relay m.fpid m.before 7 h id } := by
  have hfilter : (w.shard id).filter (fun x => x.ok && decide (a ≤ 3)) = none := by
    cases hx : w.shard id with
    | none => rfl
    | some x =>
      rw [Option.filter_some, if_neg]
      rcases hnone x hx with hok | ha
      · rw [hok]; exact Bool.false_ne_true
      · rw [decide_eq_false (Nat.not_le.mpr ha), Bool.and_false]; exact Bool.false_ne_true
  refine (show execMsgShardRequest h id a s = _ from liftW_of_eq (w := []) ?_)
  rw [onMsg_takes ht]
  dsimp only
  rw [hw]
  dsimp only
  rw [if_neg (by rw [ht.2.2.1]; exact Bool.false_ne_true), hfilter]
  dsimp only
  split
  · rfl
  · rfl

end Rows

theorem fromSource_host (d : Dev) (cave : Memory) (m : Mould) {w : WLoad} {dst id fn addr len : Nat} {y : Shard}
    (hy : (wmShards w.mani).find? (fun z => z.id == id) = some y) (hsrc : w.src = some (false, fn, addr, len)) :
    d.fromSource cave m w dst id =
      (d.setWl m.pmask { w with asked := w.asked ++ [(dst, id)] }).emit (.hostRead fn (addr + wmSize w.mani + y.source) y.len) := by
  rw [Dev.fromSource, hy, hsrc]

theorem fromSource_cave (d : Dev) (cave : Memory) (m : Mould) {w : WLoad} {dst id fn off len : Nat} {y : Shard}
    (hy : (wmShards w.mani).find? (fun z => z.id == id) = some y) (hsrc : w.src = some (true, fn, off, len)) (hcave : y.cave = false) :
    d.fromSource cave m w dst id = d.shardSent m.fpid dst id (cave.bytes (off + wmSize w.mani + y.source) y.len) := by
  rw [Dev.fromSource, hy, hsrc]
  exact if_neg (by rw [hcave]; exact Bool.false_ne_true)

theorem exec_shardComplete_asked {s : State} {p : PartId} {m : Mould} (hm : s.dev.mouldLow p = some m) {w : WLoad} (hw : m.wload = some w)
    {id : Nat} {bs : List Byte} (hnone : w.shard id = none)
    (hw2 : ∃ n, (s.dev.streamed s.cave m w id bs).2 = { w with lastByte := n }) :
    exec (.shardComplete p id bs) s = .next { s with dev := s.dev.flowed s.cave m w id bs } := by
  obtain ⟨n, hn⟩ := hw2
  refine (show execShardComplete p id bs s = _ from liftW_of_eq (w := []) ?_)
  rw [hm, Option.bind_some, hw]
  dsimp only [Option.map]
  rw [hn, show WLoad.shard { w with lastByte := n } id = none from hnone, Dev.flowed, hn]

theorem okFrom_eq (w : WLoad) (i : Nat) : w.okFrom i = { w with oks := if i ∈ w.oks then w.oks else i :: w.oks } := by
  simp only [WLoad.okFrom, List.contains_iff_mem]

theorem busy_state {w : WLoad} (h : w.busy = true) : w.state ≠ 5 := by
  intro h5
  rw [WLoad.busy, h5] at h
  exact absurd h (by simp)

/-- Settles O52: each message's row on the Mould that takes it, with what the load, the messages that went out and a commit leave. -/
theorem weightMessages : Obligations.WeightMessages := by
  unfold Obligations.WeightMessages
  intro h s m w ht hheld hw
  have hfp := byNames_mouldFp h.fpid
  have hr : (s.dev.heard h).Shows (fun d => d.mouldFp h.fpid) m := shows_of_held (d := s.dev.heard h) ht.2.1 hheld
  have hbusy (hb : w.busy = true) : m.wload.any (fun w => w.busy) = true := by rw [hw]; exact hb
  refine ⟨fun id a => ⟨fun x hx hok ha => ?_, fun hnone => ⟨fun hself => ?_, fun hself y hy => ⟨fun fn addr len hsrc => ?_,
    fun fn off len hsrc hcave => ?_⟩⟩⟩, fun _ p id bs j hp hj hbs hnone => ?_, fun hself hb => ⟨fun hfew => ?_, fun hst hall => ?_, fun id => ?_⟩,
    fun hst => ?_, fun hb => ?_⟩
  · have hsend := serving_told m.fpid id (s.dev.shardBytes s.mem s.cave x).2 ((s.dev.heard h).shardBytes s.mem s.cave x).1 (h.src, id)
    obtain ⟨k, hk, hkw, -⟩ := ((hr.stand hfp (shardBytes_loadsStand _ _ _ _)).stand hfp hsend.sent.loadsStand).gets hw
    exact ⟨_, k, ⟨exec_msgShardRequest_verified ht hw hx hok ha, rfl, rfl, hk, hkw⟩, List.mem_cons_self ..⟩
  · have hexec := exec_msgShardRequest_passed ht hw hnone
    rw [if_neg hself] at hexec
    obtain ⟨k, hk, hkw, -⟩ := (hr.stand hfp (relay_told _ m.fpid m.before 7 h id).sent.loadsStand).gets hw
    exact ⟨_, k, ⟨hexec, rfl, rfl, hk, hkw⟩, relay_message _ _ _ _ _ _⟩
  · have hexec := exec_msgShardRequest_passed ht hw hnone
    rw [if_pos hself, fromSource_host _ _ _ hy hsrc] at hexec
    obtain ⟨k, hk, hkw, -⟩ := ((hr.setWl hfp { w with asked := w.asked ++ [(h.src, id)] }).stand hfp (emit_told _ _).sent.loadsStand).gets rfl
    exact ⟨_, k, ⟨hexec, rfl, rfl, hk, hkw⟩, List.mem_cons_self ..⟩
  · have hexec := exec_msgShardRequest_passed ht hw hnone
    rw [if_pos hself, fromSource_cave _ _ _ hy hsrc hcave] at hexec
    have hsend := serving_told m.fpid id (s.cave.bytes (off + wmSize w.mani + y.source) y.len) (s.dev.heard h) (h.src, id)
    obtain ⟨k, hk, hkw, -⟩ := (hr.stand hfp hsend.sent.loadsStand).gets hw
    exact ⟨_, k, ⟨hexec, rfl, rfl, hk, hkw⟩, List.mem_cons_self ..⟩
  · have hlow := shows_of_held (found := fun d => d.mouldLow p) hp hheld
    obtain ⟨n, hn, -⟩ := streamed_shows (byNames_mouldLow p) hlow hw s.cave id bs
    obtain ⟨w1, hshows, -, -, hasked⟩ := flowed_shows (byNames_mouldLow p) hlow hw s.cave id bs
    obtain ⟨hl, hout⟩ := hasked hbs
    obtain ⟨k, hk, hkw, -⟩ := hshows.gets rfl
    exact ⟨_, w1, exec_shardComplete_asked hp hw hnone ⟨n, hn⟩, rfl, hout j hj, by rw [hk]; exact hkw, hl⟩
  · have hexec : exec (.msgWeightsOk h) s = .next { s with dev := (s.dev.heard h).okIn m.pmask h.src } :=
      (onMsg1_takes ht _).trans (by rw [if_pos ⟨hself, hbusy hb⟩])
    have hwaits : ¬ (w.state = 3 ∧ ∀ j, j < m.devices → j ∈ (w.okFrom h.src).oks) := by
      rw [okFrom_eq]
      exact fun hc => hfew.elim (fun hne => hne hc.1) fun hne => hne hc.2
    obtain ⟨k, hk, hkw, hkr⟩ := (okIn_waits hfp hr hw hwaits).gets rfl
    exact ⟨_, k, ⟨hexec, rfl, rfl, hk, by rw [hkw, okFrom_eq]⟩, hkr.committed.1⟩
  · have hexec : exec (.msgWeightsOk h) s = .next { s with dev := (s.dev.heard h).okIn m.pmask h.src } :=
      (onMsg1_takes ht _).trans (by rw [if_pos ⟨hself, hbusy hb⟩])
    obtain ⟨e, he, hshows, hpass⟩ := okIn_commits hfp hr hw (i := h.src) hst (by rw [okFrom_eq]; exact hall)
    obtain ⟨r', hr', hz, -, hout, hbase⟩ := commitLocal_shows hfp hshows (w := w.okFrom h.src) rfl
    obtain ⟨k, hk, hkw, hkr⟩ := hr'.gets hz
    obtain ⟨hphase, hkbase, -⟩ := hkr.committed
    rw [he] at hexec
    refine ⟨_, k, _, ⟨hexec, rfl, rfl, hk, hkw⟩, rfl, rfl, fun j hj => ?_, fun h0 => ?_⟩
    · obtain ⟨n, hn⟩ := hpass j hj
      exact ⟨n, hout hn⟩
    · obtain ⟨hb0, hready⟩ := hbase h0
      exact ⟨hkbase.trans hb0, fun h4 => ⟨hphase.trans (hready h4).1, (hready h4).2⟩⟩
  · have hexec : exec (.msgShardFailed h id) s = .next { s with dev := (s.dev.heard h).abandonWeights m.pmask wtShardFailed } :=
      (onMsg1_takes ht _).trans (by rw [if_pos ⟨hself, hbusy hb⟩])
    obtain ⟨hshows, -, htold⟩ := abandonWeights_shows hfp hr hw wtShardFailed
    obtain ⟨k, hk, hkw, -⟩ := hshows.gets rfl
    exact ⟨_, k, _, ⟨hexec, rfl, rfl, hk, hkw⟩, rfl, if_neg (busy_state hb), htold _ rfl⟩
  · have hany : m.wload.any (fun w => w.state == 3) = true := by rw [hw]; exact beq_iff_eq.mpr hst
    have hexec : exec (.msgWeightCommit h) s = .next { s with dev := ((s.dev.heard h).passOn m 10 0).commitLocal m.pmask } :=
      (onMsg1_takes ht _).trans (by rw [if_pos hany])
    obtain ⟨r', hr', hz, himages, -⟩ := commitLocal_shows hfp (hr.stand hfp (passOn_told _ m 10 0).sent.loadsStand) hw
    obtain ⟨k, hk, hkw, hkr⟩ := hr'.gets hz
    exact ⟨_, k, _, ⟨hexec, rfl, rfl, hk, hkw⟩, rfl, rfl, hkr.committed.2.2.trans himages⟩
  · have hany : m.wload.any (fun w => w.busy || w.state == 5) = true := by
      rw [hw]; exact Bool.or_eq_true_iff.mpr (.inl hb)
    have hexec : exec (.msgWeightAbandon h) s = .next { s with dev := (s.dev.heard h).failLocal m.pmask wtShardFailed } :=
      (onMsg1_takes ht _).trans (by rw [if_pos hany])
    obtain ⟨k, hk, hkw, -⟩ := (failLocal_shows hfp hr hw wtShardFailed).1.gets rfl
    exact ⟨_, k, _, ⟨hexec, rfl, rfl, hk, hkw⟩, rfl, if_neg (busy_state hb)⟩

end Sys2Proof.Machine

/-! ## Manifests and shards of a weight load -/

namespace Sys2Proof.Machine

/-! ### The manifest (R292, R293, R296) -/

/-- A load that has its manifest. -/
def WLoad.filled (w : WLoad) (b : List Byte) (now : Nat) : WLoad :=
  { w with state := 1, mani := b, lastByte := now, kind := wmKind b, variant := wmVariant b, digest := wmDigest b, keydig := wmKeydig b }

/-- The status of the check that a manifest fails, if any: step by step, the last two once the keys are there. -/
def Dev.manifestBad (d : Dev) (m : Mould) (b : List Byte) : Option Nat :=
  if !wmFormatOk b then some wtFormat
  else if !wmMatches m b then some wtMismatch
  else if !d.crm.keysLoaded then none
  else (d.crm.weightKey b).or (if d.targetsOk m b then none else some wtTarget)

section Manifest
variable {found : Dev → Option Mould} (hfound : ByNames found) {d : Dev} {r : Mould} (hr : d.Shows found r) {w : WLoad}
  (hwl : d.wl r.pmask = some (r, w)) {b : List Byte}
include hfound hr hwl

/-- A manifest that fails a check ends the load with the status of that check. -/
theorem takeManifest_bad {status : Nat} (hbad : d.manifestBad r b = some status) :
    ∃ z, (d.takeManifest r.pmask b).Shows found { r with wload := some z } ∧ z.state = 5 ∧ z.status = status := by
  have hset := hr.setWl hfound (w.filled b d.turn.now.toNat)
  have hpass := passBytes_told (d.setWl r.pmask (w.filled b d.turn.now.toNat)) r b
  have hfails := weightFails_shows hfound (hset.stand hfound hpass.sent.loadsStand) (w := w.filled b d.turn.now.toNat) rfl status 0xFFFFFFFF
  have htake : d.takeManifest r.pmask b = ((d.setWl r.pmask (w.filled b d.turn.now.toNat)).passBytes r b).weightFails r.pmask status 0xFFFFFFFF := by
    rw [Dev.manifestBad] at hbad
    rw [Dev.takeManifest, hwl]
    dsimp only
    rw [hbad]
    rfl
  exact ⟨_, htake ▸ hfails.1, rfl, rfl⟩

/-- A BASE manifest that passes gives the shards this member keeps. -/
theorem takeManifest_good (hbad : d.manifestBad r b = none) (hkind : wmKind b = 0) :
    ∃ e : Dev, d.takeManifest r.pmask b = e.verifyDone r.pmask ∧ e.Shows found { r with wload := some { w.filled b d.turn.now.toNat with
      vslot := 0x1FF, shards := if d.targetsOk r b then wmKept b r.self else [], waits := !d.crm.keysLoaded } } := by
  have hset := hr.setWl hfound { w.filled b d.turn.now.toNat with
    vslot := 0x1FF, shards := if d.targetsOk r b then wmKept b r.self else [], waits := !d.crm.keysLoaded }
  have hpass := passBytes_told (d.setWl r.pmask { w.filled b d.turn.now.toNat with
    vslot := 0x1FF, shards := if d.targetsOk r b then wmKept b r.self else [], waits := !d.crm.keysLoaded }) r b
  refine ⟨_, ?_, hset.stand hfound hpass.sent.loadsStand⟩
  rw [Dev.manifestBad] at hbad
  rw [Dev.takeManifest, hwl]
  dsimp only
  rw [hbad]
  dsimp only
  rw [Dev.giveSlot, if_pos hkind]
  rfl

end Manifest

section Checks
variable {d : Dev} {m : Mould} {b : List Byte}

theorem manifestBad_format (h : wmFormatOk b = false) : d.manifestBad m b = some wtFormat := if_pos (by rw [h]; rfl)

section Format
variable (hformat : wmFormatOk b = true)
include hformat

theorem manifestBad_mismatch (h : wmMatches m b = false) : d.manifestBad m b = some wtMismatch := by
  rw [Dev.manifestBad, if_neg (by rw [hformat]; decide), if_pos (by rw [h]; rfl)]

variable (hmatches : wmMatches m b = true)
include hmatches

theorem manifestBad_noKeys (h : d.crm.keysLoaded = false) : d.manifestBad m b = none := by
  rw [Dev.manifestBad, if_neg (by rw [hformat]; decide), if_neg (by rw [hmatches]; decide), if_pos (by rw [h]; rfl)]

theorem manifestBad_keys (h : d.crm.keysLoaded = true) :
    d.manifestBad m b = (d.crm.weightKey b).or (if d.targetsOk m b then none else some wtTarget) := by
  rw [Dev.manifestBad, if_neg (by rw [hformat]; decide), if_neg (by rw [hmatches]; decide), if_neg (by rw [h]; decide)]

end Format

end Checks

/-- The load w1 of the Mould m that a manifest comes for, on device e, as on device d but for the loads. -/
structure AtManifest (d : Dev) (m : Mould) (p : Nat) (e : Dev) (w1 : WLoad) : Prop where
  shows : e.Shows (fun d => d.mouldLow p) { m with wload := some w1 }
  wl : e.wl m.pmask = some ({ m with wload := some w1 }, w1)
  crm : e.crm = d.crm
  net : e.net = d.net
  slot : e.slot = d.slot

theorem AtManifest.targets {d e : Dev} {m : Mould} {p : Nat} {w1 : WLoad} (h : AtManifest d m p e w1) (b : List Byte) :
    e.targetsOk { m with wload := some w1 } b = d.targetsOk m b := by
  simp only [Dev.targetsOk, Dev.targetOk, h.net]
  rfl

theorem AtManifest.bad {d e : Dev} {m : Mould} {p : Nat} {w1 : WLoad} (h : AtManifest d m p e w1) (b : List Byte) :
    e.manifestBad { m with wload := some w1 } b = d.manifestBad m b := by
  rw [Dev.manifestBad, Dev.manifestBad, h.targets, h.crm]
  rfl

theorem held_wl {d : Dev} {m : Mould} (hheld : Held d m) {w : WLoad} (hw : m.wload = some w) : d.wl m.pmask = some (m, w) := by
  rw [Dev.wl, show d.moulds.find? (fun x => x.pmask == m.pmask) = some m from hheld, Option.bind_some, hw]
  rfl

section Arrives
variable {s : State} {p : PartId} {m : Mould} (hm : s.dev.mouldLow p = some m) (hheld : Held s.dev m)
include hm hheld

theorem exec_weightManifestArrive {b : List Byte}
    (h : (m.self = 0 ∧ ∃ w, m.wload = some w ∧ w.state = 1 ∧ w.mani = [] ∧ ∀ x, w.src ≠ some (true, x)) ∨
    (m.self ≠ 0 ∧ (m.phase = 4 ∨ m.phase = 6) ∧ ∀ w, m.wload = some w → w.busy = false)) :
    ∃ e w1, exec (.weightManifestArrive p b) s = .next { s with dev := e.takeManifest m.pmask b } ∧ AtManifest s.dev m p e w1 := by
  have hr := shows_of_held (found := fun d => d.mouldLow p) hm hheld
  rcases h with ⟨hself, w, hw, hst, hmani, hsrc⟩ | ⟨hself, hphase, hfree⟩
  · have heta : ({ m with wload := some w } : Mould) = m := by rw [← hw]
    refine ⟨s.dev, w, (show execWeightManifestArrive p b s = _ from liftW_of_eq (w := []) ?_), by rw [heta]; exact hr, ?_, rfl, rfl, rfl⟩
    · rw [hm]
      dsimp only
      rw [if_pos hself, hw]
      dsimp only
      rw [if_neg (by rw [hst, hmani]; decide)]
      split
      next hcave => exact absurd hcave (hsrc _)
      next => rfl
    · rw [heta]
      exact held_wl hheld hw
  · have hfree' : m.wload.any (fun w => w.busy) = false := by
      cases hw : m.wload with
      | none => rfl
      | some w => exact hfree w hw
    have hset := hr.setWl (byNames_mouldLow p) (WLoad.fresh s.dev.turn.now.toNat)
    refine ⟨s.dev.setWl m.pmask (WLoad.fresh s.dev.turn.now.toNat), _, (show execWeightManifestArrive p b s = _ from liftW_of_eq (w := []) ?_),
      hset, ?_, rfl, rfl, rfl⟩
    · rw [hm]
      dsimp only
      rw [if_neg hself, if_neg]
      rw [hfree']
      rcases hphase with h | h
      · simp [h]
      · simp [h]
    · refine held_wl (m := { m with wload := some (WLoad.fresh s.dev.turn.now.toNat) }) ?_ rfl
      exact (byNames_pmask m.pmask).updMould hheld fun _ => rfl

end Arrives

/-! ### Shards (R296, R297) -/

section Shards
variable {found : Dev → Option Mould} (hfound : ByNames found) {d : Dev} {r : Mould} (hr : d.Shows found r) {w : WLoad} (hw : r.wload = some w)
include hfound hr hw

/-- What a failed shard leaves, with the record, the next attempt and the end of the ladder. -/
theorem shardFails_missed {x : Shard} (hx : w.shard x.id = some x) (hst : w.state ≠ 5) {n : BitVec 16} (hn : w.repairs = n) {now : Nat}
    (hnow : d.turn.now.toNat = now) (code : Nat) {t : State} (ht : t.dev = d.shardFails r.pmask x.id code) :
    ∃ z, (∃ k, found t.dev = some k ∧ k.wload = some z) ∧ Recorded t code 0xFFFF [x.id, x.attempt] ∧
      (x.attempt < 5 → z.state = 2 ∧ z.repairs = satAdd n 1 ∧ z.shard x.id = some (x.again now) ∧
        (r.self ≠ 0 → ∃ n, .mgmt (if x.attempt + 1 ≤ 3 then r.before else 0) 7 r.fpid n x.id false ∈ t.dev.out)) ∧
      (5 ≤ x.attempt → z.state = 5 ∧ z.status = 7 ∧ ∀ q ∈ partsOf r.pmask, (t.dev.part q).st = .stopped) := by
  subst hn hnow
  rcases Nat.lt_or_ge x.attempt 5 with h5 | h5
  · obtain ⟨hshows, hrec, hsent⟩ := shardFails_asks hfound hr hw hx h5 code
    obtain ⟨k, hk, hkw, -⟩ := hshows.gets rfl
    exact ⟨_, ⟨k, ht ▸ hk, hkw⟩, hrec t ht, fun _ => ⟨rfl, rfl, shard_setShard hx rfl, ht ▸ hsent⟩, fun h => absurd h5 (Nat.not_lt.mpr h)⟩
  · obtain ⟨hshows, hrec, hstops⟩ := shardFails_ends hfound hr hw hx h5 code
    obtain ⟨k, hk, hkw, -⟩ := hshows.gets rfl
    exact ⟨_, ⟨k, ht ▸ hk, hkw⟩, hrec t ht, fun h => absurd h (Nat.not_lt.mpr h5), fun _ => ⟨rfl, if_neg hst, ht ▸ hstops⟩⟩

omit hfound in
/-- Where no shard is for the Cave, the Cave is not read. -/
theorem digestCaves_none (cave : Memory) (h : ∀ y ∈ w.shards, y.cave = false) : d.digestCaves cave r.pmask = d := by
  obtain ⟨k, hk, -⟩ := hr.wl hw
  have hnone : w.shards.filter (fun x => x.cave && !x.ok && x.attempt == 0) = [] :=
    List.filter_eq_nil_iff.mpr fun y hy => by simp [h y hy]
  rw [Dev.digestCaves, hk]
  dsimp only
  rw [hnone]
  split
  · rfl
  · rfl

end Shards

theorem taking_state {w : WLoad} (h : w.taking = true) : (w.state = 1 ∨ w.state = 2) ∧ w.mani ≠ [] := by
  obtain ⟨hst, hmani⟩ := Bool.and_eq_true_iff.mp h
  refine ⟨(Bool.or_eq_true_iff.mp hst).imp eq_of_beq eq_of_beq, fun hnil => ?_⟩
  rw [hnil] at hmani
  exact absurd hmani (by decide)

theorem caves_setShard {w : WLoad} {y : Shard} (h : ∀ z ∈ w.shards, z.cave = false) (hy : y.cave = false) :
    ∀ z ∈ (w.setShard y).shards, z.cave = false := by
  intro z hz
  obtain ⟨a, ha, rfl⟩ := List.mem_map.mp hz
  split
  · exact hy
  · exact h a ha

section Rows
variable {s : State} {p : PartId} {m : Mould} (hm : s.dev.mouldLow p = some m) {w : WLoad} (hw : m.wload = some w) (htaking : w.taking = true)

/-- The load once a slice shard lies at its target. -/
def WLoad.landed (w : WLoad) (x : Shard) (now : Nat) : WLoad := ({ w with lastByte := now } : WLoad).setShard { x with arrived := true }

/-- The device once the bytes of a slice shard lie at its target. -/
def Dev.shardLanded (d : Dev) (cave : Memory) (m : Mould) (w : WLoad) (x : Shard) (bs : List Byte) : Dev :=
  let d := ((d.flowed cave m w x.id bs).winStore x.target bs).1
  d.updMould m.pmask (fun m => { m with wload := m.wload.map (fun w => w.landed x d.turn.now.toNat) })

include hm hw htaking

theorem exec_shardComplete_slice {x : Shard} {bs : List Byte} (hx : w.shard x.id = some x) (hok : x.ok = false) (hcave : x.cave = false)
    (hsrc : ∀ y, w.src ≠ some (true, y)) (hlen : bs.length = x.len) (hw2 : ∃ n, (s.dev.streamed s.cave m w x.id bs).2 = { w with lastByte := n })
    (hawake : (s.dev.flowed s.cave m w x.id bs).winAsleep x.target bs.length = false) :
    exec (.shardComplete p x.id bs) s = .next { s with
      dev := if shake256 bs = x.digest then (s.dev.shardLanded s.cave m w x bs).shardOk m.pmask x.id
        else (s.dev.shardLanded s.cave m w x bs).shardFails m.pmask x.id 0x60
      mem := memAll s.mem (wrBytes x.target bs) } := by
  obtain ⟨n, hn⟩ := hw2
  have hpayload : WLoad.payload { w with lastByte := n } s.cave x bs = bs := by
    unfold WLoad.payload
    split
    next h => exact absurd h (hsrc _)
    · rfl
  refine (show execShardComplete p x.id bs s = _ from liftW_of_eq (w := wrBytes x.target bs) ?_).trans (by rw [caveAll_wrBytes])
  rw [hm, Option.bind_some, hw, Option.map_some]
  dsimp only
  rw [hn, show WLoad.shard { w with lastByte := n } x.id = some x from hx]
  dsimp only
  rw [if_neg (by rw [show WLoad.taking { w with lastByte := n } = true from htaking, hok]; decide), if_neg (by rw [hcave]; decide), hpayload,
    List.take_of_length_le (Nat.le_of_eq hlen)]
  rw [← hn, show Dev.serveAsked _ _ _ _ _ = s.dev.flowed s.cave m w x.id bs from rfl, winWrite_awake hawake]
  dsimp only
  split
  next h => rw [if_pos h.2]; rfl
  next h => rw [if_neg fun hd => h ⟨hlen, hd⟩]; rfl

omit htaking in
theorem exec_shardComplete_cave {x : Shard} {bs : List Byte} (htaking : w.taking = true) (hx : w.shard x.id = some x) (hok : x.ok = false)
    (hcave : x.cave = true) (hattempt : x.attempt ≠ 0) (hbs : bs ≠ []) (hw2 : ∃ n, (s.dev.streamed s.cave m w x.id bs).2 = { w with lastByte := n }) :
    exec (.shardComplete p x.id bs) s = .next { s with
      dev := (s.dev.flowed s.cave m w x.id bs).nvAsk needCave (.caveShard (lowPart m.pmask) x.id x.target (bs.take x.len)) } := by
  obtain ⟨n, hn⟩ := hw2
  refine (show execShardComplete p x.id bs s = _ from liftW_of_eq (w := []) ?_)
  rw [hm, Option.bind_some, hw, Option.map_some]
  dsimp only
  rw [hn, show WLoad.shard { w with lastByte := n } x.id = some x from hx]
  dsimp only
  rw [if_neg (by rw [show WLoad.taking { w with lastByte := n } = true from htaking, hok]; decide), if_pos hcave,
    if_neg (by simp [hattempt, hbs]), ← hn]
  rfl

theorem exec_shardAttemptTimeout {x : Shard} (hx : w.shard x.id = some x) (hok : x.ok = false) (hattempt : x.attempt ≠ 0) (h6 : x.attempt < 6)
    (hlate : x.since + m.timeout ≤ s.dev.turn.now.toNat) :
    exec (.shardAttemptTimeout p x.id) s = .next { s with dev := s.dev.shardFails m.pmask x.id 0x61 } := by
  refine (show execShardAttemptTimeout p x.id s = _ from lift_of_eq ?_)
  rw [hm, Option.bind_some, hw, Option.map_some]
  dsimp only
  rw [hx]
  dsimp only
  rw [if_neg]
  simp only [htaking, hok, Bool.not_true, Bool.false_or, Bool.or_eq_true, decide_eq_true_eq]
  omega

theorem exec_weightLoadTimeout {x : Shard} (hgone : w.shards.filter (fun y => !y.arrived && !y.ok && y.attempt == 0) = [x])
    (hlate : w.lastByte + m.timeout ≤ s.dev.turn.now.toNat) :
    exec (.weightLoadTimeout p) s = .next { s with dev := s.dev.shardFails m.pmask x.id 0x61 } := by
  refine (show execWeightLoadTimeout p s = _ from lift_of_eq ?_)
  rw [hm, Option.bind_some, hw, Option.map_some]
  dsimp only
  rw [if_neg, hgone]
  · rfl
  · simp only [htaking, Bool.not_true, Bool.false_or, decide_eq_true_eq]
    omega

/-- The device that has passed the end marker of an image's stream on. -/
def Dev.streamEnded (d : Dev) (m : Mould) (w : WLoad) : Dev :=
  let d := match m.outPort with
    | some u => d.emit (.loadEnd u)
    | none => d
  d.setWl m.pmask { w with ended := true, lastByte := d.turn.now.toNat }

theorem exec_weightEndMarker (hended : w.ended = false) (hcaves : ∀ y ∈ w.shards, y.cave = false) : exec (.weightEndMarker p) s = .next { s with
    dev := ((w.shards.filter (fun y => !y.arrived && y.attempt == 0)).foldl (fun d x => d.shardFails m.pmask x.id 0x61)
      (s.dev.streamEnded m w)).digestCaves s.cave m.pmask } := by
  obtain ⟨hst, hmani⟩ := taking_state htaking
  have hfilter : w.shards.filter (fun x => !x.cave && !x.arrived && x.attempt == 0) = w.shards.filter (fun y => !y.arrived && y.attempt == 0) :=
    List.filter_congr fun y hy => by rw [hcaves y hy]; rfl
  refine (show execWeightEndMarker p s = _ from liftW_of_eq (w := []) ?_)
  rw [hm, Option.bind_some, hw, Option.map_some]
  dsimp only
  rw [if_neg, if_neg (by rw [htaking]; decide), hfilter]
  · rfl
  · simp only [hended, Bool.false_or, Bool.or_eq_true, List.isEmpty_iff, hmani, false_or, decide_eq_true_eq]
    omega

end Rows

/-- The end marker is passed on, and noted in the load. -/
theorem streamEnded_shows {found : Dev → Option Mould} (hfound : ByNames found) {d : Dev} {m : Mould} (hr : d.Shows found m) (w : WLoad) :
    (d.streamEnded m w).Shows found { m with wload := some { w with ended := true, lastByte := d.turn.now.toNat } } ∧
      (d.streamEnded m w).turn = d.turn ∧ ∀ u, m.outPort = some u → .loadEnd u ∈ (d.streamEnded m w).out := by
  unfold Dev.streamEnded
  cases m.outPort with
  | none => exact ⟨hr.setWl hfound _, rfl, nofun⟩
  | some u =>
    refine ⟨(hr.stand hfound (emit_told d (.loadEnd u)).sent.loadsStand).setWl hfound _, rfl, fun v hv => ?_⟩
    rw [← Option.some.inj hv]
    exact List.mem_cons_self ..

/-! ### Settling -/

section Landed
variable {found : Dev → Option Mould} (hfound : ByNames found) {d : Dev} {m : Mould} (hr : d.Shows found m) {w : WLoad} (hw : m.wload = some w)
include hfound hr hw

/-- The load once the bytes of a slice shard lie at its target. -/
theorem shardLanded_shows (cave : Memory) (x : Shard) (bs : List Byte) : ∃ w1 : WLoad, w1.AsStreamed w ∧ (d.shardLanded cave m w x bs).turn = d.turn ∧
    (d.shardLanded cave m w x bs).Shows found { m with wload := some (w1.landed x d.turn.now.toNat) } := by
  obtain ⟨w1, hshows, has, hnet, -⟩ := flowed_shows hfound hr hw cave x.id bs
  have hstore := winStore_loadsStand (d.flowed cave m w x.id bs) x.target bs
  have hturn : ((d.flowed cave m w x.id bs).winStore x.target bs).1.turn = d.turn := hstore.turn.trans hnet.turn
  have hmap := (hshows.stand hfound hstore).mapWl hfound (w := w1) rfl (fun w => w.landed x d.turn.now.toNat)
  refine ⟨w1, has, hturn, ?_⟩
  unfold Dev.shardLanded
  dsimp only
  rw [hturn]
  exact hmap

end Landed

theorem shard_of_shards {w z : WLoad} (h : z.shards = w.shards) (id : Nat) : z.shard id = w.shard id := by
  rw [WLoad.shard, h]
  rfl

theorem landed_shard {w w1 : WLoad} (has : w1.AsStreamed w) {x : Shard} (hx : w.shard x.id = some x) (now : Nat) :
    (w1.landed x now).shard x.id = some { x with arrived := true } :=
  shard_setShard (w := { w1 with lastByte := now }) (y := { x with arrived := true })
    ((shard_of_shards (congrArg WLoad.shards has) x.id).trans hx) rfl

/-- Settles O51: a manifest by the first check that it fails, a shard by what the ladder leaves of its load. -/
theorem weightLoad : Obligations.WeightLoad := by
  unfold Obligations.WeightLoad
  intro p s m hm hheld
  have hlow := byNames_mouldLow p
  have hr := shows_of_held (found := fun d => d.mouldLow p) hm hheld
  refine ⟨fun b hb => ?_, fun w hw htaking => ⟨fun id x bs hx hok => ?_, fun x hx => ⟨fun hgone hlate => ?_, fun hended hcaves hgone => ?_⟩,
    fun hended hall => ?_⟩⟩
  · obtain ⟨e, w1, hexec, hat⟩ := exec_weightManifestArrive hm hheld hb
    have fails {status : Nat} (hbad : s.dev.manifestBad m b = some status) :
        ∃ z, (∃ k, (e.takeManifest m.pmask b).mouldLow p = some k ∧ k.wload = some z) ∧ z.state = 5 ∧ z.status = status := by
      obtain ⟨z, hshows, hst, hstatus⟩ := takeManifest_bad hlow hat.shows hat.wl ((hat.bad b).trans hbad)
      obtain ⟨k, hk, hkw, -⟩ := hshows.gets rfl
      exact ⟨z, ⟨k, hk, hkw⟩, hst, hstatus⟩
    refine ⟨fun hformat => ?_, fun hformat hmatches => ?_, fun hformat hmatches hkind => ⟨fun hkeys => ?_, fun hkeys => ?_⟩⟩
    · obtain ⟨z, hz, hst, hstatus⟩ := fails (manifestBad_format hformat)
      exact ⟨_, z, ⟨hexec, rfl, hz⟩, rfl, hst, hstatus⟩
    · obtain ⟨z, hz, hst, hstatus⟩ := fails (manifestBad_mismatch hformat hmatches)
      exact ⟨_, z, ⟨hexec, rfl, hz⟩, rfl, hst, hstatus⟩
    · obtain ⟨g, htake, hshows⟩ := takeManifest_good hlow hat.shows hat.wl ((hat.bad b).trans (manifestBad_noKeys hformat hmatches hkeys)) hkind
      have hwaits : (!e.crm.keysLoaded) = true := by rw [hat.crm, hkeys]; rfl
      have hdone := verifyDone_waits hshows rfl hwaits
      obtain ⟨k, hk, hkw, -⟩ := hshows.gets rfl
      rw [show e.takeManifest m.pmask b = g from htake.trans hdone] at hexec
      exact ⟨_, _, ⟨hexec, rfl, k, hk, hkw⟩, rfl, rfl, hwaits⟩
    · have hbad := manifestBad_keys (d := s.dev) hformat hmatches hkeys
      cases hkey : s.dev.crm.weightKey b with
      | some status =>
        obtain ⟨z, hz, hst, hstatus⟩ := fails (hbad.trans (by rw [hkey]; rfl))
        exact ⟨_, z, ⟨hexec, rfl, hz⟩, rfl, fun r hr => ⟨hst, hstatus.trans (Option.some.inj hr)⟩, nofun, nofun⟩
      | none =>
        cases htargets : s.dev.targetsOk m b with
        | false =>
          obtain ⟨z, hz, hst, hstatus⟩ := fails (hbad.trans (by rw [hkey, htargets]; rfl))
          exact ⟨_, z, ⟨hexec, rfl, hz⟩, rfl, nofun, fun _ _ => ⟨hst, hstatus⟩, fun _ h => absurd h Bool.false_ne_true⟩
        | true =>
          obtain ⟨g, htake, hshows⟩ := takeManifest_good hlow hat.shows hat.wl
            ((hat.bad b).trans (hbad.trans (by rw [hkey, htargets]; rfl))) hkind
          obtain ⟨r', z, hdone, hz, hsame⟩ := verifyDone_sameImage hlow hshows rfl
          obtain ⟨k, hk, hkw, -⟩ := hdone.gets hz
          have hkept : z.shards = wmKept b m.self := hsame.shards.trans (if_pos ((hat.targets b).trans htargets))
          rw [htake] at hexec
          exact ⟨_, z, ⟨hexec, rfl, k, hk, hkw⟩, rfl, nofun, fun _ h => absurd h.symm Bool.false_ne_true,
            fun _ _ => ⟨hkept, hsame.mani, hsame.vslot⟩⟩
  · obtain rfl := shard_id hx
    obtain ⟨hst, -⟩ := taking_state htaking
    have hst5 : w.state ≠ 5 := by omega
    obtain ⟨n, hn, -⟩ := streamed_shows hlow hr hw s.cave x.id bs
    obtain ⟨w1, hflow, has, hnet, -⟩ := flowed_shows hlow hr hw s.cave x.id bs
    refine ⟨fun hcave hawake hsrc => ⟨fun hlen hdigest hcanon => ?_, fun hlen hdigest => ?_⟩, fun hcave hattempt hbs => ?_,
      fun hattempt h6 hlate => ?_⟩
    · have hexec := exec_shardComplete_slice hm hw htaking hx hok hcave hsrc hlen ⟨n, hn⟩ (by rw [hnet.winAsleep, hlen]; exact hawake)
      rw [if_pos hdigest] at hexec
      obtain ⟨w2, has2, -, hland⟩ := shardLanded_shows hlow hr hw s.cave x bs
      have hx2 := landed_shard has2 hx s.dev.turn.now.toNat
      obtain ⟨r', z, hdone, hz, hsame⟩ := shardOk_sameImage hlow hland rfl (x := { x with arrived := true }) hx2
      obtain ⟨k, hk, hkw, -⟩ := hdone.gets hz
      refine ⟨_, z, ⟨hexec, rfl, k, hk, hkw⟩, written_of_wrBytes hcanon.1 rfl, ?_⟩
      exact (shard_of_shards hsame.shards x.id).trans
        (shard_setShard (x := { x with arrived := true }) (y := { x with arrived := true, ok := true }) hx2 rfl)
    · have hexec := exec_shardComplete_slice hm hw htaking hx hok hcave hsrc hlen ⟨n, hn⟩ (by rw [hnet.winAsleep, hlen]; exact hawake)
      rw [if_neg hdigest] at hexec
      obtain ⟨w2, has2, hturn, hland⟩ := shardLanded_shows hlow hr hw s.cave x bs
      have hstate : w2.state = w.state := (congrArg WLoad.state has2).trans rfl
      have hrepairs : w2.repairs = w.repairs := (congrArg WLoad.repairs has2).trans rfl
      obtain ⟨z, hz, hrest⟩ := shardFails_missed hlow hland rfl (x := { x with arrived := true }) (landed_shard has2 hx _)
        (show w2.state ≠ 5 by rw [hstate]; exact hst5) hrepairs (by rw [hturn]) 0x60 (t := { s with
          dev := (s.dev.shardLanded s.cave m w x bs).shardFails m.pmask x.id 0x60, mem := memAll s.mem (wrBytes x.target bs) }) rfl
      exact ⟨_, z, ⟨hexec, rfl, hz⟩, hrest⟩
    · have hexec := exec_shardComplete_cave hm hw htaking hx hok hcave hattempt hbs ⟨n, hn⟩
      have hpart : lowPart m.pmask = p := eq_of_beq (List.find?_some (p := fun m : Mould => lowPart m.pmask == p) hm)
      exact ⟨_, hexec, rfl, rfl, _, List.mem_append_right _ (List.mem_singleton.mpr rfl), by rw [hpart]⟩
    · have hexec := exec_shardAttemptTimeout hm hw htaking hx hok hattempt h6 hlate
      obtain ⟨z, hz, hrest⟩ := shardFails_missed hlow hr hw hx hst5 rfl rfl 0x61 (t := { s with dev := s.dev.shardFails m.pmask x.id 0x61 }) rfl
      exact ⟨_, z, ⟨hexec, rfl, hz⟩, hrest⟩
  · obtain ⟨hst, -⟩ := taking_state htaking
    have hexec := exec_weightLoadTimeout hm hw htaking hgone hlate
    obtain ⟨z, hz, hrest⟩ := shardFails_missed hlow hr hw hx (by omega) rfl rfl 0x61 (t := { s with dev := s.dev.shardFails m.pmask x.id 0x61 }) rfl
    exact ⟨_, z, ⟨hexec, rfl, hz⟩, hrest⟩
  · obtain ⟨hst, -⟩ := taking_state htaking
    obtain ⟨hends, hturn, -⟩ := streamEnded_shows hlow hr w
    have hmem : x ∈ w.shards.filter (fun y => !y.arrived && y.attempt == 0) := hgone ▸ List.mem_singleton.mpr rfl
    obtain ⟨hxmem, hfirst⟩ := List.mem_filter.mp hmem
    have hattempt : x.attempt = 0 := eq_of_beq (Bool.and_eq_true_iff.mp hfirst).2
    have hasks := (shardFails_asks hlow hends rfl hx (by omega) 0x61).1
    have hcave := digestCaves_none hasks rfl s.cave (caves_setShard (y := x.again (s.dev.streamEnded m w).turn.now.toNat) hcaves (hcaves x hxmem))
    have hexec := exec_weightEndMarker hm hw htaking hended hcaves
    rw [hgone, List.foldl_cons, List.foldl_nil, show Dev.digestCaves _ _ m.pmask = _ from hcave] at hexec
    obtain ⟨z, hz, hrest⟩ := shardFails_missed hlow hends rfl hx (show w.state ≠ 5 by omega) rfl (by rw [hturn]) 0x61
      (t := { s with dev := (s.dev.streamEnded m w).shardFails m.pmask x.id 0x61 }) rfl
    exact ⟨_, z, ⟨hexec, rfl, hz⟩, hrest⟩
  · obtain ⟨hends, hturn, hout⟩ := streamEnded_shows hlow hr w
    have hgone : w.shards.filter (fun y => !y.arrived && y.attempt == 0) = [] :=
      List.filter_eq_nil_iff.mpr fun y hy => by simp [(hall y hy).2]
    have hexec := exec_weightEndMarker hm hw htaking hended fun y hy => (hall y hy).1
    rw [hgone, List.foldl_nil, show Dev.digestCaves _ _ m.pmask = _ from digestCaves_none hends rfl s.cave fun y hy => (hall y hy).1] at hexec
    obtain ⟨k, hk, hkw, -⟩ := hends.gets rfl
    exact ⟨_, ⟨hexec, rfl, k, hk, hkw⟩, rfl, hout⟩

end Sys2Proof.Machine
